-- ==== Sys2Proof/Word.lean ====
section
/-! DEFINITION. The word types of the D880 (spec 00_scope R5: little-endian, bit 0 least significant). -/

namespace Sys2Proof

/-- One byte of memory. -/
abbrev Byte := BitVec 8
/-- A 32-bit instruction word or the 32-bit value of one lane of a vector register (R10, R22). -/
abbrev Word := BitVec 32
/-- A 64-bit uniform register, address or system register (R34, R164). -/
abbrev DWord := BitVec 64
/-- One bit for each of the 32 lanes of a group (R149, R150). -/
abbrev Mask := BitVec 32

/-- A finite table: pairs of a key and a value, keys strictly rising, no value equal to what an unlisted key
reads as. The operations that keep this form stand in Machine/Sparse.lean. -/
abbrev Table (α : Type) := List (Nat × α)

end Sys2Proof
end

