-- ==== Sys2Proof/Syntax.lean ====
section
/-! DEFINITION. The instructions and events of the D880 as syntax: operand kinds, packets of the fabric, and `Instr`,
one constructor for each row of spec/opcode_table.json (02 R31-R50). -/

namespace Sys2Proof

/-- A vector register name v0-v127 (R34). -/
abbrev VReg := Fin 128
/-- A uniform register name s0-s63 (R34). -/
abbrev SReg := Fin 64
/-- A lane predicate name p0-p7 (R34). -/
abbrev PReg := Fin 8
/-- A uniform predicate name q0-q7 (R34). -/
abbrev QReg := Fin 8
/-- A tile-slot name t0-t63 (R34). -/
abbrev TName := Fin 64

/-- The B operand of an LR word: BS = 0 names a vector register, BS = 1 a uniform register (R32). -/
inductive BOp where
  | v (r : VReg)
  | s (r : SReg)
  deriving DecidableEq, Repr

/-- The guard of a UR or UB member: none, or q0-q6 possibly negated (R33). -/
inductive QGuard where
  | always
  | on (q : Fin 7) (neg : Bool)
  deriving DecidableEq, Repr

/-- Integer compare conditions, codes 0 to 9 (R37). -/
inductive Cond where
  | eq | ne | lt | le | gt | ge | lo | ls | hi | hs
  deriving DecidableEq, Repr

/-- Float compare conditions, codes 0 to 9 (R37). -/
inductive FCond where
  | oeq | one | olt | ole | ogt | oge | ord | uno | ueq | une
  deriving DecidableEq, Repr

/-- Conditions of `ssetp`, codes 0 to 7 (R38). -/
inductive SCond where
  | eq | ne | lt | le | gt | ge | lo | hs
  deriving DecidableEq, Repr

/-- Access sizes, SZ codes 0 to 6 (R32, R268). -/
inductive Size where
  | x8 | s8 | x16 | s16 | b32 | b64 | b128
  deriving DecidableEq, Repr

/-- Memory scopes, codes 0 to 5 (R16). -/
inductive Scope where
  | grp | blk | clu | die | pkg | sys
  deriving DecidableEq, Repr

/-- Orders of an atomic, ORD codes 0 to 3 (R32). -/
inductive Ord where
  | rlx | acq | rel | ar
  deriving DecidableEq, Repr

/-- Operations of an atomic or reduction at a home slice (R276, R277). -/
inductive AtomOp where
  | add | min | max | minn | maxn | and | or | xor | exch | cas | fadd
  deriving DecidableEq, Repr

/-- What a remote access asks of the owning package (R351, R352). -/
inductive RemoteOp where
  | load
  | store
  | atomic (op : AtomOp)
  deriving DecidableEq, Repr

/-- What a fabric packet carries (11 R239-R242, 17 R351-R370). Identifiers name the sender's own records. -/
inductive PacketBody where
  /-- A remote register store; `fwd` marks the one hop from the home package to LOC (R240). `sender` tells the groups of
  the source package apart, `seq` numbers its packets to the name, `prev` is the deadline of the one before (R244). -/
  | rstv (id : Nat) (name : DWord) (t : VReg) (mask : Mask) (data : List Word) (sender seq prev : Nat) (fwd : Bool)
  /-- The one status of a remote register store (R242). -/
  | status (id : Nat) (code : Nat)
  /-- A transfer claim (R355, R356). -/
  | claim (id : Nat) (name : DWord) (doff len : Nat) (k : Fin 16)
  /-- HOME's answer to a claim: a status, and LOC when the status is DELIVERED (R356). -/
  | grant (id : Nat) (code : Nat) (loc : Nat)
  /-- A data packet of a transfer (R356); `bad` lists the offsets of poisoned words (R420). -/
  | xdata (id : Nat) (name : DWord) (doff : Nat) (k : Fin 16) (bytes : List Byte) (bad : List Nat)
  /-- The acknowledgement of a data packet (R356). -/
  | xack (id : Nat) (doff : Nat)
  /-- The end of a transfer, which ends its claim at HOME (R356). -/
  | xend (id : Nat) (name : DWord)
  /-- A remote access (R351): physical address, bytes, operand data. -/
  | request (id : Nat) (op : RemoteOp) (pa size : Nat) (data : List Byte)
  /-- Its response: 0 performed, 1 denied, 2 poisoned (R352, R354, R420). -/
  | response (id : Nat) (code : Nat) (data : List Byte)
  /-- FORM of a consist member (R361). -/
  | form (cid n : Nat) (digest : DWord) (rank : Nat) (flimit : Nat)
  /-- GONE (R361). -/
  | gone (cid : Nat) (rank : Nat)
  /-- A contribution piece (R365), `id` the sender's record; `poison` lists its poisoned 4-byte elements (R420). -/
  | piece (id cid epoch seq rank dest chunk idx : Nat) (bytes : List Byte) (poison : List Nat)
  /-- A result piece (R365). -/
  | result (id cid epoch seq rank dest chunk idx : Nat) (bytes : List Byte) (poison : List Nat)
  /-- The acknowledgement of a piece, result piece or notice, naming the sender's record (R365, R368). -/
  | ack (id : Nat)
  /-- A probe of an awaited member (R365). -/
  | probe (cid epoch seq rank dest : Nat)
  /-- Its answer: submitted or not yet (R365). -/
  | answer (cid epoch seq rank : Nat) (submitted : Bool)
  /-- An abort notice (R368). -/
  | notice (id : Nat) (cid epoch seq : Nat) (code failRank detRank : Nat) (stime : Nat) (dest : Nat)
  /-- A saved block in migration (R234). -/
  | migrate (block : Nat)
  /-- A child of a pod fork placed on another package (R309): the forking block, the child, its run, and what it runs with:
  numbers in the order of ForkOps.childSpec, the level indices and extents. -/
  | childRun (block idx run : Nat) (spec lidx lext : List Nat)
  /-- News of such a child (R309, R319, R320, R419): 0 it is lost, 1 an allocation failed, 2 it is no longer restartable, 3 it is
  discarded. -/
  | childNews (block idx run what : Nat)
  /-- Its end: the pages it wrote, by virtual page number and offset, and their poisoned sectors (R309, R314). -/
  | childEnd (block : Nat) (idx run : Nat) (pages : List (Nat × List (Nat × Byte))) (bad : List (Nat × Nat))
  /-- Such a child asks for bytes of a page that it has not written, as the forking block viewed it; `twin` says that it is about
  to write the page (R309, R311). -/
  | viewAsk (id block idx va n : Nat) (twin : Bool)
  /-- The part of a launch that its pod level places on another package: the accepting package, the launch there, its
  queue and index, and its record (10 R217; log 25). -/
  | launchShare (home key q idx : Nat) (record : List Byte)
  /-- Every block of that part has started, and triggered or retired (10 R211; log 25). -/
  | launchTrig (home key : Nat)
  /-- The launch ends with this status and cause (23 R417; log 25). -/
  | launchStop (home key status : Nat) (cause : BitVec 8)
  /-- That part has ended with this status and cause (10 R208; log 25). -/
  | launchEnd (home key status : Nat) (cause : BitVec 8)
  /-- A first block of that part has started (10 R208; log 25). -/
  | launchBegun (home key : Nat)
  /-- The part's unit of a co-resident instance that spans packages has its cores (10 R222; log 25). -/
  | launchReady (home key : Nat)
  /-- Every part has: the instance starts (10 R222; log 25). -/
  | launchGo (home key : Nat)
  /-- A block of that launch which moved to the sender has triggered, or retired (11 R234; log 25). -/
  | blockEnd (home key blin : Nat) (retired : Bool)
  /-- A block event at LOC for a name of another package: 1 resumed on a core, 2 saved at an address, 4 retired (11 R234). -/
  | nameEvent (name : DWord) (event core save : Nat)
  /-- `nameq` asks a name's home, and its answer (11 R235). -/
  | nameAsk (id : Nat) (name : DWord)
  | nameSays (id code : Nat)
  /-- The root of a chunk grants a member credit for its contribution (17 R365; log 26). -/
  | credit (id cid epoch seq rank dest chunk : Nat)
  /-- Contribution pieces of several ranks in one packet: record, rank, bytes and poisoned elements of each (17 R365). -/
  | pieces (cid epoch seq dest chunk idx : Nat) (rows : List (Nat × Nat × List Byte × List Nat))
  deriving DecidableEq, Repr

/-- A fabric packet: source and destination package, accessing owner, time stamp, deadline and contents (R349-R354), its set
of channels (0 P, 1 L, 2 B), and whether it comes back as LINK_DEAD (R349). -/
structure Packet where
  src : Nat
  dst : Nat
  owner : Nat
  stamp : Nat
  deadline : Nat
  body : PacketBody
  pset : Nat := 1
  dead : Bool := false
  deriving DecidableEq, Repr

/-- Blocks of a launch that follow one another: FIRST and COUNT of a bind record (R214). -/
structure BlinRange where
  first : Nat
  count : Nat
  deriving DecidableEq, Repr

/-- What the model keeps of the settings of a configuration image: the time slice in ns and the Sidings default in units of
4 GiB (R213, R430, R14). -/
structure Settings where
  slice : Nat
  sidings : Nat
  deriving DecidableEq, Repr

/-- One constructor for each row of the opcode table (02 R40-R50): first the rows that carry a word, then the
events of the part, whose operands name the unit and the choice that the outside or the firmware makes. -/
inductive Instr where
  /-- `IADD` (R86): Adds two 32-bit lane operands with wrapping. -/
  | iadd (d : VReg) (a : VReg) (b : BOp)
  /-- `IADD_IMM` (R86): Adds a sign-extended 8-bit immediate to a lane register with wrapping. -/
  | iaddImm (d : VReg) (a : VReg) (i : BitVec 8)
  /-- `ISUB` (R86): Subtracts two 32-bit lane operands with wrapping. -/
  | isub (d : VReg) (a : VReg) (b : BOp)
  /-- `ISUB_IMM` (R86): Subtracts a sign-extended immediate from a lane register with wrapping. -/
  | isubImm (d : VReg) (a : VReg) (i : BitVec 8)
  /-- `IADDS` (R86): Adds two signed 32-bit operands with saturation. -/
  | iadds (d : VReg) (a : VReg) (b : BOp)
  /-- `IADDS_IMM` (R86): Adds a sign-extended immediate with signed saturation. -/
  | iaddsImm (d : VReg) (a : VReg) (i : BitVec 8)
  /-- `IADDSN` (R86): Adds two unsigned 32-bit operands with unsigned saturation. -/
  | iaddsn (d : VReg) (a : VReg) (b : BOp)
  /-- `IADDSN_IMM` (R86): Adds a zero-extended immediate with unsigned saturation. -/
  | iaddsnImm (d : VReg) (a : VReg) (i : BitVec 8)
  /-- `IMUL` (R86): Writes the low 32 bits of the product of two lane operands. -/
  | imul (d : VReg) (a : VReg) (b : BOp)
  /-- `IMUL_IMM` (R86): Writes the low 32 bits of the product with a sign-extended immediate. -/
  | imulImm (d : VReg) (a : VReg) (i : BitVec 8)
  /-- `IMULH` (R86): Writes the high 32 bits of the signed product. -/
  | imulh (d : VReg) (a : VReg) (b : BOp)
  /-- `IMULHN` (R86): Writes the high 32 bits of the unsigned product. -/
  | imulhn (d : VReg) (a : VReg) (b : BOp)
  /-- `IMIN` (R86): Selects the signed minimum of two operands. -/
  | imin (d : VReg) (a : VReg) (b : BOp)
  /-- `IMIN_IMM` (R86): Selects the signed minimum with a sign-extended immediate. -/
  | iminImm (d : VReg) (a : VReg) (i : BitVec 8)
  /-- `IMAX` (R86): Selects the signed maximum of two operands. -/
  | imax (d : VReg) (a : VReg) (b : BOp)
  /-- `IMAX_IMM` (R86): Selects the signed maximum with a sign-extended immediate. -/
  | imaxImm (d : VReg) (a : VReg) (i : BitVec 8)
  /-- `IMINN` (R86): Selects the unsigned minimum of two operands. -/
  | iminn (d : VReg) (a : VReg) (b : BOp)
  /-- `IMINN_IMM` (R86): Selects the unsigned minimum with a zero-extended immediate. -/
  | iminnImm (d : VReg) (a : VReg) (i : BitVec 8)
  /-- `IMAXN` (R86): Selects the unsigned maximum of two operands. -/
  | imaxn (d : VReg) (a : VReg) (b : BOp)
  /-- `IMAXN_IMM` (R86): Selects the unsigned maximum with a zero-extended immediate. -/
  | imaxnImm (d : VReg) (a : VReg) (i : BitVec 8)
  /-- `IABSD` (R86): Writes the absolute difference of two signed operands. -/
  | iabsd (d : VReg) (a : VReg) (b : BOp)
  /-- `AND` (R86): Bitwise AND of two lane operands. -/
  | and (d : VReg) (a : VReg) (b : BOp)
  /-- `AND_IMM` (R86): Bitwise AND with a zero-extended immediate. -/
  | andImm (d : VReg) (a : VReg) (i : BitVec 8)
  /-- `OR` (R86): Bitwise OR of two lane operands. -/
  | or (d : VReg) (a : VReg) (b : BOp)
  /-- `OR_IMM` (R86): Bitwise OR with a zero-extended immediate. -/
  | orImm (d : VReg) (a : VReg) (i : BitVec 8)
  /-- `XOR` (R86): Bitwise XOR of two lane operands. -/
  | xor (d : VReg) (a : VReg) (b : BOp)
  /-- `XOR_IMM` (R86): Bitwise XOR with a zero-extended immediate. -/
  | xorImm (d : VReg) (a : VReg) (i : BitVec 8)
  /-- `ANDN` (R86): Bitwise AND of A with the complement of B. -/
  | andn (d : VReg) (a : VReg) (b : BOp)
  /-- `ANDN_IMM` (R86): Bitwise AND of A with the complement of a zero-extended immediate. -/
  | andnImm (d : VReg) (a : VReg) (i : BitVec 8)
  /-- `SHL` (R87): Shifts left by the full 32-bit count, giving zero at 32 or more. -/
  | shl (d : VReg) (a : VReg) (b : BOp)
  /-- `SHL_IMM` (R87): Shifts left by an immediate count. -/
  | shlImm (d : VReg) (a : VReg) (i : BitVec 8)
  /-- `SHR` (R87): Logical right shift by the full 32-bit count. -/
  | shr (d : VReg) (a : VReg) (b : BOp)
  /-- `SHR_IMM` (R87): Logical right shift by an immediate count. -/
  | shrImm (d : VReg) (a : VReg) (i : BitVec 8)
  /-- `SAR` (R87): Arithmetic right shift by the full 32-bit count. -/
  | sar (d : VReg) (a : VReg) (b : BOp)
  /-- `SAR_IMM` (R87): Arithmetic right shift by an immediate count. -/
  | sarImm (d : VReg) (a : VReg) (i : BitVec 8)
  /-- `ROTL` (R87): Rotates left by the count modulo 32. -/
  | rotl (d : VReg) (a : VReg) (b : BOp)
  /-- `ROTL_IMM` (R87): Rotates left by an immediate count modulo 32. -/
  | rotlImm (d : VReg) (a : VReg) (i : BitVec 8)
  /-- `POPC` (R88): Counts the one bits of a lane register. -/
  | popc (d : VReg) (a : VReg)
  /-- `CLZ` (R88): Counts the leading zero bits of a lane register. -/
  | clz (d : VReg) (a : VReg)
  /-- `CLZ_SGN` (R88): Counts the bits below bit 31 that equal the sign bit. -/
  | clzSgn (d : VReg) (a : VReg)
  /-- `BREV` (R88): Reverses the bit order of a lane register. -/
  | brev (d : VReg) (a : VReg)
  /-- `BFE` (R90): Extracts a sign-extended bitfield. -/
  | bfe (d : VReg) (a : VReg) (b : BOp)
  /-- `BFEN` (R90): Extracts a zero-extended bitfield. -/
  | bfen (d : VReg) (a : VReg) (b : BOp)
  /-- `BFI` (R90): Inserts a bitfield of A into D. -/
  | bfi (d : VReg) (a : VReg) (b : BOp)
  /-- `ICMP` (R91): Sets a lane predicate from an integer comparison. -/
  | icmp (c : Cond) (p : PReg) (a : VReg) (b : BOp)
  /-- `ICMP_IMM` (R91): Sets a lane predicate from a comparison with a sign-extended immediate. -/
  | icmpImm (c : Cond) (p : PReg) (a : VReg) (i : BitVec 8)
  /-- `FADD` (R106): FP32 addition rounded to nearest even. -/
  | fadd (d : VReg) (a : VReg) (b : BOp)
  /-- `FSUB` (R106): FP32 subtraction rounded to nearest even. -/
  | fsub (d : VReg) (a : VReg) (b : BOp)
  /-- `FMUL` (R106): FP32 multiplication rounded to nearest even. -/
  | fmul (d : VReg) (a : VReg) (b : BOp)
  /-- `FMIN` (R107): Selects the FP32 minimum without rounding. -/
  | fmin (d : VReg) (a : VReg) (b : BOp)
  /-- `FMAX` (R107): Selects the FP32 maximum without rounding. -/
  | fmax (d : VReg) (a : VReg) (b : BOp)
  /-- `FCMP` (R109): Sets a lane predicate from an FP32 comparison. -/
  | fcmp (c : FCond) (p : PReg) (a : VReg) (b : BOp)
  /-- `FABS` (R110): Clears bit 31. -/
  | fabs (d : VReg) (a : VReg)
  /-- `FABS_H2` (R110): Clears bits 31 and 15. -/
  | fabsH2 (d : VReg) (a : VReg)
  /-- `FABS_D` (R110): Clears the sign bit of an f64 pair. -/
  | fabsD (d : VReg) (a : VReg)
  /-- `FNEG` (R110): Inverts bit 31. -/
  | fneg (d : VReg) (a : VReg)
  /-- `FNEG_H2` (R110): Inverts bits 31 and 15. -/
  | fnegH2 (d : VReg) (a : VReg)
  /-- `FNEG_D` (R110): Inverts the sign bit of an f64 pair. -/
  | fnegD (d : VReg) (a : VReg)
  /-- `FRND` (R110): Rounds an f32 value to an integral value in mode FMT.RM. -/
  | frnd (d : VReg) (a : VReg)
  /-- `FRND_D` (R110): Rounds an f64 pair to an integral value in mode FMT.RM. -/
  | frndD (d : VReg) (a : VReg)
  /-- `FFMAD` (R108): Fused FP32 multiply-add into D with one rounding. -/
  | ffmad (d : VReg) (a : VReg) (b : BOp)
  /-- `FSCL` (R106): Scales an FP32 value by a power of two given as an integer. -/
  | fscl (d : VReg) (a : VReg) (b : BOp)
  /-- `HADD2` (R111): Adds two packed halves of the FMT.HK kind. -/
  | hadd2 (d : VReg) (a : VReg) (b : BOp)
  /-- `HMUL2` (R111): Multiplies two packed halves. -/
  | hmul2 (d : VReg) (a : VReg) (b : BOp)
  /-- `HFMAD2` (R111): Fused multiply-add on two packed halves into D. -/
  | hfmad2 (d : VReg) (a : VReg) (b : BOp)
  /-- `HMIN2` (R111): Packed-half minimum. -/
  | hmin2 (d : VReg) (a : VReg) (b : BOp)
  /-- `HMAX2` (R111): Packed-half maximum. -/
  | hmax2 (d : VReg) (a : VReg) (b : BOp)
  /-- `DADD` (R112): FP64 addition on register pairs. -/
  | dadd (d : VReg) (a : VReg) (b : BOp)
  /-- `DMUL` (R112): FP64 multiplication on register pairs. -/
  | dmul (d : VReg) (a : VReg) (b : BOp)
  /-- `DFMAD` (R112): FP64 fused multiply-add into the D pair. -/
  | dfmad (d : VReg) (a : VReg) (b : BOp)
  /-- `DCMP` (R112): Sets a lane predicate from an FP64 comparison. -/
  | dcmp (c : FCond) (p : PReg) (a : VReg) (b : BOp)
  /-- `MOV` (R88): Copies a lane register. -/
  | mov (d : VReg) (a : VReg)
  /-- `MOV_B64` (R88): Copies a 64-bit register pair. -/
  | movB64 (d : VReg) (a : VReg)
  /-- `MOVS` (R89): Copies the low word of a uniform register into every lane taking part. -/
  | movs (d : VReg) (b : SReg)
  /-- `FFMADC` (R108): Fused FP32 multiply-add with a separate addend register. -/
  | ffmadc (d : VReg) (a : VReg) (b : VReg) (c : Fin 32)
  /-- `IMULADD` (R92): Wrapping integer multiply-add. -/
  | imuladd (d : VReg) (a : VReg) (b : VReg) (c : Fin 32)
  /-- `VSEL` (R92): Selects A or B per lane by a predicate. -/
  | vsel (d : VReg) (a : VReg) (b : VReg) (n : Bool) (p : PReg)
  /-- `ITADD` (R92): Wrapping three-input integer add. -/
  | itadd (d : VReg) (a : VReg) (b : VReg) (c : Fin 32)
  /-- `MOVI` (R93): Writes a 16-bit immediate into one half of a lane register and zeroes the other half. -/
  | movi (d : VReg) (h : Bool) (i : BitVec 16)
  /-- `MOVK` (R93): Writes a 16-bit immediate into one half and keeps the other half. -/
  | movk (d : VReg) (h : Bool) (i : BitVec 16)
  /-- `MOVSX` (R93): Writes a sign-extended 16-bit immediate. -/
  | movsx (d : VReg) (i : BitVec 16)
  /-- `MOVH` (R93): Writes the f32 value of an f16 immediate. -/
  | movh (d : VReg) (i : BitVec 16)
  /-- `LD` (R272): Relaxed load of each taking-part lane from a global address. -/
  | ld (d : VReg) (a : VReg) (f : BitVec 5) (z : Size) (c : Bool)
  /-- `ST` (R273): Relaxed store of each taking-part lane to a global address. -/
  | st (d : VReg) (a : VReg) (f : BitVec 5) (z : Size) (c : Bool)
  /-- `LD_ACQ` (R272): Acquire load at a given scope. -/
  | ldAcq (d : VReg) (a : VReg) (s : Scope) (z : Size)
  /-- `ST_REL` (R273): Release store at a given scope. -/
  | stRel (d : VReg) (a : VReg) (s : Scope) (z : Size)
  /-- `LDS` (R272): Loads from the block's scratchpad. -/
  | lds (d : VReg) (a : VReg) (f : BitVec 5) (z : Size) (c : Bool)
  /-- `STS` (R273): Stores to the block's scratchpad. -/
  | sts (d : VReg) (a : VReg) (f : BitVec 5) (z : Size) (c : Bool)
  /-- `LDC` (R272): Loads through the constant cache. -/
  | ldc (d : VReg) (a : VReg) (f : BitVec 5) (z : Size) (c : Bool)
  /-- `LDRO` (R272): Loads through L1 as a read-only line. -/
  | ldro (d : VReg) (a : VReg) (f : BitVec 5) (z : Size) (c : Bool)
  /-- `ATOM_ADD` (R276): Atomic wrapping add at the home slice, returning the old value. -/
  | atomAdd (d : VReg) (a : VReg) (s : Scope) (o : Ord) (z : Bool)
  /-- `ATOM_MIN` (R276): Atomic signed minimum returning the old value. -/
  | atomMin (d : VReg) (a : VReg) (s : Scope) (o : Ord) (z : Bool)
  /-- `ATOM_MAX` (R276): Atomic signed maximum returning the old value. -/
  | atomMax (d : VReg) (a : VReg) (s : Scope) (o : Ord) (z : Bool)
  /-- `ATOM_MINN` (R276): Atomic unsigned minimum returning the old value. -/
  | atomMinn (d : VReg) (a : VReg) (s : Scope) (o : Ord) (z : Bool)
  /-- `ATOM_MAXN` (R276): Atomic unsigned maximum returning the old value. -/
  | atomMaxn (d : VReg) (a : VReg) (s : Scope) (o : Ord) (z : Bool)
  /-- `ATOM_AND` (R276): Atomic bitwise AND returning the old value. -/
  | atomAnd (d : VReg) (a : VReg) (s : Scope) (o : Ord) (z : Bool)
  /-- `ATOM_OR` (R276): Atomic bitwise OR returning the old value. -/
  | atomOr (d : VReg) (a : VReg) (s : Scope) (o : Ord) (z : Bool)
  /-- `ATOM_XOR` (R276): Atomic bitwise XOR returning the old value. -/
  | atomXor (d : VReg) (a : VReg) (s : Scope) (o : Ord) (z : Bool)
  /-- `ATOM_EXCH` (R276): Atomic exchange returning the old value. -/
  | atomExch (d : VReg) (a : VReg) (s : Scope) (o : Ord) (z : Bool)
  /-- `ATOM_CAS` (R276): Atomic compare-and-swap returning the old value. -/
  | atomCas (d : VReg) (a : VReg) (s : Scope) (o : Ord) (z : Bool)
  /-- `ATOM_FADD` (R276): Atomic FP32 add at the home slice returning the old value. -/
  | atomFadd (d : VReg) (a : VReg) (s : Scope) (o : Ord)
  /-- `RED_ADD` (R277): Wrapping add reduction without return. -/
  | redAdd (d : VReg) (a : VReg) (s : Scope) (o : Bool) (z : Bool)
  /-- `RED_FADD` (R277): FP32 add reduction without return. -/
  | redFadd (d : VReg) (a : VReg) (s : Scope) (o : Bool)
  /-- `RED_MIN` (R277): Signed minimum reduction without return. -/
  | redMin (d : VReg) (a : VReg) (s : Scope) (o : Bool) (z : Bool)
  /-- `RED_MAX` (R277): Signed maximum reduction without return. -/
  | redMax (d : VReg) (a : VReg) (s : Scope) (o : Bool) (z : Bool)
  /-- `RED_OR` (R277): Bitwise OR reduction without return. -/
  | redOr (d : VReg) (a : VReg) (s : Scope) (o : Bool) (z : Bool)
  /-- `ATOMS_ADD` (R278): Scratchpad atomic add returning the old value. -/
  | atomsAdd (d : VReg) (a : VReg) (s : Bool) (o : Ord)
  /-- `ATOMS_CAS` (R278): Scratchpad atomic compare-and-swap. -/
  | atomsCas (d : VReg) (a : VReg) (s : Bool) (o : Ord)
  /-- `ATOMS_EXCH` (R278): Scratchpad atomic exchange. -/
  | atomsExch (d : VReg) (a : VReg) (s : Bool) (o : Ord)
  /-- `ATOMS_FADD` (R278): Scratchpad atomic FP32 add. -/
  | atomsFadd (d : VReg) (a : VReg) (s : Bool) (o : Ord)
  /-- `PF` (R274): Starts a prefetch of the line of each lane's address, dropping faults. -/
  | pf (a : VReg) (f : BitVec 5) (z : Size) (c : Bool)
  /-- `ATOM_SC_ADD` (R279): Sequentially consistent atomic add ordered by ticket. -/
  | atomScAdd (d : VReg) (a : VReg) (s : Scope) (z : Bool)
  /-- `ATOM_SC_EXCH` (R279): Sequentially consistent atomic exchange ordered by ticket. -/
  | atomScExch (d : VReg) (a : VReg) (s : Scope) (z : Bool)
  /-- `ATOM_SC_CAS` (R279): Sequentially consistent atomic compare-and-swap ordered by ticket. -/
  | atomScCas (d : VReg) (a : VReg) (s : Scope) (z : Bool)
  /-- `LXG_AT` (R191): Reads vA from the lane given by vB. -/
  | lxgAt (d : VReg) (a : VReg) (b : VReg)
  /-- `LXG_BACK` (R191): Reads vA from lane L minus vB. -/
  | lxgBack (d : VReg) (a : VReg) (b : VReg)
  /-- `LXG_FWD` (R191): Reads vA from lane L plus vB. -/
  | lxgFwd (d : VReg) (a : VReg) (b : VReg)
  /-- `LXG_FLIP` (R191): Reads vA from lane L XOR vB. -/
  | lxgFlip (d : VReg) (a : VReg) (b : VReg)
  /-- `GPRED_ANY` (R192): ORs a predicate over the lanes taking part. -/
  | gpredAny (n : PReg) (x : Bool) (a : PReg)
  /-- `GPRED_ALL` (R192): ANDs a predicate over the lanes taking part. -/
  | gpredAll (n : PReg) (x : Bool) (a : PReg)
  /-- `GPRED_MASK` (R192): Gathers a predicate into a lane mask. -/
  | gpredMask (d : VReg) (x : Bool) (a : PReg)
  /-- `GPEER_EQ` (R192): Writes the mask of lanes holding an equal value. -/
  | gpeerEq (d : VReg) (a : VReg)
  /-- `GPEER_UNI` (R192): Tests whether all lanes taking part hold one value. -/
  | gpeerUni (d : VReg) (a : VReg)
  /-- `GRED_ADD` (R193): Wrapping sum over the lanes taking part. -/
  | gredAdd (d : VReg) (a : VReg)
  /-- `GRED_FADD` (R193): FP32 tree sum over lanes in lane order. -/
  | gredFadd (d : VReg) (a : VReg)
  /-- `GRED_MIN` (R193): Minimum over the lanes taking part in the selected kind. -/
  | gredMin (d : VReg) (a : VReg) (k : Fin 4)
  /-- `GRED_MAX` (R193): Maximum over the lanes taking part in the selected kind. -/
  | gredMax (d : VReg) (a : VReg) (k : Fin 4)
  /-- `GRED_AND` (R193): Bitwise AND over the lanes taking part. -/
  | gredAnd (d : VReg) (a : VReg)
  /-- `GRED_OR` (R193): Bitwise OR over the lanes taking part. -/
  | gredOr (d : VReg) (a : VReg)
  /-- `GSCAN_ADD` (R193): Inclusive wrapping prefix sum in lane order. -/
  | gscanAdd (d : VReg) (a : VReg)
  /-- `GSCAN_ADD_EXCL` (R193): Exclusive wrapping prefix sum in lane order. -/
  | gscanAddExcl (d : VReg) (a : VReg)
  /-- `GSCAN_FADD` (R193): Inclusive FP32 prefix sum in lane order. -/
  | gscanFadd (d : VReg) (a : VReg)
  /-- `GSCAN_FADD_EXCL` (R193): Exclusive FP32 prefix sum in lane order. -/
  | gscanFaddExcl (d : VReg) (a : VReg)
  /-- `RCP` (R113): Correctly rounded FP32 reciprocal. -/
  | rcp (d : VReg) (a : VReg)
  /-- `RSQ` (R113): Correctly rounded FP32 reciprocal square root. -/
  | rsq (d : VReg) (a : VReg)
  /-- `SQRT` (R113): Correctly rounded FP32 square root. -/
  | sqrt (d : VReg) (a : VReg)
  /-- `EX2` (R113): Correctly rounded FP32 power of two. -/
  | ex2 (d : VReg) (a : VReg)
  /-- `LG2` (R113): Correctly rounded FP32 base-2 logarithm. -/
  | lg2 (d : VReg) (a : VReg)
  /-- `SIN` (R113): Correctly rounded sine of an argument in turns. -/
  | sin (d : VReg) (a : VReg)
  /-- `COS` (R113): Correctly rounded cosine of an argument in turns. -/
  | cos (d : VReg) (a : VReg)
  /-- `TANH` (R113): Correctly rounded hyperbolic tangent. -/
  | tanh (d : VReg) (a : VReg)
  /-- `FDIV` (R114): Correctly rounded FP32 division. -/
  | fdiv (d : VReg) (a : VReg) (b : VReg)
  /-- `CVTF` (R117): Converts an integer of the named type to f32 in mode RM. -/
  | cvtf (d : VReg) (a : VReg) (t : Fin 8)
  /-- `CVTI` (R117): Converts f32 to the named integer type with saturation. -/
  | cvti (d : VReg) (a : VReg) (t : Fin 8)
  /-- `CVTH2` (R119): Packs two f32 values into two halves of the HK kind. -/
  | cvth2 (d : VReg) (a : VReg) (b : VReg)
  /-- `CVTB4` (R119): Packs four f32 values into bytes of the NF kind. -/
  | cvtb4 (d : VReg) (a : VReg)
  /-- `CVTB4_Q` (R119): Packs eight f32 values into 4-bit integers. -/
  | cvtb4Q (d : VReg) (a : VReg)
  /-- `UNPK` (R120): Widens one packed element to f32 exactly. -/
  | unpk (d : VReg) (a : VReg) (k : Fin 16) (e : Fin 8)
  /-- `CVTD_F32` (R118): Converts an f64 pair to f32 in mode RM. -/
  | cvtdF32 (d : VReg) (a : VReg)
  /-- `CVTD_F64` (R118): Converts f32 to an f64 pair exactly. -/
  | cvtdF64 (d : VReg) (a : VReg)
  /-- `CVTDF_I` (R118): Converts f64 to a 32- or 64-bit integer with saturation. -/
  | cvtdfI (d : VReg) (a : VReg) (t : Fin 4)
  /-- `CVTDF_F` (R118): Converts a 32- or 64-bit integer to f64. -/
  | cvtdfF (d : VReg) (a : VReg) (t : Fin 4)
  /-- `QNT` (R121): Quantises f32 to dpw8, splitting outliers into two codes. -/
  | qnt (d : VReg) (a : VReg)
  /-- `PLOP` (R94): Combines two lane predicates by and, or, xor or mov. -/
  | plop (d : PReg) (o : Fin 8) (x : Bool) (a : PReg) (y : Bool) (b : PReg)
  /-- `P2V` (R95): Writes p0-p7 of each lane into a vector register. -/
  | p2v (d : VReg)
  /-- `V2P` (R95): Sets a lane predicate from one bit of a vector register. -/
  | v2p (n : PReg) (a : VReg) (b : Fin 32)
  /-- `SYSV` (R194): Writes a lane-dependent value such as the lane index. -/
  | sysv (d : Fin 128) (b : Fin 128)
  /-- `VMASK` (R194): Writes a group mask such as the live or path mask. -/
  | vmask (d : Fin 128) (b : Fin 128)
  /-- `BR_DIV` (R179): Splits the slot's lanes by a predicate into two paths. -/
  | brDiv (p : PReg) (n : Bool) (o : BitVec 20)
  /-- `BMELD` (R183): Opens a melded region with two renamed paths in one slot. -/
  | bmeld (p : PReg) (n : Bool)
  /-- `EMELD` (R183): Closes the melded region at the end of its clause. -/
  | emeld
  /-- `REJOIN_SET` (R178): Pushes a rejoin frame expecting the slot's active lanes. -/
  | rejoinSet (o : BitVec 20)
  /-- `REJOIN` (R180): Lets a path arrive at its rejoin frame, completing it when all lanes arrived. -/
  | rejoin
  /-- `EXIT` (R199): Ends the lanes taking part. -/
  | exit
  /-- `HOLD` (R237): Declares the lanes that expect a remote delivery into a register. -/
  | hold (v : VReg)
  /-- `TRAP_P` (R200): Raises USER_TRAP for the lanes whose predicate is set. -/
  | trapP (p : PReg) (n : Bool) (c : BitVec 16)
  /-- `BPT` (R415): Raises BREAKPOINT for the lanes taking part. -/
  | bpt (c : BitVec 16)
  /-- `RSTV` (R239): Sends lane values to a register of the group named by a platform name. -/
  | rstv (d : VReg) (s : SReg) (t : VReg)
  /-- `COLL` (R363): Submits member ranks and buffers of a collective to the Turntables. -/
  | coll (p : VReg) (a : VReg) (s : SReg)
  /-- `SADD` (R97): 64-bit wrapping uniform add. -/
  | sadd (d : SReg) (a : SReg) (b : SReg) (g : QGuard)
  /-- `SADD_IMM` (R97): 64-bit wrapping uniform add of a sign-extended immediate. -/
  | saddImm (d : SReg) (a : SReg) (i : BitVec 10)
  /-- `SSUB` (R97): 64-bit wrapping uniform subtract. -/
  | ssub (d : SReg) (a : SReg) (b : SReg) (g : QGuard)
  /-- `SSUB_IMM` (R97): 64-bit wrapping uniform subtract of an immediate. -/
  | ssubImm (d : SReg) (a : SReg) (i : BitVec 10)
  /-- `SMUL` (R97): Low 64 bits of a uniform product. -/
  | smul (d : SReg) (a : SReg) (b : SReg) (g : QGuard)
  /-- `SMUL_IMM` (R97): Low 64 bits of a uniform product with an immediate. -/
  | smulImm (d : SReg) (a : SReg) (i : BitVec 10)
  /-- `SMULH` (R97): High 64 bits of a signed uniform product. -/
  | smulh (d : SReg) (a : SReg) (b : SReg) (g : QGuard)
  /-- `SMIN` (R97): Signed 64-bit uniform minimum. -/
  | smin (d : SReg) (a : SReg) (b : SReg) (g : QGuard)
  /-- `SMIN_IMM` (R97): Signed uniform minimum with an immediate. -/
  | sminImm (d : SReg) (a : SReg) (i : BitVec 10)
  /-- `SMAX` (R97): Signed 64-bit uniform maximum. -/
  | smax (d : SReg) (a : SReg) (b : SReg) (g : QGuard)
  /-- `SMAX_IMM` (R97): Signed uniform maximum with an immediate. -/
  | smaxImm (d : SReg) (a : SReg) (i : BitVec 10)
  /-- `SMINN` (R97): Unsigned 64-bit uniform minimum. -/
  | sminn (d : SReg) (a : SReg) (b : SReg) (g : QGuard)
  /-- `SMINN_IMM` (R97): Unsigned uniform minimum with an immediate. -/
  | sminnImm (d : SReg) (a : SReg) (i : BitVec 10)
  /-- `SMAXN` (R97): Unsigned 64-bit uniform maximum. -/
  | smaxn (d : SReg) (a : SReg) (b : SReg) (g : QGuard)
  /-- `SMAXN_IMM` (R97): Unsigned uniform maximum with an immediate. -/
  | smaxnImm (d : SReg) (a : SReg) (i : BitVec 10)
  /-- `SAND` (R97): Uniform bitwise AND. -/
  | sand (d : SReg) (a : SReg) (b : SReg) (g : QGuard)
  /-- `SAND_IMM` (R97): Uniform bitwise AND with an immediate. -/
  | sandImm (d : SReg) (a : SReg) (i : BitVec 10)
  /-- `SOR` (R97): Uniform bitwise OR. -/
  | sor (d : SReg) (a : SReg) (b : SReg) (g : QGuard)
  /-- `SOR_IMM` (R97): Uniform bitwise OR with an immediate. -/
  | sorImm (d : SReg) (a : SReg) (i : BitVec 10)
  /-- `SXOR` (R97): Uniform bitwise XOR. -/
  | sxor (d : SReg) (a : SReg) (b : SReg) (g : QGuard)
  /-- `SXOR_IMM` (R97): Uniform bitwise XOR with an immediate. -/
  | sxorImm (d : SReg) (a : SReg) (i : BitVec 10)
  /-- `SSHL` (R97): Uniform left shift. -/
  | sshl (d : SReg) (a : SReg) (b : SReg) (g : QGuard)
  /-- `SSHL_IMM` (R97): Uniform left shift by an immediate. -/
  | sshlImm (d : SReg) (a : SReg) (i : BitVec 10)
  /-- `SSHR` (R97): Uniform logical right shift. -/
  | sshr (d : SReg) (a : SReg) (b : SReg) (g : QGuard)
  /-- `SSHR_IMM` (R97): Uniform logical right shift by an immediate. -/
  | sshrImm (d : SReg) (a : SReg) (i : BitVec 10)
  /-- `SSAR` (R97): Uniform arithmetic right shift. -/
  | ssar (d : SReg) (a : SReg) (b : SReg) (g : QGuard)
  /-- `SSAR_IMM` (R97): Uniform arithmetic right shift by an immediate. -/
  | ssarImm (d : SReg) (a : SReg) (i : BitVec 10)
  /-- `SSETP` (R98): Sets a uniform predicate from a comparison of two s-registers. -/
  | ssetp (c : SCond) (q : QReg) (a : SReg) (b : SReg) (g : QGuard)
  /-- `SSETP_IMM` (R98): Sets a uniform predicate from a comparison with an immediate. -/
  | ssetpImm (c : SCond) (q : QReg) (a : SReg) (i : BitVec 10)
  /-- `SSEL` (R98): Selects one of two s-registers by a uniform predicate. -/
  | ssel (d : SReg) (a : SReg) (b : SReg) (q : QReg) (x : Bool)
  /-- `SMOV` (R99): Copies an s-register. -/
  | smov (d : SReg) (a : SReg) (g : QGuard)
  /-- `SPOPC` (R99): Counts the one bits of an s-register. -/
  | spopc (d : SReg) (a : SReg) (g : QGuard)
  /-- `SCLZ` (R99): Counts the leading zeros of an s-register. -/
  | sclz (d : SReg) (a : SReg) (g : QGuard)
  /-- `SADDW` (R97): Adds low words with 32-bit wrap and sign-extends. -/
  | saddw (d : SReg) (a : SReg) (b : SReg) (g : QGuard)
  /-- `SADDW_IMM` (R97): Adds an immediate with 32-bit wrap and sign-extends. -/
  | saddwImm (d : SReg) (a : SReg) (i : BitVec 10)
  /-- `SGETV` (R100): Reads the lowest active lane's vector register into an s-register. -/
  | sgetv (d : SReg) (a : SReg) (x : Bool) (g : QGuard)
  /-- `QLOP` (R101): Combines two uniform predicates. -/
  | qlop (d : QReg) (o : Fin 4) (x : Bool) (a : QReg) (y : Bool) (b : QReg) (g : QGuard)
  /-- `Q2S` (R101): Moves q0-q7 into an s-register. -/
  | q2s (d : SReg) (g : QGuard)
  /-- `S2Q` (R101): Sets q0-q7 from an s-register. -/
  | s2q (a : SReg) (g : QGuard)
  /-- `SMOVI` (R102): Writes a 16-bit immediate into one quarter of an s-register, zeroing the rest. -/
  | smovi (d : SReg) (h : Fin 4) (i : BitVec 16)
  /-- `SMOVK` (R102): Writes a 16-bit immediate into one quarter, keeping the rest. -/
  | smovk (d : SReg) (h : Fin 4) (i : BitVec 16)
  /-- `SMOVSX` (R102): Writes a sign-extended 16-bit immediate. -/
  | smovsx (d : SReg) (i : BitVec 16)
  /-- `SADR` (R102): Writes a clause address relative to the current clause. -/
  | sadr (d : SReg) (i : BitVec 16)
  /-- `BRA` (R175): Guarded uniform branch to a relative clause. -/
  | bra (g : QGuard) (o : BitVec 20)
  /-- `CALL` (R175): Guarded call that writes the return clause into s63. -/
  | call (g : QGuard) (o : BitVec 20)
  /-- `RET` (R175): Guarded branch to the clause in s63. -/
  | ret (g : QGuard)
  /-- `BRX` (R175): Guarded branch to the clause address in an s-register. -/
  | brx (g : QGuard) (x : SReg)
  /-- `LOOP` (R175): Decrements a counter and branches while it is nonzero. -/
  | loop (g : QGuard) (c : SReg) (o : BitVec 14)
  /-- `SLD_B64` (R282): Uniform relaxed 64-bit load. -/
  | sldB64 (d : SReg) (a : SReg) (o : BitVec 11)
  /-- `SLD_B32` (R282): Uniform relaxed 32-bit load, zero-extended. -/
  | sldB32 (d : SReg) (a : SReg) (o : BitVec 11)
  /-- `SST_B64` (R282): Uniform relaxed 64-bit store. -/
  | sstB64 (d : SReg) (a : SReg) (o : BitVec 11)
  /-- `SST_B32` (R282): Uniform relaxed 32-bit store. -/
  | sstB32 (d : SReg) (a : SReg) (o : BitVec 11)
  /-- `SLDC` (R282): Uniform load through the constant cache. -/
  | sldc (d : SReg) (a : SReg) (o : BitVec 11)
  /-- `SLDS` (R282): Uniform 64-bit scratchpad load. -/
  | slds (d : SReg) (a : SReg) (o : BitVec 11)
  /-- `SSTS` (R282): Uniform 64-bit scratchpad store. -/
  | ssts (d : SReg) (a : SReg) (o : BitVec 11)
  /-- `SATOM_ADD` (R282): Uniform 64-bit atomic add returning the old value. -/
  | satomAdd (d : SReg) (a : SReg)
  /-- `SATOM_CAS` (R282): Uniform 64-bit atomic compare-and-swap. -/
  | satomCas (d : SReg) (a : SReg)
  /-- `SATOM_EXCH` (R282): Uniform 64-bit atomic exchange. -/
  | satomExch (d : SReg) (a : SReg)
  /-- `SRD` (R413): Reads a system register into an s-register. -/
  | srd (d : SReg) (n : BitVec 16)
  /-- `SWR` (R413): Writes a system register from an s-register. -/
  | swr (s : SReg) (n : BitVec 16)
  /-- `FENCE_ACQ` (R292): Applies the acquire cache action at a scope. -/
  | fenceAcq (r : Fin 8) (s : Scope)
  /-- `FENCE_REL` (R292): Waits until earlier accesses in reach are performed at the scope. -/
  | fenceRel (r : Fin 8) (s : Scope)
  /-- `FENCE_AR` (R292): Release then acquire at a scope. -/
  | fenceAr (r : Fin 8) (s : Scope)
  /-- `FENCE_SC` (R292): Release, takes a ticket, then acquires. -/
  | fenceSc (r : Fin 8) (s : Scope)
  /-- `FENCE_LAYOUT` (R299): Makes record writes visible by invalidating layout-record caches in scope. -/
  | fenceLayout (s : Scope)
  /-- `ICINV` (R301): Makes code writes visible by invalidating instruction caches in scope. -/
  | icinv (s : Scope)
  /-- `FMTSET` (R81): Writes FMT from a 16-bit immediate. -/
  | fmtset (i : BitVec 16)
  /-- `FMTSETR` (R82): Writes FMT from an s-register. -/
  | fmtsetr (s : SReg)
  /-- `TRAP` (R414): Raises USER_TRAP for the issuing slot. -/
  | trap (c : BitVec 16)
  /-- `RFT` (R416): Returns from the trap handler, restoring the saved context. -/
  | rft
  /-- `YLD_DONE` (R226): Ends the handler's part in a pre-emption and stops the group. -/
  | yldDone
  /-- `YIELD` (R230): Gives the group the youngest age stamp of its partition. -/
  | yield
  /-- `TRIG` (R212): Marks the group as triggered for its dependants. -/
  | trig
  /-- `NAMEGET` (R235): Takes a platform name for the group. -/
  | nameget (d : SReg)
  /-- `NAMEPUT` (R235): Retires the group's platform name. -/
  | nameput
  /-- `NAMEQ` (R235): Queries the state of a platform name. -/
  | nameq (x : SReg)
  /-- `MMAP` (R186): Installs up to four renaming entries into a path's table. -/
  | mmap (s : SReg) (p : Bool)
  /-- `MCLR` (R186): Resets the selected renaming tables to the identity. -/
  | mclr (x : Fin 4)
  /-- `SETMM` (R190): Sets the member mask MM. -/
  | setmm (s : SReg)
  /-- `OBJ_READ` (R255): Declares a READ coherence object over a record's span. -/
  | objRead (s : SReg) (p : QReg)
  /-- `OBJ_PRIV` (R255): Declares a PRIVATE coherence object over a record's span. -/
  | objPriv (s : SReg) (p : QReg)
  /-- `OBJREL` (R256): Writes back an object's dirty sectors and releases it. -/
  | objrel (s : SReg)
  /-- `BAR_ARR` (R196): Arrives at a named barrier. -/
  | barArr (n : Fin 16)
  /-- `BAR_WAIT` (R196): Waits for the phase of the group's last arrival to complete. -/
  | barWait (n : Fin 16)
  /-- `BAR_SYNC` (R196): Arrives at and waits on a named barrier. -/
  | barSync (n : Fin 16)
  /-- `BAR_INIT` (R196): Sets EXPECT and clears a named barrier's arrivals and byte count. -/
  | barInit (e : SReg) (n : Fin 16)
  /-- `BAR_EXPECT` (R196): Adds expected bytes to a barrier's PENDING. -/
  | barExpect (b : SReg) (n : Fin 16)
  /-- `CPY_SLICE` (R332): Issues one slice of a copy job from a job card. -/
  | cpySlice (c : SReg) (x : SReg) (n : Fin 16)
  /-- `CPYX_SLICE` (R335): Issues one slice of a convolution-gather copy job. -/
  | cpyxSlice (c : SReg) (x : SReg) (n : Fin 16)
  /-- `MCST` (R344): Issues a multicast job into every registered landing buffer of a channel. -/
  | mcst (c : SReg) (h : SReg) (n : Fin 16)
  /-- `LBUF_REG` (R342): Registers the block's landing buffer on a multicast channel. -/
  | lbufReg (h : SReg) (l : SReg) (n : Fin 16)
  /-- `LBUF_FREE` (R343): Signals the landing buffer free for the next delivery. -/
  | lbufFree (h : SReg)
  /-- `LBUF_DROP` (R343): Removes the block's membership of a channel after any delivery ends. -/
  | lbufDrop (h : SReg)
  /-- `FXFER` (R355): Starts a bulk transfer into the scratchpad of a named block. -/
  | fxfer (n : SReg) (a : SReg) (x : SReg) (k : Fin 16)
  /-- `ARRC_SET` (R357): Sets, clears or consumes an arrival counter. -/
  | arrcSet (v : SReg) (k : Fin 16)
  /-- `ARRC_WAIT` (R357): Waits until an arrival counter reaches its target. -/
  | arrcWait (k : Fin 16)
  /-- `COLL_FORM` (R360): Forms a consist and waits for the formation status. -/
  | collForm (d : SReg) (r : SReg)
  /-- `COLL_WAIT` (R367): Waits for a collective to end and writes its status and STIME. -/
  | collWait (d : SReg) (c : SReg)
  /-- `COLL_ABORT` (R369): Aborts a collective at every member with ABORT_REQUESTED. -/
  | collAbort (c : SReg)
  /-- `COLL_REFORM` (R360): Re-forms or dissolves a consist. -/
  | collReform (d : SReg) (r : SReg)
  /-- `FORK` (R308): Opens a fork of child blocks from a fork record. -/
  | fork (r : SReg)
  /-- `JOINW` (R316): Waits for the block's fork to be joined and writes the join status. -/
  | joinw (d : SReg)
  /-- `VATTR_Q` (R322): Reports the view attributes of a page. -/
  | vattrQ (d : SReg) (a : SReg)
  /-- `VATTR_RSV` (R322): Makes a page's first-write allocations and reports its view attributes. -/
  | vattrRsv (d : SReg) (a : SReg)
  /-- `MX_START` (R125): Starts the block's matrix stream. -/
  | mxStart (e : SReg) (x : SReg) (y : SReg)
  /-- `MBAR_ARR` (R198): Group arrival at a matrix barrier. -/
  | mbarArr (n : Fin 8)
  /-- `MBAR_WAIT` (R198): Group wait on a matrix barrier phase. -/
  | mbarWait (n : Fin 8)
  /-- `MXACQ` (R129): Requests a home or neighbour engine reservation. -/
  | mxacq (p : Fin 4) (e : Fin 4) (h : Bool)
  /-- `MXREL` (R129): Gives up the reservation and releases every claimed slot. -/
  | mxrel
  /-- `TCLM` (R132): Claims tile-slot names if enough physical slots are free. -/
  | tclm (p : Fin 4) (n : TName) (c : Fin 64)
  /-- `TREL` (R132): Releases tile-slot names. -/
  | trel (n : TName) (c : Fin 64)
  /-- `TLD` (R135): Fills a slot from a tensor through a layout record, dense. -/
  | tld (n : TName) (l : Fin 16) (c : Fin 16)
  /-- `TLD_SP` (R135): Fills a slot with a compressed N-of-64 operand. -/
  | tldSp (n : TName) (l : Fin 16) (c : Fin 16)
  /-- `MMA` (R136): Multiplies two slots into an accumulator tile in fixed chunk order. -/
  | mma (d : Fin 32) (a : TName) (b : TName)
  /-- `MMAS` (R137): Multiplies a compressed slot by two dense slots into an accumulator. -/
  | mmas (d : Fin 32) (a : TName) (b : TName)
  /-- `ACCZ` (R139): Zeroes accumulator tiles. -/
  | accz (d : Fin 32) (n : Fin 32)
  /-- `ACCST` (R140): Stores an accumulator tile through a layout record. -/
  | accst (d : Fin 32) (l : Fin 16) (c : Fin 16)
  /-- `ACCLD` (R140): Loads an accumulator tile through a layout record. -/
  | accld (d : Fin 32) (l : Fin 16) (c : Fin 16)
  /-- `MFMT` (R133): Sets the matrix format MF. -/
  | mfmt (e : BitVec 7) (f : BitVec 7) (b : Fin 16) (a : Fin 16)
  /-- `DMAP` (R138): Attaches a duplication map to a dpw8 slot. -/
  | dmap (n : TName) (a : Fin 16)
  /-- `MXBAR_ARR` (R127): Sequencer arrival at a matrix barrier after earlier writes are performed. -/
  | mxbarArr (n : Fin 8)
  /-- `MXBAR_WAIT` (R127): Sequencer wait for the phase of its last arrival. -/
  | mxbarWait (n : Fin 8)
  /-- `KMOVI` (R141): Writes an immediate into a sequencer register. -/
  | kmovi (d : Fin 16) (h : Fin 4) (i : BitVec 16)
  /-- `KADD` (R141): Adds a 13-bit immediate to a sequencer register. -/
  | kadd (d : Fin 16) (a : Fin 16) (i : BitVec 13)
  /-- `KADD_REG` (R141): Adds two sequencer registers. -/
  | kaddReg (d : Fin 16) (a : Fin 16) (b : Fin 16)
  /-- `KBRA_KQ` (R142): Stream branch taken when a sequencer predicate is 1. -/
  | kbraKq (p : Fin 4) (o : BitVec 16)
  /-- `KBRA_NKQ` (R142): Stream branch taken when a sequencer predicate is 0. -/
  | kbraNkq (p : Fin 4) (o : BitVec 16)
  /-- `KBRA` (R142): Unconditional stream branch. -/
  | kbra (o : BitVec 16)
  /-- `KBRA_DEC` (R142): Decrements a sequencer register and branches while nonzero. -/
  | kbraDec (d : Fin 16) (o : BitVec 16)
  /-- `MEND` (R143): Ends the stream after earlier writes are performed. -/
  | mend
  /-- `CLAUSE_ISSUE` (R27): A clause issues once every flag in its WAIT field reads zero, after header and meld checks. -/
  | clauseIssue
  /-- `CANDIDATE_URGENT` (R162): A ready candidate denied for three consecutive clocks becomes urgent. -/
  | candidateUrgent
  /-- `COUNTED_OP_COMPLETE` (R26): A long-latency operation writes its destination and decrements its SETA flag. -/
  | countedOpComplete (k : Nat)
  /-- `MEMORY_ACK` (R26): A memory side or engine acknowledgement arrives and decrements the SETB flag. -/
  | memoryAck (k : Nat)
  /-- `TRAP_ENTRY` (R408): After counted operations complete, the trap context is saved and the handler entered. -/
  | trapEntry
  /-- `TERMINATION_RECORD` (R418): A termination record is written into a slot of the fault ring. -/
  | terminationRecord (fn : Nat)
  /-- `GROUP_END` (R199): After its last lane exits and every issued operation completes, the group ends. -/
  | groupEnd
  /-- `BLOCK_RETIRE` (R126): A block retires when every group has exited and RUN is 0. -/
  | blockRetire (b : Nat)
  /-- `MATRIX_RESTORE_SLOTS` (R148): A resumed context's claimed slots are restored once the engine has room. -/
  | matrixRestoreSlots (b : Nat)
  /-- `QKICK` (R205): Writing QKICK sets the queue's write index or stops it on overrun. -/
  | qkick (fn : Nat) (q : Nat) (w : DWord)
  /-- `QUEUE_ENTRY_READ` (R205): The queue reads the entry at RIDX, checks its stamp and kind, and accepts it. -/
  | queueEntryRead (fn : Nat) (q : Nat)
  /-- `QUEUE_DRAIN_RESUME` (R204): After a DRAIN entry, reading resumes once earlier launches have completed. -/
  | queueDrainResume (fn : Nat) (q : Nat)
  /-- `QRESTART` (R206): Writing QRESTART restarts a stopped queue at an index not behind RIDX. -/
  | qrestart (fn : Nat) (q : Nat) (w : DWord)
  /-- `QCFG_ENABLE` (R202): Setting QCFG.EN enables the queue with both indices zero. -/
  | qcfgEnable (fn : Nat) (q : Nat) (w : DWord)
  /-- `QCFG_DISABLE` (R202): Clearing QCFG.EN disables the queue and cancels launches not started. -/
  | qcfgDisable (fn : Nat) (q : Nat) (w : DWord)
  /-- `LAUNCH_BIND` (R213): Signal Box binds an accepted launch whose dependences have triggered. -/
  | launchBind (l : Nat) (e : Nat) (lev : Nat) (record : Nat) (blins : BlinRange) (clusters : BitVec 96)
  /-- `CLUSTER_CLAIM` (R218): A cluster dispatcher claims up to 8 blocks and allocates their save areas. -/
  | clusterClaim (cl : Nat) (e : Nat) (n : Nat)
  /-- `BLOCK_PLACE` (R218): A claimed block is placed on a core where the residency limits hold. -/
  | blockPlace (b : Nat) (core : Nat)
  /-- `WORK_DONATION` (R220): An idle dispatcher takes half of a busy cluster's unstarted blocks. -/
  | workDonation (thief : Nat) (victim : Nat) (e : Nat)
  /-- `DONATED_BLOCK_ARRIVAL` (R220): A donated block arrives at the thief, or returns to the victim on failure. -/
  | donatedBlockArrival (b : Nat) (ok : Bool)
  /-- `LAUNCH_COMPLETE` (R208): The completion word is written with time stamp and status as a release. -/
  | launchComplete (l : Nat)
  /-- `EPRIO_AGING` (R216): Each 10 ms of waiting raises a bind record's effective priority. -/
  | eprioAging (e : Nat)
  /-- `TIME_SLICE_EXPIRY` (R213): A block resident beyond the time slice may be pre-empted. -/
  | timeSliceExpiry (b : Nat)
  /-- `PREEMPT_REQUEST` (R225): A pre-emption request starts the watchdog and traps each group PREEMPT. -/
  | preemptRequest (b : Nat) (reason : Fin 8)
  /-- `WATCHDOG_EXPIRY` (R226): On watchdog expiry every running group stops and the block is saved whole. -/
  | watchdogExpiry (b : Nat)
  /-- `BLOCK_SAVE` (R226): When every group has yielded or exited, the block context is saved. -/
  | blockSave (b : Nat)
  /-- `BLOCK_RESUME` (R229): A saved block is restored on a core within its domain instance. -/
  | blockResume (b : Nat) (core : Nat)
  /-- `PARKING_EVICTION` (R223): A parked block is evicted so an unstarted block of its launch can fit. -/
  | parkingEviction (b : Nat)
  /-- `SAVEPOOL_TIMEOUT` (R223): After 1 ms without a save area, the launch ends SAVEPOOL_EXHAUSTED. -/
  | savepoolTimeout (l : Nat)
  /-- `MIGRATION_COMPLETE` (R234): A moving save area is placed on the new package and deferred deliveries are forwarded. -/
  | migrationComplete (b : Nat) (save : Nat)
  /-- `MIGRATION_ABANDON` (R234): An abandoned migration returns the entry to SAVED and forwards deferred deliveries. -/
  | migrationAbandon (b : Nat)
  /-- `RSTV_HOME_CHECK` (R240): A remote-store packet is checked at the home package's platform table. -/
  | rstvHomeCheck (k : Nat)
  /-- `RSTV_APPLY` (R240): A forwarded packet is applied at LOC into the register file or save area. -/
  | rstvApply (k : Nat)
  /-- `RSTV_STATUS` (R242): A packet status returns to the sender and is counted in RSSTAT. -/
  | rstvStatus (k : Nat)
  /-- `RSTV_TIMEOUT` (R242): A packet not answered by its deadline ends with TIMEOUT. -/
  | rstvTimeout (id : Nat)
  /-- `FXFER_CLAIM` (R356): A transfer claim is checked at the target's home package. -/
  | fxferClaim (k : Nat)
  /-- `FXFER_DATA_PACKET` (R356): A transfer data packet is written into the target scratchpad and counted. -/
  | fxferDataPacket (k : Nat)
  /-- `FXFER_STATUS` (R356): The transfer's single status returns to the sender. -/
  | fxferStatus (id : Nat)
  /-- `REMOTE_REQUEST_ARRIVE` (R352): A remote access is checked against the range table and performed or denied. -/
  | remoteRequestArrive (k : Nat)
  /-- `REMOTE_RESPONSE_ARRIVE` (R354): A remote response arrives at the source, or is discarded if late. -/
  | remoteResponseArrive (k : Nat)
  /-- `REMOTE_DEADLINE_EXPIRY` (R354): A remote request passing its deadline ends as timed out. -/
  | remoteDeadlineExpiry (id : Nat)
  /-- `FABRIC_PACKET_ARRIVE` (R349): A packet is accepted, forwarded on the next hop channel, or discarded. -/
  | fabricPacketArrive (p : Packet) (budget : Nat) (hop : Nat)
  /-- `PINNED_PACKET_RETURNED` (R349): A pinned packet meeting a dead port returns as LINK_DEAD to its source. -/
  | pinnedPacketReturned (p : Packet)
  /-- `LINK_REPLAY` (R347): A flit with a CRC error or missing acknowledgement is resent. -/
  | linkReplay (port : Fin 16)
  /-- `LINK_RETRAIN` (R347): After 8 failed replays the link retrains. -/
  | linkRetrain (port : Fin 16)
  /-- `LINK_DEATH` (R347): A link not retrained 10 µs after its first failed replay is declared dead. -/
  | linkDeath (port : Fin 16)
  /-- `LINKEN` (R429): A management command retrains a dead link. -/
  | linken (port : Fin 16)
  /-- `DIRTY_SECTOR_TIMEOUT` (R291): A sector dirty for 50 µs is written back to its home. -/
  | dirtySectorTimeout (cl : Nat) (sector : Nat)
  /-- `COPY_JOB_EXECUTE` (R334): A copy engine performs a job's reads, conversions and writes. -/
  | copyJobExecute (j : Nat)
  /-- `MULTICAST_SEND` (R344): Once every member is free or revoked, a multicast writes every landing buffer. -/
  | multicastSend (j : Nat)
  /-- `CHILD_START` (R309): A fork child is dispatched within its fork's domain instance. -/
  | childStart (b : Nat) (i : Nat) (core : Nat)
  /-- `CHILD_MERGE` (R314): A Junction engine merges an ended child's pages into the parent view in index order. -/
  | childMerge (b : Nat)
  /-- `FORM_ARRIVE` (R361): A FORM message arrives and may complete formation of a consist. -/
  | formArrive (k : Nat)
  /-- `FORMATION_LIMIT_EXPIRY` (R361): FLIMIT passes and the forming consist ends with LIMIT. -/
  | formationLimitExpiry (die : Nat) (cid : Nat)
  /-- `CONSIST_GONE` (R361): A GONE message frees a consist at a member. -/
  | consistGone (k : Nat)
  /-- `COLL_PIECE_ARRIVE` (R365): A contribution piece reaches a root, is added once, and tree nodes are formed. -/
  | collPieceArrive (k : Nat)
  /-- `COLL_RESULT_ARRIVE` (R365): A result piece is written into a member's buffer once. -/
  | collResultArrive (k : Nat)
  /-- `COLL_RETRANSMIT` (R365): An unacknowledged piece is resent every DL/4 until its deadline. -/
  | collRetransmit (id : Nat)
  /-- `COLL_PROBE` (R365): A member waiting a whole DL probes each member it awaits. -/
  | collProbe (c : Nat)
  /-- `COLL_NOTICE_ARRIVE` (R368): An abort notice ends the collective with its status and breaks the consist. -/
  | collNoticeArrive (k : Nat)
  /-- `COLL_LIMIT_EXPIRY` (R368): LIMIT passes without the collective ending and it aborts ABORT_TIMEOUT. -/
  | collLimitExpiry (c : Nat)
  /-- `FQREPLY_RETRY` (R388): A RETRY reply makes every party of the tag retranslate and replay. -/
  | fqreplyRetry (fn : Nat) (tag : Nat)
  /-- `FQREPLY_FAIL` (R388): A FAIL reply gives every party of the tag its non-replayable cause. -/
  | fqreplyFail (fn : Nat) (tag : Nat)
  /-- `FQCFG_ENABLE` (R388): Setting FQCFG.EN enables the fault queue with zero indices. -/
  | fqcfgEnable (fn : Nat) (w : DWord)
  /-- `FQCFG_DISABLE` (R388): Clearing FQCFG.EN fails waiting faults and drops waiting records. -/
  | fqcfgDisable (fn : Nat) (w : DWord)
  /-- `FAULT_RECORD_POST` (R388): A fault record is written, FQWIDX advanced and the vector raised. -/
  | faultRecordPost (fn : Nat)
  /-- `FAULT_TIMEOUT` (R388): A fault waiting for a slot or reply for FQTO is treated as FAIL. -/
  | faultTimeout (fn : Nat) (tag : Nat)
  /-- `OCMD_CREATE` (R391): Creates an owner, drawing its nonce and setting ROOT and REPLAY. -/
  | ocmdCreate (fn : Nat) (w : DWord)
  /-- `OCMD_DESTROY` (R391): Destroys an owner, discarding its cached lines and translations. -/
  | ocmdDestroy (fn : Nat) (w : DWord)
  /-- `OCMD_INVAL` (R391): Invalidates an owner's cached translations over a range. -/
  | ocmdInval (fn : Nat) (w : DWord)
  /-- `OWNER_COMMAND_END` (R391): An owner command ends and writes OSTAT done or error. -/
  | ownerCommandEnd (fn : Nat)
  /-- `PSETUP` (R394): Writing PSETUP submits a partition record for acceptance. -/
  | psetup (w : DWord)
  /-- `PTEAR` (R394): Writing PTEAR tears a partition down. -/
  | ptear (w : DWord)
  /-- `HOCTL_H2D` (R397): Starts a host-to-device handover over a range. -/
  | hoctlH2d (fn : Nat) (w : DWord)
  /-- `HOCTL_D2H` (R397): Starts a device-to-host handover over a range. -/
  | hoctlD2h (fn : Nat) (w : DWord)
  /-- `HANDOVER_END` (R397): A handover writes its status word as a system release. -/
  | handoverEnd (fn : Nat)
  /-- `AREQ_REPORT` (R403): Writes a signed attestation report into the buffer. -/
  | areqReport (fn : Nat) (w : DWord)
  /-- `AREQ_CERTIFICATE` (R403): Writes the identity certificate into the buffer. -/
  | areqCertificate (fn : Nat) (w : DWord)
  /-- `RTINV` (R400): Drops cached range entries for a source package or all. -/
  | rtinv (fn : Nat) (w : DWord)
  /-- `BAR2_READ` (R396): A host read through BAR2 at the home slice under HKEY. -/
  | bar2Read (fn : Nat) (off : Nat) (n : Nat)
  /-- `BAR2_WRITE` (R396): A host posted write through BAR2 at the home slice under HKEY. -/
  | bar2Write (fn : Nat) (off : Nat) (bytes : List Byte)
  /-- `MSIX_UNMASK` (R438): Unmasking a pending vector sends its message and clears the bit. -/
  | msixUnmask (fn : Nat) (v : Nat)
  /-- `REGISTER_WRITE` (R6): A write to a register without its own row updates its fields by access code. -/
  | registerWrite (fn : Nat) (off : Nat) (w : DWord)
  /-- `MONITOR_START` (R425): Writing RUN 1 clears and starts a monitor capture. -/
  | monitorStart (u : Nat) (w : DWord)
  /-- `MONITOR_STOP` (R425): Writing RUN 0 stops a monitor capture. -/
  | monitorStop (u : Nat) (w : DWord)
  /-- `MONITOR_SAMPLE` (R425): Each sample updates MIN, MAX, COUNT, SUM and a histogram bin. -/
  | monitorSample (u : Nat) (x : Nat)
  /-- `ISLAND_EVALUATION` (R426): Every 50 µs the health hart steps island clocks by power and temperature. -/
  | islandEvaluation (hotPower : Bool) (cold : Bool) (powers : List Nat) (temps : List Nat) (supply : Bool)
  /-- `CORRECTED_ERROR_REPORT` (R428): Corrected errors of a unit are posted once per 1 ms. -/
  | correctedErrorReport (u : Nat) (n : Nat)
  /-- `WARM_RESET` (R423): Package warm reset ends all on-die state and reboots Signal Box. -/
  | warmReset
  /-- `COLD_RESET` (R423): Power reset ends everything but flash. -/
  | coldReset
  /-- `PF_FLR` (R423): Function-level reset of the physical function tears down every partition. -/
  | pfFlr
  /-- `VF_FLR` (R423): Function-level reset of a virtual function tears down its partition. -/
  | vfFlr (f : Nat)
  /-- `IMAGE_WRITE` (R430): A management write places an image into a flash slot. -/
  | imageWrite (img : Fin 3) (slot : Bool) (version : Nat) (digest : BitVec 512) (sig : Nat) (sets : Settings)
  /-- `MIGRATION_BEGIN` (R234): Signal Box begins moving a SAVED block to another package and its platform entries become MOVING. -/
  | migrationBegin (b : Nat) (pkg : Nat)
  /-- `LINK_RETRAIN_COMPLETE` (R347): A retraining link, or one re-enabled by LINKEN, finishes training, sets LIVE and resumes its queued packets. -/
  | linkRetrainComplete (port : Fin 16) (ok : Bool)
  /-- `COLL_PIECE_DEADLINE` (R368): A collective piece passes its deadline unacknowledged, or a probe fails, and the member aborts with ABORT_TIMEOUT. -/
  | collPieceDeadline (c : Nat) (rank : Nat)
  /-- `NOTICE_RESEND` (R368): An unacknowledged abort notice is resent every DL/4 of FDL3 until it is acknowledged or its deadline passes. -/
  | noticeResend (id : Nat)
  /-- `PARTITION_COMMAND_END` (R394): A partition set-up or teardown finishes and PSTAT moves from busy to done or refused. -/
  | partitionCommandEnd
  deriving DecidableEq, Repr

end Sys2Proof
end

