-- ==== Sys2Proof/WellFormed.lean ====
section
/-! DEFINITION. Well-formedness: the field rules of 02 R35-R49 and of each chapter that the types of Instr do not
hold, with the decode-time trap each gives (R51); and the registers an instruction names, for the allocation check. -/

namespace Sys2Proof

/-- The two decode-time traps of an instruction word (R51 point 3). -/
inductive DecodeError where
  | illegalInstruction
  | illegalOperand
  deriving DecidableEq, Repr

/-- An even register, as a pair needs (R35). -/
def evenReg (r : VReg) : Bool := r.val % 2 == 0
/-- A register that is a multiple of 4, as a quad needs (R268). -/
def quadReg (r : VReg) : Bool := r.val % 4 == 0
/-- A B operand read as a pair (R32, R35). -/
def BOp.pairOk : BOp → Bool
  | .v r => evenReg r
  | .s _ => true

/-- Register-width rule of the data register for a size (R268). -/
def Size.regOk (z : Size) (d : VReg) : Bool :=
  match z with
  | .b64 => evenReg d
  | .b128 => quadReg d
  | _ => true

/-- The sizes a store accepts (R268, R273). -/
def Size.storable : Size → Bool
  | .s8 => false
  | .s16 => false
  | _ => true

/-- A 32- or 64-bit atomic's data register (R276); `wide` is `b64`. -/
def atomReg (wide : Bool) (d : VReg) : Bool := !wide || evenReg d
/-- The compare and new values of `atom.cas` (R276). -/
def casReg (wide : Bool) (d : VReg) : Bool := if wide then quadReg d else evenReg d

/-- The system-register numbers that R165, R167, R169 and R410 assign. -/
def sysRegAssigned (n : Nat) : Bool :=
  n ≤ 0x00B || (0x010 ≤ n && n ≤ 0x01F) || (0x100 ≤ n && n ≤ 0x106) || n == 0x118 || (0x200 ≤ n && n ≤ 0x210)

/-- ILLEGAL_OPERAND unless the condition holds. -/
def operandIf (b : Bool) : Option DecodeError := if b then none else some .illegalOperand
/-- ILLEGAL_INSTRUCTION unless the condition holds. -/
def fieldIf (b : Bool) : Option DecodeError := if b then none else some .illegalInstruction

/-- The first rule an instruction breaks, if any. An event breaks none. -/
def Instr.check : Instr → Option DecodeError
  | .icmp _ p _ _ => operandIf (p.val != 7)
  | .icmpImm _ p _ _ => operandIf (p.val != 7)
  | .fcmp _ p _ _ => operandIf (p.val != 7)
  | .dcmp _ p a b => operandIf (p.val != 7 && evenReg a && b.pairOk)
  | .fabsD d a => operandIf (evenReg d && evenReg a)
  | .fnegD d a => operandIf (evenReg d && evenReg a)
  | .frndD d a => operandIf (evenReg d && evenReg a)
  | .dadd d a b => operandIf (evenReg d && evenReg a && b.pairOk)
  | .dmul d a b => operandIf (evenReg d && evenReg a && b.pairOk)
  | .dfmad d a b => operandIf (evenReg d && evenReg a && b.pairOk)
  | .movB64 d a => operandIf (evenReg d && evenReg a)
  | .ld d a _ z _ => operandIf (evenReg a && z.regOk d)
  | .ldc d a _ z _ => operandIf (evenReg a && z.regOk d)
  | .ldro d a _ z _ => operandIf (evenReg a && z.regOk d)
  | .lds d _ _ z _ => operandIf (z.regOk d)
  | .st d a _ z _ => operandIf (evenReg a && z.regOk d && z.storable)
  | .sts d _ _ z _ => operandIf (z.regOk d && z.storable)
  | .ldAcq d a _ z => operandIf (evenReg a && z.regOk d && z != .b128)
  | .stRel d a _ z => operandIf (evenReg a && z.regOk d && z.storable && z != .b128)
  | .pf a _ _ _ => operandIf (evenReg a)
  | .atomAdd d a _ _ z => operandIf (evenReg a && atomReg z d)
  | .atomMin d a _ _ z => operandIf (evenReg a && atomReg z d)
  | .atomMax d a _ _ z => operandIf (evenReg a && atomReg z d)
  | .atomMinn d a _ _ z => operandIf (evenReg a && atomReg z d)
  | .atomMaxn d a _ _ z => operandIf (evenReg a && atomReg z d)
  | .atomAnd d a _ _ z => operandIf (evenReg a && atomReg z d)
  | .atomOr d a _ _ z => operandIf (evenReg a && atomReg z d)
  | .atomXor d a _ _ z => operandIf (evenReg a && atomReg z d)
  | .atomExch d a _ _ z => operandIf (evenReg a && atomReg z d)
  | .atomCas d a _ _ z => operandIf (evenReg a && casReg z d)
  | .atomFadd _ a _ _ => operandIf (evenReg a)
  | .redAdd d a _ _ z => operandIf (evenReg a && atomReg z d)
  | .redFadd _ a _ _ => operandIf (evenReg a)
  | .redMin d a _ _ z => operandIf (evenReg a && atomReg z d)
  | .redMax d a _ _ z => operandIf (evenReg a && atomReg z d)
  | .redOr d a _ _ z => operandIf (evenReg a && atomReg z d)
  | .atomsCas d _ _ _ => operandIf (evenReg d)
  | .atomScAdd d a s z => operandIf (evenReg a && atomReg z d && s != .sys)
  | .atomScExch d a s z => operandIf (evenReg a && atomReg z d && s != .sys)
  | .atomScCas d a s z => operandIf (evenReg a && casReg z d && s != .sys)
  | .gpredAny n _ _ => operandIf (n.val != 7)
  | .gpredAll n _ _ => operandIf (n.val != 7)
  | .gredMin _ _ k => fieldIf (k.val ≤ 2)
  | .gredMax _ _ k => fieldIf (k.val ≤ 2)
  | .cvtf _ a t => operandIf (!(t.val == 2 || t.val == 3) || evenReg a)
  | .cvti d _ t => operandIf (!(t.val == 2 || t.val == 3) || evenReg d)
  | .cvtb4 _ a => operandIf (quadReg a)
  | .cvtb4Q _ a => operandIf (a.val % 8 == 0)
  | .unpk _ _ k e =>
    fieldIf ((k.val == 0 && e.val ≤ 1) || (k.val == 1 && e.val ≤ 3) || k.val == 2)
  | .cvtdF32 _ a => operandIf (evenReg a)
  | .cvtdF64 d _ => operandIf (evenReg d)
  | .cvtdfI d a t => operandIf (evenReg a && (t.val ≤ 1 || evenReg d))
  | .cvtdfF d a t => operandIf (evenReg d && (t.val ≤ 1 || evenReg a))
  | .plop d o _ _ y b =>
    if o.val ≤ 2 || (o.val == 3 && !y && b.val == 0) then operandIf (d.val != 7) else some .illegalInstruction
  | .v2p n _ _ => operandIf (n.val != 7)
  | .sysv _ b => fieldIf (b.val ≤ 5)
  | .vmask _ b => fieldIf (b.val ≤ 5)
  | .coll _ a _ => operandIf (evenReg a)
  | .qlop _ o _ _ y b _ => fieldIf (o.val ≤ 2 || (!y && b.val == 0))
  | .satomCas d _ => operandIf (d.val % 2 == 0)
  | .srd _ n => operandIf (sysRegAssigned n.toNat)
  | .swr _ n => operandIf (sysRegAssigned n.toNat)
  | .fenceAcq r _ => operandIf (r.val != 0)
  | .fenceRel r _ => operandIf (r.val != 0)
  | .fenceAr r _ => operandIf (r.val != 0)
  | .fenceSc r s => operandIf (r.val != 0 && s != .sys)
  | .mclr x => fieldIf (x.val != 0)
  | .collWait d _ => operandIf (d.val % 2 == 0)
  | .mxacq _ e h => fieldIf (!h || e.val == 0)
  | .tclm _ n c => operandIf (n.val + c.val < 64)
  | .trel n c => operandIf (n.val + c.val < 64)
  | .tld _ _ c => operandIf (c.val % 2 == 0)
  | .tldSp _ _ c => operandIf (c.val % 2 == 0)
  | .mmas _ _ b => operandIf (b.val != 63)
  | .accst _ _ c => operandIf (c.val % 2 == 0)
  | .accld _ _ c => operandIf (c.val % 2 == 0)
  | .mfmt _ _ b a => fieldIf (b.val ≤ 8 && a.val ≤ 8)
  | .dmap n _ => operandIf (n.val != 63)
  | .iadd _ _ _ => none
  | .iaddImm _ _ _ => none
  | .isub _ _ _ => none
  | .isubImm _ _ _ => none
  | .iadds _ _ _ => none
  | .iaddsImm _ _ _ => none
  | .iaddsn _ _ _ => none
  | .iaddsnImm _ _ _ => none
  | .imul _ _ _ => none
  | .imulImm _ _ _ => none
  | .imulh _ _ _ => none
  | .imulhn _ _ _ => none
  | .imin _ _ _ => none
  | .iminImm _ _ _ => none
  | .imax _ _ _ => none
  | .imaxImm _ _ _ => none
  | .iminn _ _ _ => none
  | .iminnImm _ _ _ => none
  | .imaxn _ _ _ => none
  | .imaxnImm _ _ _ => none
  | .iabsd _ _ _ => none
  | .and _ _ _ => none
  | .andImm _ _ _ => none
  | .or _ _ _ => none
  | .orImm _ _ _ => none
  | .xor _ _ _ => none
  | .xorImm _ _ _ => none
  | .andn _ _ _ => none
  | .andnImm _ _ _ => none
  | .shl _ _ _ => none
  | .shlImm _ _ _ => none
  | .shr _ _ _ => none
  | .shrImm _ _ _ => none
  | .sar _ _ _ => none
  | .sarImm _ _ _ => none
  | .rotl _ _ _ => none
  | .rotlImm _ _ _ => none
  | .popc _ _ => none
  | .clz _ _ => none
  | .clzSgn _ _ => none
  | .brev _ _ => none
  | .bfe _ _ _ => none
  | .bfen _ _ _ => none
  | .bfi _ _ _ => none
  | .fadd _ _ _ => none
  | .fsub _ _ _ => none
  | .fmul _ _ _ => none
  | .fmin _ _ _ => none
  | .fmax _ _ _ => none
  | .fabs _ _ => none
  | .fabsH2 _ _ => none
  | .fneg _ _ => none
  | .fnegH2 _ _ => none
  | .frnd _ _ => none
  | .ffmad _ _ _ => none
  | .fscl _ _ _ => none
  | .hadd2 _ _ _ => none
  | .hmul2 _ _ _ => none
  | .hfmad2 _ _ _ => none
  | .hmin2 _ _ _ => none
  | .hmax2 _ _ _ => none
  | .mov _ _ => none
  | .movs _ _ => none
  | .ffmadc _ _ _ _ => none
  | .imuladd _ _ _ _ => none
  | .vsel _ _ _ _ _ => none
  | .itadd _ _ _ _ => none
  | .movi _ _ _ => none
  | .movk _ _ _ => none
  | .movsx _ _ => none
  | .movh _ _ => none
  | .atomsAdd _ _ _ _ => none
  | .atomsExch _ _ _ _ => none
  | .atomsFadd _ _ _ _ => none
  | .lxgAt _ _ _ => none
  | .lxgBack _ _ _ => none
  | .lxgFwd _ _ _ => none
  | .lxgFlip _ _ _ => none
  | .gpredMask _ _ _ => none
  | .gpeerEq _ _ => none
  | .gpeerUni _ _ => none
  | .gredAdd _ _ => none
  | .gredFadd _ _ => none
  | .gredAnd _ _ => none
  | .gredOr _ _ => none
  | .gscanAdd _ _ => none
  | .gscanAddExcl _ _ => none
  | .gscanFadd _ _ => none
  | .gscanFaddExcl _ _ => none
  | .rcp _ _ => none
  | .rsq _ _ => none
  | .sqrt _ _ => none
  | .ex2 _ _ => none
  | .lg2 _ _ => none
  | .sin _ _ => none
  | .cos _ _ => none
  | .tanh _ _ => none
  | .fdiv _ _ _ => none
  | .cvth2 _ _ _ => none
  | .qnt _ _ => none
  | .p2v _ => none
  | .brDiv _ _ _ => none
  | .bmeld _ _ => none
  | .emeld => none
  | .rejoinSet _ => none
  | .rejoin => none
  | .exit => none
  | .hold _ => none
  | .trapP _ _ _ => none
  | .bpt _ => none
  | .rstv _ _ _ => none
  | .sadd _ _ _ _ => none
  | .saddImm _ _ _ => none
  | .ssub _ _ _ _ => none
  | .ssubImm _ _ _ => none
  | .smul _ _ _ _ => none
  | .smulImm _ _ _ => none
  | .smulh _ _ _ _ => none
  | .smin _ _ _ _ => none
  | .sminImm _ _ _ => none
  | .smax _ _ _ _ => none
  | .smaxImm _ _ _ => none
  | .sminn _ _ _ _ => none
  | .sminnImm _ _ _ => none
  | .smaxn _ _ _ _ => none
  | .smaxnImm _ _ _ => none
  | .sand _ _ _ _ => none
  | .sandImm _ _ _ => none
  | .sor _ _ _ _ => none
  | .sorImm _ _ _ => none
  | .sxor _ _ _ _ => none
  | .sxorImm _ _ _ => none
  | .sshl _ _ _ _ => none
  | .sshlImm _ _ _ => none
  | .sshr _ _ _ _ => none
  | .sshrImm _ _ _ => none
  | .ssar _ _ _ _ => none
  | .ssarImm _ _ _ => none
  | .ssetp _ _ _ _ _ => none
  | .ssetpImm _ _ _ _ => none
  | .ssel _ _ _ _ _ => none
  | .smov _ _ _ => none
  | .spopc _ _ _ => none
  | .sclz _ _ _ => none
  | .saddw _ _ _ _ => none
  | .saddwImm _ _ _ => none
  | .sgetv _ _ _ _ => none
  | .q2s _ _ => none
  | .s2q _ _ => none
  | .smovi _ _ _ => none
  | .smovk _ _ _ => none
  | .smovsx _ _ => none
  | .sadr _ _ => none
  | .bra _ _ => none
  | .call _ _ => none
  | .ret _ => none
  | .brx _ _ => none
  | .loop _ _ _ => none
  | .sldB64 _ _ _ => none
  | .sldB32 _ _ _ => none
  | .sstB64 _ _ _ => none
  | .sstB32 _ _ _ => none
  | .sldc _ _ _ => none
  | .slds _ _ _ => none
  | .ssts _ _ _ => none
  | .satomAdd _ _ => none
  | .satomExch _ _ => none
  | .fenceLayout _ => none
  | .icinv _ => none
  | .fmtset _ => none
  | .fmtsetr _ => none
  | .trap _ => none
  | .rft => none
  | .yldDone => none
  | .yield => none
  | .trig => none
  | .nameget _ => none
  | .nameput => none
  | .nameq _ => none
  | .mmap _ _ => none
  | .setmm _ => none
  | .objRead _ _ => none
  | .objPriv _ _ => none
  | .objrel _ => none
  | .barArr _ => none
  | .barWait _ => none
  | .barSync _ => none
  | .barInit _ _ => none
  | .barExpect _ _ => none
  | .cpySlice _ _ _ => none
  | .cpyxSlice _ _ _ => none
  | .mcst _ _ _ => none
  | .lbufReg _ _ _ => none
  | .lbufFree _ => none
  | .lbufDrop _ => none
  | .fxfer _ _ _ _ => none
  | .arrcSet _ _ => none
  | .arrcWait _ => none
  | .collForm _ _ => none
  | .collAbort _ => none
  | .collReform _ _ => none
  | .fork _ => none
  | .joinw _ => none
  | .vattrQ _ _ => none
  | .vattrRsv _ _ => none
  | .mxStart _ _ _ => none
  | .mbarArr _ => none
  | .mbarWait _ => none
  | .mxrel => none
  | .mma _ _ _ => none
  | .accz _ _ => none
  | .mxbarArr _ => none
  | .mxbarWait _ => none
  | .kmovi _ _ _ => none
  | .kadd _ _ _ => none
  | .kaddReg _ _ _ => none
  | .kbraKq _ _ => none
  | .kbraNkq _ _ => none
  | .kbra _ => none
  | .kbraDec _ _ => none
  | .mend => none
  | .clauseIssue => none
  | .candidateUrgent => none
  | .countedOpComplete _ => none
  | .memoryAck _ => none
  | .trapEntry => none
  | .terminationRecord _ => none
  | .groupEnd => none
  | .blockRetire _ => none
  | .matrixRestoreSlots _ => none
  | .qkick _ _ _ => none
  | .queueEntryRead _ _ => none
  | .queueDrainResume _ _ => none
  | .qrestart _ _ _ => none
  | .qcfgEnable _ _ _ => none
  | .qcfgDisable _ _ _ => none
  | .launchBind _ _ _ _ _ _ => none
  | .clusterClaim _ _ _ => none
  | .blockPlace _ _ => none
  | .workDonation _ _ _ => none
  | .donatedBlockArrival _ _ => none
  | .launchComplete _ => none
  | .eprioAging _ => none
  | .timeSliceExpiry _ => none
  | .preemptRequest _ _ => none
  | .watchdogExpiry _ => none
  | .blockSave _ => none
  | .blockResume _ _ => none
  | .parkingEviction _ => none
  | .savepoolTimeout _ => none
  | .migrationComplete _ _ => none
  | .migrationAbandon _ => none
  | .rstvHomeCheck _ => none
  | .rstvApply _ => none
  | .rstvStatus _ => none
  | .rstvTimeout _ => none
  | .fxferClaim _ => none
  | .fxferDataPacket _ => none
  | .fxferStatus _ => none
  | .remoteRequestArrive _ => none
  | .remoteResponseArrive _ => none
  | .remoteDeadlineExpiry _ => none
  | .fabricPacketArrive _ _ _ => none
  | .pinnedPacketReturned _ => none
  | .linkReplay _ => none
  | .linkRetrain _ => none
  | .linkDeath _ => none
  | .linken _ => none
  | .dirtySectorTimeout _ _ => none
  | .copyJobExecute _ => none
  | .multicastSend _ => none
  | .childStart _ _ _ => none
  | .childMerge _ => none
  | .formArrive _ => none
  | .formationLimitExpiry _ _ => none
  | .consistGone _ => none
  | .collPieceArrive _ => none
  | .collResultArrive _ => none
  | .collRetransmit _ => none
  | .collProbe _ => none
  | .collNoticeArrive _ => none
  | .collLimitExpiry _ => none
  | .fqreplyRetry _ _ => none
  | .fqreplyFail _ _ => none
  | .fqcfgEnable _ _ => none
  | .fqcfgDisable _ _ => none
  | .faultRecordPost _ => none
  | .faultTimeout _ _ => none
  | .ocmdCreate _ _ => none
  | .ocmdDestroy _ _ => none
  | .ocmdInval _ _ => none
  | .ownerCommandEnd _ => none
  | .psetup _ => none
  | .ptear _ => none
  | .hoctlH2d _ _ => none
  | .hoctlD2h _ _ => none
  | .handoverEnd _ => none
  | .areqReport _ _ => none
  | .areqCertificate _ _ => none
  | .rtinv _ _ => none
  | .bar2Read _ _ _ => none
  | .bar2Write _ _ _ => none
  | .msixUnmask _ _ => none
  | .registerWrite _ _ _ => none
  | .monitorStart _ _ => none
  | .monitorStop _ _ => none
  | .monitorSample _ _ => none
  | .islandEvaluation _ _ _ _ _ => none
  | .correctedErrorReport _ _ => none
  | .warmReset => none
  | .coldReset => none
  | .pfFlr => none
  | .vfFlr _ => none
  | .imageWrite _ _ _ _ _ _ => none
  | .migrationBegin _ _ => none
  | .linkRetrainComplete _ _ => none
  | .collPieceDeadline _ _ => none
  | .noticeResend _ => none
  | .partitionCommandEnd => none

/-- No field rule is broken. -/
def Instr.wf (i : Instr) : Bool := i.check == none

/-- The vector register a B operand names. -/
def BOp.vnames : BOp → List Nat
  | .v r => [r.val]
  | .s _ => []
/-- The uniform register a B operand names. -/
def BOp.snames : BOp → List Nat
  | .v _ => []
  | .s r => [r.val]

/-- The vector registers an instruction names (R34); a pair or quad is allocated with its first register (R35). -/
def Instr.vnames : Instr → List Nat
  | .iadd d a b => [d.val, a.val] ++ b.vnames
  | .iaddImm d a _ => [d.val, a.val]
  | .isub d a b => [d.val, a.val] ++ b.vnames
  | .isubImm d a _ => [d.val, a.val]
  | .iadds d a b => [d.val, a.val] ++ b.vnames
  | .iaddsImm d a _ => [d.val, a.val]
  | .iaddsn d a b => [d.val, a.val] ++ b.vnames
  | .iaddsnImm d a _ => [d.val, a.val]
  | .imul d a b => [d.val, a.val] ++ b.vnames
  | .imulImm d a _ => [d.val, a.val]
  | .imulh d a b => [d.val, a.val] ++ b.vnames
  | .imulhn d a b => [d.val, a.val] ++ b.vnames
  | .imin d a b => [d.val, a.val] ++ b.vnames
  | .iminImm d a _ => [d.val, a.val]
  | .imax d a b => [d.val, a.val] ++ b.vnames
  | .imaxImm d a _ => [d.val, a.val]
  | .iminn d a b => [d.val, a.val] ++ b.vnames
  | .iminnImm d a _ => [d.val, a.val]
  | .imaxn d a b => [d.val, a.val] ++ b.vnames
  | .imaxnImm d a _ => [d.val, a.val]
  | .iabsd d a b => [d.val, a.val] ++ b.vnames
  | .and d a b => [d.val, a.val] ++ b.vnames
  | .andImm d a _ => [d.val, a.val]
  | .or d a b => [d.val, a.val] ++ b.vnames
  | .orImm d a _ => [d.val, a.val]
  | .xor d a b => [d.val, a.val] ++ b.vnames
  | .xorImm d a _ => [d.val, a.val]
  | .andn d a b => [d.val, a.val] ++ b.vnames
  | .andnImm d a _ => [d.val, a.val]
  | .shl d a b => [d.val, a.val] ++ b.vnames
  | .shlImm d a _ => [d.val, a.val]
  | .shr d a b => [d.val, a.val] ++ b.vnames
  | .shrImm d a _ => [d.val, a.val]
  | .sar d a b => [d.val, a.val] ++ b.vnames
  | .sarImm d a _ => [d.val, a.val]
  | .rotl d a b => [d.val, a.val] ++ b.vnames
  | .rotlImm d a _ => [d.val, a.val]
  | .popc d a => [d.val, a.val]
  | .clz d a => [d.val, a.val]
  | .clzSgn d a => [d.val, a.val]
  | .brev d a => [d.val, a.val]
  | .bfe d a b => [d.val, a.val] ++ b.vnames
  | .bfen d a b => [d.val, a.val] ++ b.vnames
  | .bfi d a b => [d.val, a.val] ++ b.vnames
  | .icmp _ _ a b => [a.val] ++ b.vnames
  | .icmpImm _ _ a _ => [a.val]
  | .fadd d a b => [d.val, a.val] ++ b.vnames
  | .fsub d a b => [d.val, a.val] ++ b.vnames
  | .fmul d a b => [d.val, a.val] ++ b.vnames
  | .fmin d a b => [d.val, a.val] ++ b.vnames
  | .fmax d a b => [d.val, a.val] ++ b.vnames
  | .fcmp _ _ a b => [a.val] ++ b.vnames
  | .fabs d a => [d.val, a.val]
  | .fabsH2 d a => [d.val, a.val]
  | .fabsD d a => [d.val, a.val]
  | .fneg d a => [d.val, a.val]
  | .fnegH2 d a => [d.val, a.val]
  | .fnegD d a => [d.val, a.val]
  | .frnd d a => [d.val, a.val]
  | .frndD d a => [d.val, a.val]
  | .ffmad d a b => [d.val, a.val] ++ b.vnames
  | .fscl d a b => [d.val, a.val] ++ b.vnames
  | .hadd2 d a b => [d.val, a.val] ++ b.vnames
  | .hmul2 d a b => [d.val, a.val] ++ b.vnames
  | .hfmad2 d a b => [d.val, a.val] ++ b.vnames
  | .hmin2 d a b => [d.val, a.val] ++ b.vnames
  | .hmax2 d a b => [d.val, a.val] ++ b.vnames
  | .dadd d a b => [d.val, a.val] ++ b.vnames
  | .dmul d a b => [d.val, a.val] ++ b.vnames
  | .dfmad d a b => [d.val, a.val] ++ b.vnames
  | .dcmp _ _ a b => [a.val] ++ b.vnames
  | .mov d a => [d.val, a.val]
  | .movB64 d a => [d.val, a.val]
  | .movs d _ => [d.val]
  | .ffmadc d a b c => [d.val, a.val, b.val, c.val]
  | .imuladd d a b c => [d.val, a.val, b.val, c.val]
  | .vsel d a b _ _ => [d.val, a.val, b.val]
  | .itadd d a b c => [d.val, a.val, b.val, c.val]
  | .movi d _ _ => [d.val]
  | .movk d _ _ => [d.val]
  | .movsx d _ => [d.val]
  | .movh d _ => [d.val]
  | .ld d a _ _ _ => [d.val, a.val]
  | .st d a _ _ _ => [d.val, a.val]
  | .ldAcq d a _ _ => [d.val, a.val]
  | .stRel d a _ _ => [d.val, a.val]
  | .lds d a _ _ _ => [d.val, a.val]
  | .sts d a _ _ _ => [d.val, a.val]
  | .ldc d a _ _ _ => [d.val, a.val]
  | .ldro d a _ _ _ => [d.val, a.val]
  | .atomAdd d a _ _ _ => [d.val, a.val]
  | .atomMin d a _ _ _ => [d.val, a.val]
  | .atomMax d a _ _ _ => [d.val, a.val]
  | .atomMinn d a _ _ _ => [d.val, a.val]
  | .atomMaxn d a _ _ _ => [d.val, a.val]
  | .atomAnd d a _ _ _ => [d.val, a.val]
  | .atomOr d a _ _ _ => [d.val, a.val]
  | .atomXor d a _ _ _ => [d.val, a.val]
  | .atomExch d a _ _ _ => [d.val, a.val]
  | .atomCas d a _ _ _ => [d.val, a.val]
  | .atomFadd d a _ _ => [d.val, a.val]
  | .redAdd d a _ _ _ => [d.val, a.val]
  | .redFadd d a _ _ => [d.val, a.val]
  | .redMin d a _ _ _ => [d.val, a.val]
  | .redMax d a _ _ _ => [d.val, a.val]
  | .redOr d a _ _ _ => [d.val, a.val]
  | .atomsAdd d a _ _ => [d.val, a.val]
  | .atomsCas d a _ _ => [d.val, a.val]
  | .atomsExch d a _ _ => [d.val, a.val]
  | .atomsFadd d a _ _ => [d.val, a.val]
  | .pf a _ _ _ => [a.val]
  | .atomScAdd d a _ _ => [d.val, a.val]
  | .atomScExch d a _ _ => [d.val, a.val]
  | .atomScCas d a _ _ => [d.val, a.val]
  | .lxgAt d a b => [d.val, a.val, b.val]
  | .lxgBack d a b => [d.val, a.val, b.val]
  | .lxgFwd d a b => [d.val, a.val, b.val]
  | .lxgFlip d a b => [d.val, a.val, b.val]
  | .gpredAny _ _ _ => []
  | .gpredAll _ _ _ => []
  | .gpredMask d _ _ => [d.val]
  | .gpeerEq d a => [d.val, a.val]
  | .gpeerUni d a => [d.val, a.val]
  | .gredAdd d a => [d.val, a.val]
  | .gredFadd d a => [d.val, a.val]
  | .gredMin d a _ => [d.val, a.val]
  | .gredMax d a _ => [d.val, a.val]
  | .gredAnd d a => [d.val, a.val]
  | .gredOr d a => [d.val, a.val]
  | .gscanAdd d a => [d.val, a.val]
  | .gscanAddExcl d a => [d.val, a.val]
  | .gscanFadd d a => [d.val, a.val]
  | .gscanFaddExcl d a => [d.val, a.val]
  | .rcp d a => [d.val, a.val]
  | .rsq d a => [d.val, a.val]
  | .sqrt d a => [d.val, a.val]
  | .ex2 d a => [d.val, a.val]
  | .lg2 d a => [d.val, a.val]
  | .sin d a => [d.val, a.val]
  | .cos d a => [d.val, a.val]
  | .tanh d a => [d.val, a.val]
  | .fdiv d a b => [d.val, a.val, b.val]
  | .cvtf d a _ => [d.val, a.val]
  | .cvti d a _ => [d.val, a.val]
  | .cvth2 d a b => [d.val, a.val, b.val]
  | .cvtb4 d a => [d.val, a.val]
  | .cvtb4Q d a => [d.val, a.val]
  | .unpk d a _ _ => [d.val, a.val]
  | .cvtdF32 d a => [d.val, a.val]
  | .cvtdF64 d a => [d.val, a.val]
  | .cvtdfI d a _ => [d.val, a.val]
  | .cvtdfF d a _ => [d.val, a.val]
  | .qnt d a => [d.val, a.val]
  | .plop _ _ _ _ _ _ => []
  | .p2v d => [d.val]
  | .v2p _ a _ => [a.val]
  | .sysv d _ => [d.val]
  | .vmask d _ => [d.val]
  | .brDiv _ _ _ => []
  | .bmeld _ _ => []
  | .emeld => []
  | .rejoinSet _ => []
  | .rejoin => []
  | .exit => []
  | .hold v => [v.val]
  | .trapP _ _ _ => []
  | .bpt _ => []
  | .rstv d _ _ => [d.val]
  | .coll p a _ => [p.val, a.val]
  | .sadd _ _ _ _ => []
  | .saddImm _ _ _ => []
  | .ssub _ _ _ _ => []
  | .ssubImm _ _ _ => []
  | .smul _ _ _ _ => []
  | .smulImm _ _ _ => []
  | .smulh _ _ _ _ => []
  | .smin _ _ _ _ => []
  | .sminImm _ _ _ => []
  | .smax _ _ _ _ => []
  | .smaxImm _ _ _ => []
  | .sminn _ _ _ _ => []
  | .sminnImm _ _ _ => []
  | .smaxn _ _ _ _ => []
  | .smaxnImm _ _ _ => []
  | .sand _ _ _ _ => []
  | .sandImm _ _ _ => []
  | .sor _ _ _ _ => []
  | .sorImm _ _ _ => []
  | .sxor _ _ _ _ => []
  | .sxorImm _ _ _ => []
  | .sshl _ _ _ _ => []
  | .sshlImm _ _ _ => []
  | .sshr _ _ _ _ => []
  | .sshrImm _ _ _ => []
  | .ssar _ _ _ _ => []
  | .ssarImm _ _ _ => []
  | .ssetp _ _ _ _ _ => []
  | .ssetpImm _ _ _ _ => []
  | .ssel _ _ _ _ _ => []
  | .smov _ _ _ => []
  | .spopc _ _ _ => []
  | .sclz _ _ _ => []
  | .saddw _ _ _ _ => []
  | .saddwImm _ _ _ => []
  | .sgetv _ a x _ => [64 * x.toNat + a.val]
  | .qlop _ _ _ _ _ _ _ => []
  | .q2s _ _ => []
  | .s2q _ _ => []
  | .smovi _ _ _ => []
  | .smovk _ _ _ => []
  | .smovsx _ _ => []
  | .sadr _ _ => []
  | .bra _ _ => []
  | .call _ _ => []
  | .ret _ => []
  | .brx _ _ => []
  | .loop _ _ _ => []
  | .sldB64 _ _ _ => []
  | .sldB32 _ _ _ => []
  | .sstB64 _ _ _ => []
  | .sstB32 _ _ _ => []
  | .sldc _ _ _ => []
  | .slds _ _ _ => []
  | .ssts _ _ _ => []
  | .satomAdd _ _ => []
  | .satomCas _ _ => []
  | .satomExch _ _ => []
  | .srd _ _ => []
  | .swr _ _ => []
  | .fenceAcq _ _ => []
  | .fenceRel _ _ => []
  | .fenceAr _ _ => []
  | .fenceSc _ _ => []
  | .fenceLayout _ => []
  | .icinv _ => []
  | .fmtset _ => []
  | .fmtsetr _ => []
  | .trap _ => []
  | .rft => []
  | .yldDone => []
  | .yield => []
  | .trig => []
  | .nameget _ => []
  | .nameput => []
  | .nameq _ => []
  | .mmap _ _ => []
  | .mclr _ => []
  | .setmm _ => []
  | .objRead _ _ => []
  | .objPriv _ _ => []
  | .objrel _ => []
  | .barArr _ => []
  | .barWait _ => []
  | .barSync _ => []
  | .barInit _ _ => []
  | .barExpect _ _ => []
  | .cpySlice _ _ _ => []
  | .cpyxSlice _ _ _ => []
  | .mcst _ _ _ => []
  | .lbufReg _ _ _ => []
  | .lbufFree _ => []
  | .lbufDrop _ => []
  | .fxfer _ _ _ _ => []
  | .arrcSet _ _ => []
  | .arrcWait _ => []
  | .collForm _ _ => []
  | .collWait _ _ => []
  | .collAbort _ => []
  | .collReform _ _ => []
  | .fork _ => []
  | .joinw _ => []
  | .vattrQ _ _ => []
  | .vattrRsv _ _ => []
  | .mxStart _ _ _ => []
  | .mbarArr _ => []
  | .mbarWait _ => []
  | .mxacq _ _ _ => []
  | .mxrel => []
  | .tclm _ _ _ => []
  | .trel _ _ => []
  | .tld _ _ _ => []
  | .tldSp _ _ _ => []
  | .mma _ _ _ => []
  | .mmas _ _ _ => []
  | .accz _ _ => []
  | .accst _ _ _ => []
  | .accld _ _ _ => []
  | .mfmt _ _ _ _ => []
  | .dmap _ _ => []
  | .mxbarArr _ => []
  | .mxbarWait _ => []
  | .kmovi _ _ _ => []
  | .kadd _ _ _ => []
  | .kaddReg _ _ _ => []
  | .kbraKq _ _ => []
  | .kbraNkq _ _ => []
  | .kbra _ => []
  | .kbraDec _ _ => []
  | .mend => []
  | .clauseIssue => []
  | .candidateUrgent => []
  | .countedOpComplete _ => []
  | .memoryAck _ => []
  | .trapEntry => []
  | .terminationRecord _ => []
  | .groupEnd => []
  | .blockRetire _ => []
  | .matrixRestoreSlots _ => []
  | .qkick _ _ _ => []
  | .queueEntryRead _ _ => []
  | .queueDrainResume _ _ => []
  | .qrestart _ _ _ => []
  | .qcfgEnable _ _ _ => []
  | .qcfgDisable _ _ _ => []
  | .launchBind _ _ _ _ _ _ => []
  | .clusterClaim _ _ _ => []
  | .blockPlace _ _ => []
  | .workDonation _ _ _ => []
  | .donatedBlockArrival _ _ => []
  | .launchComplete _ => []
  | .eprioAging _ => []
  | .timeSliceExpiry _ => []
  | .preemptRequest _ _ => []
  | .watchdogExpiry _ => []
  | .blockSave _ => []
  | .blockResume _ _ => []
  | .parkingEviction _ => []
  | .savepoolTimeout _ => []
  | .migrationComplete _ _ => []
  | .migrationAbandon _ => []
  | .rstvHomeCheck _ => []
  | .rstvApply _ => []
  | .rstvStatus _ => []
  | .rstvTimeout _ => []
  | .fxferClaim _ => []
  | .fxferDataPacket _ => []
  | .fxferStatus _ => []
  | .remoteRequestArrive _ => []
  | .remoteResponseArrive _ => []
  | .remoteDeadlineExpiry _ => []
  | .fabricPacketArrive _ _ _ => []
  | .pinnedPacketReturned _ => []
  | .linkReplay _ => []
  | .linkRetrain _ => []
  | .linkDeath _ => []
  | .linken _ => []
  | .dirtySectorTimeout _ _ => []
  | .copyJobExecute _ => []
  | .multicastSend _ => []
  | .childStart _ _ _ => []
  | .childMerge _ => []
  | .formArrive _ => []
  | .formationLimitExpiry _ _ => []
  | .consistGone _ => []
  | .collPieceArrive _ => []
  | .collResultArrive _ => []
  | .collRetransmit _ => []
  | .collProbe _ => []
  | .collNoticeArrive _ => []
  | .collLimitExpiry _ => []
  | .fqreplyRetry _ _ => []
  | .fqreplyFail _ _ => []
  | .fqcfgEnable _ _ => []
  | .fqcfgDisable _ _ => []
  | .faultRecordPost _ => []
  | .faultTimeout _ _ => []
  | .ocmdCreate _ _ => []
  | .ocmdDestroy _ _ => []
  | .ocmdInval _ _ => []
  | .ownerCommandEnd _ => []
  | .psetup _ => []
  | .ptear _ => []
  | .hoctlH2d _ _ => []
  | .hoctlD2h _ _ => []
  | .handoverEnd _ => []
  | .areqReport _ _ => []
  | .areqCertificate _ _ => []
  | .rtinv _ _ => []
  | .bar2Read _ _ _ => []
  | .bar2Write _ _ _ => []
  | .msixUnmask _ _ => []
  | .registerWrite _ _ _ => []
  | .monitorStart _ _ => []
  | .monitorStop _ _ => []
  | .monitorSample _ _ => []
  | .islandEvaluation _ _ _ _ _ => []
  | .correctedErrorReport _ _ => []
  | .warmReset => []
  | .coldReset => []
  | .pfFlr => []
  | .vfFlr _ => []
  | .imageWrite _ _ _ _ _ _ => []
  | .migrationBegin _ _ => []
  | .linkRetrainComplete _ _ => []
  | .collPieceDeadline _ _ => []
  | .noticeResend _ => []
  | .partitionCommandEnd => []

/-- The uniform registers an instruction names (R34, R176). -/
def Instr.snames : Instr → List Nat
  | .iadd _ _ b => b.snames
  | .iaddImm _ _ _ => []
  | .isub _ _ b => b.snames
  | .isubImm _ _ _ => []
  | .iadds _ _ b => b.snames
  | .iaddsImm _ _ _ => []
  | .iaddsn _ _ b => b.snames
  | .iaddsnImm _ _ _ => []
  | .imul _ _ b => b.snames
  | .imulImm _ _ _ => []
  | .imulh _ _ b => b.snames
  | .imulhn _ _ b => b.snames
  | .imin _ _ b => b.snames
  | .iminImm _ _ _ => []
  | .imax _ _ b => b.snames
  | .imaxImm _ _ _ => []
  | .iminn _ _ b => b.snames
  | .iminnImm _ _ _ => []
  | .imaxn _ _ b => b.snames
  | .imaxnImm _ _ _ => []
  | .iabsd _ _ b => b.snames
  | .and _ _ b => b.snames
  | .andImm _ _ _ => []
  | .or _ _ b => b.snames
  | .orImm _ _ _ => []
  | .xor _ _ b => b.snames
  | .xorImm _ _ _ => []
  | .andn _ _ b => b.snames
  | .andnImm _ _ _ => []
  | .shl _ _ b => b.snames
  | .shlImm _ _ _ => []
  | .shr _ _ b => b.snames
  | .shrImm _ _ _ => []
  | .sar _ _ b => b.snames
  | .sarImm _ _ _ => []
  | .rotl _ _ b => b.snames
  | .rotlImm _ _ _ => []
  | .popc _ _ => []
  | .clz _ _ => []
  | .clzSgn _ _ => []
  | .brev _ _ => []
  | .bfe _ _ b => b.snames
  | .bfen _ _ b => b.snames
  | .bfi _ _ b => b.snames
  | .icmp _ _ _ b => b.snames
  | .icmpImm _ _ _ _ => []
  | .fadd _ _ b => b.snames
  | .fsub _ _ b => b.snames
  | .fmul _ _ b => b.snames
  | .fmin _ _ b => b.snames
  | .fmax _ _ b => b.snames
  | .fcmp _ _ _ b => b.snames
  | .fabs _ _ => []
  | .fabsH2 _ _ => []
  | .fabsD _ _ => []
  | .fneg _ _ => []
  | .fnegH2 _ _ => []
  | .fnegD _ _ => []
  | .frnd _ _ => []
  | .frndD _ _ => []
  | .ffmad _ _ b => b.snames
  | .fscl _ _ b => b.snames
  | .hadd2 _ _ b => b.snames
  | .hmul2 _ _ b => b.snames
  | .hfmad2 _ _ b => b.snames
  | .hmin2 _ _ b => b.snames
  | .hmax2 _ _ b => b.snames
  | .dadd _ _ b => b.snames
  | .dmul _ _ b => b.snames
  | .dfmad _ _ b => b.snames
  | .dcmp _ _ _ b => b.snames
  | .mov _ _ => []
  | .movB64 _ _ => []
  | .movs _ b => [b.val]
  | .ffmadc _ _ _ _ => []
  | .imuladd _ _ _ _ => []
  | .vsel _ _ _ _ _ => []
  | .itadd _ _ _ _ => []
  | .movi _ _ _ => []
  | .movk _ _ _ => []
  | .movsx _ _ => []
  | .movh _ _ => []
  | .ld _ _ _ _ _ => []
  | .st _ _ _ _ _ => []
  | .ldAcq _ _ _ _ => []
  | .stRel _ _ _ _ => []
  | .lds _ _ _ _ _ => []
  | .sts _ _ _ _ _ => []
  | .ldc _ _ _ _ _ => []
  | .ldro _ _ _ _ _ => []
  | .atomAdd _ _ _ _ _ => []
  | .atomMin _ _ _ _ _ => []
  | .atomMax _ _ _ _ _ => []
  | .atomMinn _ _ _ _ _ => []
  | .atomMaxn _ _ _ _ _ => []
  | .atomAnd _ _ _ _ _ => []
  | .atomOr _ _ _ _ _ => []
  | .atomXor _ _ _ _ _ => []
  | .atomExch _ _ _ _ _ => []
  | .atomCas _ _ _ _ _ => []
  | .atomFadd _ _ _ _ => []
  | .redAdd _ _ _ _ _ => []
  | .redFadd _ _ _ _ => []
  | .redMin _ _ _ _ _ => []
  | .redMax _ _ _ _ _ => []
  | .redOr _ _ _ _ _ => []
  | .atomsAdd _ _ _ _ => []
  | .atomsCas _ _ _ _ => []
  | .atomsExch _ _ _ _ => []
  | .atomsFadd _ _ _ _ => []
  | .pf _ _ _ _ => []
  | .atomScAdd _ _ _ _ => []
  | .atomScExch _ _ _ _ => []
  | .atomScCas _ _ _ _ => []
  | .lxgAt _ _ _ => []
  | .lxgBack _ _ _ => []
  | .lxgFwd _ _ _ => []
  | .lxgFlip _ _ _ => []
  | .gpredAny _ _ _ => []
  | .gpredAll _ _ _ => []
  | .gpredMask _ _ _ => []
  | .gpeerEq _ _ => []
  | .gpeerUni _ _ => []
  | .gredAdd _ _ => []
  | .gredFadd _ _ => []
  | .gredMin _ _ _ => []
  | .gredMax _ _ _ => []
  | .gredAnd _ _ => []
  | .gredOr _ _ => []
  | .gscanAdd _ _ => []
  | .gscanAddExcl _ _ => []
  | .gscanFadd _ _ => []
  | .gscanFaddExcl _ _ => []
  | .rcp _ _ => []
  | .rsq _ _ => []
  | .sqrt _ _ => []
  | .ex2 _ _ => []
  | .lg2 _ _ => []
  | .sin _ _ => []
  | .cos _ _ => []
  | .tanh _ _ => []
  | .fdiv _ _ _ => []
  | .cvtf _ _ _ => []
  | .cvti _ _ _ => []
  | .cvth2 _ _ _ => []
  | .cvtb4 _ _ => []
  | .cvtb4Q _ _ => []
  | .unpk _ _ _ _ => []
  | .cvtdF32 _ _ => []
  | .cvtdF64 _ _ => []
  | .cvtdfI _ _ _ => []
  | .cvtdfF _ _ _ => []
  | .qnt _ _ => []
  | .plop _ _ _ _ _ _ => []
  | .p2v _ => []
  | .v2p _ _ _ => []
  | .sysv _ _ => []
  | .vmask _ _ => []
  | .brDiv _ _ _ => []
  | .bmeld _ _ => []
  | .emeld => []
  | .rejoinSet _ => []
  | .rejoin => []
  | .exit => []
  | .hold _ => []
  | .trapP _ _ _ => []
  | .bpt _ => []
  | .rstv _ s _ => [s.val]
  | .coll _ _ s => [s.val]
  | .sadd d a b _ => [d.val, a.val, b.val]
  | .saddImm d a _ => [d.val, a.val]
  | .ssub d a b _ => [d.val, a.val, b.val]
  | .ssubImm d a _ => [d.val, a.val]
  | .smul d a b _ => [d.val, a.val, b.val]
  | .smulImm d a _ => [d.val, a.val]
  | .smulh d a b _ => [d.val, a.val, b.val]
  | .smin d a b _ => [d.val, a.val, b.val]
  | .sminImm d a _ => [d.val, a.val]
  | .smax d a b _ => [d.val, a.val, b.val]
  | .smaxImm d a _ => [d.val, a.val]
  | .sminn d a b _ => [d.val, a.val, b.val]
  | .sminnImm d a _ => [d.val, a.val]
  | .smaxn d a b _ => [d.val, a.val, b.val]
  | .smaxnImm d a _ => [d.val, a.val]
  | .sand d a b _ => [d.val, a.val, b.val]
  | .sandImm d a _ => [d.val, a.val]
  | .sor d a b _ => [d.val, a.val, b.val]
  | .sorImm d a _ => [d.val, a.val]
  | .sxor d a b _ => [d.val, a.val, b.val]
  | .sxorImm d a _ => [d.val, a.val]
  | .sshl d a b _ => [d.val, a.val, b.val]
  | .sshlImm d a _ => [d.val, a.val]
  | .sshr d a b _ => [d.val, a.val, b.val]
  | .sshrImm d a _ => [d.val, a.val]
  | .ssar d a b _ => [d.val, a.val, b.val]
  | .ssarImm d a _ => [d.val, a.val]
  | .ssetp _ _ a b _ => [a.val, b.val]
  | .ssetpImm _ _ a _ => [a.val]
  | .ssel d a b _ _ => [d.val, a.val, b.val]
  | .smov d a _ => [d.val, a.val]
  | .spopc d a _ => [d.val, a.val]
  | .sclz d a _ => [d.val, a.val]
  | .saddw d a b _ => [d.val, a.val, b.val]
  | .saddwImm d a _ => [d.val, a.val]
  | .sgetv d _ _ _ => [d.val]
  | .qlop _ _ _ _ _ _ _ => []
  | .q2s d _ => [d.val]
  | .s2q a _ => [a.val]
  | .smovi d _ _ => [d.val]
  | .smovk d _ _ => [d.val]
  | .smovsx d _ => [d.val]
  | .sadr d _ => [d.val]
  | .bra _ _ => []
  | .call _ _ => [63]
  | .ret _ => [63]
  | .brx _ x => [x.val]
  | .loop _ c _ => [c.val]
  | .sldB64 d a _ => [d.val, a.val]
  | .sldB32 d a _ => [d.val, a.val]
  | .sstB64 d a _ => [d.val, a.val]
  | .sstB32 d a _ => [d.val, a.val]
  | .sldc d a _ => [d.val, a.val]
  | .slds d a _ => [d.val, a.val]
  | .ssts d a _ => [d.val, a.val]
  | .satomAdd d a => [d.val, a.val]
  | .satomCas d a => [d.val, a.val]
  | .satomExch d a => [d.val, a.val]
  | .srd d _ => [d.val]
  | .swr s _ => [s.val]
  | .fenceAcq _ _ => []
  | .fenceRel _ _ => []
  | .fenceAr _ _ => []
  | .fenceSc _ _ => []
  | .fenceLayout _ => []
  | .icinv _ => []
  | .fmtset _ => []
  | .fmtsetr s => [s.val]
  | .trap _ => []
  | .rft => []
  | .yldDone => []
  | .yield => []
  | .trig => []
  | .nameget d => [d.val]
  | .nameput => []
  | .nameq x => [x.val]
  | .mmap s _ => [s.val]
  | .mclr _ => []
  | .setmm s => [s.val]
  | .objRead s _ => [s.val]
  | .objPriv s _ => [s.val]
  | .objrel s => [s.val]
  | .barArr _ => []
  | .barWait _ => []
  | .barSync _ => []
  | .barInit e _ => [e.val]
  | .barExpect b _ => [b.val]
  | .cpySlice c x _ => [c.val, x.val]
  | .cpyxSlice c x _ => [c.val, x.val]
  | .mcst c h _ => [c.val, h.val]
  | .lbufReg h l _ => [h.val, l.val]
  | .lbufFree h => [h.val]
  | .lbufDrop h => [h.val]
  | .fxfer n a x _ => [n.val, a.val, x.val]
  | .arrcSet v _ => [v.val]
  | .arrcWait _ => []
  | .collForm d r => [d.val, r.val]
  | .collWait d c => [d.val, c.val]
  | .collAbort c => [c.val]
  | .collReform d r => [d.val, r.val]
  | .fork r => [r.val]
  | .joinw d => [d.val]
  | .vattrQ d a => [d.val, a.val]
  | .vattrRsv d a => [d.val, a.val]
  | .mxStart e x y => [e.val, x.val, y.val]
  | .mbarArr _ => []
  | .mbarWait _ => []
  | .mxacq _ _ _ => []
  | .mxrel => []
  | .tclm _ _ _ => []
  | .trel _ _ => []
  | .tld _ _ _ => []
  | .tldSp _ _ _ => []
  | .mma _ _ _ => []
  | .mmas _ _ _ => []
  | .accz _ _ => []
  | .accst _ _ _ => []
  | .accld _ _ _ => []
  | .mfmt _ _ _ _ => []
  | .dmap _ _ => []
  | .mxbarArr _ => []
  | .mxbarWait _ => []
  | .kmovi _ _ _ => []
  | .kadd _ _ _ => []
  | .kaddReg _ _ _ => []
  | .kbraKq _ _ => []
  | .kbraNkq _ _ => []
  | .kbra _ => []
  | .kbraDec _ _ => []
  | .mend => []
  | .clauseIssue => []
  | .candidateUrgent => []
  | .countedOpComplete _ => []
  | .memoryAck _ => []
  | .trapEntry => []
  | .terminationRecord _ => []
  | .groupEnd => []
  | .blockRetire _ => []
  | .matrixRestoreSlots _ => []
  | .qkick _ _ _ => []
  | .queueEntryRead _ _ => []
  | .queueDrainResume _ _ => []
  | .qrestart _ _ _ => []
  | .qcfgEnable _ _ _ => []
  | .qcfgDisable _ _ _ => []
  | .launchBind _ _ _ _ _ _ => []
  | .clusterClaim _ _ _ => []
  | .blockPlace _ _ => []
  | .workDonation _ _ _ => []
  | .donatedBlockArrival _ _ => []
  | .launchComplete _ => []
  | .eprioAging _ => []
  | .timeSliceExpiry _ => []
  | .preemptRequest _ _ => []
  | .watchdogExpiry _ => []
  | .blockSave _ => []
  | .blockResume _ _ => []
  | .parkingEviction _ => []
  | .savepoolTimeout _ => []
  | .migrationComplete _ _ => []
  | .migrationAbandon _ => []
  | .rstvHomeCheck _ => []
  | .rstvApply _ => []
  | .rstvStatus _ => []
  | .rstvTimeout _ => []
  | .fxferClaim _ => []
  | .fxferDataPacket _ => []
  | .fxferStatus _ => []
  | .remoteRequestArrive _ => []
  | .remoteResponseArrive _ => []
  | .remoteDeadlineExpiry _ => []
  | .fabricPacketArrive _ _ _ => []
  | .pinnedPacketReturned _ => []
  | .linkReplay _ => []
  | .linkRetrain _ => []
  | .linkDeath _ => []
  | .linken _ => []
  | .dirtySectorTimeout _ _ => []
  | .copyJobExecute _ => []
  | .multicastSend _ => []
  | .childStart _ _ _ => []
  | .childMerge _ => []
  | .formArrive _ => []
  | .formationLimitExpiry _ _ => []
  | .consistGone _ => []
  | .collPieceArrive _ => []
  | .collResultArrive _ => []
  | .collRetransmit _ => []
  | .collProbe _ => []
  | .collNoticeArrive _ => []
  | .collLimitExpiry _ => []
  | .fqreplyRetry _ _ => []
  | .fqreplyFail _ _ => []
  | .fqcfgEnable _ _ => []
  | .fqcfgDisable _ _ => []
  | .faultRecordPost _ => []
  | .faultTimeout _ _ => []
  | .ocmdCreate _ _ => []
  | .ocmdDestroy _ _ => []
  | .ocmdInval _ _ => []
  | .ownerCommandEnd _ => []
  | .psetup _ => []
  | .ptear _ => []
  | .hoctlH2d _ _ => []
  | .hoctlD2h _ _ => []
  | .handoverEnd _ => []
  | .areqReport _ _ => []
  | .areqCertificate _ _ => []
  | .rtinv _ _ => []
  | .bar2Read _ _ _ => []
  | .bar2Write _ _ _ => []
  | .msixUnmask _ _ => []
  | .registerWrite _ _ _ => []
  | .monitorStart _ _ => []
  | .monitorStop _ _ => []
  | .monitorSample _ _ => []
  | .islandEvaluation _ _ _ _ _ => []
  | .correctedErrorReport _ _ => []
  | .warmReset => []
  | .coldReset => []
  | .pfFlr => []
  | .vfFlr _ => []
  | .imageWrite _ _ _ _ _ _ => []
  | .migrationBegin _ _ => []
  | .linkRetrainComplete _ _ => []
  | .collPieceDeadline _ _ => []
  | .noticeResend _ => []
  | .partitionCommandEnd => []

/-- The highest accumulator tile an instruction names (R34, R139). -/
def Instr.anames : Instr → List Nat
  | .iadd _ _ _ => []
  | .iaddImm _ _ _ => []
  | .isub _ _ _ => []
  | .isubImm _ _ _ => []
  | .iadds _ _ _ => []
  | .iaddsImm _ _ _ => []
  | .iaddsn _ _ _ => []
  | .iaddsnImm _ _ _ => []
  | .imul _ _ _ => []
  | .imulImm _ _ _ => []
  | .imulh _ _ _ => []
  | .imulhn _ _ _ => []
  | .imin _ _ _ => []
  | .iminImm _ _ _ => []
  | .imax _ _ _ => []
  | .imaxImm _ _ _ => []
  | .iminn _ _ _ => []
  | .iminnImm _ _ _ => []
  | .imaxn _ _ _ => []
  | .imaxnImm _ _ _ => []
  | .iabsd _ _ _ => []
  | .and _ _ _ => []
  | .andImm _ _ _ => []
  | .or _ _ _ => []
  | .orImm _ _ _ => []
  | .xor _ _ _ => []
  | .xorImm _ _ _ => []
  | .andn _ _ _ => []
  | .andnImm _ _ _ => []
  | .shl _ _ _ => []
  | .shlImm _ _ _ => []
  | .shr _ _ _ => []
  | .shrImm _ _ _ => []
  | .sar _ _ _ => []
  | .sarImm _ _ _ => []
  | .rotl _ _ _ => []
  | .rotlImm _ _ _ => []
  | .popc _ _ => []
  | .clz _ _ => []
  | .clzSgn _ _ => []
  | .brev _ _ => []
  | .bfe _ _ _ => []
  | .bfen _ _ _ => []
  | .bfi _ _ _ => []
  | .icmp _ _ _ _ => []
  | .icmpImm _ _ _ _ => []
  | .fadd _ _ _ => []
  | .fsub _ _ _ => []
  | .fmul _ _ _ => []
  | .fmin _ _ _ => []
  | .fmax _ _ _ => []
  | .fcmp _ _ _ _ => []
  | .fabs _ _ => []
  | .fabsH2 _ _ => []
  | .fabsD _ _ => []
  | .fneg _ _ => []
  | .fnegH2 _ _ => []
  | .fnegD _ _ => []
  | .frnd _ _ => []
  | .frndD _ _ => []
  | .ffmad _ _ _ => []
  | .fscl _ _ _ => []
  | .hadd2 _ _ _ => []
  | .hmul2 _ _ _ => []
  | .hfmad2 _ _ _ => []
  | .hmin2 _ _ _ => []
  | .hmax2 _ _ _ => []
  | .dadd _ _ _ => []
  | .dmul _ _ _ => []
  | .dfmad _ _ _ => []
  | .dcmp _ _ _ _ => []
  | .mov _ _ => []
  | .movB64 _ _ => []
  | .movs _ _ => []
  | .ffmadc _ _ _ _ => []
  | .imuladd _ _ _ _ => []
  | .vsel _ _ _ _ _ => []
  | .itadd _ _ _ _ => []
  | .movi _ _ _ => []
  | .movk _ _ _ => []
  | .movsx _ _ => []
  | .movh _ _ => []
  | .ld _ _ _ _ _ => []
  | .st _ _ _ _ _ => []
  | .ldAcq _ _ _ _ => []
  | .stRel _ _ _ _ => []
  | .lds _ _ _ _ _ => []
  | .sts _ _ _ _ _ => []
  | .ldc _ _ _ _ _ => []
  | .ldro _ _ _ _ _ => []
  | .atomAdd _ _ _ _ _ => []
  | .atomMin _ _ _ _ _ => []
  | .atomMax _ _ _ _ _ => []
  | .atomMinn _ _ _ _ _ => []
  | .atomMaxn _ _ _ _ _ => []
  | .atomAnd _ _ _ _ _ => []
  | .atomOr _ _ _ _ _ => []
  | .atomXor _ _ _ _ _ => []
  | .atomExch _ _ _ _ _ => []
  | .atomCas _ _ _ _ _ => []
  | .atomFadd _ _ _ _ => []
  | .redAdd _ _ _ _ _ => []
  | .redFadd _ _ _ _ => []
  | .redMin _ _ _ _ _ => []
  | .redMax _ _ _ _ _ => []
  | .redOr _ _ _ _ _ => []
  | .atomsAdd _ _ _ _ => []
  | .atomsCas _ _ _ _ => []
  | .atomsExch _ _ _ _ => []
  | .atomsFadd _ _ _ _ => []
  | .pf _ _ _ _ => []
  | .atomScAdd _ _ _ _ => []
  | .atomScExch _ _ _ _ => []
  | .atomScCas _ _ _ _ => []
  | .lxgAt _ _ _ => []
  | .lxgBack _ _ _ => []
  | .lxgFwd _ _ _ => []
  | .lxgFlip _ _ _ => []
  | .gpredAny _ _ _ => []
  | .gpredAll _ _ _ => []
  | .gpredMask _ _ _ => []
  | .gpeerEq _ _ => []
  | .gpeerUni _ _ => []
  | .gredAdd _ _ => []
  | .gredFadd _ _ => []
  | .gredMin _ _ _ => []
  | .gredMax _ _ _ => []
  | .gredAnd _ _ => []
  | .gredOr _ _ => []
  | .gscanAdd _ _ => []
  | .gscanAddExcl _ _ => []
  | .gscanFadd _ _ => []
  | .gscanFaddExcl _ _ => []
  | .rcp _ _ => []
  | .rsq _ _ => []
  | .sqrt _ _ => []
  | .ex2 _ _ => []
  | .lg2 _ _ => []
  | .sin _ _ => []
  | .cos _ _ => []
  | .tanh _ _ => []
  | .fdiv _ _ _ => []
  | .cvtf _ _ _ => []
  | .cvti _ _ _ => []
  | .cvth2 _ _ _ => []
  | .cvtb4 _ _ => []
  | .cvtb4Q _ _ => []
  | .unpk _ _ _ _ => []
  | .cvtdF32 _ _ => []
  | .cvtdF64 _ _ => []
  | .cvtdfI _ _ _ => []
  | .cvtdfF _ _ _ => []
  | .qnt _ _ => []
  | .plop _ _ _ _ _ _ => []
  | .p2v _ => []
  | .v2p _ _ _ => []
  | .sysv _ _ => []
  | .vmask _ _ => []
  | .brDiv _ _ _ => []
  | .bmeld _ _ => []
  | .emeld => []
  | .rejoinSet _ => []
  | .rejoin => []
  | .exit => []
  | .hold _ => []
  | .trapP _ _ _ => []
  | .bpt _ => []
  | .rstv _ _ _ => []
  | .coll _ _ _ => []
  | .sadd _ _ _ _ => []
  | .saddImm _ _ _ => []
  | .ssub _ _ _ _ => []
  | .ssubImm _ _ _ => []
  | .smul _ _ _ _ => []
  | .smulImm _ _ _ => []
  | .smulh _ _ _ _ => []
  | .smin _ _ _ _ => []
  | .sminImm _ _ _ => []
  | .smax _ _ _ _ => []
  | .smaxImm _ _ _ => []
  | .sminn _ _ _ _ => []
  | .sminnImm _ _ _ => []
  | .smaxn _ _ _ _ => []
  | .smaxnImm _ _ _ => []
  | .sand _ _ _ _ => []
  | .sandImm _ _ _ => []
  | .sor _ _ _ _ => []
  | .sorImm _ _ _ => []
  | .sxor _ _ _ _ => []
  | .sxorImm _ _ _ => []
  | .sshl _ _ _ _ => []
  | .sshlImm _ _ _ => []
  | .sshr _ _ _ _ => []
  | .sshrImm _ _ _ => []
  | .ssar _ _ _ _ => []
  | .ssarImm _ _ _ => []
  | .ssetp _ _ _ _ _ => []
  | .ssetpImm _ _ _ _ => []
  | .ssel _ _ _ _ _ => []
  | .smov _ _ _ => []
  | .spopc _ _ _ => []
  | .sclz _ _ _ => []
  | .saddw _ _ _ _ => []
  | .saddwImm _ _ _ => []
  | .sgetv _ _ _ _ => []
  | .qlop _ _ _ _ _ _ _ => []
  | .q2s _ _ => []
  | .s2q _ _ => []
  | .smovi _ _ _ => []
  | .smovk _ _ _ => []
  | .smovsx _ _ => []
  | .sadr _ _ => []
  | .bra _ _ => []
  | .call _ _ => []
  | .ret _ => []
  | .brx _ _ => []
  | .loop _ _ _ => []
  | .sldB64 _ _ _ => []
  | .sldB32 _ _ _ => []
  | .sstB64 _ _ _ => []
  | .sstB32 _ _ _ => []
  | .sldc _ _ _ => []
  | .slds _ _ _ => []
  | .ssts _ _ _ => []
  | .satomAdd _ _ => []
  | .satomCas _ _ => []
  | .satomExch _ _ => []
  | .srd _ _ => []
  | .swr _ _ => []
  | .fenceAcq _ _ => []
  | .fenceRel _ _ => []
  | .fenceAr _ _ => []
  | .fenceSc _ _ => []
  | .fenceLayout _ => []
  | .icinv _ => []
  | .fmtset _ => []
  | .fmtsetr _ => []
  | .trap _ => []
  | .rft => []
  | .yldDone => []
  | .yield => []
  | .trig => []
  | .nameget _ => []
  | .nameput => []
  | .nameq _ => []
  | .mmap _ _ => []
  | .mclr _ => []
  | .setmm _ => []
  | .objRead _ _ => []
  | .objPriv _ _ => []
  | .objrel _ => []
  | .barArr _ => []
  | .barWait _ => []
  | .barSync _ => []
  | .barInit _ _ => []
  | .barExpect _ _ => []
  | .cpySlice _ _ _ => []
  | .cpyxSlice _ _ _ => []
  | .mcst _ _ _ => []
  | .lbufReg _ _ _ => []
  | .lbufFree _ => []
  | .lbufDrop _ => []
  | .fxfer _ _ _ _ => []
  | .arrcSet _ _ => []
  | .arrcWait _ => []
  | .collForm _ _ => []
  | .collWait _ _ => []
  | .collAbort _ => []
  | .collReform _ _ => []
  | .fork _ => []
  | .joinw _ => []
  | .vattrQ _ _ => []
  | .vattrRsv _ _ => []
  | .mxStart _ _ _ => []
  | .mbarArr _ => []
  | .mbarWait _ => []
  | .mxacq _ _ _ => []
  | .mxrel => []
  | .tclm _ _ _ => []
  | .trel _ _ => []
  | .tld _ _ _ => []
  | .tldSp _ _ _ => []
  | .mma d _ _ => [d.val]
  | .mmas d _ _ => [d.val]
  | .accz d n => [d.val + n.val]
  | .accst d _ _ => [d.val]
  | .accld d _ _ => [d.val]
  | .mfmt _ _ _ _ => []
  | .dmap _ _ => []
  | .mxbarArr _ => []
  | .mxbarWait _ => []
  | .kmovi _ _ _ => []
  | .kadd _ _ _ => []
  | .kaddReg _ _ _ => []
  | .kbraKq _ _ => []
  | .kbraNkq _ _ => []
  | .kbra _ => []
  | .kbraDec _ _ => []
  | .mend => []
  | .clauseIssue => []
  | .candidateUrgent => []
  | .countedOpComplete _ => []
  | .memoryAck _ => []
  | .trapEntry => []
  | .terminationRecord _ => []
  | .groupEnd => []
  | .blockRetire _ => []
  | .matrixRestoreSlots _ => []
  | .qkick _ _ _ => []
  | .queueEntryRead _ _ => []
  | .queueDrainResume _ _ => []
  | .qrestart _ _ _ => []
  | .qcfgEnable _ _ _ => []
  | .qcfgDisable _ _ _ => []
  | .launchBind _ _ _ _ _ _ => []
  | .clusterClaim _ _ _ => []
  | .blockPlace _ _ => []
  | .workDonation _ _ _ => []
  | .donatedBlockArrival _ _ => []
  | .launchComplete _ => []
  | .eprioAging _ => []
  | .timeSliceExpiry _ => []
  | .preemptRequest _ _ => []
  | .watchdogExpiry _ => []
  | .blockSave _ => []
  | .blockResume _ _ => []
  | .parkingEviction _ => []
  | .savepoolTimeout _ => []
  | .migrationComplete _ _ => []
  | .migrationAbandon _ => []
  | .rstvHomeCheck _ => []
  | .rstvApply _ => []
  | .rstvStatus _ => []
  | .rstvTimeout _ => []
  | .fxferClaim _ => []
  | .fxferDataPacket _ => []
  | .fxferStatus _ => []
  | .remoteRequestArrive _ => []
  | .remoteResponseArrive _ => []
  | .remoteDeadlineExpiry _ => []
  | .fabricPacketArrive _ _ _ => []
  | .pinnedPacketReturned _ => []
  | .linkReplay _ => []
  | .linkRetrain _ => []
  | .linkDeath _ => []
  | .linken _ => []
  | .dirtySectorTimeout _ _ => []
  | .copyJobExecute _ => []
  | .multicastSend _ => []
  | .childStart _ _ _ => []
  | .childMerge _ => []
  | .formArrive _ => []
  | .formationLimitExpiry _ _ => []
  | .consistGone _ => []
  | .collPieceArrive _ => []
  | .collResultArrive _ => []
  | .collRetransmit _ => []
  | .collProbe _ => []
  | .collNoticeArrive _ => []
  | .collLimitExpiry _ => []
  | .fqreplyRetry _ _ => []
  | .fqreplyFail _ _ => []
  | .fqcfgEnable _ _ => []
  | .fqcfgDisable _ _ => []
  | .faultRecordPost _ => []
  | .faultTimeout _ _ => []
  | .ocmdCreate _ _ => []
  | .ocmdDestroy _ _ => []
  | .ocmdInval _ _ => []
  | .ownerCommandEnd _ => []
  | .psetup _ => []
  | .ptear _ => []
  | .hoctlH2d _ _ => []
  | .hoctlD2h _ _ => []
  | .handoverEnd _ => []
  | .areqReport _ _ => []
  | .areqCertificate _ _ => []
  | .rtinv _ _ => []
  | .bar2Read _ _ _ => []
  | .bar2Write _ _ _ => []
  | .msixUnmask _ _ => []
  | .registerWrite _ _ _ => []
  | .monitorStart _ _ => []
  | .monitorStop _ _ => []
  | .monitorSample _ _ => []
  | .islandEvaluation _ _ _ _ _ => []
  | .correctedErrorReport _ _ => []
  | .warmReset => []
  | .coldReset => []
  | .pfFlr => []
  | .vfFlr _ => []
  | .imageWrite _ _ _ _ _ _ => []
  | .migrationBegin _ _ => []
  | .linkRetrainComplete _ _ => []
  | .collPieceDeadline _ _ => []
  | .noticeResend _ => []
  | .partitionCommandEnd => []

end Sys2Proof
end

