-- ==== Sys2Proof/Decode.lean ====
section
/-! DEFINITION. The decoder: every 32-bit word is one instruction, an ILLEGAL_INSTRUCTION or an ILLEGAL_OPERAND
(02 R31-R51); and the encoder, from the same field tables. Checks against the group's allocation are in
Machine/Operands.lean. Some definitions carry the word noncomputable because Lean's runtime has no tags for a type with
more than 244 constructors that hold fields; the kernel evaluates them. -/

namespace Sys2Proof

/-- What decoding a word gives. -/
abbrev Decoded := Except DecodeError Instr

/-- Go on with a field that has a meaning, or report the error its code gives. -/
def orElse {α : Type} (x : Option α) (e : DecodeError) (f : α → Decoded) : Decoded :=
  match x with
  | some a => f a
  | none => .error e

/-- B and BS (R32): BS = 1 with B[6] = 1 names no register. -/
def bopOf? (b bs : Nat) : Option BOp :=
  if bs = 0 then some (.v (Fin.ofNat 128 b))
  else if b < 64 then some (.s (Fin.ofNat 64 b)) else none
/-- The B field of a B operand. -/
def bopField : BOp → Nat
  | .v r => r.val
  | .s r => r.val
/-- The BS bit of a B operand. -/
def bopBS : BOp → Nat
  | .v _ => 0
  | .s _ => 1

/-- QG and QN (R33): QG = 7 is no guard, and then QN must be 0. -/
def guardOf? (q n : Nat) : Option QGuard :=
  if q = 7 then (if n = 0 then some .always else none) else some (.on (Fin.ofNat 7 q) (n == 1))
/-- The QG field of a guard. -/
def guardQ : QGuard → Nat
  | .always => 7
  | .on q _ => q.val
/-- The QN bit of a guard. -/
def guardN : QGuard → Nat
  | .always => 0
  | .on _ n => n.toNat

/-- Integer compare condition codes (R37). -/
def condOf? : Nat → Option Cond
  | 0 => some .eq | 1 => some .ne | 2 => some .lt | 3 => some .le | 4 => some .gt
  | 5 => some .ge | 6 => some .lo | 7 => some .ls | 8 => some .hi | 9 => some .hs | _ => none
/-- The code of an integer condition. -/
def condCode : Cond → Nat
  | .eq => 0 | .ne => 1 | .lt => 2 | .le => 3 | .gt => 4 | .ge => 5 | .lo => 6 | .ls => 7 | .hi => 8 | .hs => 9
/-- Float compare condition codes (R37). -/
def fcondOf? : Nat → Option FCond
  | 0 => some .oeq | 1 => some .one | 2 => some .olt | 3 => some .ole | 4 => some .ogt
  | 5 => some .oge | 6 => some .ord | 7 => some .uno | 8 => some .ueq | 9 => some .une | _ => none
/-- The code of a float condition. -/
def fcondCode : FCond → Nat
  | .oeq => 0 | .one => 1 | .olt => 2 | .ole => 3 | .ogt => 4 | .oge => 5 | .ord => 6 | .uno => 7 | .ueq => 8
  | .une => 9
/-- Condition codes of `ssetp` (R38). -/
def scondOf : Nat → SCond
  | 0 => .eq | 1 => .ne | 2 => .lt | 3 => .le | 4 => .gt | 5 => .ge | 6 => .lo | _ => .hs
/-- The code of an `ssetp` condition. -/
def scondCode : SCond → Nat
  | .eq => 0 | .ne => 1 | .lt => 2 | .le => 3 | .gt => 4 | .ge => 5 | .lo => 6 | .hs => 7
/-- SZ codes (R32). -/
def sizeOf? : Nat → Option Size
  | 0 => some .x8 | 1 => some .s8 | 2 => some .x16 | 3 => some .s16 | 4 => some .b32 | 5 => some .b64
  | 6 => some .b128 | _ => none
/-- The SZ code of a size. -/
def sizeCode : Size → Nat
  | .x8 => 0 | .s8 => 1 | .x16 => 2 | .s16 => 3 | .b32 => 4 | .b64 => 5 | .b128 => 6
/-- Scope codes (R16). -/
def scopeOf? : Nat → Option Scope
  | 0 => some .grp | 1 => some .blk | 2 => some .clu | 3 => some .die | 4 => some .pkg | 5 => some .sys | _ => none
/-- The code of a scope. -/
def scopeCode : Scope → Nat
  | .grp => 0 | .blk => 1 | .clu => 2 | .die => 3 | .pkg => 4 | .sys => 5
/-- ORD codes (R32). -/
def ordOf : Nat → Ord
  | 0 => .rlx | 1 => .acq | 2 => .rel | _ => .ar
/-- The ORD code of an order. -/
def ordCode : Ord → Nat
  | .rlx => 0 | .acq => 1 | .rel => 2 | .ar => 3

/-- The LR class, bits [31:28] = 0 (R31, R40-R50). -/
def decodeLR (w : Nat) : Decoded :=
  match w / 4194304 % 64 with
  | 0 => orElse (bopOf? ((w / 2) % 128) (w % 2)) .illegalOperand fun b => .ok (.iadd (Fin.ofNat 128 (w / 32768)) (Fin.ofNat 128 (w / 256)) b)
  | 1 => orElse (bopOf? ((w / 2) % 128) (w % 2)) .illegalOperand fun b => .ok (.isub (Fin.ofNat 128 (w / 32768)) (Fin.ofNat 128 (w / 256)) b)
  | 2 => orElse (bopOf? ((w / 2) % 128) (w % 2)) .illegalOperand fun b => .ok (.iadds (Fin.ofNat 128 (w / 32768)) (Fin.ofNat 128 (w / 256)) b)
  | 3 => orElse (bopOf? ((w / 2) % 128) (w % 2)) .illegalOperand fun b => .ok (.iaddsn (Fin.ofNat 128 (w / 32768)) (Fin.ofNat 128 (w / 256)) b)
  | 4 => orElse (bopOf? ((w / 2) % 128) (w % 2)) .illegalOperand fun b => .ok (.imul (Fin.ofNat 128 (w / 32768)) (Fin.ofNat 128 (w / 256)) b)
  | 5 => orElse (bopOf? ((w / 2) % 128) (w % 2)) .illegalOperand fun b => .ok (.imulh (Fin.ofNat 128 (w / 32768)) (Fin.ofNat 128 (w / 256)) b)
  | 6 => orElse (bopOf? ((w / 2) % 128) (w % 2)) .illegalOperand fun b => .ok (.imulhn (Fin.ofNat 128 (w / 32768)) (Fin.ofNat 128 (w / 256)) b)
  | 7 => orElse (bopOf? ((w / 2) % 128) (w % 2)) .illegalOperand fun b => .ok (.imin (Fin.ofNat 128 (w / 32768)) (Fin.ofNat 128 (w / 256)) b)
  | 8 => orElse (bopOf? ((w / 2) % 128) (w % 2)) .illegalOperand fun b => .ok (.imax (Fin.ofNat 128 (w / 32768)) (Fin.ofNat 128 (w / 256)) b)
  | 9 => orElse (bopOf? ((w / 2) % 128) (w % 2)) .illegalOperand fun b => .ok (.iminn (Fin.ofNat 128 (w / 32768)) (Fin.ofNat 128 (w / 256)) b)
  | 10 => orElse (bopOf? ((w / 2) % 128) (w % 2)) .illegalOperand fun b => .ok (.imaxn (Fin.ofNat 128 (w / 32768)) (Fin.ofNat 128 (w / 256)) b)
  | 11 => orElse (bopOf? ((w / 2) % 128) (w % 2)) .illegalOperand fun b => .ok (.iabsd (Fin.ofNat 128 (w / 32768)) (Fin.ofNat 128 (w / 256)) b)
  | 12 => orElse (bopOf? ((w / 2) % 128) (w % 2)) .illegalOperand fun b => .ok (.and (Fin.ofNat 128 (w / 32768)) (Fin.ofNat 128 (w / 256)) b)
  | 13 => orElse (bopOf? ((w / 2) % 128) (w % 2)) .illegalOperand fun b => .ok (.or (Fin.ofNat 128 (w / 32768)) (Fin.ofNat 128 (w / 256)) b)
  | 14 => orElse (bopOf? ((w / 2) % 128) (w % 2)) .illegalOperand fun b => .ok (.xor (Fin.ofNat 128 (w / 32768)) (Fin.ofNat 128 (w / 256)) b)
  | 15 => orElse (bopOf? ((w / 2) % 128) (w % 2)) .illegalOperand fun b => .ok (.andn (Fin.ofNat 128 (w / 32768)) (Fin.ofNat 128 (w / 256)) b)
  | 16 => orElse (bopOf? ((w / 2) % 128) (w % 2)) .illegalOperand fun b => .ok (.shl (Fin.ofNat 128 (w / 32768)) (Fin.ofNat 128 (w / 256)) b)
  | 17 => orElse (bopOf? ((w / 2) % 128) (w % 2)) .illegalOperand fun b => .ok (.shr (Fin.ofNat 128 (w / 32768)) (Fin.ofNat 128 (w / 256)) b)
  | 18 => orElse (bopOf? ((w / 2) % 128) (w % 2)) .illegalOperand fun b => .ok (.sar (Fin.ofNat 128 (w / 32768)) (Fin.ofNat 128 (w / 256)) b)
  | 19 => orElse (bopOf? ((w / 2) % 128) (w % 2)) .illegalOperand fun b => .ok (.rotl (Fin.ofNat 128 (w / 32768)) (Fin.ofNat 128 (w / 256)) b)
  | 20 => if w % 256 = 0 then .ok (.popc (Fin.ofNat 128 (w / 32768)) (Fin.ofNat 128 (w / 256)))
      else .error .illegalInstruction
  | 21 => if w % 256 = 0 then .ok (.clz (Fin.ofNat 128 (w / 32768)) (Fin.ofNat 128 (w / 256)))
      else if w % 256 = 2 then .ok (.clzSgn (Fin.ofNat 128 (w / 32768)) (Fin.ofNat 128 (w / 256)))
      else .error .illegalInstruction
  | 22 => if w % 256 = 0 then .ok (.brev (Fin.ofNat 128 (w / 32768)) (Fin.ofNat 128 (w / 256)))
      else .error .illegalInstruction
  | 23 => orElse (bopOf? ((w / 2) % 128) (w % 2)) .illegalOperand fun b => .ok (.bfe (Fin.ofNat 128 (w / 32768)) (Fin.ofNat 128 (w / 256)) b)
  | 24 => orElse (bopOf? ((w / 2) % 128) (w % 2)) .illegalOperand fun b => .ok (.bfen (Fin.ofNat 128 (w / 32768)) (Fin.ofNat 128 (w / 256)) b)
  | 25 => orElse (bopOf? ((w / 2) % 128) (w % 2)) .illegalOperand fun b => .ok (.bfi (Fin.ofNat 128 (w / 32768)) (Fin.ofNat 128 (w / 256)) b)
  | 26 => orElse (condOf? ((w / 262144) % 16)) .illegalInstruction fun c => orElse (bopOf? ((w / 2) % 128) (w % 2)) .illegalOperand fun b => .ok (.icmp c (Fin.ofNat 8 (w / 32768)) (Fin.ofNat 128 (w / 256)) b)
  | 32 => orElse (bopOf? ((w / 2) % 128) (w % 2)) .illegalOperand fun b => .ok (.fadd (Fin.ofNat 128 (w / 32768)) (Fin.ofNat 128 (w / 256)) b)
  | 33 => orElse (bopOf? ((w / 2) % 128) (w % 2)) .illegalOperand fun b => .ok (.fsub (Fin.ofNat 128 (w / 32768)) (Fin.ofNat 128 (w / 256)) b)
  | 34 => orElse (bopOf? ((w / 2) % 128) (w % 2)) .illegalOperand fun b => .ok (.fmul (Fin.ofNat 128 (w / 32768)) (Fin.ofNat 128 (w / 256)) b)
  | 35 => orElse (bopOf? ((w / 2) % 128) (w % 2)) .illegalOperand fun b => .ok (.fmin (Fin.ofNat 128 (w / 32768)) (Fin.ofNat 128 (w / 256)) b)
  | 36 => orElse (bopOf? ((w / 2) % 128) (w % 2)) .illegalOperand fun b => .ok (.fmax (Fin.ofNat 128 (w / 32768)) (Fin.ofNat 128 (w / 256)) b)
  | 37 => orElse (fcondOf? ((w / 262144) % 16)) .illegalInstruction fun c => orElse (bopOf? ((w / 2) % 128) (w % 2)) .illegalOperand fun b => .ok (.fcmp c (Fin.ofNat 8 (w / 32768)) (Fin.ofNat 128 (w / 256)) b)
  | 38 => if w % 256 = 0 then .ok (.fabs (Fin.ofNat 128 (w / 32768)) (Fin.ofNat 128 (w / 256)))
      else if w % 256 = 2 then .ok (.fabsH2 (Fin.ofNat 128 (w / 32768)) (Fin.ofNat 128 (w / 256)))
      else if w % 256 = 4 then .ok (.fabsD (Fin.ofNat 128 (w / 32768)) (Fin.ofNat 128 (w / 256)))
      else .error .illegalInstruction
  | 39 => if w % 256 = 0 then .ok (.fneg (Fin.ofNat 128 (w / 32768)) (Fin.ofNat 128 (w / 256)))
      else if w % 256 = 2 then .ok (.fnegH2 (Fin.ofNat 128 (w / 32768)) (Fin.ofNat 128 (w / 256)))
      else if w % 256 = 4 then .ok (.fnegD (Fin.ofNat 128 (w / 32768)) (Fin.ofNat 128 (w / 256)))
      else .error .illegalInstruction
  | 40 => if w % 256 = 0 then .ok (.frnd (Fin.ofNat 128 (w / 32768)) (Fin.ofNat 128 (w / 256)))
      else if w % 256 = 2 then .ok (.frndD (Fin.ofNat 128 (w / 32768)) (Fin.ofNat 128 (w / 256)))
      else .error .illegalInstruction
  | 41 => orElse (bopOf? ((w / 2) % 128) (w % 2)) .illegalOperand fun b => .ok (.ffmad (Fin.ofNat 128 (w / 32768)) (Fin.ofNat 128 (w / 256)) b)
  | 42 => orElse (bopOf? ((w / 2) % 128) (w % 2)) .illegalOperand fun b => .ok (.fscl (Fin.ofNat 128 (w / 32768)) (Fin.ofNat 128 (w / 256)) b)
  | 43 => orElse (bopOf? ((w / 2) % 128) (w % 2)) .illegalOperand fun b => .ok (.hadd2 (Fin.ofNat 128 (w / 32768)) (Fin.ofNat 128 (w / 256)) b)
  | 44 => orElse (bopOf? ((w / 2) % 128) (w % 2)) .illegalOperand fun b => .ok (.hmul2 (Fin.ofNat 128 (w / 32768)) (Fin.ofNat 128 (w / 256)) b)
  | 45 => orElse (bopOf? ((w / 2) % 128) (w % 2)) .illegalOperand fun b => .ok (.hfmad2 (Fin.ofNat 128 (w / 32768)) (Fin.ofNat 128 (w / 256)) b)
  | 46 => orElse (bopOf? ((w / 2) % 128) (w % 2)) .illegalOperand fun b => .ok (.hmin2 (Fin.ofNat 128 (w / 32768)) (Fin.ofNat 128 (w / 256)) b)
  | 47 => orElse (bopOf? ((w / 2) % 128) (w % 2)) .illegalOperand fun b => .ok (.hmax2 (Fin.ofNat 128 (w / 32768)) (Fin.ofNat 128 (w / 256)) b)
  | 48 => orElse (bopOf? ((w / 2) % 128) (w % 2)) .illegalOperand fun b => .ok (.dadd (Fin.ofNat 128 (w / 32768)) (Fin.ofNat 128 (w / 256)) b)
  | 49 => orElse (bopOf? ((w / 2) % 128) (w % 2)) .illegalOperand fun b => .ok (.dmul (Fin.ofNat 128 (w / 32768)) (Fin.ofNat 128 (w / 256)) b)
  | 50 => orElse (bopOf? ((w / 2) % 128) (w % 2)) .illegalOperand fun b => .ok (.dfmad (Fin.ofNat 128 (w / 32768)) (Fin.ofNat 128 (w / 256)) b)
  | 51 => orElse (fcondOf? ((w / 262144) % 16)) .illegalInstruction fun c => orElse (bopOf? ((w / 2) % 128) (w % 2)) .illegalOperand fun b => .ok (.dcmp c (Fin.ofNat 8 (w / 32768)) (Fin.ofNat 128 (w / 256)) b)
  | 52 => if w % 256 = 0 then .ok (.mov (Fin.ofNat 128 (w / 32768)) (Fin.ofNat 128 (w / 256)))
      else if w % 256 = 2 then .ok (.movB64 (Fin.ofNat 128 (w / 32768)) (Fin.ofNat 128 (w / 256)))
      else .error .illegalInstruction
  | 53 => if w % 2 = 1 ∧ (w / 128) % 256 = 0 then .ok (.movs (Fin.ofNat 128 (w / 32768)) (Fin.ofNat 64 (w / 2)))
      else .error .illegalInstruction
  | _ => .error .illegalInstruction

/-- The LI class, bits [31:28] = 1 (R31, R40-R50). -/
def decodeLI (w : Nat) : Decoded :=
  match w / 4194304 % 64 with
  | 0 => .ok (.iaddImm (Fin.ofNat 128 (w / 32768)) (Fin.ofNat 128 (w / 256)) (BitVec.ofNat 8 w))
  | 1 => .ok (.isubImm (Fin.ofNat 128 (w / 32768)) (Fin.ofNat 128 (w / 256)) (BitVec.ofNat 8 w))
  | 2 => .ok (.iaddsImm (Fin.ofNat 128 (w / 32768)) (Fin.ofNat 128 (w / 256)) (BitVec.ofNat 8 w))
  | 3 => .ok (.iaddsnImm (Fin.ofNat 128 (w / 32768)) (Fin.ofNat 128 (w / 256)) (BitVec.ofNat 8 w))
  | 4 => .ok (.imulImm (Fin.ofNat 128 (w / 32768)) (Fin.ofNat 128 (w / 256)) (BitVec.ofNat 8 w))
  | 7 => .ok (.iminImm (Fin.ofNat 128 (w / 32768)) (Fin.ofNat 128 (w / 256)) (BitVec.ofNat 8 w))
  | 8 => .ok (.imaxImm (Fin.ofNat 128 (w / 32768)) (Fin.ofNat 128 (w / 256)) (BitVec.ofNat 8 w))
  | 9 => .ok (.iminnImm (Fin.ofNat 128 (w / 32768)) (Fin.ofNat 128 (w / 256)) (BitVec.ofNat 8 w))
  | 10 => .ok (.imaxnImm (Fin.ofNat 128 (w / 32768)) (Fin.ofNat 128 (w / 256)) (BitVec.ofNat 8 w))
  | 12 => .ok (.andImm (Fin.ofNat 128 (w / 32768)) (Fin.ofNat 128 (w / 256)) (BitVec.ofNat 8 w))
  | 13 => .ok (.orImm (Fin.ofNat 128 (w / 32768)) (Fin.ofNat 128 (w / 256)) (BitVec.ofNat 8 w))
  | 14 => .ok (.xorImm (Fin.ofNat 128 (w / 32768)) (Fin.ofNat 128 (w / 256)) (BitVec.ofNat 8 w))
  | 15 => .ok (.andnImm (Fin.ofNat 128 (w / 32768)) (Fin.ofNat 128 (w / 256)) (BitVec.ofNat 8 w))
  | 16 => .ok (.shlImm (Fin.ofNat 128 (w / 32768)) (Fin.ofNat 128 (w / 256)) (BitVec.ofNat 8 w))
  | 17 => .ok (.shrImm (Fin.ofNat 128 (w / 32768)) (Fin.ofNat 128 (w / 256)) (BitVec.ofNat 8 w))
  | 18 => .ok (.sarImm (Fin.ofNat 128 (w / 32768)) (Fin.ofNat 128 (w / 256)) (BitVec.ofNat 8 w))
  | 19 => .ok (.rotlImm (Fin.ofNat 128 (w / 32768)) (Fin.ofNat 128 (w / 256)) (BitVec.ofNat 8 w))
  | 26 => orElse (condOf? ((w / 262144) % 16)) .illegalInstruction fun c => .ok (.icmpImm c (Fin.ofNat 8 (w / 32768)) (Fin.ofNat 128 (w / 256)) (BitVec.ofNat 8 w))
  | _ => .error .illegalInstruction

/-- The L4 class, bits [31:28] = 2 (R31, R40-R50). -/
def decodeL4 (w : Nat) : Decoded :=
  match w / 67108864 % 4 with
  | 0 => .ok (.ffmadc (Fin.ofNat 128 (w / 524288)) (Fin.ofNat 128 (w / 4096)) (Fin.ofNat 128 (w / 32)) (Fin.ofNat 32 w))
  | 1 => .ok (.imuladd (Fin.ofNat 128 (w / 524288)) (Fin.ofNat 128 (w / 4096)) (Fin.ofNat 128 (w / 32)) (Fin.ofNat 32 w))
  | 2 => if (w / 16) % 2 = 0 then .ok (.vsel (Fin.ofNat 128 (w / 524288)) (Fin.ofNat 128 (w / 4096)) (Fin.ofNat 128 (w / 32)) ((w / 8) % 2 == 1) (Fin.ofNat 8 w))
      else .error .illegalInstruction
  | 3 => .ok (.itadd (Fin.ofNat 128 (w / 524288)) (Fin.ofNat 128 (w / 4096)) (Fin.ofNat 128 (w / 32)) (Fin.ofNat 32 w))
  | _ => .error .illegalInstruction

/-- The LM class, bits [31:28] = 3 (R31, R40-R50). -/
def decodeLM (w : Nat) : Decoded :=
  match w / 16777216 % 16 with
  | 0 => .ok (.movi (Fin.ofNat 128 (w / 131072)) ((w / 65536) % 2 == 1) (BitVec.ofNat 16 w))
  | 1 => .ok (.movk (Fin.ofNat 128 (w / 131072)) ((w / 65536) % 2 == 1) (BitVec.ofNat 16 w))
  | 2 => if (w / 65536) % 2 = 0 then .ok (.movsx (Fin.ofNat 128 (w / 131072)) (BitVec.ofNat 16 w))
      else .error .illegalInstruction
  | 3 => if (w / 65536) % 2 = 0 then .ok (.movh (Fin.ofNat 128 (w / 131072)) (BitVec.ofNat 16 w))
      else .error .illegalInstruction
  | _ => .error .illegalInstruction

/-- The LMEM class, bits [31:28] = 4 (R31, R40-R50). -/
def decodeLmem (w : Nat) : Decoded :=
  match w / 8388608 % 32 with
  | 0 => orElse (sizeOf? ((w / 2) % 8)) .illegalOperand fun z => .ok (.ld (Fin.ofNat 128 (w / 65536)) (Fin.ofNat 128 (w / 512)) (BitVec.ofNat 5 (w / 16)) z (w % 2 == 1))
  | 1 => orElse (sizeOf? ((w / 2) % 8)) .illegalOperand fun z => .ok (.st (Fin.ofNat 128 (w / 65536)) (Fin.ofNat 128 (w / 512)) (BitVec.ofNat 5 (w / 16)) z (w % 2 == 1))
  | 2 => if w % 2 = 0 ∧ (w / 16) % 4 = 0 then orElse (sizeOf? ((w / 2) % 8)) .illegalOperand fun z => orElse (scopeOf? ((w / 64) % 8)) .illegalOperand fun s => .ok (.ldAcq (Fin.ofNat 128 (w / 65536)) (Fin.ofNat 128 (w / 512)) s z)
      else .error .illegalInstruction
  | 3 => if w % 2 = 0 ∧ (w / 16) % 4 = 0 then orElse (sizeOf? ((w / 2) % 8)) .illegalOperand fun z => orElse (scopeOf? ((w / 64) % 8)) .illegalOperand fun s => .ok (.stRel (Fin.ofNat 128 (w / 65536)) (Fin.ofNat 128 (w / 512)) s z)
      else .error .illegalInstruction
  | 4 => orElse (sizeOf? ((w / 2) % 8)) .illegalOperand fun z => .ok (.lds (Fin.ofNat 128 (w / 65536)) (Fin.ofNat 128 (w / 512)) (BitVec.ofNat 5 (w / 16)) z (w % 2 == 1))
  | 5 => orElse (sizeOf? ((w / 2) % 8)) .illegalOperand fun z => .ok (.sts (Fin.ofNat 128 (w / 65536)) (Fin.ofNat 128 (w / 512)) (BitVec.ofNat 5 (w / 16)) z (w % 2 == 1))
  | 6 => orElse (sizeOf? ((w / 2) % 8)) .illegalOperand fun z => .ok (.ldc (Fin.ofNat 128 (w / 65536)) (Fin.ofNat 128 (w / 512)) (BitVec.ofNat 5 (w / 16)) z (w % 2 == 1))
  | 7 => orElse (sizeOf? ((w / 2) % 8)) .illegalOperand fun z => .ok (.ldro (Fin.ofNat 128 (w / 65536)) (Fin.ofNat 128 (w / 512)) (BitVec.ofNat 5 (w / 16)) z (w % 2 == 1))
  | 8 => if w % 2 = 0 ∧ (w / 4) % 4 = 2 then orElse (scopeOf? ((w / 64) % 8)) .illegalOperand fun s => .ok (.atomAdd (Fin.ofNat 128 (w / 65536)) (Fin.ofNat 128 (w / 512)) s (ordOf ((w / 16) % 4)) ((w / 2) % 2 == 1))
      else .error .illegalInstruction
  | 9 => if w % 2 = 0 ∧ (w / 4) % 4 = 2 then orElse (scopeOf? ((w / 64) % 8)) .illegalOperand fun s => .ok (.atomMin (Fin.ofNat 128 (w / 65536)) (Fin.ofNat 128 (w / 512)) s (ordOf ((w / 16) % 4)) ((w / 2) % 2 == 1))
      else .error .illegalInstruction
  | 10 => if w % 2 = 0 ∧ (w / 4) % 4 = 2 then orElse (scopeOf? ((w / 64) % 8)) .illegalOperand fun s => .ok (.atomMax (Fin.ofNat 128 (w / 65536)) (Fin.ofNat 128 (w / 512)) s (ordOf ((w / 16) % 4)) ((w / 2) % 2 == 1))
      else .error .illegalInstruction
  | 11 => if w % 2 = 0 ∧ (w / 4) % 4 = 2 then orElse (scopeOf? ((w / 64) % 8)) .illegalOperand fun s => .ok (.atomMinn (Fin.ofNat 128 (w / 65536)) (Fin.ofNat 128 (w / 512)) s (ordOf ((w / 16) % 4)) ((w / 2) % 2 == 1))
      else .error .illegalInstruction
  | 12 => if w % 2 = 0 ∧ (w / 4) % 4 = 2 then orElse (scopeOf? ((w / 64) % 8)) .illegalOperand fun s => .ok (.atomMaxn (Fin.ofNat 128 (w / 65536)) (Fin.ofNat 128 (w / 512)) s (ordOf ((w / 16) % 4)) ((w / 2) % 2 == 1))
      else .error .illegalInstruction
  | 13 => if w % 2 = 0 ∧ (w / 4) % 4 = 2 then orElse (scopeOf? ((w / 64) % 8)) .illegalOperand fun s => .ok (.atomAnd (Fin.ofNat 128 (w / 65536)) (Fin.ofNat 128 (w / 512)) s (ordOf ((w / 16) % 4)) ((w / 2) % 2 == 1))
      else .error .illegalInstruction
  | 14 => if w % 2 = 0 ∧ (w / 4) % 4 = 2 then orElse (scopeOf? ((w / 64) % 8)) .illegalOperand fun s => .ok (.atomOr (Fin.ofNat 128 (w / 65536)) (Fin.ofNat 128 (w / 512)) s (ordOf ((w / 16) % 4)) ((w / 2) % 2 == 1))
      else .error .illegalInstruction
  | 15 => if w % 2 = 0 ∧ (w / 4) % 4 = 2 then orElse (scopeOf? ((w / 64) % 8)) .illegalOperand fun s => .ok (.atomXor (Fin.ofNat 128 (w / 65536)) (Fin.ofNat 128 (w / 512)) s (ordOf ((w / 16) % 4)) ((w / 2) % 2 == 1))
      else .error .illegalInstruction
  | 16 => if w % 2 = 0 ∧ (w / 4) % 4 = 2 then orElse (scopeOf? ((w / 64) % 8)) .illegalOperand fun s => .ok (.atomExch (Fin.ofNat 128 (w / 65536)) (Fin.ofNat 128 (w / 512)) s (ordOf ((w / 16) % 4)) ((w / 2) % 2 == 1))
      else .error .illegalInstruction
  | 17 => if w % 2 = 0 ∧ (w / 4) % 4 = 2 then orElse (scopeOf? ((w / 64) % 8)) .illegalOperand fun s => .ok (.atomCas (Fin.ofNat 128 (w / 65536)) (Fin.ofNat 128 (w / 512)) s (ordOf ((w / 16) % 4)) ((w / 2) % 2 == 1))
      else .error .illegalInstruction
  | 18 => if w % 16 = 8 then orElse (scopeOf? ((w / 64) % 8)) .illegalOperand fun s => .ok (.atomFadd (Fin.ofNat 128 (w / 65536)) (Fin.ofNat 128 (w / 512)) s (ordOf ((w / 16) % 4)))
      else .error .illegalInstruction
  | 19 => if w % 2 = 0 ∧ (w / 4) % 8 = 2 then orElse (scopeOf? ((w / 64) % 8)) .illegalOperand fun s => .ok (.redAdd (Fin.ofNat 128 (w / 65536)) (Fin.ofNat 128 (w / 512)) s ((w / 32) % 2 == 1) ((w / 2) % 2 == 1))
      else .error .illegalInstruction
  | 20 => if w % 32 = 8 then orElse (scopeOf? ((w / 64) % 8)) .illegalOperand fun s => .ok (.redFadd (Fin.ofNat 128 (w / 65536)) (Fin.ofNat 128 (w / 512)) s ((w / 32) % 2 == 1))
      else .error .illegalInstruction
  | 21 => if w % 2 = 0 ∧ (w / 4) % 8 = 2 then orElse (scopeOf? ((w / 64) % 8)) .illegalOperand fun s => .ok (.redMin (Fin.ofNat 128 (w / 65536)) (Fin.ofNat 128 (w / 512)) s ((w / 32) % 2 == 1) ((w / 2) % 2 == 1))
      else .error .illegalInstruction
  | 22 => if w % 2 = 0 ∧ (w / 4) % 8 = 2 then orElse (scopeOf? ((w / 64) % 8)) .illegalOperand fun s => .ok (.redMax (Fin.ofNat 128 (w / 65536)) (Fin.ofNat 128 (w / 512)) s ((w / 32) % 2 == 1) ((w / 2) % 2 == 1))
      else .error .illegalInstruction
  | 23 => if w % 2 = 0 ∧ (w / 4) % 8 = 2 then orElse (scopeOf? ((w / 64) % 8)) .illegalOperand fun s => .ok (.redOr (Fin.ofNat 128 (w / 65536)) (Fin.ofNat 128 (w / 512)) s ((w / 32) % 2 == 1) ((w / 2) % 2 == 1))
      else .error .illegalInstruction
  | 24 => if w % 16 = 8 ∧ (w / 128) % 4 = 0 then .ok (.atomsAdd (Fin.ofNat 128 (w / 65536)) (Fin.ofNat 128 (w / 512)) ((w / 64) % 2 == 1) (ordOf ((w / 16) % 4)))
      else .error .illegalInstruction
  | 25 => if w % 16 = 8 ∧ (w / 128) % 4 = 0 then .ok (.atomsCas (Fin.ofNat 128 (w / 65536)) (Fin.ofNat 128 (w / 512)) ((w / 64) % 2 == 1) (ordOf ((w / 16) % 4)))
      else .error .illegalInstruction
  | 26 => if w % 16 = 8 ∧ (w / 128) % 4 = 0 then .ok (.atomsExch (Fin.ofNat 128 (w / 65536)) (Fin.ofNat 128 (w / 512)) ((w / 64) % 2 == 1) (ordOf ((w / 16) % 4)))
      else .error .illegalInstruction
  | 27 => if w % 16 = 8 ∧ (w / 128) % 4 = 0 then .ok (.atomsFadd (Fin.ofNat 128 (w / 65536)) (Fin.ofNat 128 (w / 512)) ((w / 64) % 2 == 1) (ordOf ((w / 16) % 4)))
      else .error .illegalInstruction
  | 28 => if (w / 65536) % 128 = 0 then orElse (sizeOf? ((w / 2) % 8)) .illegalOperand fun z => .ok (.pf (Fin.ofNat 128 (w / 512)) (BitVec.ofNat 5 (w / 16)) z (w % 2 == 1))
      else .error .illegalInstruction
  | 29 => if w % 2 = 0 ∧ (w / 4) % 16 = 2 then orElse (scopeOf? ((w / 64) % 8)) .illegalOperand fun s => .ok (.atomScAdd (Fin.ofNat 128 (w / 65536)) (Fin.ofNat 128 (w / 512)) s ((w / 2) % 2 == 1))
      else .error .illegalInstruction
  | 30 => if w % 2 = 0 ∧ (w / 4) % 16 = 2 then orElse (scopeOf? ((w / 64) % 8)) .illegalOperand fun s => .ok (.atomScExch (Fin.ofNat 128 (w / 65536)) (Fin.ofNat 128 (w / 512)) s ((w / 2) % 2 == 1))
      else .error .illegalInstruction
  | 31 => if w % 2 = 0 ∧ (w / 4) % 16 = 2 then orElse (scopeOf? ((w / 64) % 8)) .illegalOperand fun s => .ok (.atomScCas (Fin.ofNat 128 (w / 65536)) (Fin.ofNat 128 (w / 512)) s ((w / 2) % 2 == 1))
      else .error .illegalInstruction
  | _ => .error .illegalInstruction

/-- The LX class, bits [31:28] = 5 (R31, R40-R50). -/
def decodeLX (w : Nat) : Decoded :=
  match w / 4194304 % 64 with
  | 0 => if w % 2 = 0 then .ok (.lxgAt (Fin.ofNat 128 (w / 32768)) (Fin.ofNat 128 (w / 256)) (Fin.ofNat 128 (w / 2)))
      else .error .illegalInstruction
  | 1 => if w % 2 = 0 then .ok (.lxgBack (Fin.ofNat 128 (w / 32768)) (Fin.ofNat 128 (w / 256)) (Fin.ofNat 128 (w / 2)))
      else .error .illegalInstruction
  | 2 => if w % 2 = 0 then .ok (.lxgFwd (Fin.ofNat 128 (w / 32768)) (Fin.ofNat 128 (w / 256)) (Fin.ofNat 128 (w / 2)))
      else .error .illegalInstruction
  | 3 => if w % 2 = 0 then .ok (.lxgFlip (Fin.ofNat 128 (w / 32768)) (Fin.ofNat 128 (w / 256)) (Fin.ofNat 128 (w / 2)))
      else .error .illegalInstruction
  | 4 => if w % 256 = 0 ∧ (w / 4096) % 8 = 0 ∧ (w / 262144) % 16 = 0 then .ok (.gpredAny (Fin.ofNat 8 (w / 32768)) ((w / 2048) % 2 == 1) (Fin.ofNat 8 (w / 256)))
      else .error .illegalInstruction
  | 5 => if w % 256 = 0 ∧ (w / 4096) % 8 = 0 ∧ (w / 262144) % 16 = 0 then .ok (.gpredAll (Fin.ofNat 8 (w / 32768)) ((w / 2048) % 2 == 1) (Fin.ofNat 8 (w / 256)))
      else .error .illegalInstruction
  | 6 => if w % 256 = 0 ∧ (w / 4096) % 8 = 0 then .ok (.gpredMask (Fin.ofNat 128 (w / 32768)) ((w / 2048) % 2 == 1) (Fin.ofNat 8 (w / 256)))
      else .error .illegalInstruction
  | 7 => if w % 256 = 0 then .ok (.gpeerEq (Fin.ofNat 128 (w / 32768)) (Fin.ofNat 128 (w / 256)))
      else .error .illegalInstruction
  | 8 => if w % 256 = 0 then .ok (.gpeerUni (Fin.ofNat 128 (w / 32768)) (Fin.ofNat 128 (w / 256)))
      else .error .illegalInstruction
  | 9 => if w % 256 = 0 then .ok (.gredAdd (Fin.ofNat 128 (w / 32768)) (Fin.ofNat 128 (w / 256)))
      else .error .illegalInstruction
  | 10 => if w % 256 = 0 then .ok (.gredFadd (Fin.ofNat 128 (w / 32768)) (Fin.ofNat 128 (w / 256)))
      else .error .illegalInstruction
  | 11 => if w % 2 = 0 ∧ (w / 8) % 32 = 0 then .ok (.gredMin (Fin.ofNat 128 (w / 32768)) (Fin.ofNat 128 (w / 256)) (Fin.ofNat 4 (w / 2)))
      else .error .illegalInstruction
  | 12 => if w % 2 = 0 ∧ (w / 8) % 32 = 0 then .ok (.gredMax (Fin.ofNat 128 (w / 32768)) (Fin.ofNat 128 (w / 256)) (Fin.ofNat 4 (w / 2)))
      else .error .illegalInstruction
  | 13 => if w % 256 = 0 then .ok (.gredAnd (Fin.ofNat 128 (w / 32768)) (Fin.ofNat 128 (w / 256)))
      else .error .illegalInstruction
  | 14 => if w % 256 = 0 then .ok (.gredOr (Fin.ofNat 128 (w / 32768)) (Fin.ofNat 128 (w / 256)))
      else .error .illegalInstruction
  | 15 => if w % 256 = 0 then .ok (.gscanAdd (Fin.ofNat 128 (w / 32768)) (Fin.ofNat 128 (w / 256)))
      else if w % 256 = 1 then .ok (.gscanAddExcl (Fin.ofNat 128 (w / 32768)) (Fin.ofNat 128 (w / 256)))
      else .error .illegalInstruction
  | 16 => if w % 256 = 0 then .ok (.gscanFadd (Fin.ofNat 128 (w / 32768)) (Fin.ofNat 128 (w / 256)))
      else if w % 256 = 1 then .ok (.gscanFaddExcl (Fin.ofNat 128 (w / 32768)) (Fin.ofNat 128 (w / 256)))
      else .error .illegalInstruction
  | 17 => if w % 256 = 0 then .ok (.rcp (Fin.ofNat 128 (w / 32768)) (Fin.ofNat 128 (w / 256)))
      else .error .illegalInstruction
  | 18 => if w % 256 = 0 then .ok (.rsq (Fin.ofNat 128 (w / 32768)) (Fin.ofNat 128 (w / 256)))
      else .error .illegalInstruction
  | 19 => if w % 256 = 0 then .ok (.sqrt (Fin.ofNat 128 (w / 32768)) (Fin.ofNat 128 (w / 256)))
      else .error .illegalInstruction
  | 20 => if w % 256 = 0 then .ok (.ex2 (Fin.ofNat 128 (w / 32768)) (Fin.ofNat 128 (w / 256)))
      else .error .illegalInstruction
  | 21 => if w % 256 = 0 then .ok (.lg2 (Fin.ofNat 128 (w / 32768)) (Fin.ofNat 128 (w / 256)))
      else .error .illegalInstruction
  | 22 => if w % 256 = 0 then .ok (.sin (Fin.ofNat 128 (w / 32768)) (Fin.ofNat 128 (w / 256)))
      else .error .illegalInstruction
  | 23 => if w % 256 = 0 then .ok (.cos (Fin.ofNat 128 (w / 32768)) (Fin.ofNat 128 (w / 256)))
      else .error .illegalInstruction
  | 24 => if w % 256 = 0 then .ok (.tanh (Fin.ofNat 128 (w / 32768)) (Fin.ofNat 128 (w / 256)))
      else .error .illegalInstruction
  | 25 => if w % 2 = 0 then .ok (.fdiv (Fin.ofNat 128 (w / 32768)) (Fin.ofNat 128 (w / 256)) (Fin.ofNat 128 (w / 2)))
      else .error .illegalInstruction
  | 26 => if w % 2 = 0 ∧ (w / 16) % 16 = 0 then .ok (.cvtf (Fin.ofNat 128 (w / 32768)) (Fin.ofNat 128 (w / 256)) (Fin.ofNat 8 (w / 2)))
      else .error .illegalInstruction
  | 27 => if w % 2 = 0 ∧ (w / 16) % 16 = 0 then .ok (.cvti (Fin.ofNat 128 (w / 32768)) (Fin.ofNat 128 (w / 256)) (Fin.ofNat 8 (w / 2)))
      else .error .illegalInstruction
  | 28 => if w % 2 = 0 then .ok (.cvth2 (Fin.ofNat 128 (w / 32768)) (Fin.ofNat 128 (w / 256)) (Fin.ofNat 128 (w / 2)))
      else .error .illegalInstruction
  | 29 => if w % 256 = 0 then .ok (.cvtb4 (Fin.ofNat 128 (w / 32768)) (Fin.ofNat 128 (w / 256)))
      else if w % 256 = 1 then .ok (.cvtb4Q (Fin.ofNat 128 (w / 32768)) (Fin.ofNat 128 (w / 256)))
      else .error .illegalInstruction
  | 30 => if w % 2 = 0 then .ok (.unpk (Fin.ofNat 128 (w / 32768)) (Fin.ofNat 128 (w / 256)) (Fin.ofNat 16 (w / 16)) (Fin.ofNat 8 (w / 2)))
      else .error .illegalInstruction
  | 31 => if w % 256 = 0 then .ok (.cvtdF32 (Fin.ofNat 128 (w / 32768)) (Fin.ofNat 128 (w / 256)))
      else if w % 256 = 1 then .ok (.cvtdF64 (Fin.ofNat 128 (w / 32768)) (Fin.ofNat 128 (w / 256)))
      else .error .illegalInstruction
  | 32 => if w % 2 = 0 ∧ (w / 8) % 32 = 0 then .ok (.cvtdfI (Fin.ofNat 128 (w / 32768)) (Fin.ofNat 128 (w / 256)) (Fin.ofNat 4 (w / 2)))
      else if w % 2 = 1 ∧ (w / 8) % 32 = 0 then .ok (.cvtdfF (Fin.ofNat 128 (w / 32768)) (Fin.ofNat 128 (w / 256)) (Fin.ofNat 4 (w / 2)))
      else .error .illegalInstruction
  | 33 => if w % 256 = 0 then .ok (.qnt (Fin.ofNat 128 (w / 32768)) (Fin.ofNat 128 (w / 256)))
      else .error .illegalInstruction
  | 34 => if w % 2 = 0 ∧ (w / 32) % 8 = 0 ∧ (w / 262144) % 16 = 0 then .ok (.plop (Fin.ofNat 8 (w / 32768)) (Fin.ofNat 8 (w / 4096)) ((w / 2048) % 2 == 1) (Fin.ofNat 8 (w / 256)) ((w / 16) % 2 == 1) (Fin.ofNat 8 (w / 2)))
      else .error .illegalInstruction
  | 35 => if w % 32768 = 0 then .ok (.p2v (Fin.ofNat 128 (w / 32768)))
      else .error .illegalInstruction
  | 36 => if w % 2 = 0 ∧ (w / 64) % 4 = 0 ∧ (w / 262144) % 16 = 0 then .ok (.v2p (Fin.ofNat 8 (w / 32768)) (Fin.ofNat 128 (w / 256)) (Fin.ofNat 32 (w / 2)))
      else .error .illegalInstruction
  | 37 => if w % 2 = 0 ∧ (w / 256) % 128 = 0 then .ok (.sysv (Fin.ofNat 128 (w / 32768)) (Fin.ofNat 128 (w / 2)))
      else .error .illegalInstruction
  | 38 => if w % 2 = 0 ∧ (w / 256) % 128 = 0 then .ok (.vmask (Fin.ofNat 128 (w / 32768)) (Fin.ofNat 128 (w / 2)))
      else .error .illegalInstruction
  | _ => .error .illegalInstruction

/-- The LC class, bits [31:28] = 6 (R31, R40-R50). -/
def decodeLC (w : Nat) : Decoded :=
  match w / 16777216 % 16 with
  | 0 => .ok (.brDiv (Fin.ofNat 8 (w / 2097152)) ((w / 1048576) % 2 == 1) (BitVec.ofNat 20 w))
  | 1 => if w % 1048576 = 0 then .ok (.bmeld (Fin.ofNat 8 (w / 2097152)) ((w / 1048576) % 2 == 1))
      else .error .illegalInstruction
  | 2 => if w % 16777216 = 0 then .ok .emeld
      else .error .illegalInstruction
  | 3 => if (w / 1048576) % 16 = 0 then .ok (.rejoinSet (BitVec.ofNat 20 w))
      else .error .illegalInstruction
  | 4 => if w % 16777216 = 0 then .ok .rejoin
      else .error .illegalInstruction
  | 5 => if w % 16777216 = 0 then .ok .exit
      else .error .illegalInstruction
  | 6 => if w % 131072 = 0 then .ok (.hold (Fin.ofNat 128 (w / 131072)))
      else .error .illegalInstruction
  | 7 => if (w / 65536) % 16 = 0 then .ok (.trapP (Fin.ofNat 8 (w / 2097152)) ((w / 1048576) % 2 == 1) (BitVec.ofNat 16 w))
      else .error .illegalInstruction
  | 8 => if (w / 65536) % 256 = 0 then .ok (.bpt (BitVec.ofNat 16 w))
      else .error .illegalInstruction
  | _ => .error .illegalInstruction

/-- The LE class, bits [31:28] = 7 (R31, R40-R50). -/
def decodeLE (w : Nat) : Decoded :=
  match w / 16777216 % 16 with
  | 0 => if w % 16 = 0 then .ok (.rstv (Fin.ofNat 128 (w / 131072)) (Fin.ofNat 64 (w / 2048)) (Fin.ofNat 128 (w / 16)))
      else .error .illegalInstruction
  | 1 => if w % 16 = 0 then .ok (.coll (Fin.ofNat 128 (w / 131072)) (Fin.ofNat 128 (w / 1024)) (Fin.ofNat 64 (w / 16)))
      else .error .illegalInstruction
  | _ => .error .illegalInstruction

/-- The UR class, bits [31:28] = 8 (R31, R40-R50). -/
def decodeUR (w : Nat) : Decoded :=
  match w / 4194304 % 64 with
  | 0 => orElse (guardOf? ((w / 2) % 8) (w % 2)) .illegalInstruction fun g => .ok (.sadd (Fin.ofNat 64 (w / 65536)) (Fin.ofNat 64 (w / 1024)) (Fin.ofNat 64 (w / 16)) g)
  | 1 => orElse (guardOf? ((w / 2) % 8) (w % 2)) .illegalInstruction fun g => .ok (.ssub (Fin.ofNat 64 (w / 65536)) (Fin.ofNat 64 (w / 1024)) (Fin.ofNat 64 (w / 16)) g)
  | 2 => orElse (guardOf? ((w / 2) % 8) (w % 2)) .illegalInstruction fun g => .ok (.smul (Fin.ofNat 64 (w / 65536)) (Fin.ofNat 64 (w / 1024)) (Fin.ofNat 64 (w / 16)) g)
  | 3 => orElse (guardOf? ((w / 2) % 8) (w % 2)) .illegalInstruction fun g => .ok (.smulh (Fin.ofNat 64 (w / 65536)) (Fin.ofNat 64 (w / 1024)) (Fin.ofNat 64 (w / 16)) g)
  | 4 => orElse (guardOf? ((w / 2) % 8) (w % 2)) .illegalInstruction fun g => .ok (.smin (Fin.ofNat 64 (w / 65536)) (Fin.ofNat 64 (w / 1024)) (Fin.ofNat 64 (w / 16)) g)
  | 5 => orElse (guardOf? ((w / 2) % 8) (w % 2)) .illegalInstruction fun g => .ok (.smax (Fin.ofNat 64 (w / 65536)) (Fin.ofNat 64 (w / 1024)) (Fin.ofNat 64 (w / 16)) g)
  | 6 => orElse (guardOf? ((w / 2) % 8) (w % 2)) .illegalInstruction fun g => .ok (.sminn (Fin.ofNat 64 (w / 65536)) (Fin.ofNat 64 (w / 1024)) (Fin.ofNat 64 (w / 16)) g)
  | 7 => orElse (guardOf? ((w / 2) % 8) (w % 2)) .illegalInstruction fun g => .ok (.smaxn (Fin.ofNat 64 (w / 65536)) (Fin.ofNat 64 (w / 1024)) (Fin.ofNat 64 (w / 16)) g)
  | 8 => orElse (guardOf? ((w / 2) % 8) (w % 2)) .illegalInstruction fun g => .ok (.sand (Fin.ofNat 64 (w / 65536)) (Fin.ofNat 64 (w / 1024)) (Fin.ofNat 64 (w / 16)) g)
  | 9 => orElse (guardOf? ((w / 2) % 8) (w % 2)) .illegalInstruction fun g => .ok (.sor (Fin.ofNat 64 (w / 65536)) (Fin.ofNat 64 (w / 1024)) (Fin.ofNat 64 (w / 16)) g)
  | 10 => orElse (guardOf? ((w / 2) % 8) (w % 2)) .illegalInstruction fun g => .ok (.sxor (Fin.ofNat 64 (w / 65536)) (Fin.ofNat 64 (w / 1024)) (Fin.ofNat 64 (w / 16)) g)
  | 11 => orElse (guardOf? ((w / 2) % 8) (w % 2)) .illegalInstruction fun g => .ok (.sshl (Fin.ofNat 64 (w / 65536)) (Fin.ofNat 64 (w / 1024)) (Fin.ofNat 64 (w / 16)) g)
  | 12 => orElse (guardOf? ((w / 2) % 8) (w % 2)) .illegalInstruction fun g => .ok (.sshr (Fin.ofNat 64 (w / 65536)) (Fin.ofNat 64 (w / 1024)) (Fin.ofNat 64 (w / 16)) g)
  | 13 => orElse (guardOf? ((w / 2) % 8) (w % 2)) .illegalInstruction fun g => .ok (.ssar (Fin.ofNat 64 (w / 65536)) (Fin.ofNat 64 (w / 1024)) (Fin.ofNat 64 (w / 16)) g)
  | 14 => orElse (guardOf? ((w / 2) % 8) (w % 2)) .illegalInstruction fun g => .ok (.ssetp (scondOf ((w / 524288) % 8)) (Fin.ofNat 8 (w / 65536)) (Fin.ofNat 64 (w / 1024)) (Fin.ofNat 64 (w / 16)) g)
  | 15 => .ok (.ssel (Fin.ofNat 64 (w / 65536)) (Fin.ofNat 64 (w / 1024)) (Fin.ofNat 64 (w / 16)) (Fin.ofNat 8 (w / 2)) (w % 2 == 1))
  | 16 => if (w / 16) % 64 = 0 then orElse (guardOf? ((w / 2) % 8) (w % 2)) .illegalInstruction fun g => .ok (.smov (Fin.ofNat 64 (w / 65536)) (Fin.ofNat 64 (w / 1024)) g)
      else .error .illegalInstruction
  | 17 => if (w / 16) % 64 = 0 then orElse (guardOf? ((w / 2) % 8) (w % 2)) .illegalInstruction fun g => .ok (.spopc (Fin.ofNat 64 (w / 65536)) (Fin.ofNat 64 (w / 1024)) g)
      else .error .illegalInstruction
  | 18 => if (w / 16) % 64 = 0 then orElse (guardOf? ((w / 2) % 8) (w % 2)) .illegalInstruction fun g => .ok (.sclz (Fin.ofNat 64 (w / 65536)) (Fin.ofNat 64 (w / 1024)) g)
      else .error .illegalInstruction
  | 19 => orElse (guardOf? ((w / 2) % 8) (w % 2)) .illegalInstruction fun g => .ok (.saddw (Fin.ofNat 64 (w / 65536)) (Fin.ofNat 64 (w / 1024)) (Fin.ofNat 64 (w / 16)) g)
  | 20 => if (w / 32) % 32 = 0 then orElse (guardOf? ((w / 2) % 8) (w % 2)) .illegalInstruction fun g => .ok (.sgetv (Fin.ofNat 64 (w / 65536)) (Fin.ofNat 64 (w / 1024)) ((w / 16) % 2 == 1) g)
      else .error .illegalInstruction
  | 21 => if (w / 256) % 4 = 0 ∧ (w / 524288) % 8 = 0 then orElse (guardOf? ((w / 2) % 8) (w % 2)) .illegalInstruction fun g => .ok (.qlop (Fin.ofNat 8 (w / 65536)) (Fin.ofNat 4 (w / 16384)) ((w / 8192) % 2 == 1) (Fin.ofNat 8 (w / 1024)) ((w / 128) % 2 == 1) (Fin.ofNat 8 (w / 16)) g)
      else .error .illegalInstruction
  | 22 => if (w / 16) % 4096 = 0 then orElse (guardOf? ((w / 2) % 8) (w % 2)) .illegalInstruction fun g => .ok (.q2s (Fin.ofNat 64 (w / 65536)) g)
      else .error .illegalInstruction
  | 23 => if (w / 16) % 64 = 0 ∧ (w / 65536) % 64 = 0 then orElse (guardOf? ((w / 2) % 8) (w % 2)) .illegalInstruction fun g => .ok (.s2q (Fin.ofNat 64 (w / 1024)) g)
      else .error .illegalInstruction
  | _ => .error .illegalInstruction

/-- The UI class, bits [31:28] = 9 (R31, R40-R50). -/
def decodeUI (w : Nat) : Decoded :=
  match w / 4194304 % 64 with
  | 0 => .ok (.saddImm (Fin.ofNat 64 (w / 65536)) (Fin.ofNat 64 (w / 1024)) (BitVec.ofNat 10 w))
  | 1 => .ok (.ssubImm (Fin.ofNat 64 (w / 65536)) (Fin.ofNat 64 (w / 1024)) (BitVec.ofNat 10 w))
  | 2 => .ok (.smulImm (Fin.ofNat 64 (w / 65536)) (Fin.ofNat 64 (w / 1024)) (BitVec.ofNat 10 w))
  | 4 => .ok (.sminImm (Fin.ofNat 64 (w / 65536)) (Fin.ofNat 64 (w / 1024)) (BitVec.ofNat 10 w))
  | 5 => .ok (.smaxImm (Fin.ofNat 64 (w / 65536)) (Fin.ofNat 64 (w / 1024)) (BitVec.ofNat 10 w))
  | 6 => .ok (.sminnImm (Fin.ofNat 64 (w / 65536)) (Fin.ofNat 64 (w / 1024)) (BitVec.ofNat 10 w))
  | 7 => .ok (.smaxnImm (Fin.ofNat 64 (w / 65536)) (Fin.ofNat 64 (w / 1024)) (BitVec.ofNat 10 w))
  | 8 => .ok (.sandImm (Fin.ofNat 64 (w / 65536)) (Fin.ofNat 64 (w / 1024)) (BitVec.ofNat 10 w))
  | 9 => .ok (.sorImm (Fin.ofNat 64 (w / 65536)) (Fin.ofNat 64 (w / 1024)) (BitVec.ofNat 10 w))
  | 10 => .ok (.sxorImm (Fin.ofNat 64 (w / 65536)) (Fin.ofNat 64 (w / 1024)) (BitVec.ofNat 10 w))
  | 11 => .ok (.sshlImm (Fin.ofNat 64 (w / 65536)) (Fin.ofNat 64 (w / 1024)) (BitVec.ofNat 10 w))
  | 12 => .ok (.sshrImm (Fin.ofNat 64 (w / 65536)) (Fin.ofNat 64 (w / 1024)) (BitVec.ofNat 10 w))
  | 13 => .ok (.ssarImm (Fin.ofNat 64 (w / 65536)) (Fin.ofNat 64 (w / 1024)) (BitVec.ofNat 10 w))
  | 14 => .ok (.ssetpImm (scondOf ((w / 524288) % 8)) (Fin.ofNat 8 (w / 65536)) (Fin.ofNat 64 (w / 1024)) (BitVec.ofNat 10 w))
  | 19 => .ok (.saddwImm (Fin.ofNat 64 (w / 65536)) (Fin.ofNat 64 (w / 1024)) (BitVec.ofNat 10 w))
  | _ => .error .illegalInstruction

/-- The UM class, bits [31:28] = 10 (R31, R40-R50). -/
def decodeUM (w : Nat) : Decoded :=
  match w / 16777216 % 16 with
  | 0 => .ok (.smovi (Fin.ofNat 64 (w / 262144)) (Fin.ofNat 4 (w / 65536)) (BitVec.ofNat 16 w))
  | 1 => .ok (.smovk (Fin.ofNat 64 (w / 262144)) (Fin.ofNat 4 (w / 65536)) (BitVec.ofNat 16 w))
  | 2 => if (w / 65536) % 4 = 0 then .ok (.smovsx (Fin.ofNat 64 (w / 262144)) (BitVec.ofNat 16 w))
      else .error .illegalInstruction
  | 3 => if (w / 65536) % 4 = 0 then .ok (.sadr (Fin.ofNat 64 (w / 262144)) (BitVec.ofNat 16 w))
      else .error .illegalInstruction
  | _ => .error .illegalInstruction

/-- The UB class, bits [31:28] = 11 (R31, R40-R50). -/
def decodeUB (w : Nat) : Decoded :=
  match w / 16777216 % 16 with
  | 0 => orElse (guardOf? ((w / 2097152) % 8) ((w / 1048576) % 2)) .illegalInstruction fun g => .ok (.bra g (BitVec.ofNat 20 w))
  | 1 => orElse (guardOf? ((w / 2097152) % 8) ((w / 1048576) % 2)) .illegalInstruction fun g => .ok (.call g (BitVec.ofNat 20 w))
  | 2 => if w % 1048576 = 0 then orElse (guardOf? ((w / 2097152) % 8) ((w / 1048576) % 2)) .illegalInstruction fun g => .ok (.ret g)
      else .error .illegalInstruction
  | 3 => if (w / 64) % 16384 = 0 then orElse (guardOf? ((w / 2097152) % 8) ((w / 1048576) % 2)) .illegalInstruction fun g => .ok (.brx g (Fin.ofNat 64 w))
      else .error .illegalInstruction
  | 4 => orElse (guardOf? ((w / 2097152) % 8) ((w / 1048576) % 2)) .illegalInstruction fun g => .ok (.loop g (Fin.ofNat 64 (w / 16384)) (BitVec.ofNat 14 w))
  | _ => .error .illegalInstruction

/-- The UMEM class, bits [31:28] = 12 (R31, R40-R50). -/
def decodeUmem (w : Nat) : Decoded :=
  match w / 8388608 % 32 with
  | 0 => .ok (.sldB64 (Fin.ofNat 64 (w / 131072)) (Fin.ofNat 64 (w / 2048)) (BitVec.ofNat 11 w))
  | 1 => .ok (.sldB32 (Fin.ofNat 64 (w / 131072)) (Fin.ofNat 64 (w / 2048)) (BitVec.ofNat 11 w))
  | 2 => .ok (.sstB64 (Fin.ofNat 64 (w / 131072)) (Fin.ofNat 64 (w / 2048)) (BitVec.ofNat 11 w))
  | 3 => .ok (.sstB32 (Fin.ofNat 64 (w / 131072)) (Fin.ofNat 64 (w / 2048)) (BitVec.ofNat 11 w))
  | 4 => .ok (.sldc (Fin.ofNat 64 (w / 131072)) (Fin.ofNat 64 (w / 2048)) (BitVec.ofNat 11 w))
  | 5 => .ok (.slds (Fin.ofNat 64 (w / 131072)) (Fin.ofNat 64 (w / 2048)) (BitVec.ofNat 11 w))
  | 6 => .ok (.ssts (Fin.ofNat 64 (w / 131072)) (Fin.ofNat 64 (w / 2048)) (BitVec.ofNat 11 w))
  | 7 => if w % 2048 = 0 then .ok (.satomAdd (Fin.ofNat 64 (w / 131072)) (Fin.ofNat 64 (w / 2048)))
      else .error .illegalInstruction
  | 8 => if w % 2048 = 0 then .ok (.satomCas (Fin.ofNat 64 (w / 131072)) (Fin.ofNat 64 (w / 2048)))
      else .error .illegalInstruction
  | 9 => if w % 2048 = 0 then .ok (.satomExch (Fin.ofNat 64 (w / 131072)) (Fin.ofNat 64 (w / 2048)))
      else .error .illegalInstruction
  | _ => .error .illegalInstruction

/-- The USYS class, bits [31:28] = 13 (R31, R40-R50). -/
noncomputable def decodeUsys (w : Nat) : Decoded :=
  match w / 4194304 % 64 with
  | 0 => .ok (.srd (Fin.ofNat 64 (w / 65536)) (BitVec.ofNat 16 w))
  | 1 => .ok (.swr (Fin.ofNat 64 (w / 65536)) (BitVec.ofNat 16 w))
  | 2 => if (w / 8) % 8 = 0 ∧ (w / 512) % 8192 = 0 then orElse (scopeOf? (w % 8)) .illegalOperand fun s => .ok (.fenceAcq (Fin.ofNat 8 (w / 64)) s)
      else if (w / 8) % 8 = 1 ∧ (w / 512) % 8192 = 0 then orElse (scopeOf? (w % 8)) .illegalOperand fun s => .ok (.fenceRel (Fin.ofNat 8 (w / 64)) s)
      else if (w / 8) % 8 = 2 ∧ (w / 512) % 8192 = 0 then orElse (scopeOf? (w % 8)) .illegalOperand fun s => .ok (.fenceAr (Fin.ofNat 8 (w / 64)) s)
      else if (w / 8) % 8 = 3 ∧ (w / 512) % 8192 = 0 then orElse (scopeOf? (w % 8)) .illegalOperand fun s => .ok (.fenceSc (Fin.ofNat 8 (w / 64)) s)
      else .error .illegalInstruction
  | 3 => if (w / 8) % 524288 = 0 then orElse (scopeOf? (w % 8)) .illegalOperand fun s => .ok (.fenceLayout s)
      else .error .illegalInstruction
  | 4 => if (w / 8) % 524288 = 0 then orElse (scopeOf? (w % 8)) .illegalOperand fun s => .ok (.icinv s)
      else .error .illegalInstruction
  | 5 => if (w / 65536) % 64 = 0 then .ok (.fmtset (BitVec.ofNat 16 w))
      else .error .illegalInstruction
  | 6 => if w % 65536 = 0 then .ok (.fmtsetr (Fin.ofNat 64 (w / 65536)))
      else .error .illegalInstruction
  | 7 => if (w / 65536) % 64 = 0 then .ok (.trap (BitVec.ofNat 16 w))
      else .error .illegalInstruction
  | 8 => if w % 4194304 = 0 then .ok .rft
      else .error .illegalInstruction
  | 9 => if w % 4194304 = 0 then .ok .yldDone
      else .error .illegalInstruction
  | 10 => if w % 4194304 = 0 then .ok .yield
      else .error .illegalInstruction
  | 11 => if w % 4194304 = 0 then .ok .trig
      else .error .illegalInstruction
  | 12 => if w % 65536 = 0 then .ok (.nameget (Fin.ofNat 64 (w / 65536)))
      else .error .illegalInstruction
  | 13 => if w % 4194304 = 0 then .ok .nameput
      else .error .illegalInstruction
  | 14 => if w % 65536 = 0 then .ok (.nameq (Fin.ofNat 64 (w / 65536)))
      else .error .illegalInstruction
  | 15 => if (w / 2) % 32768 = 0 then .ok (.mmap (Fin.ofNat 64 (w / 65536)) (w % 2 == 1))
      else .error .illegalInstruction
  | 16 => if (w / 4) % 1048576 = 0 then .ok (.mclr (Fin.ofNat 4 w))
      else .error .illegalInstruction
  | 17 => if w % 65536 = 0 then .ok (.setmm (Fin.ofNat 64 (w / 65536)))
      else .error .illegalInstruction
  | 18 => if (w / 8) % 8192 = 0 then .ok (.objRead (Fin.ofNat 64 (w / 65536)) (Fin.ofNat 8 w))
      else if (w / 8) % 8192 = 1 then .ok (.objPriv (Fin.ofNat 64 (w / 65536)) (Fin.ofNat 8 w))
      else .error .illegalInstruction
  | 19 => if w % 65536 = 0 then .ok (.objrel (Fin.ofNat 64 (w / 65536)))
      else .error .illegalInstruction
  | _ => .error .illegalInstruction

/-- The UE class, bits [31:28] = 14 (R31, R40-R50). -/
noncomputable def decodeUE (w : Nat) : Decoded :=
  match w / 4194304 % 64 with
  | 0 => if (w / 16) % 262144 = 0 then .ok (.barArr (Fin.ofNat 16 w))
      else .error .illegalInstruction
  | 1 => if (w / 16) % 262144 = 0 then .ok (.barWait (Fin.ofNat 16 w))
      else .error .illegalInstruction
  | 2 => if (w / 16) % 262144 = 0 then .ok (.barSync (Fin.ofNat 16 w))
      else .error .illegalInstruction
  | 3 => if (w / 16) % 4096 = 0 then .ok (.barInit (Fin.ofNat 64 (w / 65536)) (Fin.ofNat 16 w))
      else .error .illegalInstruction
  | 4 => if (w / 16) % 4096 = 0 then .ok (.barExpect (Fin.ofNat 64 (w / 65536)) (Fin.ofNat 16 w))
      else .error .illegalInstruction
  | 5 => if (w / 16) % 64 = 0 then .ok (.cpySlice (Fin.ofNat 64 (w / 65536)) (Fin.ofNat 64 (w / 1024)) (Fin.ofNat 16 w))
      else .error .illegalInstruction
  | 6 => if (w / 16) % 64 = 0 then .ok (.cpyxSlice (Fin.ofNat 64 (w / 65536)) (Fin.ofNat 64 (w / 1024)) (Fin.ofNat 16 w))
      else .error .illegalInstruction
  | 7 => if (w / 16) % 64 = 0 then .ok (.mcst (Fin.ofNat 64 (w / 65536)) (Fin.ofNat 64 (w / 1024)) (Fin.ofNat 16 w))
      else .error .illegalInstruction
  | 8 => if (w / 16) % 64 = 0 then .ok (.lbufReg (Fin.ofNat 64 (w / 65536)) (Fin.ofNat 64 (w / 1024)) (Fin.ofNat 16 w))
      else .error .illegalInstruction
  | 9 => if w % 65536 = 0 then .ok (.lbufFree (Fin.ofNat 64 (w / 65536)))
      else .error .illegalInstruction
  | 10 => if w % 65536 = 0 then .ok (.lbufDrop (Fin.ofNat 64 (w / 65536)))
      else .error .illegalInstruction
  | 11 => .ok (.fxfer (Fin.ofNat 64 (w / 65536)) (Fin.ofNat 64 (w / 1024)) (Fin.ofNat 64 (w / 16)) (Fin.ofNat 16 w))
  | 12 => if (w / 16) % 4096 = 0 then .ok (.arrcSet (Fin.ofNat 64 (w / 65536)) (Fin.ofNat 16 w))
      else .error .illegalInstruction
  | 13 => if (w / 16) % 262144 = 0 then .ok (.arrcWait (Fin.ofNat 16 w))
      else .error .illegalInstruction
  | 14 => if w % 1024 = 0 then .ok (.collForm (Fin.ofNat 64 (w / 65536)) (Fin.ofNat 64 (w / 1024)))
      else .error .illegalInstruction
  | 15 => if w % 1024 = 0 then .ok (.collWait (Fin.ofNat 64 (w / 65536)) (Fin.ofNat 64 (w / 1024)))
      else .error .illegalInstruction
  | 16 => if w % 65536 = 0 then .ok (.collAbort (Fin.ofNat 64 (w / 65536)))
      else .error .illegalInstruction
  | 17 => if w % 1024 = 0 then .ok (.collReform (Fin.ofNat 64 (w / 65536)) (Fin.ofNat 64 (w / 1024)))
      else .error .illegalInstruction
  | 18 => if w % 65536 = 0 then .ok (.fork (Fin.ofNat 64 (w / 65536)))
      else .error .illegalInstruction
  | 19 => if w % 65536 = 0 then .ok (.joinw (Fin.ofNat 64 (w / 65536)))
      else .error .illegalInstruction
  | 20 => if w % 1024 = 0 then .ok (.vattrQ (Fin.ofNat 64 (w / 65536)) (Fin.ofNat 64 (w / 1024)))
      else if w % 1024 = 1 then .ok (.vattrRsv (Fin.ofNat 64 (w / 65536)) (Fin.ofNat 64 (w / 1024)))
      else .error .illegalInstruction
  | 21 => if w % 16 = 0 then .ok (.mxStart (Fin.ofNat 64 (w / 65536)) (Fin.ofNat 64 (w / 1024)) (Fin.ofNat 64 (w / 16)))
      else .error .illegalInstruction
  | 22 => if (w / 8) % 524288 = 0 then .ok (.mbarArr (Fin.ofNat 8 w))
      else .error .illegalInstruction
  | 23 => if (w / 8) % 524288 = 0 then .ok (.mbarWait (Fin.ofNat 8 w))
      else .error .illegalInstruction
  | _ => .error .illegalInstruction

/-- The MX class, bits [31:28] = 15 (R31, R40-R50). -/
noncomputable def decodeMX (w : Nat) : Decoded :=
  match w / 4194304 % 64 with
  | 0 => if w % 131072 = 0 then .ok (.mxacq (Fin.ofNat 4 (w / 1048576)) (Fin.ofNat 4 (w / 262144)) ((w / 131072) % 2 == 1))
      else .error .illegalInstruction
  | 1 => if w % 4194304 = 0 then .ok .mxrel
      else .error .illegalInstruction
  | 2 => if w % 256 = 0 then .ok (.tclm (Fin.ofNat 4 (w / 1048576)) (Fin.ofNat 64 (w / 16384)) (Fin.ofNat 64 (w / 256)))
      else .error .illegalInstruction
  | 3 => if w % 256 = 0 ∧ (w / 1048576) % 4 = 0 then .ok (.trel (Fin.ofNat 64 (w / 16384)) (Fin.ofNat 64 (w / 256)))
      else .error .illegalInstruction
  | 4 => if w % 256 = 0 then .ok (.tld (Fin.ofNat 64 (w / 65536)) (Fin.ofNat 16 (w / 4096)) (Fin.ofNat 16 (w / 256)))
      else if w % 256 = 64 then .ok (.tldSp (Fin.ofNat 64 (w / 65536)) (Fin.ofNat 16 (w / 4096)) (Fin.ofNat 16 (w / 256)))
      else .error .illegalInstruction
  | 5 => if w % 32 = 0 then .ok (.mma (Fin.ofNat 32 (w / 131072)) (Fin.ofNat 64 (w / 2048)) (Fin.ofNat 64 (w / 32)))
      else .error .illegalInstruction
  | 6 => if w % 32 = 0 then .ok (.mmas (Fin.ofNat 32 (w / 131072)) (Fin.ofNat 64 (w / 2048)) (Fin.ofNat 64 (w / 32)))
      else .error .illegalInstruction
  | 7 => if w % 4096 = 0 then .ok (.accz (Fin.ofNat 32 (w / 131072)) (Fin.ofNat 32 (w / 4096)))
      else .error .illegalInstruction
  | 8 => if w % 256 = 0 ∧ (w / 65536) % 2 = 0 then .ok (.accst (Fin.ofNat 32 (w / 131072)) (Fin.ofNat 16 (w / 4096)) (Fin.ofNat 16 (w / 256)))
      else .error .illegalInstruction
  | 9 => if w % 256 = 0 ∧ (w / 65536) % 2 = 0 then .ok (.accld (Fin.ofNat 32 (w / 131072)) (Fin.ofNat 16 (w / 4096)) (Fin.ofNat 16 (w / 256)))
      else .error .illegalInstruction
  | 10 => .ok (.mfmt (BitVec.ofNat 7 (w / 32768)) (BitVec.ofNat 7 (w / 256)) (Fin.ofNat 16 (w / 16)) (Fin.ofNat 16 w))
  | 11 => if w % 4096 = 0 then .ok (.dmap (Fin.ofNat 64 (w / 65536)) (Fin.ofNat 16 (w / 4096)))
      else .error .illegalInstruction
  | 12 => if w % 524288 = 0 then .ok (.mxbarArr (Fin.ofNat 8 (w / 524288)))
      else .error .illegalInstruction
  | 13 => if w % 524288 = 0 then .ok (.mxbarWait (Fin.ofNat 8 (w / 524288)))
      else .error .illegalInstruction
  | 14 => .ok (.kmovi (Fin.ofNat 16 (w / 262144)) (Fin.ofNat 4 (w / 65536)) (BitVec.ofNat 16 w))
  | 15 => if (w / 8192) % 2 = 0 then .ok (.kadd (Fin.ofNat 16 (w / 262144)) (Fin.ofNat 16 (w / 16384)) (BitVec.ofNat 13 w))
      else if w % 512 = 0 ∧ (w / 8192) % 2 = 1 then .ok (.kaddReg (Fin.ofNat 16 (w / 262144)) (Fin.ofNat 16 (w / 16384)) (Fin.ofNat 16 (w / 512)))
      else .error .illegalInstruction
  | 16 => if (w / 262144) % 16 = 0 then .ok (.kbraKq (Fin.ofNat 4 (w / 65536)) (BitVec.ofNat 16 w))
      else if (w / 262144) % 16 = 1 then .ok (.kbraNkq (Fin.ofNat 4 (w / 65536)) (BitVec.ofNat 16 w))
      else if (w / 65536) % 64 = 16 then .ok (.kbra (BitVec.ofNat 16 w))
      else if (w / 1048576) % 4 = 2 then .ok (.kbraDec (Fin.ofNat 16 (w / 65536)) (BitVec.ofNat 16 w))
      else .error .illegalInstruction
  | 17 => if w % 4194304 = 0 then .ok .mend
      else .error .illegalInstruction
  | _ => .error .illegalInstruction

/-- The class of a word chooses its table (R31). -/
noncomputable def decodeRow (w : Nat) : Decoded :=
  match w / 268435456 % 16 with
  | 0 => decodeLR w
  | 1 => decodeLI w
  | 2 => decodeL4 w
  | 3 => decodeLM w
  | 4 => decodeLmem w
  | 5 => decodeLX w
  | 6 => decodeLC w
  | 7 => decodeLE w
  | 8 => decodeUR w
  | 9 => decodeUI w
  | 10 => decodeUM w
  | 11 => decodeUB w
  | 12 => decodeUmem w
  | 13 => decodeUsys w
  | 14 => decodeUE w
  | _ => decodeMX w

/-- Words of an assigned member whose fault is in an operand field and not in a must-be-zero field: an SZ or SCOPE
that an atomic or reduction does not accept, BS = 0 or B[6] = 1 in `movs`, B[3] = 1 in a matrix-barrier member, a
fence kind from 100 (R40, R42, R48, R198, R275-R279). -/
def operandFault (w : Nat) : Bool :=
  let fn5 := w / 8388608 % 32
  if w / 268435456 % 16 = 4 then
    (8 ≤ fn5 && fn5 ≤ 18 && w % 2 == 0) ||
    (19 ≤ fn5 && fn5 ≤ 23 && w % 2 == 0 && w / 16 % 2 == 0) ||
    (24 ≤ fn5 && fn5 ≤ 27 && w % 2 == 0) ||
    (29 ≤ fn5 && w % 2 == 0 && w / 16 % 4 == 0)
  else if w / 4194304 = 53 then w / 256 % 128 == 0
  else if w / 4194304 = 918 ∨ w / 4194304 = 919 then w / 16 % 262144 == 0
  else if w / 4194304 = 834 then w / 65536 % 64 == 0 && w / 512 % 128 == 0
  else false

/-- What a table row gives, with the operand checks of R51 point 3: first the must-be-zero fields, reserved codes, modifiers
and condition codes, then the operand fields (R39). -/
def checkRow (w : Nat) (r : Decoded) : Decoded :=
  match r with
  | .ok i =>
    match i.check with
    | none => .ok i
    | some e => .error e
  | .error .illegalOperand => .error .illegalOperand
  | .error .illegalInstruction =>
    if operandFault w then .error .illegalOperand else .error .illegalInstruction

/-- Decoding of one word (R39, R51 point 3). -/
noncomputable def decode (w : Nat) : Decoded := checkRow w (decodeRow w)

/-- A little-endian word of four bytes (R5, R22). -/
def wordOfBytes (bs : List Byte) : Nat :=
  bs.foldr (fun b n => b.toNat + 256 * n) 0

/-- The bytes of a word, lowest address first. -/
def bytesOfWord (w : Nat) : List Byte :=
  [BitVec.ofNat 8 w, BitVec.ofNat 8 (w / 256), BitVec.ofNat 8 (w / 65536), BitVec.ofNat 8 (w / 16777216)]

/-- The instruction the decoder reads from the bytes of a word. -/
noncomputable def decodeBytes (bs : List Byte) : Decoded := decode (wordOfBytes bs)

/-- The instruction of a 32-bit opcode-table word laid out as the hardware stores it; none where the decoder
refuses. Event rows carry no word. -/
noncomputable def decodeTableWord (nbits w : Nat) : Option Instr :=
  if nbits = 0 then none
  else match decodeBytes (bytesOfWord w) with
    | .ok i => some i
    | .error _ => none

/-- The word of a well-formed instruction (02 R40-R50 and the encodings of each chapter); events have none. -/
def encode : Instr → Option Nat
  | .iadd d a b => some (0 + d.val * 32768 + a.val * 256 + bopField b * 2 + bopBS b)
  | .iaddImm d a i => some (268435456 + d.val * 32768 + a.val * 256 + i.toNat)
  | .isub d a b => some (4194304 + d.val * 32768 + a.val * 256 + bopField b * 2 + bopBS b)
  | .isubImm d a i => some (272629760 + d.val * 32768 + a.val * 256 + i.toNat)
  | .iadds d a b => some (8388608 + d.val * 32768 + a.val * 256 + bopField b * 2 + bopBS b)
  | .iaddsImm d a i => some (276824064 + d.val * 32768 + a.val * 256 + i.toNat)
  | .iaddsn d a b => some (12582912 + d.val * 32768 + a.val * 256 + bopField b * 2 + bopBS b)
  | .iaddsnImm d a i => some (281018368 + d.val * 32768 + a.val * 256 + i.toNat)
  | .imul d a b => some (16777216 + d.val * 32768 + a.val * 256 + bopField b * 2 + bopBS b)
  | .imulImm d a i => some (285212672 + d.val * 32768 + a.val * 256 + i.toNat)
  | .imulh d a b => some (20971520 + d.val * 32768 + a.val * 256 + bopField b * 2 + bopBS b)
  | .imulhn d a b => some (25165824 + d.val * 32768 + a.val * 256 + bopField b * 2 + bopBS b)
  | .imin d a b => some (29360128 + d.val * 32768 + a.val * 256 + bopField b * 2 + bopBS b)
  | .iminImm d a i => some (297795584 + d.val * 32768 + a.val * 256 + i.toNat)
  | .imax d a b => some (33554432 + d.val * 32768 + a.val * 256 + bopField b * 2 + bopBS b)
  | .imaxImm d a i => some (301989888 + d.val * 32768 + a.val * 256 + i.toNat)
  | .iminn d a b => some (37748736 + d.val * 32768 + a.val * 256 + bopField b * 2 + bopBS b)
  | .iminnImm d a i => some (306184192 + d.val * 32768 + a.val * 256 + i.toNat)
  | .imaxn d a b => some (41943040 + d.val * 32768 + a.val * 256 + bopField b * 2 + bopBS b)
  | .imaxnImm d a i => some (310378496 + d.val * 32768 + a.val * 256 + i.toNat)
  | .iabsd d a b => some (46137344 + d.val * 32768 + a.val * 256 + bopField b * 2 + bopBS b)
  | .and d a b => some (50331648 + d.val * 32768 + a.val * 256 + bopField b * 2 + bopBS b)
  | .andImm d a i => some (318767104 + d.val * 32768 + a.val * 256 + i.toNat)
  | .or d a b => some (54525952 + d.val * 32768 + a.val * 256 + bopField b * 2 + bopBS b)
  | .orImm d a i => some (322961408 + d.val * 32768 + a.val * 256 + i.toNat)
  | .xor d a b => some (58720256 + d.val * 32768 + a.val * 256 + bopField b * 2 + bopBS b)
  | .xorImm d a i => some (327155712 + d.val * 32768 + a.val * 256 + i.toNat)
  | .andn d a b => some (62914560 + d.val * 32768 + a.val * 256 + bopField b * 2 + bopBS b)
  | .andnImm d a i => some (331350016 + d.val * 32768 + a.val * 256 + i.toNat)
  | .shl d a b => some (67108864 + d.val * 32768 + a.val * 256 + bopField b * 2 + bopBS b)
  | .shlImm d a i => some (335544320 + d.val * 32768 + a.val * 256 + i.toNat)
  | .shr d a b => some (71303168 + d.val * 32768 + a.val * 256 + bopField b * 2 + bopBS b)
  | .shrImm d a i => some (339738624 + d.val * 32768 + a.val * 256 + i.toNat)
  | .sar d a b => some (75497472 + d.val * 32768 + a.val * 256 + bopField b * 2 + bopBS b)
  | .sarImm d a i => some (343932928 + d.val * 32768 + a.val * 256 + i.toNat)
  | .rotl d a b => some (79691776 + d.val * 32768 + a.val * 256 + bopField b * 2 + bopBS b)
  | .rotlImm d a i => some (348127232 + d.val * 32768 + a.val * 256 + i.toNat)
  | .popc d a => some (83886080 + d.val * 32768 + a.val * 256)
  | .clz d a => some (88080384 + d.val * 32768 + a.val * 256)
  | .clzSgn d a => some (88080386 + d.val * 32768 + a.val * 256)
  | .brev d a => some (92274688 + d.val * 32768 + a.val * 256)
  | .bfe d a b => some (96468992 + d.val * 32768 + a.val * 256 + bopField b * 2 + bopBS b)
  | .bfen d a b => some (100663296 + d.val * 32768 + a.val * 256 + bopField b * 2 + bopBS b)
  | .bfi d a b => some (104857600 + d.val * 32768 + a.val * 256 + bopField b * 2 + bopBS b)
  | .icmp c p a b => some (109051904 + condCode c * 262144 + p.val * 32768 + a.val * 256 + bopField b * 2 + bopBS b)
  | .icmpImm c p a i => some (377487360 + condCode c * 262144 + p.val * 32768 + a.val * 256 + i.toNat)
  | .fadd d a b => some (134217728 + d.val * 32768 + a.val * 256 + bopField b * 2 + bopBS b)
  | .fsub d a b => some (138412032 + d.val * 32768 + a.val * 256 + bopField b * 2 + bopBS b)
  | .fmul d a b => some (142606336 + d.val * 32768 + a.val * 256 + bopField b * 2 + bopBS b)
  | .fmin d a b => some (146800640 + d.val * 32768 + a.val * 256 + bopField b * 2 + bopBS b)
  | .fmax d a b => some (150994944 + d.val * 32768 + a.val * 256 + bopField b * 2 + bopBS b)
  | .fcmp c p a b => some (155189248 + fcondCode c * 262144 + p.val * 32768 + a.val * 256 + bopField b * 2 + bopBS b)
  | .fabs d a => some (159383552 + d.val * 32768 + a.val * 256)
  | .fabsH2 d a => some (159383554 + d.val * 32768 + a.val * 256)
  | .fabsD d a => some (159383556 + d.val * 32768 + a.val * 256)
  | .fneg d a => some (163577856 + d.val * 32768 + a.val * 256)
  | .fnegH2 d a => some (163577858 + d.val * 32768 + a.val * 256)
  | .fnegD d a => some (163577860 + d.val * 32768 + a.val * 256)
  | .frnd d a => some (167772160 + d.val * 32768 + a.val * 256)
  | .frndD d a => some (167772162 + d.val * 32768 + a.val * 256)
  | .ffmad d a b => some (171966464 + d.val * 32768 + a.val * 256 + bopField b * 2 + bopBS b)
  | .fscl d a b => some (176160768 + d.val * 32768 + a.val * 256 + bopField b * 2 + bopBS b)
  | .hadd2 d a b => some (180355072 + d.val * 32768 + a.val * 256 + bopField b * 2 + bopBS b)
  | .hmul2 d a b => some (184549376 + d.val * 32768 + a.val * 256 + bopField b * 2 + bopBS b)
  | .hfmad2 d a b => some (188743680 + d.val * 32768 + a.val * 256 + bopField b * 2 + bopBS b)
  | .hmin2 d a b => some (192937984 + d.val * 32768 + a.val * 256 + bopField b * 2 + bopBS b)
  | .hmax2 d a b => some (197132288 + d.val * 32768 + a.val * 256 + bopField b * 2 + bopBS b)
  | .dadd d a b => some (201326592 + d.val * 32768 + a.val * 256 + bopField b * 2 + bopBS b)
  | .dmul d a b => some (205520896 + d.val * 32768 + a.val * 256 + bopField b * 2 + bopBS b)
  | .dfmad d a b => some (209715200 + d.val * 32768 + a.val * 256 + bopField b * 2 + bopBS b)
  | .dcmp c p a b => some (213909504 + fcondCode c * 262144 + p.val * 32768 + a.val * 256 + bopField b * 2 + bopBS b)
  | .mov d a => some (218103808 + d.val * 32768 + a.val * 256)
  | .movB64 d a => some (218103810 + d.val * 32768 + a.val * 256)
  | .movs d b => some (222298113 + d.val * 32768 + b.val * 2)
  | .ffmadc d a b c => some (536870912 + d.val * 524288 + a.val * 4096 + b.val * 32 + c.val)
  | .imuladd d a b c => some (603979776 + d.val * 524288 + a.val * 4096 + b.val * 32 + c.val)
  | .vsel d a b n p => some (671088640 + d.val * 524288 + a.val * 4096 + b.val * 32 + n.toNat * 8 + p.val)
  | .itadd d a b c => some (738197504 + d.val * 524288 + a.val * 4096 + b.val * 32 + c.val)
  | .movi d h i => some (805306368 + d.val * 131072 + h.toNat * 65536 + i.toNat)
  | .movk d h i => some (822083584 + d.val * 131072 + h.toNat * 65536 + i.toNat)
  | .movsx d i => some (838860800 + d.val * 131072 + i.toNat)
  | .movh d i => some (855638016 + d.val * 131072 + i.toNat)
  | .ld d a f z c => some (1073741824 + d.val * 65536 + a.val * 512 + f.toNat * 16 + sizeCode z * 2 + c.toNat)
  | .st d a f z c => some (1082130432 + d.val * 65536 + a.val * 512 + f.toNat * 16 + sizeCode z * 2 + c.toNat)
  | .ldAcq d a s z => some (1090519040 + d.val * 65536 + a.val * 512 + scopeCode s * 64 + sizeCode z * 2)
  | .stRel d a s z => some (1098907648 + d.val * 65536 + a.val * 512 + scopeCode s * 64 + sizeCode z * 2)
  | .lds d a f z c => some (1107296256 + d.val * 65536 + a.val * 512 + f.toNat * 16 + sizeCode z * 2 + c.toNat)
  | .sts d a f z c => some (1115684864 + d.val * 65536 + a.val * 512 + f.toNat * 16 + sizeCode z * 2 + c.toNat)
  | .ldc d a f z c => some (1124073472 + d.val * 65536 + a.val * 512 + f.toNat * 16 + sizeCode z * 2 + c.toNat)
  | .ldro d a f z c => some (1132462080 + d.val * 65536 + a.val * 512 + f.toNat * 16 + sizeCode z * 2 + c.toNat)
  | .atomAdd d a s o z => some (1140850696 + d.val * 65536 + a.val * 512 + scopeCode s * 64 + ordCode o * 16 + z.toNat * 2)
  | .atomMin d a s o z => some (1149239304 + d.val * 65536 + a.val * 512 + scopeCode s * 64 + ordCode o * 16 + z.toNat * 2)
  | .atomMax d a s o z => some (1157627912 + d.val * 65536 + a.val * 512 + scopeCode s * 64 + ordCode o * 16 + z.toNat * 2)
  | .atomMinn d a s o z => some (1166016520 + d.val * 65536 + a.val * 512 + scopeCode s * 64 + ordCode o * 16 + z.toNat * 2)
  | .atomMaxn d a s o z => some (1174405128 + d.val * 65536 + a.val * 512 + scopeCode s * 64 + ordCode o * 16 + z.toNat * 2)
  | .atomAnd d a s o z => some (1182793736 + d.val * 65536 + a.val * 512 + scopeCode s * 64 + ordCode o * 16 + z.toNat * 2)
  | .atomOr d a s o z => some (1191182344 + d.val * 65536 + a.val * 512 + scopeCode s * 64 + ordCode o * 16 + z.toNat * 2)
  | .atomXor d a s o z => some (1199570952 + d.val * 65536 + a.val * 512 + scopeCode s * 64 + ordCode o * 16 + z.toNat * 2)
  | .atomExch d a s o z => some (1207959560 + d.val * 65536 + a.val * 512 + scopeCode s * 64 + ordCode o * 16 + z.toNat * 2)
  | .atomCas d a s o z => some (1216348168 + d.val * 65536 + a.val * 512 + scopeCode s * 64 + ordCode o * 16 + z.toNat * 2)
  | .atomFadd d a s o => some (1224736776 + d.val * 65536 + a.val * 512 + scopeCode s * 64 + ordCode o * 16)
  | .redAdd d a s o z => some (1233125384 + d.val * 65536 + a.val * 512 + scopeCode s * 64 + o.toNat * 32 + z.toNat * 2)
  | .redFadd d a s o => some (1241513992 + d.val * 65536 + a.val * 512 + scopeCode s * 64 + o.toNat * 32)
  | .redMin d a s o z => some (1249902600 + d.val * 65536 + a.val * 512 + scopeCode s * 64 + o.toNat * 32 + z.toNat * 2)
  | .redMax d a s o z => some (1258291208 + d.val * 65536 + a.val * 512 + scopeCode s * 64 + o.toNat * 32 + z.toNat * 2)
  | .redOr d a s o z => some (1266679816 + d.val * 65536 + a.val * 512 + scopeCode s * 64 + o.toNat * 32 + z.toNat * 2)
  | .atomsAdd d a s o => some (1275068424 + d.val * 65536 + a.val * 512 + s.toNat * 64 + ordCode o * 16)
  | .atomsCas d a s o => some (1283457032 + d.val * 65536 + a.val * 512 + s.toNat * 64 + ordCode o * 16)
  | .atomsExch d a s o => some (1291845640 + d.val * 65536 + a.val * 512 + s.toNat * 64 + ordCode o * 16)
  | .atomsFadd d a s o => some (1300234248 + d.val * 65536 + a.val * 512 + s.toNat * 64 + ordCode o * 16)
  | .pf a f z c => some (1308622848 + a.val * 512 + f.toNat * 16 + sizeCode z * 2 + c.toNat)
  | .atomScAdd d a s z => some (1317011464 + d.val * 65536 + a.val * 512 + scopeCode s * 64 + z.toNat * 2)
  | .atomScExch d a s z => some (1325400072 + d.val * 65536 + a.val * 512 + scopeCode s * 64 + z.toNat * 2)
  | .atomScCas d a s z => some (1333788680 + d.val * 65536 + a.val * 512 + scopeCode s * 64 + z.toNat * 2)
  | .lxgAt d a b => some (1342177280 + d.val * 32768 + a.val * 256 + b.val * 2)
  | .lxgBack d a b => some (1346371584 + d.val * 32768 + a.val * 256 + b.val * 2)
  | .lxgFwd d a b => some (1350565888 + d.val * 32768 + a.val * 256 + b.val * 2)
  | .lxgFlip d a b => some (1354760192 + d.val * 32768 + a.val * 256 + b.val * 2)
  | .gpredAny n x a => some (1358954496 + n.val * 32768 + x.toNat * 2048 + a.val * 256)
  | .gpredAll n x a => some (1363148800 + n.val * 32768 + x.toNat * 2048 + a.val * 256)
  | .gpredMask d x a => some (1367343104 + d.val * 32768 + x.toNat * 2048 + a.val * 256)
  | .gpeerEq d a => some (1371537408 + d.val * 32768 + a.val * 256)
  | .gpeerUni d a => some (1375731712 + d.val * 32768 + a.val * 256)
  | .gredAdd d a => some (1379926016 + d.val * 32768 + a.val * 256)
  | .gredFadd d a => some (1384120320 + d.val * 32768 + a.val * 256)
  | .gredMin d a k => some (1388314624 + d.val * 32768 + a.val * 256 + k.val * 2)
  | .gredMax d a k => some (1392508928 + d.val * 32768 + a.val * 256 + k.val * 2)
  | .gredAnd d a => some (1396703232 + d.val * 32768 + a.val * 256)
  | .gredOr d a => some (1400897536 + d.val * 32768 + a.val * 256)
  | .gscanAdd d a => some (1405091840 + d.val * 32768 + a.val * 256)
  | .gscanAddExcl d a => some (1405091841 + d.val * 32768 + a.val * 256)
  | .gscanFadd d a => some (1409286144 + d.val * 32768 + a.val * 256)
  | .gscanFaddExcl d a => some (1409286145 + d.val * 32768 + a.val * 256)
  | .rcp d a => some (1413480448 + d.val * 32768 + a.val * 256)
  | .rsq d a => some (1417674752 + d.val * 32768 + a.val * 256)
  | .sqrt d a => some (1421869056 + d.val * 32768 + a.val * 256)
  | .ex2 d a => some (1426063360 + d.val * 32768 + a.val * 256)
  | .lg2 d a => some (1430257664 + d.val * 32768 + a.val * 256)
  | .sin d a => some (1434451968 + d.val * 32768 + a.val * 256)
  | .cos d a => some (1438646272 + d.val * 32768 + a.val * 256)
  | .tanh d a => some (1442840576 + d.val * 32768 + a.val * 256)
  | .fdiv d a b => some (1447034880 + d.val * 32768 + a.val * 256 + b.val * 2)
  | .cvtf d a t => some (1451229184 + d.val * 32768 + a.val * 256 + t.val * 2)
  | .cvti d a t => some (1455423488 + d.val * 32768 + a.val * 256 + t.val * 2)
  | .cvth2 d a b => some (1459617792 + d.val * 32768 + a.val * 256 + b.val * 2)
  | .cvtb4 d a => some (1463812096 + d.val * 32768 + a.val * 256)
  | .cvtb4Q d a => some (1463812097 + d.val * 32768 + a.val * 256)
  | .unpk d a k e => some (1468006400 + d.val * 32768 + a.val * 256 + k.val * 16 + e.val * 2)
  | .cvtdF32 d a => some (1472200704 + d.val * 32768 + a.val * 256)
  | .cvtdF64 d a => some (1472200705 + d.val * 32768 + a.val * 256)
  | .cvtdfI d a t => some (1476395008 + d.val * 32768 + a.val * 256 + t.val * 2)
  | .cvtdfF d a t => some (1476395009 + d.val * 32768 + a.val * 256 + t.val * 2)
  | .qnt d a => some (1480589312 + d.val * 32768 + a.val * 256)
  | .plop d o x a y b => some (1484783616 + d.val * 32768 + o.val * 4096 + x.toNat * 2048 + a.val * 256 + y.toNat * 16 + b.val * 2)
  | .p2v d => some (1488977920 + d.val * 32768)
  | .v2p n a b => some (1493172224 + n.val * 32768 + a.val * 256 + b.val * 2)
  | .sysv d b => some (1497366528 + d.val * 32768 + b.val * 2)
  | .vmask d b => some (1501560832 + d.val * 32768 + b.val * 2)
  | .brDiv p n o => some (1610612736 + p.val * 2097152 + n.toNat * 1048576 + o.toNat)
  | .bmeld p n => some (1627389952 + p.val * 2097152 + n.toNat * 1048576)
  | .emeld => some (1644167168)
  | .rejoinSet o => some (1660944384 + o.toNat)
  | .rejoin => some (1677721600)
  | .exit => some (1694498816)
  | .hold v => some (1711276032 + v.val * 131072)
  | .trapP p n c => some (1728053248 + p.val * 2097152 + n.toNat * 1048576 + c.toNat)
  | .bpt c => some (1744830464 + c.toNat)
  | .rstv d s t => some (1879048192 + d.val * 131072 + s.val * 2048 + t.val * 16)
  | .coll p a s => some (1895825408 + p.val * 131072 + a.val * 1024 + s.val * 16)
  | .sadd d a b g => some (2147483648 + d.val * 65536 + a.val * 1024 + b.val * 16 + guardQ g * 2 + guardN g)
  | .saddImm d a i => some (2415919104 + d.val * 65536 + a.val * 1024 + i.toNat)
  | .ssub d a b g => some (2151677952 + d.val * 65536 + a.val * 1024 + b.val * 16 + guardQ g * 2 + guardN g)
  | .ssubImm d a i => some (2420113408 + d.val * 65536 + a.val * 1024 + i.toNat)
  | .smul d a b g => some (2155872256 + d.val * 65536 + a.val * 1024 + b.val * 16 + guardQ g * 2 + guardN g)
  | .smulImm d a i => some (2424307712 + d.val * 65536 + a.val * 1024 + i.toNat)
  | .smulh d a b g => some (2160066560 + d.val * 65536 + a.val * 1024 + b.val * 16 + guardQ g * 2 + guardN g)
  | .smin d a b g => some (2164260864 + d.val * 65536 + a.val * 1024 + b.val * 16 + guardQ g * 2 + guardN g)
  | .sminImm d a i => some (2432696320 + d.val * 65536 + a.val * 1024 + i.toNat)
  | .smax d a b g => some (2168455168 + d.val * 65536 + a.val * 1024 + b.val * 16 + guardQ g * 2 + guardN g)
  | .smaxImm d a i => some (2436890624 + d.val * 65536 + a.val * 1024 + i.toNat)
  | .sminn d a b g => some (2172649472 + d.val * 65536 + a.val * 1024 + b.val * 16 + guardQ g * 2 + guardN g)
  | .sminnImm d a i => some (2441084928 + d.val * 65536 + a.val * 1024 + i.toNat)
  | .smaxn d a b g => some (2176843776 + d.val * 65536 + a.val * 1024 + b.val * 16 + guardQ g * 2 + guardN g)
  | .smaxnImm d a i => some (2445279232 + d.val * 65536 + a.val * 1024 + i.toNat)
  | .sand d a b g => some (2181038080 + d.val * 65536 + a.val * 1024 + b.val * 16 + guardQ g * 2 + guardN g)
  | .sandImm d a i => some (2449473536 + d.val * 65536 + a.val * 1024 + i.toNat)
  | .sor d a b g => some (2185232384 + d.val * 65536 + a.val * 1024 + b.val * 16 + guardQ g * 2 + guardN g)
  | .sorImm d a i => some (2453667840 + d.val * 65536 + a.val * 1024 + i.toNat)
  | .sxor d a b g => some (2189426688 + d.val * 65536 + a.val * 1024 + b.val * 16 + guardQ g * 2 + guardN g)
  | .sxorImm d a i => some (2457862144 + d.val * 65536 + a.val * 1024 + i.toNat)
  | .sshl d a b g => some (2193620992 + d.val * 65536 + a.val * 1024 + b.val * 16 + guardQ g * 2 + guardN g)
  | .sshlImm d a i => some (2462056448 + d.val * 65536 + a.val * 1024 + i.toNat)
  | .sshr d a b g => some (2197815296 + d.val * 65536 + a.val * 1024 + b.val * 16 + guardQ g * 2 + guardN g)
  | .sshrImm d a i => some (2466250752 + d.val * 65536 + a.val * 1024 + i.toNat)
  | .ssar d a b g => some (2202009600 + d.val * 65536 + a.val * 1024 + b.val * 16 + guardQ g * 2 + guardN g)
  | .ssarImm d a i => some (2470445056 + d.val * 65536 + a.val * 1024 + i.toNat)
  | .ssetp c q a b g => some (2206203904 + scondCode c * 524288 + q.val * 65536 + a.val * 1024 + b.val * 16 + guardQ g * 2 + guardN g)
  | .ssetpImm c q a i => some (2474639360 + scondCode c * 524288 + q.val * 65536 + a.val * 1024 + i.toNat)
  | .ssel d a b q x => some (2210398208 + d.val * 65536 + a.val * 1024 + b.val * 16 + q.val * 2 + x.toNat)
  | .smov d a g => some (2214592512 + d.val * 65536 + a.val * 1024 + guardQ g * 2 + guardN g)
  | .spopc d a g => some (2218786816 + d.val * 65536 + a.val * 1024 + guardQ g * 2 + guardN g)
  | .sclz d a g => some (2222981120 + d.val * 65536 + a.val * 1024 + guardQ g * 2 + guardN g)
  | .saddw d a b g => some (2227175424 + d.val * 65536 + a.val * 1024 + b.val * 16 + guardQ g * 2 + guardN g)
  | .saddwImm d a i => some (2495610880 + d.val * 65536 + a.val * 1024 + i.toNat)
  | .sgetv d a x g => some (2231369728 + d.val * 65536 + a.val * 1024 + x.toNat * 16 + guardQ g * 2 + guardN g)
  | .qlop d o x a y b g => some (2235564032 + d.val * 65536 + o.val * 16384 + x.toNat * 8192 + a.val * 1024 + y.toNat * 128 + b.val * 16 + guardQ g * 2 + guardN g)
  | .q2s d g => some (2239758336 + d.val * 65536 + guardQ g * 2 + guardN g)
  | .s2q a g => some (2243952640 + a.val * 1024 + guardQ g * 2 + guardN g)
  | .smovi d h i => some (2684354560 + d.val * 262144 + h.val * 65536 + i.toNat)
  | .smovk d h i => some (2701131776 + d.val * 262144 + h.val * 65536 + i.toNat)
  | .smovsx d i => some (2717908992 + d.val * 262144 + i.toNat)
  | .sadr d i => some (2734686208 + d.val * 262144 + i.toNat)
  | .bra g o => some (2952790016 + guardQ g * 2097152 + guardN g * 1048576 + o.toNat)
  | .call g o => some (2969567232 + guardQ g * 2097152 + guardN g * 1048576 + o.toNat)
  | .ret g => some (2986344448 + guardQ g * 2097152 + guardN g * 1048576)
  | .brx g x => some (3003121664 + guardQ g * 2097152 + guardN g * 1048576 + x.val)
  | .loop g c o => some (3019898880 + guardQ g * 2097152 + guardN g * 1048576 + c.val * 16384 + o.toNat)
  | .sldB64 d a o => some (3221225472 + d.val * 131072 + a.val * 2048 + o.toNat)
  | .sldB32 d a o => some (3229614080 + d.val * 131072 + a.val * 2048 + o.toNat)
  | .sstB64 d a o => some (3238002688 + d.val * 131072 + a.val * 2048 + o.toNat)
  | .sstB32 d a o => some (3246391296 + d.val * 131072 + a.val * 2048 + o.toNat)
  | .sldc d a o => some (3254779904 + d.val * 131072 + a.val * 2048 + o.toNat)
  | .slds d a o => some (3263168512 + d.val * 131072 + a.val * 2048 + o.toNat)
  | .ssts d a o => some (3271557120 + d.val * 131072 + a.val * 2048 + o.toNat)
  | .satomAdd d a => some (3279945728 + d.val * 131072 + a.val * 2048)
  | .satomCas d a => some (3288334336 + d.val * 131072 + a.val * 2048)
  | .satomExch d a => some (3296722944 + d.val * 131072 + a.val * 2048)
  | .srd d n => some (3489660928 + d.val * 65536 + n.toNat)
  | .swr s n => some (3493855232 + s.val * 65536 + n.toNat)
  | .fenceAcq r s => some (3498049536 + r.val * 64 + scopeCode s)
  | .fenceRel r s => some (3498049544 + r.val * 64 + scopeCode s)
  | .fenceAr r s => some (3498049552 + r.val * 64 + scopeCode s)
  | .fenceSc r s => some (3498049560 + r.val * 64 + scopeCode s)
  | .fenceLayout s => some (3502243840 + scopeCode s)
  | .icinv s => some (3506438144 + scopeCode s)
  | .fmtset i => some (3510632448 + i.toNat)
  | .fmtsetr s => some (3514826752 + s.val * 65536)
  | .trap c => some (3519021056 + c.toNat)
  | .rft => some (3523215360)
  | .yldDone => some (3527409664)
  | .yield => some (3531603968)
  | .trig => some (3535798272)
  | .nameget d => some (3539992576 + d.val * 65536)
  | .nameput => some (3544186880)
  | .nameq x => some (3548381184 + x.val * 65536)
  | .mmap s p => some (3552575488 + s.val * 65536 + p.toNat)
  | .mclr x => some (3556769792 + x.val)
  | .setmm s => some (3560964096 + s.val * 65536)
  | .objRead s p => some (3565158400 + s.val * 65536 + p.val)
  | .objPriv s p => some (3565158408 + s.val * 65536 + p.val)
  | .objrel s => some (3569352704 + s.val * 65536)
  | .barArr n => some (3758096384 + n.val)
  | .barWait n => some (3762290688 + n.val)
  | .barSync n => some (3766484992 + n.val)
  | .barInit e n => some (3770679296 + e.val * 65536 + n.val)
  | .barExpect b n => some (3774873600 + b.val * 65536 + n.val)
  | .cpySlice c x n => some (3779067904 + c.val * 65536 + x.val * 1024 + n.val)
  | .cpyxSlice c x n => some (3783262208 + c.val * 65536 + x.val * 1024 + n.val)
  | .mcst c h n => some (3787456512 + c.val * 65536 + h.val * 1024 + n.val)
  | .lbufReg h l n => some (3791650816 + h.val * 65536 + l.val * 1024 + n.val)
  | .lbufFree h => some (3795845120 + h.val * 65536)
  | .lbufDrop h => some (3800039424 + h.val * 65536)
  | .fxfer n a x k => some (3804233728 + n.val * 65536 + a.val * 1024 + x.val * 16 + k.val)
  | .arrcSet v k => some (3808428032 + v.val * 65536 + k.val)
  | .arrcWait k => some (3812622336 + k.val)
  | .collForm d r => some (3816816640 + d.val * 65536 + r.val * 1024)
  | .collWait d c => some (3821010944 + d.val * 65536 + c.val * 1024)
  | .collAbort c => some (3825205248 + c.val * 65536)
  | .collReform d r => some (3829399552 + d.val * 65536 + r.val * 1024)
  | .fork r => some (3833593856 + r.val * 65536)
  | .joinw d => some (3837788160 + d.val * 65536)
  | .vattrQ d a => some (3841982464 + d.val * 65536 + a.val * 1024)
  | .vattrRsv d a => some (3841982465 + d.val * 65536 + a.val * 1024)
  | .mxStart e x y => some (3846176768 + e.val * 65536 + x.val * 1024 + y.val * 16)
  | .mbarArr n => some (3850371072 + n.val)
  | .mbarWait n => some (3854565376 + n.val)
  | .mxacq p e h => some (4026531840 + p.val * 1048576 + e.val * 262144 + h.toNat * 131072)
  | .mxrel => some (4030726144)
  | .tclm p n c => some (4034920448 + p.val * 1048576 + n.val * 16384 + c.val * 256)
  | .trel n c => some (4039114752 + n.val * 16384 + c.val * 256)
  | .tld n l c => some (4043309056 + n.val * 65536 + l.val * 4096 + c.val * 256)
  | .tldSp n l c => some (4043309120 + n.val * 65536 + l.val * 4096 + c.val * 256)
  | .mma d a b => some (4047503360 + d.val * 131072 + a.val * 2048 + b.val * 32)
  | .mmas d a b => some (4051697664 + d.val * 131072 + a.val * 2048 + b.val * 32)
  | .accz d n => some (4055891968 + d.val * 131072 + n.val * 4096)
  | .accst d l c => some (4060086272 + d.val * 131072 + l.val * 4096 + c.val * 256)
  | .accld d l c => some (4064280576 + d.val * 131072 + l.val * 4096 + c.val * 256)
  | .mfmt e f b a => some (4068474880 + e.toNat * 32768 + f.toNat * 256 + b.val * 16 + a.val)
  | .dmap n a => some (4072669184 + n.val * 65536 + a.val * 4096)
  | .mxbarArr n => some (4076863488 + n.val * 524288)
  | .mxbarWait n => some (4081057792 + n.val * 524288)
  | .kmovi d h i => some (4085252096 + d.val * 262144 + h.val * 65536 + i.toNat)
  | .kadd d a i => some (4089446400 + d.val * 262144 + a.val * 16384 + i.toNat)
  | .kaddReg d a b => some (4089454592 + d.val * 262144 + a.val * 16384 + b.val * 512)
  | .kbraKq p o => some (4093640704 + p.val * 65536 + o.toNat)
  | .kbraNkq p o => some (4093902848 + p.val * 65536 + o.toNat)
  | .kbra o => some (4094689280 + o.toNat)
  | .kbraDec d o => some (4095737856 + d.val * 65536 + o.toNat)
  | .mend => some (4097835008)
  | .clauseIssue => none
  | .candidateUrgent => none
  | .countedOpComplete _ => none
  | .memoryAck _ => none
  | .trapEntry => none
  | .terminationRecord _ => none
  | .groupEnd => none
  | .blockRetire _ => none
  | .matrixRestoreSlots _ => none
  | .qkick _ _ _ => none
  | .queueEntryRead _ _ => none
  | .queueDrainResume _ _ => none
  | .qrestart _ _ _ => none
  | .qcfgEnable _ _ _ => none
  | .qcfgDisable _ _ _ => none
  | .launchBind _ _ _ _ _ _ => none
  | .clusterClaim _ _ _ => none
  | .blockPlace _ _ => none
  | .workDonation _ _ _ => none
  | .donatedBlockArrival _ _ => none
  | .launchComplete _ => none
  | .eprioAging _ => none
  | .timeSliceExpiry _ => none
  | .preemptRequest _ _ => none
  | .watchdogExpiry _ => none
  | .blockSave _ => none
  | .blockResume _ _ => none
  | .parkingEviction _ => none
  | .savepoolTimeout _ => none
  | .migrationComplete _ _ => none
  | .migrationAbandon _ => none
  | .rstvHomeCheck _ => none
  | .rstvApply _ => none
  | .rstvStatus _ => none
  | .rstvTimeout _ => none
  | .fxferClaim _ => none
  | .fxferDataPacket _ => none
  | .fxferStatus _ => none
  | .remoteRequestArrive _ => none
  | .remoteResponseArrive _ => none
  | .remoteDeadlineExpiry _ => none
  | .fabricPacketArrive _ _ _ => none
  | .pinnedPacketReturned _ => none
  | .linkReplay _ => none
  | .linkRetrain _ => none
  | .linkDeath _ => none
  | .linken _ => none
  | .dirtySectorTimeout _ _ => none
  | .copyJobExecute _ => none
  | .multicastSend _ => none
  | .childStart _ _ _ => none
  | .childMerge _ => none
  | .formArrive _ => none
  | .formationLimitExpiry _ _ => none
  | .consistGone _ => none
  | .collPieceArrive _ => none
  | .collResultArrive _ => none
  | .collRetransmit _ => none
  | .collProbe _ => none
  | .collNoticeArrive _ => none
  | .collLimitExpiry _ => none
  | .fqreplyRetry _ _ => none
  | .fqreplyFail _ _ => none
  | .fqcfgEnable _ _ => none
  | .fqcfgDisable _ _ => none
  | .faultRecordPost _ => none
  | .faultTimeout _ _ => none
  | .ocmdCreate _ _ => none
  | .ocmdDestroy _ _ => none
  | .ocmdInval _ _ => none
  | .ownerCommandEnd _ => none
  | .psetup _ => none
  | .ptear _ => none
  | .hoctlH2d _ _ => none
  | .hoctlD2h _ _ => none
  | .handoverEnd _ => none
  | .areqReport _ _ => none
  | .areqCertificate _ _ => none
  | .rtinv _ _ => none
  | .bar2Read _ _ _ => none
  | .bar2Write _ _ _ => none
  | .msixUnmask _ _ => none
  | .registerWrite _ _ _ => none
  | .monitorStart _ _ => none
  | .monitorStop _ _ => none
  | .monitorSample _ _ => none
  | .islandEvaluation _ _ _ _ _ => none
  | .correctedErrorReport _ _ => none
  | .warmReset => none
  | .coldReset => none
  | .pfFlr => none
  | .vfFlr _ => none
  | .imageWrite _ _ _ _ _ _ => none
  | .migrationBegin _ _ => none
  | .linkRetrainComplete _ _ => none
  | .collPieceDeadline _ _ => none
  | .noticeResend _ => none
  | .partitionCommandEnd => none

end Sys2Proof
end

