-- ==== Sys2Proof/Config.lean ====
section
/-! DEFINITION. What one D880 package fixes (01 R8-R14), and the values the spec leaves open, as opaque functions
(log 8, log 9). -/

namespace Sys2Proof.Config

open Sys2Proof

/-- Cores of a package, 4 of each of 96 clusters (R8). -/
def cores : Nat := 384
/-- Clusters of a package (R8). -/
def clusters : Nat := 96
/-- Populated bytes of a die's 128 GiB region (R247). -/
def populated : Nat := 96 * 2 ^ 30

/-- What decryption under key `new` makes of byte i of a sector that was written under key `old` with the given
bytes (R266, R392): free (log 8). -/
opaque foreign (old new sector : Nat) (bytes : List Byte) (i : Nat) : Byte

/-- SHAKE256 of a message, 512 bits (R390, R402): free (log 9). -/
opaque shake256 (msg : List Byte) : BitVec 512

/-- The package's signature over a message, byte by byte (R402, R403): free (log 9). -/
opaque signature (msg : List Byte) (i : Nat) : Byte

/-- The length of that signature in bytes (R403): free (log 9). -/
opaque signatureLen (msg : List Byte) : Nat

/-- The SHAKE256 digest of the identity public key (R402, R403): free (log 9). -/
opaque identityDigest : BitVec 512

/-- The length of the identity certificate (R403): free (log 9). -/
opaque certificateLen : Nat

/-- The package's identity certificate (R403): free (log 9). -/
opaque certificate (i : Nat) : Byte

/-- Whether the vendor's signature over an image of this kind, version and digest verifies (R430): free (log 9). -/
opaque verified (image version : Nat) (digest : BitVec 512) (sig : Nat) : Bool

/-- The code that `nameq` of another package's entry returns (R235), as the n-th answer: free (log 3). -/
opaque peerName (n : Nat) (name : BitVec 64) : Nat

/-- The n-th free value drawn (log 9). -/
opaque freeByte (n : Nat) : Byte

/-- Where the record of a compressed run stands from the place of its row, in bytes: from STR0, the interleave code, N, the
width of an element, the run along dimension 0 and the row within its interleave group (R135, R77): free (log 22). -/
opaque runOffset (str0 : Int) (ilv n width run row : Nat) : Int

/-- The Junction engine that writes a conflict log at an address (R315, R387): free (log 23). -/
opaque junction (va : Nat) : Nat

/-- Which of its quadrant's two copy engines takes a job, by the job's number (R8, R327): free (log 31). -/
opaque copyEngine (job : Nat) : Nat

/-- Lines of 128 bytes that each store holds (R10, R13, R249, R254). -/
def l1Lines : Nat := 1024
def icacheLines : Nat := 1024
def constantLines : Nat := 512
/-- Of a cluster cache; of one L2 slice; of the remote-data cache beside one slice. -/
def clusterLines : Nat := 32768
def sliceLines : Nat := 98304
def remoteLines : Nat := 16384

end Sys2Proof.Config
end

