-- ==== Sys2Proof/Machine/State.lean ====
section
/-! DEFINITION. The state of one D880 package with its host side, as plain data: every piece of state the spec names
(INVENTORY.md, ## State), and the state after reset. -/

namespace Sys2Proof.Machine

open Sys2Proof

/-! ## Groups (08 R149-R152) -/

/-- A change of a renaming table that takes effect from the next clause (R186). -/
inductive TableChange where
  | install (b : Bool) (pred : Bool) (x y : Nat)
  | clear (a b : Bool)
  deriving DecidableEq, Repr

/-- What a path has executed that takes effect at the end of its clause (R183, R186): a region to open with its
path B, a region to close, table changes in order. It stays with the path across a trap (log 14). -/
structure Due where
  opens : Option Mask := none
  closes : Bool := false
  tables : List TableChange := []
  deriving DecidableEq, Repr

/-- A path in the split-entry form of R151 and R177: a path entry, a frame (WAITING = 1), or a saved slot. -/
structure Path where
  pcw : DWord := 0
  rjpc : DWord := 0
  act : Mask := 0
  rjm : Mask := 0
  fmt : BitVec 16 := 0
  fpstat : BitVec 5 := 0
  waiting : Bool := false
  rslot : BitVec 3 := 0
  /-- The model's own: how far a two-part instruction at `pcw` has come (log 13). -/
  micro : Nat := 0
  due : Due := {}
  deriving DecidableEq, Repr

/-- A poison tag of a register word (R271): cause, address, package, time stamp. -/
structure Tag where
  cause : BitVec 8
  addr : DWord
  pkg : Nat
  stamp : Nat
  deriving DecidableEq, Repr

/-- Why a slot does not issue its next instruction. The kinds of R173 are the parked waits. -/
inductive Wait where
  | none
  /-- WAIT flags of the clause header (R27). -/
  | flags
  /-- A flag at 63 (R27). -/
  | flagFull
  /-- A register whose write is pending (R28). -/
  | register
  /-- A held register not yet complete (R238); parked. -/
  | held (x : Nat)
  /-- `bar.wait` (R196); parked. -/
  | bar (n : Nat)
  /-- A second arrival at a named barrier (R196, R339). -/
  | barArrive (n : Nat)
  /-- A named barrier became BROKEN while the slot waited at it: the trap is due (R339). -/
  | broken
  /-- `mbar.wait` (R198); parked. -/
  | mbar (n : Nat)
  /-- A second arrival at a matrix barrier (R198). -/
  | mbarArrive (n : Nat)
  /-- `joinw` (R316); parked. -/
  | join
  /-- `arrc.wait` (R357); parked. -/
  | counter (k : Nat)
  /-- `coll.wait` (R367); parked. -/
  | coll (cid epoch seq : Nat)
  /-- `coll.form` or `coll.reform` (R360); parked. -/
  | form (cid : Nat)
  /-- A replayable fault with its tag (R386). -/
  | fault (tag : Nat)
  /-- The range scoreboard (R283, R333). -/
  | scoreboard
  /-- Jobs of the slot or block (R292, R308). -/
  | jobs
  /-- Counted operations or remote acknowledgements (R104, R199, R292, R416). -/
  | ops
  /-- A delivery in flight (R343). -/
  | delivery
  /-- The Turntable's acceptance (R363). -/
  | accept
  /-- The answer of another package to the read of a record, by request (R294, R354; log 20). -/
  | remote (id : Nat)
  /-- That read failed: the trap is due (log 20). -/
  | denied (t : Tag)
  /-- A trap of the group waits for its counted operations (R408). -/
  | trap
  deriving DecidableEq, Repr

/-- The clause a slot is executing: its words as fetched and the lanes its guard selected when it issued (R22,
R30). -/
structure Clause where
  addr : DWord
  words : List Word
  lanes : Mask
  deriving DecidableEq, Repr

/-- One program-counter slot (R150), with its rejoin context (R177, R178). -/
structure Slot where
  pc : DWord := 0
  act : Mask := 0
  fmt : BitVec 16 := 0
  fpstat : BitVec 5 := 0
  rjpc : DWord := 0
  rjm : Mask := 0
  clause : Option Clause := none
  due : Due := {}
  wait : Wait := .none
  /-- How far a two-part instruction at `pc` has come (log 13). -/
  micro : Nat := 0
  /-- Clocks in which the candidate was ready and not issued; three make it urgent (R162). -/
  denied : Nat := 0
  urgent : Bool := false
  /-- When the candidate became urgent, and when the slot last issued, in turns of the rotation (R162, log 4). -/
  urgentAt : Nat := 0
  issued : Nat := 0
  /-- The records that the instruction at `pc` has read, by address: each is read once (R307, R331). -/
  read : List (Nat × List Byte) := []
  deriving DecidableEq, Repr

/-- A counted operation in flight (R26): its flag (15 none), whether SETA counts it, the slot that issued it, and
what it writes when it completes. `ext` marks one that only an event from outside the core ends. -/
structure Pend where
  id : Nat
  setA : Bool
  flag : Nat
  slot : Nat
  ext : Bool := false
  vkeys : List Nat := []
  vals : List (Nat × Word) := []
  tags : List (Nat × Tag) := []
  pkeys : List Nat := []
  preds : List (Nat × Mask × Mask) := []
  skeys : List Nat := []
  svals : List (Nat × DWord) := []
  stags : List (Nat × Tag) := []
  /-- A remote store, reduction or atomic without return: its address for a deferred report (R271). -/
  addr : DWord := 0
  /-- A job command: its job plus one; the flag falls when a tracker takes the job (R332, R333). -/
  job : Nat := 0
  deriving DecidableEq, Repr

/-- A deferred report held for raising (R271, R435; DEFER bit as in R409). -/
structure Report where
  bit : Nat
  cause : BitVec 8
  slot : Nat
  flag : Nat
  more : List Nat := []
  bar : Nat := 0
  info0 : DWord := 0
  info1 : DWord := 0
  info2 : DWord := 0
  info3 : DWord := 0
  deriving DecidableEq, Repr

/-- A hold entry (R236), with the time stamp of a refused delivery (R238). -/
structure Hold where
  reg : Nat
  held : Bool
  hmask : Mask
  arr : Mask
  conf : Mask
  stamp : Nat := 0
  deriving DecidableEq, Repr

/-- The trap registers 0x200-0x209 (R169). -/
structure TrapRegs where
  cause : BitVec 8 := 0
  pc : DWord := 0
  slot : BitVec 3 := 0
  mask : Mask := 0
  path : BitVec 2 := 0
  info0 : DWord := 0
  info1 : DWord := 0
  info2 : DWord := 0
  info3 : DWord := 0
  time : DWord := 0
  deriving DecidableEq, Repr

/-- MELD, 0x103 (R185). -/
structure Meld where
  bmask : Mask := 0
  active : Bool := false
  slot : Bool := false
  deriving DecidableEq, Repr

/-- The trap context and TRAPST (R409, R410). `pslot` is the slot that trapped. -/
structure TrapCtx where
  slot0 : Path := {}
  slot1 : Path := {}
  pslot : Bool := false
  meld : Meld := {}
  mm : Mask := 0
  s0 : DWord := 0
  s1 : DWord := 0
  s2 : DWord := 0
  s3 : DWord := 0
  /-- Poison tags of s0-s3, kept with them (R271, R281). -/
  stags : Table Tag := []
  q : BitVec 8 := 0
  preds : Table Mask := []
  /-- Both renaming tables (R188). -/
  mapA : Table Nat := []
  mapB : Table Nat := []
  mapPA : Table Nat := []
  mapPB : Table Nat := []
  inh : Bool := false
  next : Bool := false
  preq : Bool := false
  depth : Nat := 0
  deriving DecidableEq, Repr

/-- A trap taken and waiting for the group's counted operations (R408). -/
structure TrapReq where
  pslot : Bool
  regs : TrapRegs
  next : Bool
  deriving DecidableEq, Repr

/-- One group of 32 lanes (R149). Vector register r of lane L has key 32r + L. -/
structure Group where
  idx : Nat := 0
  v : Table Word := []
  s : Table DWord := []
  p : Table Mask := []
  q : BitVec 8 := 0
  flags : Table Nat := []
  slot0 : Slot := {}
  slot1 : Slot := {}
  stack : List Path := []
  live : Mask := 0
  mm : Mask := BitVec.allOnes 32
  meld : Meld := {}
  mapA : Table Nat := []
  mapB : Table Nat := []
  mapPA : Table Nat := []
  mapPB : Table Nat := []
  rsstat : DWord := 0
  pname : DWord := 0
  trap : TrapRegs := {}
  ctx : TrapCtx := {}
  reports : List Report := []
  trapReq : Option TrapReq := none
  /-- A pre-emption request not yet taken: its reason and deadline (R225). -/
  preempt : Option (Nat × Nat) := none
  triggered : Bool := false
  ended : Bool := false
  yielded : Bool := false
  holds : List Hold := []
  pend : List Pend := []
  tags : Table Tag := []
  stags : Table Tag := []
  /-- Phase in which the group last arrived at each named barrier, plus one (R196). -/
  barPhase : Table Nat := []
  /-- The same for the matrix barriers (R198). -/
  mbarPhase : Table Nat := []
  /-- For each name the number of the next remote store to it and the deadline of the last (R239, R244). -/
  rstvSeq : List (DWord × Nat × Nat) := []
  /-- Age stamp (R162, R230). -/
  age : Nat := 0
  deriving DecidableEq, Repr

/-! ## Blocks (08 R153, 07 R124, 09 R195, 10 R219) -/

/-- A named barrier (R195, R339). -/
structure Bar where
  expect : BitVec 11 := 0
  arrived : BitVec 11 := 0
  pending : Int := 0
  phase : BitVec 32 := 0
  arr : Mask := 0
  broken : Bool := false
  /-- An engine arrival or delivery was counted in the current phase, or in the last completed one (R297). -/
  engine : Bool := false
  engineLast : Bool := false
  deriving DecidableEq, Repr

/-- A matrix barrier (R127). -/
structure MBar where
  phase : BitVec 32 := 0
  arr : Mask := 0
  seqArr : Bool := false
  deriving DecidableEq, Repr

/-- The reservation of a sequencer context (R129). -/
inductive Reservation where
  | none
  | home
  | neighbour (e : Nat)
  deriving DecidableEq, Repr

/-- Element kinds of layout records and tile slots (R328, R133). -/
inductive Elem where
  | bf16 | f16 | f8a | f8b | i8 | n8 | dpw8 | i4 | n4 | f32 | i32 | n32 | f64 | i16 | n16
  deriving DecidableEq, Repr

/-- What a tile slot's tag records (R132): kind, compressed N (0 dense), scale applied, map attached. -/
structure SlotTag where
  kind : Elem
  nz : Nat
  scaled : Bool
  mapped : Bool
  deriving DecidableEq, Repr

/-- A claimed tile slot (R132): 4 KiB of data, run exponents two per line, masks 1,024 bytes, map 512 bytes. -/
structure Tile where
  bytes : Table Byte := []
  exps : Table Int := []
  masks : Table Byte := []
  map : Table Byte := []
  tag : Option SlotTag := none
  deriving DecidableEq, Repr

/-- Why a stream waits (R127, R146). -/
inductive SeqWait where
  | none
  | bar (n : Nat)
  | barArrive (n : Nat)
  | fault (tag : Nat)
  deriving DecidableEq, Repr

/-- The sequencer context of a block (R124, R145). `pc` is clause address + 4 slot. -/
structure Seq where
  pc : DWord := 0
  words : Option (List Word) := none
  run : Bool := false
  halt : Bool := false
  cause : BitVec 8 := 0
  k : Table DWord := []
  kq : BitVec 4 := 0
  ka : Nat := 0
  kb : Nat := 0
  ea : Int := 0
  eb : Int := 0
  res : Reservation := .none
  tiles : List (Nat × Tile) := []
  acc : Table Word := []
  iv : Bool := false
  of : Bool := false
  uf : Bool := false
  nx : Bool := false
  rstw : Bool := false
  wait : SeqWait := .none
  /-- Phase of the sequencer's last arrival at each barrier, plus one (R127). -/
  barPhase : Table Nat := []
  deriving DecidableEq, Repr

/-- An arrival counter (R357). -/
structure Counter where
  count : Nat := 0
  target : Nat := 0
  deriving DecidableEq, Repr

/-- The states of R224. `inTransit` is a block shipped by donation that has not arrived (R220). -/
inductive BlockState where
  | unstarted | inTransit | resident | parked | preempting | saved | evicted | moving | retired
  deriving DecidableEq, Repr

/-- What a block runs with: from the launch record or the fork record (R156, R209, R307, R309). -/
structure Shape where
  entry : DWord := 0
  handler : DWord := 0
  args : DWord := 0
  groups : Nat := 1
  vregs : Nat := 8
  sregs : Nat := 16
  accs : Nat := 0
  scrb : Nat := 0
  pkeep : Nat := 0
  pscr : Nat := 0
  strict : Bool := false
  owner : Nat := 0
  prio : Nat := 0
  wdog : Nat := 5
  nlev : Nat := 1
  lidx : List Nat := []
  lext : List Nat := []
  quota : Nat := 0
  deriving DecidableEq, Repr

/-- A block's place in a fork (R308, R309, R323): the forking block, its index, its depth. -/
structure ChildOf where
  parent : Nat
  idx : Nat
  depth : Nat
  nch : Nat
  runs : Nat
  deriving DecidableEq, Repr

/-- A multicast registration kept with the block (R342, R346). -/
structure LBuf where
  chan : Nat
  sel : DWord
  off : Nat
  len : Nat
  bar : Nat
  mode : Nat
  free : Bool
  deriving DecidableEq, Repr

/-- A block: its control record (R219), its shape, and the state its groups share (R153). -/
structure Block where
  key : Nat := 0
  launch : Nat := 0
  fn : Nat := 0
  launchId : DWord := 0
  blin : Nat := 0
  state : BlockState := .unstarted
  trigd : Bool := false
  cor : Bool := false
  handlerPending : Bool := false
  waitEvt : Bool := false
  slotEntry : Nat := 0
  cluster : Nat := 0
  core : Nat := 0
  saveAddr : Nat := 0
  saveLen : Nat := 0
  trigm : Mask := 0
  exitm : Mask := 0
  nres : Nat := 0
  stime : Nat := 0
  /-- The package on which the block is resident or saved (R233 LOC, R234). -/
  loc : Nat := 0
  /-- The save keeps only v0..PKEEP-1 and scratchpad below PSCR (R226). -/
  partialSave : Bool := false
  shape : Shape := {}
  child : Option ChildOf := none
  groups : List Group := []
  scratch : Table Byte := []
  /-- Poisoned 4-byte words of the scratchpad (R420). -/
  scratchBad : Table Bool := []
  bars : Table Bar := []
  mbars : Table MBar := []
  seq : Seq := {}
  counters : Table Counter := []
  lbufs : List LBuf := []
  /-- A pre-emption in progress: reason and watchdog deadline (R225). -/
  preempt : Option (Nat × Nat) := none
  /-- Its groups issue nothing more until it is saved whole (R226). -/
  stopped : Bool := false
  /-- It holds its core for an instance that spans packages and has not started (R222). -/
  reserved : Bool := false
  /-- Address of the part's copy of the launch record (R214, R219). -/
  record : Nat := 0
  /-- Of a block that moved here from another package: that package, and the launch there (R234). -/
  cameFrom : Option (Nat × Nat) := none
  /-- Time at which it was last placed on a core (R213). -/
  placedAt : Nat := 0
  /-- The cluster a donated block comes from (R220), and the package a moving one goes to (R234). -/
  donor : Nat := 0
  moveTo : Nat := 0
  deriving DecidableEq, Repr

/-! ## Scheduling (10) -/

/-- One level of a launch record (R154, R209). -/
structure Level where
  extent : Nat
  domain : Nat
  cor : Bool
  deriving DecidableEq, Repr

/-- A launch record as read at acceptance (R209). -/
structure LaunchRec where
  entry : DWord
  handler : DWord
  args : DWord
  deps : List DWord
  twinq : Nat
  wdog : Nat
  levels : List Level
  groups : Nat
  vregs : Nat
  sregs : Nat
  accs : Nat
  prio : Nat
  pkeep : Nat
  scratch : Nat
  pscr : Nat
  strict : Bool
  notify : Bool
  owner : Nat
  deriving DecidableEq, Repr

/-- How far a launch has come (R207-R211). -/
inductive LaunchState where
  | waiting      -- accepted, not bound
  | bound        -- some block bound
  | ending       -- its end is decided, the completion word is still to be written
  | ended
  deriving DecidableEq, Repr

/-- The part of a launch on another package of its pod (R217; log 25): the package, and whether every block there has
started and triggered, and the part has ended. -/
structure Share where
  pkg : Nat
  trig : Bool := false
  ended : Bool := false
  ready : Bool := false
  deriving DecidableEq, Repr

/-- An accepted launch (R207-R211). -/
structure Launch where
  key : Nat
  fn : Nat
  q : Nat
  idx : Nat
  lr : LaunchRec
  record : Nat
  done : Nat
  state : LaunchState := .waiting
  /-- Blocks placed at least once, blocks that have triggered or retired, blocks retired. -/
  started : Nat := 0
  trigd : Nat := 0
  retired : Nat := 0
  /-- BLIN ranges bound so far: first and count (R214). -/
  bound : List (Nat × Nat) := []
  /-- Where level instances stand: level, instance, place (core divided by the cores of the level's domain) (R154). -/
  homes : List (Nat × Nat × Nat) := []
  triggered : Bool := false
  status : Nat := 0
  cause : BitVec 8 := 0
  /-- Time since which no save area could be allocated (R223). -/
  poolSince : Option Nat := none
  /-- Sidings pages the launch holds (R311, R324). -/
  sidings : Nat := 0
  /-- Its queue has been disabled since, so that its index no longer counts there (R202). -/
  detached : Bool := false
  /-- Of a launch that another package accepted: that package, and the launch there (R217; log 25). -/
  away : Option (Nat × Nat) := none
  /-- The other packages that run blocks of it; its record until they have been told; whether they have. -/
  shares : List Share := []
  image : List Byte := []
  told : Bool := false
  /-- A block of it has started on another package (R208). -/
  begun : Bool := false
  /-- A launch of another package that is here for single blocks only: of a migration, or of a pod fork (R234, R309). -/
  stub : Bool := false
  /-- Its unit here of a co-resident instance that spans packages has its cores (R222). -/
  ready : Bool := false
  deriving DecidableEq, Repr

/-- A bind record of the slot table (R214). -/
structure Bind where
  launch : Nat := 0
  fn : Nat := 0
  record : Nat := 0
  first : Nat := 0
  count : Nat := 0
  clusters : BitVec 96 := 0
  prio : Nat := 0
  eprio : Nat := 0
  level : Nat := 0
  cor : Bool := false
  state : Nat := 0
  next : Nat := 0
  retired : Nat := 0
  trigd : Nat := 0
  saved : Nat := 0
  /-- Since when the record holds a ready block without placing one (R216). -/
  since : Nat := 0
  order : Nat := 0
  deriving DecidableEq, Repr

/-- A launch queue's register window (R201-R206). -/
structure Queue where
  base : DWord := 0
  log2n : Nat := 0
  host : Bool := false
  vec : Nat := 0
  enabled : Bool := false
  widx : Nat := 0
  ridx : Nat := 0
  state : Nat := 0
  cause : Nat := 0
  seen : Nat := 0
  trigwm : Nat := 0
  /-- A DRAIN entry holds the next entry back (R204). -/
  drain : Bool := false
  /-- Indices from TRIGWM on that have triggered or were skipped (R206, R210). -/
  trigd : Table Bool := []
  /-- Index ranges skipped by a restart from TRIGWM on: first and count (R206). -/
  skips : List (Nat × Nat) := []
  deriving DecidableEq, Repr

/-! ## Names (11) -/

/-- STATE of a platform entry (R233). -/
inductive NameState where
  | free | resident | saved | moving | retired
  deriving DecidableEq, Repr

/-- A platform-table entry (R233), with the order of its retirement (R235) and its poison (R420). -/
structure NameEntry where
  state : NameState := .free
  gen : Nat := 0
  loc : Nat := 0
  core : Nat := 0
  gidx : Nat := 0
  owner : Nat := 0
  save : Nat := 0
  block : Nat := 0
  retiredAt : Nat := 0
  poisoned : Bool := false
  deferred : List Packet := []
  /-- Transfer claims standing on the entry (R356): source package and identifier. -/
  claims : List (Nat × Nat) := []
  /-- Packets forwarded to LOC since the block came there, and when the last should have reached it (R240, R244). -/
  fwd : Nat := 0
  fwdBy : Nat := 0
  deriving DecidableEq, Repr

/-- What an outstanding request of this package is for. -/
inductive Purpose where
  | access
  | rstv
  | transfer
  /-- A name asked of its home (R235). -/
  | nameq
  /-- A view page fetched for a child of another package's fork (R309). -/
  | page
  /-- A record read by an instruction that acts once per slot (log 20). -/
  | record
  deriving DecidableEq, Repr

/-- A request outstanding at this package (R242, R354-R356): the operation that awaits it. -/
structure Outstanding where
  id : Nat
  purpose : Purpose
  block : Nat
  gidx : Nat
  pend : Nat
  pslot : Nat := 0
  deadline : Nat
  target : Nat
  addr : DWord := 0
  /-- Destination keys of each lane of a remote load or atomic: vector keys, or 2^20 + s. -/
  keys : List Nat := []
  bytes : Nat := 0
  signed : Bool := false
  uniform : Bool := false
  returns : Bool := false
  /-- The scope of the acquire that follows the answer (R275). -/
  acq : Option Scope := none
  /-- Transfers: name, source address, descriptor offset and length, counter, owner, pieces awaited, LOC. -/
  name : DWord := 0
  src : DWord := 0
  doff : Nat := 0
  len : Nat := 0
  counter : Fin 16 := 0
  owner : Nat := 0
  awaited : List Nat := []
  missed : Bool := false
  /-- The source bytes of a transfer, and the offsets of its poisoned words. -/
  data : List Byte := []
  badWords : List Nat := []
  deriving DecidableEq, Repr

/-! ## Memory hierarchy (12) -/

/-- A line held by a cache (R249, R266): unit, line address, owner key, nonzero bytes, marked read-only (R254). -/
structure CLine where
  unit : Nat
  line : Nat
  key : Nat
  data : Table Byte
  ro : Bool := false
  /-- Its poisoned sectors, 0 to 3 (R265). -/
  bad : List Nat := []
  /-- Offsets of the bytes that an L2 slice still owes to host memory (R397). -/
  owed : List Nat := []
  deriving DecidableEq, Repr

/-- The dirty bytes of one sector in a cluster cache (R249, R291): offset in the sector and value. -/
structure Dirty where
  cluster : Nat
  sector : Nat
  key : Nat
  since : Nat
  bytes : List (Nat × Byte)
  /-- Marked for write-back ahead of other lines (R273). -/
  strm : Bool := false
  /-- One store has written all 32 bytes, which ends poison (R265). -/
  whole : Bool := false
  /-- The dirty copy is poisoned (R265). -/
  bad : Bool := false
  deriving DecidableEq, Repr

/-- A coherence object (R255): PRIVATE when `priv`. -/
structure Obj where
  block : Nat
  cluster : Nat
  core : Nat
  recAddr : DWord
  lines : List (Nat × Nat)
  priv : Bool
  key : Nat
  deriving DecidableEq, Repr

/-- Leaf access kinds (R384). -/
inductive PageKind where
  | ordinary | view | dup | remote
  deriving DecidableEq, Repr

/-- A checked leaf entry as a translation holds it (R382, R384). -/
structure Leaf where
  w : Bool
  x : Bool
  u : Bool
  kind : PageKind
  redop : Nat
  key : Nat
  pa : Nat
  size : Nat
  peer : Nat
  /-- The entry as it was read (R387). -/
  entry : Nat
  deriving DecidableEq, Repr

/-- A cached translation of one owner's page (R382, R385). -/
structure Tlb where
  owner : Nat
  va : Nat
  leaf : Leaf
  deriving DecidableEq, Repr

/-- A range-scoreboard entry (R283): read and write ranges, scratchpad or global, [lo, hi). -/
structure Range where
  block : Nat
  core : Nat
  job : Nat
  reads : List (Bool × Nat × Nat)
  writes : List (Bool × Nat × Nat)
  deriving DecidableEq, Repr

/-! ## Views (15) -/

/-- A shadow or twin page (R311): contents by offset (default by REDOP), dirty 128-byte granules, poisoned sectors. -/
structure Shadow where
  redop : Nat
  pa : Nat
  bytes : Table Byte := []
  dirt : Table Bool := []
  bad : Table Bool := []
  die : Nat := 0
  /-- The page holds no Sidings page of its own: it stands for the twin or shadow one level out (R311). -/
  shared : Bool := false
  deriving DecidableEq, Repr

/-- A fork record (R307). -/
structure ForkRec where
  entry : DWord
  args : DWord
  log : DWord
  scratch : Nat
  logn : Nat
  nch : Nat
  domain : Nat
  groups : Nat
  vregs : Nat
  sregs : Nat
  accs : Nat
  trapc : Bool
  trapx : Bool
  deriving DecidableEq, Repr

/-- Where a child stands (R308, R314, R320). -/
inductive ChildState where
  | unstarted
  | running (block : Nat)
  /-- A child of a pod fork sent to another package (R309). -/
  | away
  | ended
  | merged
  | lost
  | discarded
  deriving DecidableEq, Repr

/-- A child of an open fork (R308, R311, R319). -/
structure Child where
  idx : Nat
  state : ChildState := .unstarted
  runs : Nat := 0
  restartable : Bool := true
  /-- Shadows by virtual page number (va / 2^16). -/
  shadows : List (Nat × Shadow) := []
  deriving DecidableEq, Repr

/-- The states of R320. -/
inductive ForkState where
  | running | fallback | serial | failing | joined
  deriving DecidableEq, Repr

/-- The conflict of one byte (R312, R315): address, lower and higher child, their values. -/
structure Conflict where
  addr : Nat
  lower : Nat
  higher : Nat
  lowVal : Byte
  highVal : Byte
  deriving DecidableEq, Repr

/-- A fork of a block (R308-R325). `owner` names the owner of its pages; twins by virtual page number. -/
structure Fork where
  block : Nat
  owner : Nat
  launch : Nat
  fr : ForkRec
  state : ForkState := .running
  m : Nat := 0
  rerun : Nat := 0
  failb : Nat := 0
  rcnt : Nat := 0
  conflicts : List Conflict := []
  children : List Child := []
  twins : List (Nat × Shadow) := []
  status : DWord := 0
  /-- Log entries still to be stored after a park (R315). -/
  logAt : Nat := 0
  parked : Option Nat := none
  /-- Which child last changed each byte of V that a merge has written (R312): va and child. -/
  changed : Table Nat := []
  /-- Of a fork of another package's block with a child here: that package, the block there, the child's run (R309). -/
  home : Option (Nat × Nat × Nat) := none
  /-- Of such a fork: the forking block as far as its child here needs it, and the pages on their way from there. -/
  host : Option Block := none
  coming : List (Nat × Shadow) := []
  deriving DecidableEq, Repr

/-- A finished join kept with its block (R323): status, and RCNT as `swr` may rewrite it. -/
structure LastJoin where
  status : DWord := 0
  rcnt : Nat := 0
  /-- The fork's DOMAIN, and what the traps of `joinw` report (R316, R318). -/
  domain : Nat := 0
  trapc : Bool := false
  trapx : Bool := false
  failb : Nat := 0
  log : DWord := 0
  first : Option Conflict := none
  deriving DecidableEq, Repr

/-! ## Copies and multicast (16) -/

/-- A layout record (R328). -/
structure Layout where
  base : Nat
  ext : List Nat
  str : List Int
  scale : Nat
  pad : BitVec 32
  type : Elem
  ilv : Nat
  spn : Nat
  scratch : Bool
  deriving DecidableEq, Repr

/-- A job card (R331, R335). Origins are the five signed coordinates of R135. -/
structure Card where
  src : DWord
  dst : DWord
  sorg : List Int
  dorg : List Int
  box : List Nat
  split : Nat
  rm : Nat
  sat : Bool
  ow : Nat
  oh : Nat
  sx : Nat
  sy : Nat
  dx : Nat
  dy : Nat
  fw : Nat
  fh : Nat
  px : Nat
  py : Nat
  deriving DecidableEq, Repr

/-- The three job commands (R332). -/
inductive JobKind where
  | copy | gather | multicast
  deriving DecidableEq, Repr

/-- A job released to an engine (R332-R341, R344). -/
structure Job where
  id : Nat
  kind : JobKind
  engine : Nat
  block : Nat
  gidx : Nat
  pslot : Nat
  owner : Nat
  launch : Nat
  core : Nat
  cluster : Nat
  cardAddr : DWord
  card : Card
  src : Layout
  dst : Layout
  sel : DWord
  bar : Nat
  chan : Nat := 0
  mode : Nat
  /-- Box origin and extents of the slice (R334). -/
  lo : List Nat
  size : List Nat
  /-- Bytes still to deliver into PENDING (R338). -/
  count : Nat
  reads : List (Bool × Nat × Nat)
  writes : List (Bool × Nat × Nat)
  parked : Option Nat := none
  /-- The block's place in a fork, and its chain of forks, kept with the job (R340). -/
  child : Option ChildOf := none
  chain : List (Nat × Nat) := []
  /-- Every access is performed; arrivals still to be made, by block and barrier (R339). -/
  performed : Bool := false
  arrivals : List (Nat × Nat) := []
  /-- The block as it was when it retired before the job ended (R340). -/
  origin : Option Block := none
  /-- The job makes no further writes: its block was ended (R417). -/
  dropped : Bool := false
  /-- Its block was discarded: writes to view pages are dropped, the others stand (R340). -/
  orphan : Bool := false
  deriving DecidableEq, Repr

/-- A multicast channel (R342): launch, level instance, CH, LEN, and its members by block key. -/
structure Channel where
  id : Nat
  launch : Nat
  level : Nat
  inst : Nat
  ch : Nat
  len : Nat
  members : List Nat := []
  /-- BLINs of revoked receivers (R345). -/
  revoked : List Nat := []
  deriving DecidableEq, Repr

/-! ## Fabric and collectives (17) -/

/-- A packet on a link or waiting for it: its budget and its hop index, which with its set and class name its channel
(R349). -/
structure Wire where
  packet : Packet
  budget : Nat
  hop : Nat
  deriving DecidableEq, Repr

/-- A fabric port (R347): LIVE, consecutive failed replays, time of the first, retraining and since when, the packets that
wait for the link, those with flits on the wire, and the flit times that each set has waited (R350). -/
structure Port where
  live : Bool := true
  fails : Nat := 0
  firstFail : Nat := 0
  retraining : Bool := false
  since : Nat := 0
  queued : List Wire := []
  wire : List Wire := []
  waits : List Nat := [0, 0, 0]
  deriving DecidableEq, Repr

/-- A route-table entry (R348). -/
structure Route where
  ports : List Nat := []
  nport : Nat := 0
  hops : Nat := 0
  own : Bool := false
  deriving DecidableEq, Repr

/-- The status of a collective (R367). -/
structure CollStatus where
  code : Nat
  failRank : Nat
  detRank : Nat
  chunks : Nat
  stime : Nat
  deriving DecidableEq, Repr

/-- States of a consist at a Turntable (R361). -/
inductive ConsistState where
  | forming | ready | broken
  deriving DecidableEq, Repr

/-- A consist held by a Turntable (R359-R361). -/
structure Consist where
  die : Nat
  cid : Nat
  owner : Nat
  part : Nat
  members : List (Nat × Nat)
  epoch : Nat := 0
  state : ConsistState := .forming
  digest : DWord := 0
  forms : List Nat := []
  /-- FORM deadline, 0 none. -/
  limit : Nat := 0
  pins : List (Nat × Nat) := []
  brokenBy : Option CollStatus := none
  deriving DecidableEq, Repr

/-- The port pinned on the way of a consist's packets of one source to one destination (R361): owner, CID, source, destination,
port. -/
structure PinnedVia where
  owner : Nat
  cid : Nat
  src : Nat
  dst : Nat
  port : Nat
  deriving DecidableEq, Repr

/-- The result of a formation, waiting for the group that asked (R360). -/
structure FormDone where
  block : Nat
  gidx : Nat
  pslot : Nat
  cid : Nat
  status : Option Nat
  deriving DecidableEq, Repr

/-- A collective card (R362). -/
structure CollCard where
  cid : Nat
  op : Nat
  red : Nat
  clog : Nat
  pri : Bool
  root : Nat
  seq : Nat
  limit : Nat
  count : Nat
  deriving DecidableEq, Repr

/-- A submission (R363): rank, buffer, submitting owner, card address, launch. -/
structure Submit where
  rank : Nat
  buf : DWord
  owner : Nat
  card : DWord
  launch : Nat
  deriving DecidableEq, Repr

/-- A submission that a full Turntable has not accepted (R363): its place and the counted operation that it ends. -/
structure WaitSub where
  die : Nat
  cid : Nat
  epoch : Nat
  card : CollCard
  sub : Submit
  block : Nat
  gidx : Nat
  pend : Nat
  deriving DecidableEq, Repr

/-- States of R370. -/
inductive CollState where
  | waiting | active | done | aborted
  deriving DecidableEq, Repr

/-- A piece kept at a Turntable (R365): rank, segment or destination, chunk, piece, bytes, poisoned 4-byte
elements (R420). -/
structure Piece where
  rank : Nat
  dest : Nat
  chunk : Nat
  idx : Nat
  bytes : List Byte
  poison : List Nat := []
  deriving DecidableEq, Repr

/-- A piece sent and not yet acknowledged (R365): identifier, packet, deadline, next resend. -/
structure Sent where
  id : Nat
  packet : Packet
  coll : Nat
  deadline : Nat
  resend : Nat
  deriving DecidableEq, Repr

/-- A collective at a Turntable of this package (R362-R370). -/
structure Coll where
  id : Nat
  die : Nat
  cid : Nat
  epoch : Nat
  seq : Nat
  card : Option CollCard := none
  subs : List Submit := []
  state : CollState := .waiting
  order : Nat := 0
  /-- Contributions received (the bitmap and the bytes), results received. -/
  pieces : List Piece := []
  /-- Chunk and piece whose result the root has formed. -/
  formed : List (Nat × Nat) := []
  results : List Piece := []
  /-- Result chunks written per local rank: rank and chunk. -/
  written : List (Nat × Nat) := []
  status : Option CollStatus := none
  started : Nat := 0
  heard : Nat := 0
  parked : Option Nat := none
  /-- As a root: chunk and next rank to grant (R365). As a member: root and chunk of the credits held, and of those used. -/
  granted : List (Nat × Nat) := []
  credits : List (Nat × Nat) := []
  paid : List (Nat × Nat) := []
  deriving DecidableEq, Repr

/-! ## Isolation (21) -/

/-- An owner context (R389-R391); `nonce` numbers its draw. -/
structure Owner where
  created : Bool := false
  root : Nat := 0
  replay : Bool := false
  nonce : Nat := 0
  deriving DecidableEq, Repr

/-- A record that takes a slot of a fault ring (R387, R418): a fault with its tag, or a termination. -/
structure RingRec where
  tag : Nat
  term : Bool
  bytes : List Byte
  since : Nat
  launch : Nat := 0
  part : Nat := 0
  deriving DecidableEq, Repr

/-- An outstanding fault tag (R387, R388). `posted` is the time its record was written. -/
structure FaultTag where
  tag : Nat
  fn : Nat
  owner : Nat
  block64 : Nat
  cause : Nat
  posted : Option Nat := none
  deriving DecidableEq, Repr

/-- A fault whose tag was answered FAIL: its parties take the non-replayable cause (R388). -/
structure FailedFault where
  owner : Nat
  block64 : Nat
  cause : Nat
  tag : Nat
  deriving DecidableEq, Repr

/-- The fault queue of a function (R388). -/
structure FaultQ where
  base : DWord := 0
  log2n : Nat := 0
  host : Bool := false
  vec : Nat := 0
  enabled : Bool := false
  widx : Nat := 0
  ridx : Nat := 0
  timeout : Nat := 100000
  waiting : List RingRec := []
  deriving DecidableEq, Repr

/-- Owner-command registers (R391), with the command in progress. -/
structure OwnerCmd where
  arg0 : DWord := 0
  arg1 : DWord := 0
  stat : Nat := 0
  cause : Nat := 0
  cmd : Option (Nat × Nat) := none
  result : Nat := 0
  deriving DecidableEq, Repr

/-- Handover registers (R397), with the command in progress. -/
structure Handover where
  hova : DWord := 0
  holen : DWord := 0
  hosw : DWord := 0
  busy : Bool := false
  lost : Bool := false
  owner : Nat := 0
  d2h : Bool := false
  code : Nat := 0
  deriving DecidableEq, Repr

/-- One MSI-X table entry (R438). -/
structure Vector where
  addr : DWord := 0
  data : BitVec 32 := 0
  masked : Bool := true
  pending : Bool := false
  deriving DecidableEq, Repr

/-- One function of the host link (R393-R403). -/
structure Func where
  queues : Table Queue := []
  fq : FaultQ := {}
  ho : Handover := {}
  oc : OwnerCmd := {}
  hkey : Nat := 0
  fdl0 : Nat := 20000
  fdl1 : Nat := 20000
  fdl2 : Nat := 20000
  fdl3 : Nat := 20000
  astat : Nat := 0
  vectors : Table Vector := []
  fmask : Bool := false
  deriving DecidableEq, Repr

/-- An accepted partition record (R393) and what the part keeps of it. -/
structure Partition where
  part : Nat
  ownBase : Nat
  ownCnt : Nat
  vecBase : Nat
  vecCnt : Nat
  sidings : Nat
  clusters : BitVec 96
  saveBase : Nat
  saveLen : Nat
  mems : List (Nat × Nat)
  rtBase : Nat
  pod : List Nat
  digestOf : List Byte
  /-- Save areas given out: address and length (R227). -/
  saves : List (Nat × Nat) := []
  /-- Sidings pages in use per die (R311). -/
  used : Table Nat := []
  deriving DecidableEq, Repr

/-- A cached range entry of a source package (R400, R401). -/
structure RangeEntry where
  part : Nat
  src : Nat
  rd : Bool
  wr : Bool
  atomic : Bool
  base : Nat
  last : Nat
  owner : Nat
  deriving DecidableEq, Repr

/-- A range-table read of one source package kept in the part (R401). -/
structure RangeCache where
  part : Nat
  src : Nat
  entries : List RangeEntry
  deriving DecidableEq, Repr

/-! ## Recovery and health (23, 24) -/

/-- An error record (R428, R439). -/
structure ErrorRec where
  time : Nat
  kind : Nat
  part : Nat
  unit : Nat
  count : Nat
  addr : Nat
  deriving DecidableEq, Repr

/-- A monitor unit (R425). -/
structure Monitor where
  src : Nat := 0
  inst : Nat := 0
  base : Nat := 0
  shift : Nat := 0
  run : Bool := false
  min : Nat := 0
  max : Nat := 0
  count : Nat := 0
  sum : Nat := 0
  t0 : Nat := 0
  t1 : Nat := 0
  hist : Table Nat := []
  deriving DecidableEq, Repr

/-- One image slot of flash (R430, R431): version, digest, signature, and the setting the model reads from a
configuration image (the time slice in ns, R213). -/
structure Image where
  version : Nat := 0
  digest : BitVec 512 := 0
  sig : Nat := 0
  slice : Nat := 20000000
  /-- The Sidings default, in units of 4 GiB (R14). -/
  sidings : Nat := 6
  deriving DecidableEq, Repr

/-- Flash (R431): two slots of each image (index 2 image + slot), minimum versions, which survive every reset. -/
structure Flash where
  images : Table Image := []
  minVersion : Table Nat := []
  deriving DecidableEq, Repr

/-! ## The package -/

/-- A place where an uncorrectable error strikes (R265, R420). -/
inductive Upset where
  /-- A sector in HBM or in its L2 slice. -/
  | home (sector : Nat)
  /-- A sector in a cluster cache under a key. -/
  | cluster (cl sector key : Nat)
  /-- A line in the remote-data cache of a die. -/
  | remote (die line : Nat)
  /-- A line in an L1 (0), constant (2) or instruction cache (3) of a core. -/
  | core (cache core line : Nat)
  /-- A word of a resident block's scratchpad. -/
  | scratch (block word : Nat)
  /-- A vector register word, by its key, of a group of a resident block. -/
  | vec (block gidx key : Nat)
  /-- A uniform register of a group of a resident block. -/
  | uni (block gidx reg : Nat)
  /-- An entry of the platform table. -/
  | name (idx : Nat)
  deriving DecidableEq, Repr

/-- A turn of the machine or an input from outside, in the order in which they come (log 4). -/
inductive Turn where
  /-- A slot of a group of a resident block issues: block key, group index, slot. -/
  | run (b g : Nat) (k : Bool)
  /-- The matrix stream of a block takes a step. -/
  | stream (b : Nat)
  /-- An event row of the opcode table. -/
  | event (i : Instr)
  /-- Time passes: nanoseconds, and the clocks of each core named (others the same as `clocks`). -/
  | tick (ns clocks : Nat) (cores : List (Nat × Nat))
  /-- A cache gives up a line: 0 L1, 1 cluster cache, 2 constant, 3 instruction, 4 layout-record cache by core or cluster,
  5 a translation by owner and page number, 6 a host-window line of an L2 slice, 7 the remote-data cache of a die (R249, R256,
  R291; log 11). -/
  | evict (cache unit line : Nat)
  /-- An uncorrectable error in a place that holds data (R265, R420). -/
  | upset (p : Upset)
  /-- The link of a port takes a packet that waits, or one that it carries has reached the other end (R347, R350). -/
  | serve (port : Nat)
  | land (port : Nat)
  /-- A saved block that another package moves here arrives, of a launch accepted there (R234; log 32). -/
  | moveIn (b : Block) (src key : Nat)
  /-- Signal Box removes the Turntable of a package and die (R361, R368). -/
  | removed (pkg die : Nat)
  /-- The host reads BAR0 of a function, or the management interface a register or an entry of the platform table (R6, R233,
  R395). -/
  | readBar0 (fn off : Nat)
  | readManagement (off : Nat)
  | readName (idx : Nat)
  /-- A block's core fetches a record into its layout-record cache ahead of a command: block and address (R158, R300). -/
  | prepare (b va : Nat)
  /-- The host writes its own memory (R397). -/
  | hostWrite (addr : Nat) (bytes : List Byte)
  deriving DecidableEq, Repr

/-- Everything of the package that is not the focused block. -/
structure Dev where
  /-- Package time base, ns (R17, R165). -/
  time : Nat := 0
  /-- CYCLE of each core (R165). -/
  cycles : Table Nat := []
  /-- Home memory: HBM by physical address, and host memory behind the window (bit 39) (R247). -/
  mem : List Host.Cell := []
  /-- Owner key under which each 32-byte sector was last written (R266, R390). -/
  keys : Table Nat := []
  /-- Poisoned sectors (R265). -/
  bad : Table Bool := []
  /-- Host-window lines held in die 0's L2, by slice (R249, R397). Lines of HBM that L2 holds are one with `mem` (log 11). -/
  l2host : List CLine := []
  /-- Remote-data caches, by reading die: the lists are the home slices' sharer records (R249, R251). -/
  rdc : List CLine := []
  l1 : List CLine := []
  cc : List CLine := []
  dirty : List Dirty := []
  constant : List CLine := []
  icache : List CLine := []
  records : List CLine := []
  /-- The last launch each core ran (R254), plus one. -/
  lastLaunch : Table Nat := []
  objs : List Obj := []
  tlb : List Tlb := []
  tickets : Nat := 0
  ranges : List Range := []
  /-- Event counters per core (R28, R283). -/
  flagMiss : Table Nat := []
  rsbStall : Table Nat := []
  blocks : List Block := []
  nextBlock : Nat := 0
  launches : List Launch := []
  nextLaunch : Nat := 0
  binds : Table Bind := []
  /-- Claimed unstarted blocks keep their cluster in the block; the count of tiles each core lends (R129). -/
  lent : Table Nat := []
  /-- Dispatch order on each core's partitions (R162). -/
  ages : Nat := 0
  names : Table NameEntry := []
  nameClock : Nat := 0
  deferCount : Nat := 0
  outstanding : List Outstanding := []
  nextId : Nat := 0
  /-- Sequence number next to apply at home for each sender (package and group) and name (R244). -/
  applied : List ((Nat × Nat × DWord) × Nat) := []
  forks : List Fork := []
  joins : List (Nat × LastJoin) := []
  jobs : List Job := []
  channels : List Channel := []
  pkg : Nat := 0
  routes : Table Route := []
  ports : Table Port := []
  /-- Packets accepted here and not yet served, oldest first. -/
  inbox : List Packet := []
  /-- Packets that reached another package, oldest first, with the port they left by (log 3). -/
  outbox : List (Nat × Wire) := []
  vias : List PinnedVia := []
  waitSubs : List WaitSub := []
  consists : List Consist := []
  heldForms : List (Packet × Nat) := []
  formDone : List FormDone := []
  colls : List Coll := []
  sent : List Sent := []
  owners : Table Owner := []
  nonces : Nat := 0
  funcs : Table Func := []
  parts : List Partition := []
  pstat : Nat := 0
  pcause : Nat := 0
  /-- The partition command in progress: set-up address or teardown, and its result (R394). -/
  pcmd : Option (Bool × Nat × Nat × Nat) := none
  rangeCache : List RangeCache := []
  tagsOut : List FaultTag := []
  failed : List FailedFault := []
  nextTag : Nat := 1
  /-- Interrupt messages sent (R438). -/
  interrupts : List (DWord × BitVec 32) := []
  /-- What BAR2 reads returned to the host, newest first; none is an Unsupported Request (R396). -/
  bar2Out : List (Option (List Byte)) := []
  /-- What reads of BAR0, management registers and platform entries returned, newest first (R6, R233). -/
  readOut : List Nat := []
  errors : List ErrorRec := []
  errorsLost : Nat := 0
  corrected : Table Nat := []
  monitors : Table Monitor := []
  steps : Table Nat := []
  flash : Flash := {}
  recovery : Bool := false
  timeSlice : Nat := 20000000
  /-- The Sidings default of the configuration image, in units of 4 GiB (R14, R430). -/
  sidings : Nat := 6
  /-- Digests of the images the package booted from (R403). -/
  booted : List (BitVec 512) := []
  /-- The model's own: counter of free values drawn (log 9). -/
  fresh : Nat := 0
  deriving DecidableEq, Repr

/-- The whole state: turns still to come, the focused block and group whose slot `k` issues, and the rest of the
package. While nothing is focused `focused` is false and every block stands in `dev.blocks` (log 4). -/
structure State where
  agenda : List Turn := []
  rota : Nat := 0
  focused : Bool := false
  /-- The focus is on the block's matrix stream and not on a group's slot (log 4). -/
  onStream : Bool := false
  k : Bool := false
  grp : Group := {}
  blk : Block := {}
  dev : Dev := {}
  deriving DecidableEq, Repr

/-- Why a run stops with a fault. There is no reason: every fault of the spec is a trap, a cause at a stream, a status,
a record or an answer (23 R406, 17 R357, 20 R388), all of which are next states, and R247 lets no access reach an
address that does not exist. Nothing raises one. -/
inductive Fault where
  deriving DecidableEq, Repr

/-- Why a run is refused. -/
inductive Refusal where
  /-- No meaning yet; raised by Machine/Dispatch.lean alone, which raises it for no instruction. Safe: the run stops. -/
  | notModelled (mnemonic : String)
  deriving DecidableEq, Repr

/-- The outcome of a step. -/
abbrev Res := Host.Outcome State Fault Refusal

/-- The machine right after reset (23 R423, 24 R430): every register at the value its map states, no block, no owner,
no partition, empty caches; log 7 names the values the spec leaves open. -/
def State.reset : State := {}

end Sys2Proof.Machine
end

