-- ==== Sys2Proof/Machine/Sparse.lean ====
section
/-! DEFINITION. The operations on finite tables: keys strictly rising, no entry equal to what an unlisted key reads
as, so that equal contents are equal lists; and the list operations that the records of the part use. -/

namespace Sys2Proof.Machine

open Sys2Proof

variable {α : Type}

/-- The value at key k; `d` where nothing is listed. -/
def Sparse.get (d : α) : Table α → Nat → α
  | [], _ => d
  | (j, x) :: t, k => if k = j then x else Sparse.get d t k

/-- The table with key k removed. -/
def Sparse.erase (t : Table α) (k : Nat) : Table α := t.filter fun e => e.1 != k

/-- The table with x listed at key k, in its place. -/
def Sparse.ins (k : Nat) (x : α) : Table α → Table α
  | [] => [(k, x)]
  | (j, y) :: t => if k < j then (k, x) :: (j, y) :: t else if k = j then (k, x) :: t else (j, y) :: Sparse.ins k x t

/-- The table after x is written at key k; writing the default removes the entry. -/
def Sparse.put [DecidableEq α] (d : α) (t : Table α) (k : Nat) (x : α) : Table α :=
  if x = d then Sparse.erase t k else Sparse.ins k x t

/-- The table after f is applied to the value at key k. -/
def Sparse.upd [DecidableEq α] (d : α) (t : Table α) (k : Nat) (f : α → α) : Table α :=
  Sparse.put d t k (f (Sparse.get d t k))

/-- Keys strictly above `lo` and strictly rising. -/
def Sparse.rising : Nat → Table α → Bool
  | _, [] => true
  | lo, (k, _) :: t => decide (lo ≤ k) && Sparse.rising (k + 1) t

/-- The canonical form: keys strictly rising and no value equal to the default. -/
def Sparse.wf [DecidableEq α] (d : α) (t : Table α) : Bool :=
  Sparse.rising 0 t && t.all fun e => decide (e.2 ≠ d)

/-- The list with f applied at position i. -/
def modAt (l : List α) (i : Nat) (f : α → α) : List α :=
  match l, i with
  | [], _ => []
  | x :: t, 0 => f x :: t
  | x :: t, i + 1 => x :: modAt t i f

/-- The list with f applied to every element that p selects. -/
def modIf (l : List α) (p : α → Bool) (f : α → α) : List α := l.map fun x => if p x then f x else x

/-- The list with f applied to the first element that p selects. -/
def modFirst (l : List α) (p : α → Bool) (f : α → α) : List α :=
  match l with
  | [] => []
  | x :: t => if p x then f x :: t else x :: modFirst t p f

/-- The list without its first element that p selects. -/
def dropFirst (l : List α) (p : α → Bool) : List α :=
  match l with
  | [] => []
  | x :: t => if p x then t else x :: dropFirst t p

/-- The list without the element at position i. -/
def dropAt (l : List α) (i : Nat) : List α :=
  match l, i with
  | [], _ => []
  | _ :: t, 0 => t
  | x :: t, i + 1 => x :: dropAt t i

/-- Element i of the list, or d. -/
def nth (d : α) (l : List α) (i : Nat) : α :=
  match l, i with
  | [], _ => d
  | x :: _, 0 => x
  | _ :: t, i + 1 => nth d t i

/-- The least key not below `lo` at which p holds, among the n keys from lo on. -/
def firstFrom (lo n : Nat) (p : Nat → Bool) : Option Nat :=
  match n with
  | 0 => none
  | n + 1 => if p lo then some lo else firstFrom (lo + 1) n p

/-- Insertion of x before the first element that `le x` holds of, so that lists stay ordered. -/
def insertBy (le : α → α → Bool) (x : α) (l : List α) : List α :=
  match l with
  | [] => [x]
  | y :: t => if le x y then x :: y :: t else y :: insertBy le x t

/-- The list ordered by `le`, equal elements in their first order. -/
def sortBy (le : α → α → Bool) (l : List α) : List α := l.foldr (insertBy le) []

end Sys2Proof.Machine
end

