-- ==== Sys2Proof/Machine/Bits.lean ====
section
/-! DEFINITION. Bit fields, sign extension, byte order and lane masks (00 R4, R5). -/

namespace Sys2Proof.Machine

open Sys2Proof

/-- Bits [hi:lo] of n (R5). -/
def bits (n hi lo : Nat) : Nat := n / 2 ^ lo % 2 ^ (hi + 1 - lo)

/-- Bit i of n. -/
def bitOf (n i : Nat) : Bool := n / 2 ^ i % 2 = 1

/-- The low w bits of n as a two's complement number (R4). -/
def sext (n w : Nat) : Int := if n % 2 ^ w < 2 ^ (w - 1) then (n % 2 ^ w : Nat) else (n % 2 ^ w : Nat) - (2 : Int) ^ w

/-- The number whose low 64 bits are n. -/
def dw (n : Nat) : DWord := BitVec.ofNat 64 n

/-- A double word from an integer, wrapping (R4 wrap64). -/
def wrap64 (i : Int) : DWord := BitVec.ofInt 64 i

/-- A word from an integer, wrapping (R4 wrap32). -/
def wrap32 (i : Int) : Word := BitVec.ofInt 32 i

/-- The n bytes of x, least significant first (R5). -/
def bytesOf (x n : Nat) : List Byte :=
  match n with
  | 0 => []
  | n + 1 => BitVec.ofNat 8 x :: bytesOf (x / 256) n

/-- The number whose bytes, least significant first, are l (R5). -/
def natOf (l : List Byte) : Nat :=
  match l with
  | [] => 0
  | b :: t => b.toNat + 256 * natOf t

/-- A word from its fields: lowest bit and value of each. -/
def packFields (l : List (Nat × Nat)) : Nat := l.foldl (fun x f => x + f.2 * 2 ^ f.1) 0

/-- 1 for true. -/
def b2n (b : Bool) : Nat := if b then 1 else 0

/-- Lane L is in the mask. -/
def inM (m : Mask) (L : Nat) : Bool := m.getLsbD L

/-- The lanes below 32 of which p holds. -/
def maskOf (p : Nat → Bool) : Mask :=
  (List.range 32).foldl (fun m L => if p L then m ||| BitVec.ofNat 32 (2 ^ L) else m) 0

/-- The lanes of a mask in increasing order. -/
def lanesOf (m : Mask) : List Nat := (List.range 32).filter (inM m)

/-- The lowest lane of a mask, 0 for the empty mask. -/
def lowest (m : Mask) : Nat := (firstFrom 0 32 (inM m)).getD 0

/-- The number of lanes of a mask. -/
def countM (m : Mask) : Nat := (lanesOf m).length

/-- f applied for each lane of T in increasing lane order (R270). -/
def forLanes {α : Type} (T : Mask) (f : Nat → α → α) (x : α) : α :=
  (List.range 32).foldl (fun x L => if inM T L then f L x else x) x

/-- x rounded up to a multiple of m. -/
def roundUp (x m : Nat) : Nat := (x + m - 1) / m * m

/-- The least integer not below a / b. -/
def ceilDiv (a b : Nat) : Nat := (a + b - 1) / b

end Sys2Proof.Machine
end

