-- ==== Sys2Proof/Machine/Home.lean ====
section
/-! DEFINITION. Home memory and the caches in front of it (12 R247-R266): bytes by physical address under owner keys,
lines held by L1, cluster, constant, instruction and record caches, dirty sectors, and what a release, an acquire and
an atomic do to them (R250, R252). -/

namespace Sys2Proof.Machine

open Sys2Proof

/-! ## Home memory -/

/-- Home memory: bytes by physical address (R247). -/
abbrev Memory := List Host.Cell

/-- What a byte that nothing has written reads as (log 1). -/
def Memory.empty : Byte := 0

/-- One byte of home memory. -/
def Memory.read (m : Memory) (a : Nat) : Byte := Sparse.get Memory.empty m a

/-- Home memory after one byte is written. -/
def Memory.write (m : Memory) (a : Nat) (b : Byte) : Memory := Sparse.put Memory.empty m a b

/-- The canonical form: addresses strictly rising, no entry equal to what an unlisted byte reads as. -/
def Memory.wf (m : Memory) : Bool := Sparse.wf Memory.empty m

/-- A physical address in the host window (R247). -/
def isHost (pa : Nat) : Bool := bitOf pa 39

/-- Key under which owner o reads and writes (R266, R390): the number of its nonce, 0 when it has none. -/
def keyOf (d : Dev) (o : Nat) : Nat := (Sparse.get {} d.owners o).nonce

/-- The listed bytes of home memory from lo to hi - 1, as offsets from lo. -/
def listed (m : Memory) (lo hi : Nat) : Table Byte :=
  (m.filter fun c => decide (lo ≤ c.1) && decide (c.1 < hi)).map fun c => (c.1 - lo, c.2)

/-- The 32 bytes of a sector as they lie in memory. -/
def sectorRaw (m : Memory) (s : Nat) : List Byte := (List.range 32).map fun i => Memory.read m (32 * s + i)

/-- The sector was last written under another key (R266). -/
def foreignSector (d : Dev) (key s : Nat) : Bool :=
  !isHost (32 * s) && Sparse.get 0 d.keys s != 0 && Sparse.get 0 d.keys s != key

/-- A sector read under a key, as offsets and bytes: its own bytes, or what decryption under another key makes of
them (R266, R392; log 8). -/
def sectorBytes (d : Dev) (key s : Nat) : Table Byte :=
  if foreignSector d key s then
    (List.range 32).map fun i => (i, Config.foreign (Sparse.get 0 d.keys s) key s (sectorRaw d.mem s) i)
  else listed d.mem (32 * s) (32 * s + 32)

/-! ## Slices (R248) -/

/-- The L2 slice of its home die that an address selects (R248). -/
def l2Slice (pa : Nat) : Nat := bits pa 12 7 ^^^ bits pa 18 13 ^^^ bits pa 24 19 ^^^ bits pa 30 25 ^^^ bits pa 36 31

/-- The quadrant of its home die that serves an address (R248). -/
def quadrantOf (pa : Nat) : Nat := bits (l2Slice pa) 5 4

/-- The HBM stack of its home die that serves an address (R248). -/
def stackOf (pa : Nat) : Nat := bits (l2Slice pa) 5 5

/-- The home die of an address: host-window lines are homed on die 0 (R247, R248). -/
def homeDie (pa : Nat) : Nat := if isHost pa then 0 else bits pa 38 37

/-- The home slice of an address, 0 to 255 (R248). -/
def homeSlice (pa : Nat) : Nat := 64 * homeDie pa + l2Slice pa

/-! ## Lines held by a cache -/

/-- The line as the cache `l` holds it for unit u under a key. -/
def lineAt (l : List CLine) (u line key : Nat) (ro : Bool) : Option CLine :=
  l.find? fun c => c.unit = u && c.line = line && c.key = key && c.ro = ro

/-- A store of clean copies after it takes a line; full, it holds no more until a line has gone (R249; log 11). -/
def holdLine (cap : Nat) (l : List CLine) (c : CLine) : List CLine :=
  if (l.filter fun x => x.unit = c.unit).length < cap then c :: l else l

/-! ## Host-window lines in L2 (R249, R397) -/

/-- The host-window line that L2 holds under a key (R266). -/
def hostLine (d : Dev) (key line : Nat) : Option CLine := d.l2host.find? fun c => c.line = line && c.key = key

/-- The bytes that L2 owes to host memory for a line go there (R397). -/
def hostWriteLine (d : Dev) (c : CLine) : Dev :=
  { d with
    mem := c.owed.foldl (fun m o => Memory.write m (128 * c.line + o) (Sparse.get 0 c.data o)) d.mem
    l2host := d.l2host.map fun x => if x.line = c.line && x.key = c.key then { x with owed := [] } else x }

/-- Every copy of a host-window line in L2 that p selects is written back (R397). -/
def hostWriteBack (d : Dev) (p : CLine → Bool) : Dev := (d.l2host.filter p).foldl hostWriteLine d

/-- L2 gives up a host-window line after writing it back (R249). -/
def hostEvict (d : Dev) (u line : Nat) : Dev :=
  let d := hostWriteBack d fun c => c.unit = u && c.line = line
  { d with l2host := d.l2host.filter fun c => c.unit != u || c.line != line }

/-- The host-window line as L2 holds it after a read or write brought it in, where its slice has room (R397; log 11). -/
def hostFill (d : Dev) (key line : Nat) : Dev :=
  if isHost (128 * line) && (hostLine d key line).isNone then
    let c : CLine := { unit := homeSlice (128 * line), line := line, key := key,
                       data := listed d.mem (128 * line) (128 * line + 128) }
    { d with l2host := holdLine Config.sliceLines d.l2host c }
  else d

/-! ## The home of a line (R248-R250) -/

/-- A line of home memory as the home slice serves it under a key (R248, R249, R266). A host-window line that L2 holds is
served from there (R397). -/
def homeLine (d : Dev) (key line : Nat) : Table Byte :=
  if isHost (128 * line) then
    match hostLine d key line with
    | some c => c.data
    | none => listed d.mem (128 * line) (128 * line + 128)
  else
    (List.range 4).flatMap fun i => (sectorBytes d key (4 * line + i)).map fun e => (32 * i + e.1, e.2)

/-- The poisoned sectors of a line at its home (R265). -/
def homeBad (d : Dev) (line : Nat) : List Nat := (List.range 4).filter fun i => Sparse.get false d.bad (4 * line + i)

/-- One byte at its home under a key. -/
def homeByte (d : Dev) (key pa : Nat) : Byte :=
  if isHost pa then Sparse.get 0 (homeLine d key (pa / 128)) (pa % 128)
  else if foreignSector d key (pa / 32) then
    Config.foreign (Sparse.get 0 d.keys (pa / 32)) key (pa / 32) (sectorRaw d.mem (pa / 32)) (pa % 32)
  else Memory.read d.mem pa

/-- n bytes at their home under a key. -/
def homeBytes (d : Dev) (key pa n : Nat) : List Byte := (List.range n).map fun i => homeByte d key (pa + i)

/-- The number at n bytes at their home, least significant byte first. -/
def homeNat (d : Dev) (key pa n : Nat) : Nat := natOf (homeBytes d key pa n)

/-- The poison of a sector after a write; `clear` where one write covers its 32 bytes (R265). -/
def badAfter (d : Dev) (s : Nat) (clear : Bool) : Table Bool := if clear then Sparse.put false d.bad s false else d.bad

/-- Bytes of one sector written at their home under a key, after the copies that remote-data caches hold of the line are
invalidated (R251): a sector of another key is first what decryption makes of it (R390), and a write of all 32 bytes ends the
sector's poison (R265). Host-window bytes
are owed to the host where L2 holds the line (R397; log 11). -/
def homeSector (d : Dev) (key s : Nat) (bs : List (Nat × Byte)) (clear : Bool := decide (bs.length = 32)) : Dev :=
  let d := { d with rdc := d.rdc.filter fun c => c.line != s / 4 }
  if isHost (32 * s) then
    let d := hostFill d key (s / 4)
    let off := fun (e : Nat × Byte) => 32 * (s % 4) + e.1
    { d with
      mem := if (hostLine d key (s / 4)).isSome then d.mem else bs.foldl (fun m e => Memory.write m (32 * s + e.1) e.2) d.mem
      l2host := modFirst d.l2host (fun c => c.line = s / 4 && c.key = key) fun c =>
        { c with
          data := bs.foldl (fun t e => Sparse.put 0 t (off e) e.2) c.data
          owed := bs.foldl (fun l e => if l.contains (off e) then l else off e :: l) c.owed }
      bad := badAfter d s clear }
  else
    let base := if foreignSector d key s then sectorBytes d key s else []
    { d with
      mem := (base ++ bs).foldl (fun m e => Memory.write m (32 * s + e.1) e.2) d.mem
      keys := Sparse.put 0 d.keys s key
      bad := badAfter d s clear }

/-- Consecutive bytes written at their home under a key, each sector whole (R295). -/
def homeStore (d : Dev) (key pa : Nat) (bytes : List Byte) : Dev :=
  let es := bytes.zipIdx.map fun e => (pa + e.2, e.1)
  (List.range ((pa + bytes.length + 31) / 32 - pa / 32)).foldl (fun d i =>
    let s := pa / 32 + i
    homeSector d key s ((es.filter fun e => e.1 / 32 = s).map fun e => (e.1 % 32, e.2))) d

/-- Consecutive bytes written through to host memory at once (R397). -/
def hostStore (d : Dev) (pa : Nat) (bytes : List Byte) : Dev :=
  let es := bytes.zipIdx.map fun e => (pa + e.2, e.1)
  { d with
    mem := es.foldl (fun m e => Memory.write m e.1 e.2) d.mem
    rdc := d.rdc.filter fun c => !(es.any fun e => e.1 / 128 = c.line)
    l2host := d.l2host.map fun c =>
      { c with
        data := es.foldl (fun t e => if e.1 / 128 = c.line then Sparse.put 0 t (e.1 % 128) e.2 else t) c.data
        owed := c.owed.filter fun o => !(es.any fun e => e.1 = 128 * c.line + o) } }

/-- A system release of bytes: device bytes at their home, host bytes written through (R208, R397). -/
def systemStore (d : Dev) (key pa : Nat) (bytes : List Byte) : Dev :=
  if isHost pa then hostStore d pa bytes else homeStore d key pa bytes

/-- A poisoned sector lies under the n bytes at pa (R265). -/
def poisoned (d : Dev) (pa n : Nat) : Bool :=
  (List.range ((pa + n + 31) / 32 - pa / 32)).any fun i => Sparse.get false d.bad (pa / 32 + i)

/-! ## Dirty sectors and write-back (R252, R291) -/

/-- The dirty bytes of a sector in a cluster cache under a key. -/
def dirtyAt (d : Dev) (cl s key : Nat) : Option Dirty :=
  d.dirty.find? fun x => x.cluster = cl && x.sector = s && x.key = key

/-- One dirty sector written back to its home (R291); a clean copy of the line in the cluster cache takes the bytes. Poison goes
with a poisoned copy and ends with a whole one (R265). -/
def writeBack (d : Dev) (x : Dirty) : Dev :=
  let d := homeSector d x.key x.sector x.bytes x.whole
  let sec := x.sector % 4
  { d with
    bad := if x.bad then Sparse.put false d.bad x.sector true else d.bad
    dirty := dropFirst d.dirty fun y => y.cluster = x.cluster && y.sector = x.sector && y.key = x.key
    cc := modFirst d.cc (fun c => c.unit = x.cluster && c.line = x.sector / 4 && c.key = x.key) fun c =>
      { c with
        data := x.bytes.foldl (fun t e => Sparse.put 0 t (32 * sec + e.1) e.2) c.data
        bad := if x.bad then sec :: c.bad else if x.whole then c.bad.filter (· ≠ sec) else c.bad } }

/-- Every dirty sector that p selects is written back. -/
def writeBackIf (d : Dev) (p : Dirty → Bool) : Dev := (d.dirty.filter p).foldl writeBack d

/-! ## The cluster cache and the remote-data cache (R249-R251) -/

/-- A line's contents with a cluster's dirty bytes over them. -/
def overlay (d : Dev) (cl line key : Nat) (t : Table Byte) : Table Byte :=
  (List.range 4).foldl (fun t i => match dirtyAt d cl (4 * line + i) key with
    | none => t
    | some x => x.bytes.foldr (fun e t => Sparse.put 0 t (32 * i + e.1) e.2) t) t

/-- A line as the reading die serves it: its remote-data cache's copy, or the home's (R249, R250). -/
def dieLine (d : Dev) (cl key line : Nat) : Table Byte × List Nat :=
  match lineAt d.rdc (cl / 24) line key false with
  | some c => (c.data, c.bad)
  | none => (homeLine d key line, homeBad d line)

/-- The clean contents of a line for a cluster, with its poisoned sectors: its own copy, or what the die serves. -/
def cleanLine (d : Dev) (cl key line : Nat) : Table Byte × List Nat :=
  match lineAt d.cc cl line key false with
  | some c => (c.data, c.bad)
  | none => dieLine d cl key line

/-- A line as the cluster cache serves it, with the dirty bytes (R249, R250). -/
def clusterLine (d : Dev) (cl key line : Nat) : Table Byte := overlay d cl line key (cleanLine d cl key line).1

/-- The poisoned sectors of a line as the cluster cache serves it (R265). -/
def clusterBad (d : Dev) (cl key line : Nat) : List Nat :=
  (List.range 4).filter fun i => match dirtyAt d cl (4 * line + i) key with
    | some x => x.bad || (!x.whole && (cleanLine d cl key line).2.contains i)
    | none => (cleanLine d cl key line).2.contains i

/-- The cluster cache holds a line, clean or dirty, or has room for it (R249; log 11). -/
def clusterFits (d : Dev) (cl line : Nat) : Bool :=
  let held := (d.cc.filter fun c => c.unit = cl).map (·.line) ++ (d.dirty.filter fun x => x.cluster = cl).map fun x => x.sector / 4
  held.contains line || decide (held.eraseDups.length < Config.clusterLines)

/-- A cluster cache gives up a line after writing back its dirty sectors, PRIVATE objects included (R249, R256). -/
def clusterEvict (d : Dev) (cl line : Nat) : Dev :=
  let d := writeBackIf d fun x => x.cluster = cl && x.sector / 4 = line
  { d with cc := d.cc.filter fun c => c.unit != cl || c.line != line }

/-- The remote-data cache of a cluster's die holding the line, where another die homes it and there is room (R249; log 11). -/
def fillRemote (d : Dev) (cl key line : Nat) : Dev :=
  let u := cl / 24
  if homeDie (128 * line) = u || (lineAt d.rdc u line key false).isSome then d
  else
    let same := d.rdc.filter fun c => c.unit = u && l2Slice (128 * c.line) = l2Slice (128 * line)
    if Config.remoteLines ≤ same.length then d
    else { d with rdc := { unit := u, line := line, key := key, data := homeLine d key line, bad := homeBad d line } :: d.rdc }

/-- The cluster cache holding the line, where it has room (R250). -/
def fillCluster (d : Dev) (cl key line : Nat) : Dev :=
  let d := hostFill d key line
  match lineAt d.cc cl line key false with
  | some _ => d
  | none =>
    let d := fillRemote d cl key line
    let x := cleanLine d cl key line
    if clusterFits d cl line then
      { d with cc := { unit := cl, line := line, key := key, data := x.1, bad := x.2 } :: d.cc }
    else d

/-! ## Loads, fetches and stores of a core (R250, R254, R300, R302) -/

/-- The n bytes at offset off of a line. -/
def sliceLine (t : Table Byte) (off n : Nat) : List Byte := (List.range n).map fun i => Sparse.get 0 t (off + i)

/-- The n bytes at pa lie in one of these poisoned sectors of their line. -/
def inBad (bad : List Nat) (pa n : Nat) : Bool :=
  bad.any fun i => decide (i * 32 < pa % 128 + n) && decide (pa % 128 < i * 32 + 32)

/-- The line of an address as the cluster cache serves it to a core. -/
def servedLine (d : Dev) (core cl key pa : Nat) (ro : Bool) : CLine :=
  { unit := core, line := pa / 128, key := key, data := clusterLine d cl key (pa / 128), ro := ro
    bad := clusterBad d cl key (pa / 128) }

/-- A load of n bytes of one line by a core: served by L1, the cluster cache or the home, and held by L1 and the
cluster cache afterwards unless it streams (R250, R272). -/
def loadBytes (d : Dev) (core cl key pa n : Nat) (strm : Bool) : Dev × List Byte :=
  match lineAt d.l1 core (pa / 128) key false with
  | some c => (d, sliceLine c.data (pa % 128) n)
  | none =>
    let c := servedLine d core cl key pa false
    let d := if strm then hostFill d key (pa / 128) else
      let d := fillCluster d cl key (pa / 128)
      { d with l1 := holdLine Config.l1Lines d.l1 c }
    (d, sliceLine c.data (pa % 128) n)

/-- That load meets poison (R265). -/
def loadBad (d : Dev) (core cl key pa n : Nat) : Bool :=
  inBad ((lineAt d.l1 core (pa / 128) key false).getD (servedLine d core cl key pa false)).bad pa n

/-- The line as the L1 has it for a read-only load: marked so, unmarked, or not at all (R254). -/
def roLine (d : Dev) (core cl key pa : Nat) : CLine :=
  match lineAt d.l1 core (pa / 128) key true, lineAt d.l1 core (pa / 128) key false with
  | some c, _ => c
  | none, some c => { c with ro := true }
  | none, none => servedLine d core cl key pa true

/-- A load of `ldro`: through the L1 with the line marked read-only (R254). -/
def loadRo (d : Dev) (core cl key pa n : Nat) : Dev × List Byte :=
  let c := roLine d core cl key pa
  if (lineAt d.l1 core (pa / 128) key true).isSome then (d, sliceLine c.data (pa % 128) n)
  else
    let d := fillCluster d cl key (pa / 128)
    ({ d with l1 := holdLine Config.l1Lines d.l1 c }, sliceLine c.data (pa % 128) n)

/-- A load of n bytes by a core through one of its caches that fill from the cluster cache: the bytes, and whether they are
poisoned (R254, R300, R302). -/
def loadThrough (l : Dev → List CLine) (put : Dev → List CLine → Dev) (cap : Nat) (ro : Bool) (d : Dev)
    (core cl key pa n : Nat) : Dev × List Byte × Bool :=
  match lineAt (l d) core (pa / 128) key ro with
  | some c => (d, sliceLine c.data (pa % 128) n, inBad c.bad pa n)
  | none =>
    let c := servedLine d core cl key pa ro
    let d := fillCluster d cl key (pa / 128)
    (put d (holdLine cap (l d) c), sliceLine c.data (pa % 128) n, inBad c.bad pa n)

/-- A load through the constant cache (R254). -/
def loadConst : Dev → Nat → Nat → Nat → Nat → Nat → Dev × List Byte × Bool :=
  loadThrough (·.constant) (fun d l => { d with constant := l }) Config.constantLines true

/-- A read through the layout-record cache, which fills from the cluster cache (R300); the spec gives it no size. -/
def loadRecord (d : Dev) : Nat → Nat → Nat → Nat → Nat → Dev × List Byte × Bool :=
  loadThrough (·.records) (fun d l => { d with records := l }) (d.records.length + 1) false d

/-- A fetch of n bytes of one line through the instruction cache, which fills from the cluster cache (R302). -/
def fetchBytes : Dev → Nat → Nat → Nat → Nat → Nat → Dev × List Byte × Bool :=
  loadThrough (·.icache) (fun d l => { d with icache := l }) Config.icacheLines false

/-- A prefetch (R274): the line into the cluster cache, and into L1 unless it streams. -/
def prefetch (d : Dev) (core cl key pa : Nat) (strm : Bool) : Dev :=
  if strm then fillCluster d cl key (pa / 128) else (loadBytes d core cl key pa 0 false).1

/-- The bytes of one sector as a store notes them in a cluster cache. -/
def noteDirty (d : Dev) (cl key pa : Nat) (bytes : List Byte) (strm : Bool) : Dev :=
  let s := pa / 32
  let es := bytes.zipIdx.map fun e => (pa % 32 + e.2, e.1)
  { d with dirty := match dirtyAt d cl s key with
      | some _ => modFirst d.dirty (fun x => x.cluster = cl && x.sector = s && x.key = key) fun x =>
          { x with bytes := es.foldl (fun t e => Sparse.ins e.1 e.2 t) x.bytes, strm := x.strm || strm }
      | none => { cluster := cl, sector := s, key := key, since := d.time, bytes := es, strm := strm } :: d.dirty }

/-- A store of bytes of one sector: the sector becomes dirty in the cluster cache, and the core's L1 copy is updated
(R250). A full cluster cache gives the sector up at once (R249; log 11). -/
def storeBytes (d : Dev) (core cl key pa : Nat) (bytes : List Byte) (strm : Bool) : Dev :=
  let fits := clusterFits d cl (pa / 128)
  let d := noteDirty d cl key pa bytes strm
  let d := { d with
    l1 := modFirst d.l1 (fun c => c.unit = core && c.line = pa / 128 && c.key = key && !c.ro) fun c =>
      { c with data := bytes.zipIdx.foldl (fun t e => Sparse.put 0 t (pa % 128 + e.2) e.1) c.data } }
  if fits then d else clusterEvict d cl (pa / 128)

/-- One store has written the whole sector at pa: its poison ends where the store is held, and in the core's L1 (R265). -/
def cleanSector (d : Dev) (core cl key pa : Nat) : Dev :=
  { d with
    bad := badAfter d (pa / 32) (dirtyAt d cl (pa / 32) key).isNone
    dirty := modFirst d.dirty (fun x => x.cluster = cl && x.sector = pa / 32 && x.key = key) fun x =>
      { x with whole := true, bad := false }
    l1 := modFirst d.l1 (fun c => c.unit = core && c.line = pa / 128 && c.key = key && !c.ro) fun c =>
      { c with bad := c.bad.filter (· ≠ pa / 32 % 4) } }

/-! ## Release and acquire (R252) -/

/-- The line lies in an object that selects it (R255). -/
def inObj (o : Obj) (line key : Nat) : Bool :=
  o.key = key && o.lines.any fun r => decide (r.1 ≤ line) && decide (line < r.2)

/-- The release action of a cluster at die, package or system scope (R252): its dirty sectors are written back to
their homes, except those of PRIVATE objects (R255). -/
def releaseCluster (d : Dev) (cl : Nat) : Dev :=
  writeBackIf d fun x => x.cluster = cl &&
    !(d.objs.any fun o => o.cluster = cl && o.priv && inObj o (x.sector / 4) x.key)

/-- The release action at a scope (R252): stores reach the cluster cache as they issue, so only the wider scopes act. -/
def releaseAt (d : Dev) (cl : Nat) (sc : Scope) : Dev :=
  match sc with
  | .grp | .blk | .clu => d
  | .die | .pkg | .sys => releaseCluster d cl

/-- L1 lines that an acquire of the core drops (R252): all but read-only lines and lines of READ objects. -/
def dropL1 (d : Dev) (core : Nat) : Dev :=
  { d with l1 := d.l1.filter fun c => c.unit != core || c.ro ||
      d.objs.any fun o => o.core = core && !o.priv && inObj o c.line c.key }

/-- The acquire action at a scope (R252). -/
def acquireAt (d : Dev) (core cl : Nat) (sc : Scope) : Dev :=
  match sc with
  | .grp | .blk => d
  | .clu => dropL1 d core
  | .die | .pkg | .sys =>
    let held := fun (c : CLine) => d.objs.any fun o => o.cluster = cl && inObj o c.line c.key
    { d with
      l1 := d.l1.filter fun c => c.unit != core || c.ro || held c
      cc := d.cc.filter fun c => c.unit != cl || held c }

/-- The cluster cache writes back its dirty sectors of a line and drops it, and the core's L1 copy goes with it
(R250). -/
def dropLine (d : Dev) (core cl line : Nat) : Dev :=
  let d := clusterEvict d cl line
  { d with
    l1 := d.l1.filter fun c => c.unit != core || c.line != line || c.ro }

/-- Every dirty copy of a line in the package is written back (R397, R251). -/
def flushLine (d : Dev) (line : Nat) : Dev := writeBackIf d fun x => x.sector / 4 = line

/-- The caches whose units p selects lose every line: the layout-record cache (R299) or the instruction cache (R301). -/
def dropUnits (l : List CLine) (p : Nat → Bool) : List CLine := l.filter fun c => !p c.unit

/-- Cores within a scope of a core: the issuing core, its cluster, its die, or the package (R299). -/
def coreWithin (sc : Scope) (core c : Nat) : Bool :=
  match sc with
  | .grp | .blk => c = core
  | .clu => c / 4 = core / 4
  | .die => c / 96 = core / 96
  | .pkg | .sys => true

/-- A core starts a block of a launch: its constant cache and read-only lines go when the launch is not the last it
ran (R254), and the start acquires at system scope (R396). -/
def startOnCore (d : Dev) (core launch : Nat) : Dev :=
  let d := if Sparse.get 0 d.lastLaunch core = launch + 1 then d else
    { d with
      constant := dropUnits d.constant fun u => u = core
      l1 := d.l1.filter fun c => c.unit != core || !c.ro
      lastLaunch := Sparse.put 0 d.lastLaunch core (launch + 1) }
  acquireAt d core (core / 4) .sys

/-- An engine's write at its home (R250): the cluster's dirty bytes of the line go first, and the issuing core's and
cluster's copies are dropped, so that the block's own accesses see the job's writes (R283). -/
def engineStore (d : Dev) (core cl key pa : Nat) (bytes : List Byte) : Dev :=
  let lines := (List.range ((pa + bytes.length + 127) / 128 - pa / 128)).map fun i => pa / 128 + i
  homeStore (lines.foldl (fun d l => dropLine d core cl l) d) key pa bytes

/-- A cache loses a line of a unit. -/
def withoutLine (l : List CLine) (u line : Nat) : List CLine := l.filter fun c => c.unit != u || c.line != line

/-- A cache gives up a line (R249, R291; log 11): a cluster cache and an L2 slice write back what they owe; the other caches
hold clean copies. -/
def evictLine (d : Dev) (cache u line : Nat) : Dev :=
  match cache with
  | 0 => { d with l1 := withoutLine d.l1 u line }
  | 1 => clusterEvict d u line
  | 2 => { d with constant := withoutLine d.constant u line }
  | 3 => { d with icache := withoutLine d.icache u line }
  | 4 => { d with records := withoutLine d.records u line }
  | 5 => { d with tlb := d.tlb.filter fun x => x.owner != u || x.va / 2 ^ 16 != line }
  | 6 => hostEvict d u line
  | 7 => { d with rdc := withoutLine d.rdc u line }
  | _ => d

/-! ## Sector poison -/

/-- The sectors under n bytes become poisoned (R265). -/
def poisonBytes (d : Dev) (pa n : Nat) : Dev :=
  (List.range ((pa + n + 31) / 32 - pa / 32)).foldl (fun d i =>
    { d with bad := Sparse.put false d.bad (pa / 32 + i) true }) d

end Sys2Proof.Machine
end

