-- ==== Sys2Proof/Machine/Walk.lean ====
section
/-! DEFINITION. Owners, partitions, the table walk and its checks (21 R381-R385, R393), and replayable faults with
their tags and records (R386-R388). -/

namespace Sys2Proof.Machine

open Sys2Proof

/-! ## Partitions -/

/-- The running partition of an owner (R389, R393). -/
def partOf (d : Dev) (o : Nat) : Option Partition :=
  d.parts.find? fun p => decide (p.ownBase ≤ o) && decide (o < p.ownBase + p.ownCnt)

/-- The running partition that function f serves (R393). -/
def partOfFn (d : Dev) (f : Nat) : Option Partition := d.parts.find? fun p => p.part = f

/-- The function that serves an owner, 0 when none does. -/
def fnOf (d : Dev) (o : Nat) : Nat := ((partOf d o).map (·.part)).getD 0

/-- The key of the management owner of an owner's function (R389). -/
def mgmtKey (d : Dev) (o : Nat) : Nat := keyOf d (((partOf d o).map (·.ownBase)).getD 0)

/-- Every byte from lo to hi - 1 lies in one of the ranges of base and length. -/
def covered (rs : List (Nat × Nat)) : Nat → Nat → Nat → Bool
  | 0, lo, hi => decide (hi ≤ lo)
  | n + 1, lo, hi => decide (hi ≤ lo) ||
      match rs.find? fun r => decide (r.1 ≤ lo) && decide (lo < r.1 + r.2) with
      | some r => covered rs n (r.1 + r.2) hi
      | none => false

/-- The n bytes at pa lie in the ranges. -/
def within (rs : List (Nat × Nat)) (pa n : Nat) : Bool := covered rs (rs.length + 1) pa (pa + n)

/-- Some byte of the n at pa lies in one of the ranges. -/
def touches (rs : List (Nat × Nat)) (pa n : Nat) : Bool :=
  rs.any fun r => decide (r.1 < pa + n) && decide (pa < r.1 + r.2)

/-- The parts of the ranges that lie on populated offsets of a die (R247). -/
def onDie (rs : List (Nat × Nat)) (die : Nat) : List (Nat × Nat) :=
  (rs.map fun r =>
    let lo := max r.1 (die * 2 ^ 37)
    let hi := min (r.1 + r.2) (die * 2 ^ 37 + Config.populated)
    (lo, hi - lo)).filter fun r => decide (0 < r.2)

/-- The highest n bytes of the ranges, as ranges (R393): the ranges are taken from the highest down. -/
def highest : List (Nat × Nat) → Nat → List (Nat × Nat)
  | [], _ => []
  | r :: t, n => if n = 0 then [] else if n ≤ r.2 then [(r.1 + r.2 - n, n)] else r :: highest t (n - r.2)

/-- The Sidings carve of a partition on a die: one quarter of the size from the highest addresses (R393). -/
def sidingsOn (mems : List (Nat × Nat)) (size die : Nat) : List (Nat × Nat) :=
  highest (sortBy (fun a b => decide (b.1 ≤ a.1)) (onDie mems die)) (size * 2 ^ 30)

/-- The whole Sidings carve of a partition (R393). -/
def sidingsOf (mems : List (Nat × Nat)) (size : Nat) : List (Nat × Nat) :=
  (List.range 4).flatMap (sidingsOn mems size)

/-- The n device bytes at pa lie on populated offsets (R247). -/
def populated (pa n : Nat) : Bool :=
  decide (n = 0) || decide ((pa % 2 ^ 37) + n ≤ Config.populated) && decide (pa < 2 ^ 39)

/-- A page may be mapped for launches of the partition: it lies in the partition's memory, on populated offsets, and
in neither Sidings nor the save pool (R384 check 3). -/
def mappable (p : Partition) (pa n : Nat) : Bool :=
  within p.mems pa n && populated pa n && !touches (sidingsOf p.mems p.sidings) pa n &&
    !touches [(p.saveBase, p.saveLen)] pa n

/-- A package is in the pod member table (R400). -/
def inPod (p : Partition) (pkg : Nat) : Bool := p.pod.contains pkg

/-! ## The walk (R381-R384) -/

/-- The kinds of an access, codes 0 to 3 of a fault record (R387). -/
inductive Acc where
  | read | write | atomic | fetch
  deriving DecidableEq, Repr

/-- The code of an access kind (R387). -/
def Acc.code : Acc → Nat
  | .read => 0 | .write => 1 | .atomic => 2 | .fetch => 3

/-- The access may change memory. -/
def Acc.writes : Acc → Bool
  | .write | .atomic => true
  | .read | .fetch => false

/-- What a translation gives. -/
inductive Xlat where
  | ok (l : Leaf) (pa : Nat)
  /-- A trap: TRANSLATION, PROTECTION or VIEW_ATTRIBUTE. -/
  | trap (cause : BitVec 8)
  /-- A replayable fault: cause of the record, walk level, entry (R387). -/
  | park (kind level : Nat) (entry : Nat)
  deriving DecidableEq, Repr

/-- What a walk gives before the checks that depend on the access. -/
inductive Walked where
  | leaf (l : Leaf) (va level entry : Nat)
  | trap (cause : BitVec 8)
  | missing (level entry : Nat)
  deriving DecidableEq, Repr

/-- Cause codes (R407). -/
abbrev Cause := BitVec 8
def cTRANSLATION : Cause := 0x12
def cPROTECTION : Cause := 0x13
def cVIEW_ATTRIBUTE : Cause := 0x23

/-- The kind of a leaf entry (R384). -/
def pageKind (e : Nat) : PageKind :=
  match bits e 5 4 with
  | 0 => .ordinary | 1 => .view | 2 => .dup | _ => .remote

/-- Checks 1 to 6 of R384 on a leaf entry for a page of `size` bytes at level `lvl`. -/
def checkLeaf (d : Dev) (o : Nat) (lvl size va e : Nat) : Walked :=
  let kind := pageKind e
  let redop := bits e 9 6
  let pa := bits e 45 22 * 2 ^ 16
  let peer := bits e 55 46
  let host := isHost pa
  if bitOf e 10 || (lvl = 4 && bitOf e 11) then .trap cTRANSLATION
  else if pa % size ≠ 0 then .trap cTRANSLATION
  else if !host && !((partOf d o).any fun p => mappable p pa size) then .trap cTRANSLATION
  else if host && kind ≠ .ordinary then .trap cTRANSLATION
  else if (kind = .view && lvl ≠ 4) || redop = 15 || (redop ≠ 0 && kind ≠ .view) then .trap cVIEW_ATTRIBUTE
  else if (kind = .dup && lvl = 2) ||
      (kind = .remote && (peer = d.pkg || !((partOf d o).any fun p => inPod p peer))) then .trap cTRANSLATION
  else .leaf ⟨bitOf e 1, bitOf e 2, bitOf e 3, kind, redop, bits e 21 12, pa, size, peer, e⟩ (va / size * size) lvl e

/-- The directory entry's next table for level lvl + 1, none where R383 faults it. -/
def nextTable (lvl e : Nat) : Option Nat :=
  let next := bits e 43 12 * 2 ^ 8
  if bits e 10 1 ≠ 0 || bits e 63 44 ≠ 0 || isHost next || (lvl < 3 && next % 4096 ≠ 0) then none else some next

/-- An entry that the walk cannot read: a poisoned sector, or an offset that is not populated (R247, R420). -/
def badTable (d : Dev) (a : Nat) : Bool := poisoned d a 8 || !populated a 8

/-- The walk from table t at level lvl, n levels of directories left (R381). Every entry is read at its home under
the management key; one that cannot be read gives TRANSLATION (R247, R382, R420). -/
def walkFrom (d : Dev) (o va : Nat) : Nat → Nat → Nat → Walked
  | 0, t, _ =>
    let a := t + 8 * bits va 20 16
    let e := homeNat d (mgmtKey d o) a 8
    if badTable d a then .trap cTRANSLATION
    else if bitOf e 0 then checkLeaf d o 4 (2 ^ 16) va e else .missing 4 e
  | n + 1, t, lvl =>
    let a := t + 8 * (va / 2 ^ (48 - 9 * lvl) % 512)
    let e := homeNat d (mgmtKey d o) a 8
    if badTable d a then .trap cTRANSLATION
    else if !bitOf e 0 then .missing lvl e
    else if bitOf e 11 then
      if lvl < 2 then .trap cTRANSLATION else checkLeaf d o lvl (if lvl = 2 then 2 ^ 30 else 2 ^ 21) va e
    else match nextTable lvl e with
      | none => .trap cTRANSLATION
      | some t => walkFrom d o va n t (lvl + 1)

/-- The walk of an owner's tables for a virtual address (R381). -/
def walk (d : Dev) (o va : Nat) : Walked :=
  if 2 ^ 57 ≤ va then .trap cTRANSLATION
  else walkFrom d o va 4 (Sparse.get {} d.owners o).root 0

/-- The level of the entry that maps a page of this size (R381). -/
def leafLevel (l : Leaf) : Nat := if l.size = 2 ^ 30 then 2 else if l.size = 2 ^ 21 then 3 else 4

/-- The translation of a virtual address as the translation cache holds it (R382), or by a walk. -/
def findLeaf (d : Dev) (o va : Nat) : Walked :=
  match d.tlb.find? fun t => t.owner = o && t.va = va / t.leaf.size * t.leaf.size with
  | some t => .leaf t.leaf t.va (leafLevel t.leaf) t.leaf.entry
  | none => walk d o va

/-- Checks 7 to 10 of R384: an access by owner o to a leaf. -/
def checkAccess (o : Nat) (acc : Acc) (l : Leaf) (va lvl e : Nat) : Xlat :=
  if !l.u || l.key ≠ o then .trap cPROTECTION
  else if acc = .fetch && (!l.x || l.kind = .remote || isHost l.pa) then .trap cPROTECTION
  else if acc.writes && l.kind = .dup then .park 3 lvl e
  else if acc.writes && !l.w then .park 2 lvl e
  else .ok l (l.pa + va % l.size)

/-- The non-replayable cause of a replayable fault (R386). -/
def hardCause (kind : Nat) : Cause := if kind = 1 then cTRANSLATION else cPROTECTION

/-- The party's own tag was answered FAIL (R388), for this owner, block and cause. -/
def answeredFail (d : Dev) (o va kind : Nat) (tag : Option Nat) : Bool :=
  d.failed.any fun f => tag = some f.tag && f.owner = o && f.block64 = va / 2 ^ 16 && f.cause = kind

/-- A replayable fault is replayable only with REPLAY = 1 and a fault queue that is enabled (R386, R388). -/
def replayable (d : Dev) (o : Nat) : Bool :=
  (Sparse.get {} d.owners o).replay && (Sparse.get {} d.funcs (fnOf d o)).fq.enabled

/-- The translation of one access, without the fault's replay being decided (R381-R384). -/
def xlatRaw (d : Dev) (o va : Nat) (acc : Acc) : Xlat :=
  match findLeaf d o va with
  | .trap c => .trap c
  | .missing lvl e => .park 1 lvl e
  | .leaf l _ lvl e => checkAccess o acc l va lvl e

/-- The translation of one access by a party that waits on `tag`, if any (R381-R388). -/
def xlat (d : Dev) (o va : Nat) (acc : Acc) (tag : Option Nat) : Xlat :=
  match xlatRaw d o va acc with
  | .park kind lvl e =>
    if !replayable d o || answeredFail d o va kind tag then .trap (hardCause kind) else .park kind lvl e
  | x => x

/-- The leaf as its entry gives it, where a read meets a view page as one of another package (R309). -/
def Leaf.held (l : Leaf) : Leaf :=
  if l.kind = .remote && pageKind l.entry = .view then { l with kind := .view, peer := bits l.entry 55 46 } else l

/-- The translation cache after a translation that met no fault (R382). -/
def keepLeaf (d : Dev) (o va : Nat) (leaf : Leaf) : Dev :=
  let l := leaf.held
  let base := va / l.size * l.size
  if d.tlb.any fun t => t.owner = o && t.va = base && t.leaf = l then d
  else { d with tlb := ⟨o, base, l⟩ :: d.tlb }

/-! ## Replayable faults (R386-R388) -/

/-- What a fault record says of its party (R387): launch id, agent, unit, lanes. -/
structure Party where
  launchId : Nat
  agent : Nat
  unit : Nat
  lanes : Nat := 0
  deriving DecidableEq, Repr

/-- The bytes of a fault record; STAMP is written when the record is posted (R387). -/
def faultBytes (va time tag o kind acc lvl e : Nat) (p : Party) : List Byte :=
  bytesOf va 8 ++ bytesOf time 8 ++ bytesOf p.launchId 8 ++ bytesOf tag 4 ++ bytesOf o 2 ++ bytesOf kind 1 ++
    bytesOf acc 1 ++ bytesOf p.agent 1 ++ bytesOf lvl 1 ++ bytesOf p.unit 2 ++ bytesOf p.lanes 4 ++ bytesOf e 8 ++
    bytesOf 0 16

/-- The function's state after f. -/
def modFn (d : Dev) (f : Nat) (g : Func → Func) : Dev :=
  { d with funcs := Sparse.upd {} d.funcs f g }

/-- A party meets a replayable fault: it joins the outstanding tag of the triple, or a new tag is drawn and its record
waits for a slot of the ring (R388). Returns the tag. -/
def parkFault (d : Dev) (o va kind lvl e : Nat) (acc : Acc) (p : Party) : Dev × Nat :=
  match d.tagsOut.find? fun t => t.owner = o && t.block64 = va / 2 ^ 16 && t.cause = kind with
  | some t => (d, t.tag)
  | none =>
    let tag := d.nextTag
    let fn := fnOf d o
    let r : RingRec := { tag := tag, term := false, bytes := faultBytes va d.time tag o kind acc.code lvl e p,
                         since := d.time, part := fn }
    let d := { d with
      nextTag := tag + 1
      tagsOut := d.tagsOut ++ [{ tag := tag, fn := fn, owner := o, block64 := va / 2 ^ 16, cause := kind }] }
    (modFn d fn fun f => { f with fq := { f.fq with waiting := f.fq.waiting ++ [r] } }, tag)

/-- The tag still awaits its reply. -/
def outstanding (d : Dev) (tag : Nat) : Bool := d.tagsOut.any fun t => t.tag = tag

end Sys2Proof.Machine
end

