-- ==== Sys2Proof/Machine/Views.lean ====
section
/-! DEFINITION. Forked views as accesses meet them (15 R304-R311): the chain of forks of a child, what it reads of a view
page, its shadow, and the Sidings pages that a first write allocates. -/

namespace Sys2Proof.Machine

open Sys2Proof

/-! ## Blocks of the package -/

/-- The block with a key among those not focused. -/
def findBlock (d : Dev) (b : Nat) : Option Block := d.blocks.find? fun x => x.key = b

/-- The package with f applied to block b. -/
def modBlock (d : Dev) (b : Nat) (f : Block → Block) : Dev :=
  { d with blocks := modFirst d.blocks (fun x => x.key = b) f }

/-- The block with f applied to group g. -/
def Block.modGroup (b : Block) (g : Nat) (f : Group → Group) : Block :=
  { b with groups := modFirst b.groups (fun x => x.idx = g) f }

/-- The open fork of block b (R308). -/
def forkOf (d : Dev) (b : Nat) : Option Fork := d.forks.find? fun f => f.block = b

/-- The package with f applied to the open fork of block b. -/
def modFork (d : Dev) (b : Nat) (f : Fork → Fork) : Dev :=
  { d with forks := modFirst d.forks (fun x => x.block = b) f }

/-- The child of index i of a fork. -/
def Fork.child (f : Fork) (i : Nat) : Option Child := f.children.find? fun c => c.idx = i

/-- The fork with g applied to its child of index i. -/
def Fork.modChild (f : Fork) (i : Nat) (g : Child → Child) : Fork :=
  { f with children := modFirst f.children (fun c => c.idx = i) g }

/-- The chain of forks that encloses a child, innermost first: forking block and child index (R309). -/
def lineage (d : Dev) : Nat → Option ChildOf → List (Nat × Nat)
  | 0, _ => []
  | _, none => []
  | n + 1, some c => (c.parent, c.idx) :: lineage d n ((findBlock d c.parent).bind (·.child))

/-- The chain of a block; forks nest at most 8 deep (R308). -/
def chainOf (d : Dev) (c : Option ChildOf) : List (Nat × Nat) := lineage d 8 c

/-! ## View pages -/

/-- The page is a reduction page (R306). -/
def isReduction (redop : Nat) : Bool := redop != 0 && redop != 13

/-- The identity element of a reduction operator, 4 or 8 bytes (R306). -/
def identity (redop : Nat) : Nat :=
  match redop with
  | 3 => 0x80000000
  | 4 | 5 => 0x80008000
  | 6 => 0x7FFFFFFF
  | 7 => 0x80000000
  | 8 | 9 => 0x7FC00000
  | 11 => 0xFFFFFFFF
  | _ => 0

/-- Bytes of an element of a reduction operator (R306). -/
def elemBytes (redop : Nat) : Nat := if redop = 2 then 8 else 4

/-- The byte that a page of an operator holds where nothing is written (R306). -/
def idByte (redop off : Nat) : Byte :=
  if isReduction redop then BitVec.ofNat 8 (identity redop / 256 ^ (off % elemBytes redop)) else 0

/-- One byte of a shadow or twin. -/
def Shadow.read (s : Shadow) (off : Nat) : Byte := Sparse.get (idByte s.redop off) s.bytes off

/-- A shadow after one byte is written: its granule is dirty (R311). -/
def Shadow.write (s : Shadow) (off : Nat) (b : Byte) : Shadow :=
  { s with bytes := Sparse.put (idByte s.redop off) s.bytes off b, dirt := Sparse.put false s.dirt (off / 128) true }

/-- The page entry of a list by virtual page number. -/
def pageAt (l : List (Nat × Shadow)) (vpn : Nat) : Option Shadow := (l.find? fun e => e.1 = vpn).map (·.2)

/-- Child i's shadow of a page in the fork of block b. -/
def shadowAt (d : Dev) (b i vpn : Nat) : Option Shadow :=
  (forkOf d b).bind fun f => (f.child i).bind fun c => pageAt c.shadows vpn

/-- The twin of a page in the fork of block b. -/
def twinAt (d : Dev) (b vpn : Nat) : Option Shadow := (forkOf d b).bind fun f => pageAt f.twins vpn

/-- What serves a page to a party with this chain: its own shadow, the identity, an enclosing twin or shadow, or
memory (R310, R311). -/
inductive ViewSource where
  | memory
  | identity
  | page (s : Shadow)
  deriving DecidableEq, Repr

/-- The source of a page for a party with this chain, innermost fork first. -/
def viewSource (d : Dev) (redop vpn : Nat) : List (Nat × Nat) → ViewSource
  | [] => .memory
  | (b, i) :: outer => match shadowAt d b i vpn with
    | some s => .page s
    | none => if isReduction redop then .identity else match twinAt d b vpn with
      | some t => .page t
      | none => viewSource d redop vpn outer

/-- The outermost fork of a chain, where it is that of another package (R309). -/
def awayFork (d : Dev) (chain : List (Nat × Nat)) : Option Fork :=
  (chain.getLast?.bind fun c => forkOf d c.1).filter fun f => f.home.isSome

/-- The package that holds a view page which a child of its fork here has not written, and of which nothing is here (R309). -/
def awayPage (d : Dev) (l : Leaf) (va : Nat) (chain : List (Nat × Nat)) : Option Nat :=
  if l.kind = .view && viewSource d l.redop (va / 2 ^ 16) chain = .memory then
    (awayFork d chain).bind fun f => f.home.map (·.1)
  else none

/-- The page as a read meets it: one of another package is read there (R309). -/
def readLeaf (d : Dev) (l : Leaf) (va : Nat) (chain : List (Nat × Nat)) : Leaf :=
  match awayPage d l va chain with
  | some pkg => { l with kind := .remote, peer := pkg }
  | none => l

/-- A store of bytes into the party's own shadow of a page. -/
def storeShadow (d : Dev) (b i vpn off : Nat) (bytes : List Byte) : Dev :=
  modFork d b fun f => f.modChild i fun c =>
    { c with shadows := modFirst c.shadows (fun e => e.1 = vpn) fun e =>
        (e.1, bytes.zipIdx.foldl (fun s x => s.write (off + x.2) x.1) e.2) }

/-- A sector of the party's own shadow of a page was written whole: its poison ends (R265). -/
def cleanShadow (d : Dev) (b i vpn sec : Nat) : Dev :=
  modFork d b fun f => f.modChild i fun c =>
    { c with shadows := modFirst c.shadows (fun e => e.1 = vpn) fun e => (e.1, { e.2 with bad := Sparse.put false e.2.bad sec false }) }

/-! ## Sidings (R311, R324) -/

/-- The launch record of key l. -/
def findLaunch (d : Dev) (l : Nat) : Option Launch := d.launches.find? fun x => x.key = l

/-- The launch id: queue number in [37:32], index of its entry below (R207). -/
def Launch.id (l : Launch) : Nat := l.q * 2 ^ 32 + l.idx % 2 ^ 32

/-- The package with f applied to launch l. -/
def modLaunch (d : Dev) (l : Nat) (f : Launch → Launch) : Dev :=
  { d with launches := modFirst d.launches (fun x => x.key = l) f }

/-- The package with f applied to the partition of an owner. -/
def modPart (d : Dev) (o : Nat) (f : Partition → Partition) : Dev :=
  { d with parts := modFirst d.parts (fun p => decide (p.ownBase ≤ o) && decide (o < p.ownBase + p.ownCnt)) f }

/-- The die whose share gives a Sidings page for a page homed at pa: its own, else the others in increasing order. -/
def sidingsDie (p : Partition) (pa : Nat) : Option Nat :=
  let free := fun die => decide (Sparse.get 0 p.used die < p.sidings * 2 ^ 14)
  if free (pa / 2 ^ 37 % 4) then some (pa / 2 ^ 37 % 4) else firstFrom 0 4 free

/-- One Sidings page charged to a launch and taken from the pool, or none where the allocation fails (R311). -/
def takePage (d : Dev) (o launch quota pa : Nat) : Option (Dev × Nat) :=
  match partOf d o, findLaunch d launch with
  | some p, some l =>
    if quota ≠ 0 && l.sidings ≥ quota then none
    else (sidingsDie p pa).map fun die =>
      (modLaunch (modPart d o fun p => { p with used := Sparse.upd 0 p.used die (· + 1) }) launch
        fun l => { l with sidings := l.sidings + 1 }, die)
  | _, _ => none

/-- A Sidings page goes back to the pool. -/
def freePage (d : Dev) (o launch : Nat) (s : Shadow) : Dev :=
  if s.shared then d else
    modLaunch (modPart d o fun p => { p with used := Sparse.upd 0 p.used s.die (· - 1) }) launch
      fun l => { l with sidings := l.sidings - 1 }

/-- The contents of a whole page of memory as the cluster sees it. -/
def pageBytes (d : Dev) (cl key pa : Nat) : Table Byte :=
  (List.range 512).flatMap fun i => (clusterLine d cl key (pa / 128 + i)).map fun e => (128 * i + e.1, e.2)

/-- The poisoned sectors of a page of memory as the cluster sees it. -/
def pageBad (d : Dev) (cl key pa : Nat) : Table Bool :=
  (List.range 512).flatMap fun i => (clusterBad d cl key (pa / 128 + i)).map fun e => (4 * i + e, true)

/-- What an allocation needs to know of the page and the party. -/
structure PageReq where
  owner : Nat
  launch : Nat
  quota : Nat
  cluster : Nat
  key : Nat
  redop : Nat
  vpn : Nat
  pa : Nat
  deriving DecidableEq, Repr

/-- A fresh copy of what a chain sees of the page, with no dirt. -/
def copyPage (d : Dev) (r : PageReq) (chain : List (Nat × Nat)) (die : Nat) : Shadow :=
  match viewSource d r.redop r.vpn chain with
  | .memory => { redop := r.redop, pa := r.pa, bytes := pageBytes d r.cluster r.key r.pa, bad := pageBad d r.cluster r.key r.pa, die := die }
  | .identity => { redop := r.redop, pa := r.pa, die := die }
  | .page s => { s with dirt := [], die := die, shared := false }

/-- A twin of the page for the fork of block b, if it has none: copied from the view of the forking block, whose own
chain is `outer`. A nested fork is served without allocation where the forking block has no shadow of its own (R311). -/
def ensureTwin (d : Dev) (r : PageReq) (b : Nat) (outer : List (Nat × Nat)) : Option Dev :=
  match twinAt d b r.vpn with
  | some _ => some d
  | none =>
    let own := match outer with
      | [] => true
      | (ob, oi) :: _ => (shadowAt d ob oi r.vpn).isSome
    if own then (takePage d r.owner r.launch r.quota r.pa).map fun x =>
      modFork x.1 b fun f => { f with twins := f.twins ++ [(r.vpn, copyPage d r outer x.2)] }
    else some (modFork d b fun f => { f with twins := f.twins ++ [(r.vpn, { copyPage d r outer 0 with shared := true })] })

/-- A shadow of the page for child i of the fork of block b, if it has none. -/
def ensureShadow (d : Dev) (r : PageReq) (b i : Nat) (outer : List (Nat × Nat)) : Option Dev :=
  match shadowAt d b i r.vpn with
  | some _ => some d
  | none => (takePage d r.owner r.launch r.quota r.pa).map fun x =>
      let s := copyPage d r ((b, i) :: outer) x.2
      modFork x.1 b fun f => f.modChild i fun c => { c with shadows := c.shadows ++ [(r.vpn, s)] }

/-- The allocations of R311 for a first write by a party with this chain: from the outermost fork inward, the twin
of each fork and then the shadow of the child on the path; a reduction page needs no twin. None where one fails. -/
def allocChain (d : Dev) (r : PageReq) : List (Nat × Nat) → Option Dev
  | [] => some d
  | (b, i) :: outer =>
    match outer, isReduction r.redop with
    | [], true => ensureShadow d r b i []
    | [], false => (ensureTwin d r b []).bind fun d => ensureShadow d r b i []
    | _ :: _, true => (allocChain d r outer).bind fun d => ensureShadow d r b i outer
    | _ :: _, false =>
      (allocTwins d r ((b, i) :: outer)).bind fun d => ensureShadow d r b i outer
where
  /-- Twins and shadows up to, but not including, the writer's own shadow. The twin of a nested fork comes before the
  forking child's shadow, which is then copied from that child's view. -/
  allocTwins (d : Dev) (r : PageReq) : List (Nat × Nat) → Option Dev
    | [] => some d
    | (b, _) :: outer => match outer with
      | [] => ensureTwin d r b []
      | (ob, oi) :: rest => (allocTwins d r ((ob, oi) :: rest)).bind fun d =>
          (ensureTwin d r b outer).bind fun d => ensureShadow d r ob oi rest

end Sys2Proof.Machine
end

