-- ==== Sys2Proof/Machine/Regs.lean ====
section
/-! DEFINITION. The focused group's slots and registers (08 R149-R150), the names its lanes use in a melded region
(09 R184-R187), and the lanes that take part (02 R30). -/

namespace Sys2Proof.Machine

open Sys2Proof

/-! ## The focused group and slot -/

/-- The state with f applied to the focused group. -/
def State.onGrp (s : State) (f : Group → Group) : State := { s with grp := f s.grp }

/-- The state with f applied to the focused block. -/
def State.onBlk (s : State) (f : Block → Block) : State := { s with blk := f s.blk }

/-- The state with f applied to the rest of the package. -/
def State.onDev (s : State) (f : Dev → Dev) : State := { s with dev := f s.dev }

/-- Slot k of a group (R150). -/
def Group.slot (g : Group) (k : Bool) : Slot := if k then g.slot1 else g.slot0

/-- The group with f applied to slot k. -/
def Group.onSlot (g : Group) (k : Bool) (f : Slot → Slot) : Group :=
  if k then { g with slot1 := f g.slot1 } else { g with slot0 := f g.slot0 }

/-- The issuing slot. -/
def State.slot (s : State) : Slot := s.grp.slot s.k

/-- The state with f applied to the issuing slot. -/
def State.onSlot (s : State) (f : Slot → Slot) : State := s.onGrp fun g => g.onSlot s.k f

/-- The issuing slot waits for w; its instruction address stays, and its candidate is not ready (R162). -/
def State.waitFor (s : State) (w : Wait) : State := s.onSlot fun x => { x with wait := w, denied := 0, urgent := false }

/-! ## The clause in execution -/

/-- The header of the clause in execution; all fields of a plain header where none is. -/
def State.header (s : State) : Nat := ((s.slot.clause.map fun c => (nth 0 c.words 0).toNat)).getD 0x707FF000

/-- MELD of the clause (R184). -/
def State.meldField (s : State) : Nat := bits s.header 25 24

/-- SETA and SETB of the clause (R23). -/
def State.setA (s : State) : Nat := bits s.header 15 12
def State.setB (s : State) : Nat := bits s.header 19 16

/-- The issuing slot holds an open melded region (R183). -/
def State.inRegion (s : State) : Bool := s.grp.meld.active && s.grp.meld.slot == s.k

/-- The lanes that the clause guard selected when the clause issued (R30). -/
def State.guarded (s : State) : Mask := (s.slot.clause.map (·.lanes)).getD (BitVec.allOnes 32)

/-- The lanes of the issuing slot on the path that the clause selects (R184). -/
def State.onPath (s : State) : Mask :=
  if s.inRegion then match s.meldField with
    | 2 => s.slot.act &&& ~~~ s.grp.meld.bmask
    | 3 => s.slot.act &&& s.grp.meld.bmask
    | _ => s.slot.act
  else s.slot.act

/-- T, the lanes that take part (R30, R184). -/
def State.part (s : State) : Mask := s.onPath &&& s.guarded

/-! ## Names (R184, R187) -/

/-- Lane L uses path B's table (R184). -/
def State.usesB (s : State) (L : Nat) : Bool :=
  match s.meldField with
  | 2 => false
  | 3 => true
  | _ => inM s.grp.meld.bmask L

/-- Names are renamed in the clause (R184). -/
def State.renamed (s : State) : Bool := s.inRegion && s.meldField != 0

/-- The vector register that lane L uses for name r (R187). -/
def State.vname (s : State) (L r : Nat) : Nat :=
  if s.renamed then Sparse.get r (if s.usesB L then s.grp.mapB else s.grp.mapA) r else r

/-- The lane predicate that lane L uses for name p; p7 is never renamed (R187). -/
def State.pname (s : State) (L p : Nat) : Nat :=
  if s.renamed && p != 7 then Sparse.get p (if s.usesB L then s.grp.mapPB else s.grp.mapPA) p else p

/-- The key of vector register r, as named, in lane L. -/
def State.vkey (s : State) (L r : Nat) : Nat := 32 * s.vname L r + L

/-! ## Reads and writes -/

/-- Lane L of vector register r (R149). -/
def State.rv (s : State) (L r : Nat) : Word := Sparse.get 0 s.grp.v (s.vkey L r)

/-- The pair at r in lane L, low word first (R35). -/
def State.rv2 (s : State) (L r : Nat) : DWord := s.rv L (r + 1) ++ s.rv L r

/-- Lane L of lane predicate p. -/
def State.rp (s : State) (L p : Nat) : Bool := inM (Sparse.get 0 s.grp.p (s.pname L p)) L

/-- Uniform register r (R149). -/
def State.rs (s : State) (r : Nat) : DWord := Sparse.get 0 s.grp.s r

/-- Uniform predicate q (R149). -/
def State.rq (s : State) (q : Nat) : Bool := s.grp.q.getLsbD q

/-- A predicate mask with lane L's bit set to b. -/
def setLane (m : Mask) (L : Nat) (b : Bool) : Mask :=
  if b then m ||| BitVec.ofNat 32 (2 ^ L) else m &&& ~~~ BitVec.ofNat 32 (2 ^ L)

/-- The group after register word `key` is written, which clears its poison tag (R271). -/
def Group.setV (g : Group) (key : Nat) (x : Word) : Group :=
  { g with v := Sparse.put 0 g.v key x, tags := Sparse.erase g.tags key }

/-- The group after uniform register r is written, which clears its poison tag (R281). -/
def Group.setS (g : Group) (r : Nat) (x : DWord) : Group :=
  { g with s := Sparse.put 0 g.s r x, stags := Sparse.erase g.stags r }

/-- The group after lane L of predicate p is written. -/
def Group.setP (g : Group) (p L : Nat) (b : Bool) : Group :=
  { g with p := Sparse.upd 0 g.p p fun m => setLane m L b }

/-- The lanes of T written with f in vector register r, each through its own path's table (R187). -/
def State.wv (s : State) (T : Mask) (r : Nat) (f : Nat → Word) : State :=
  { s with grp := forLanes T (fun L g => g.setV (s.vkey L r) (f L)) s.grp }

/-- The lanes of T written with f in the pair at r (R35). -/
def State.wv2 (s : State) (T : Mask) (r : Nat) (f : Nat → DWord) : State :=
  { s with grp := forLanes T (fun L g => (g.setV (s.vkey L r) ((f L).setWidth 32)).setV (s.vkey L (r + 1))
      ((f L >>> 32).setWidth 32)) s.grp }

/-- The lanes of T written with f in predicate p. -/
def State.wp (s : State) (T : Mask) (p : Nat) (f : Nat → Bool) : State :=
  { s with grp := forLanes T (fun L g => g.setP (s.pname L p) L (f L)) s.grp }

/-- Uniform register r written. -/
def State.ws (s : State) (r : Nat) (x : DWord) : State := s.onGrp fun g => g.setS r x

/-- Uniform predicate q written. -/
def State.wq (s : State) (q : Nat) (b : Bool) : State :=
  s.onGrp fun g => { g with q := if b then g.q ||| BitVec.ofNat 8 (2 ^ q) else g.q &&& ~~~ BitVec.ofNat 8 (2 ^ q) }

/-- Flags ORed into the issuing slot's FPSTAT (R104). -/
def State.raiseFlags (s : State) (f : BitVec 5) : State :=
  s.onSlot fun x => { x with fpstat := x.fpstat ||| f }

/-! ## Live lanes and the split stack (R150, R151) -/

/-- The group is split: the other slot is live or the stack holds a path entry (R303). -/
def State.split (s : State) : Bool :=
  (s.grp.slot (!s.k)).act != 0 || s.grp.stack.any fun p => !p.waiting

/-- The dependence tracker of its die holds the job: the tracker takes 256 in their order (R337). -/
def trackerHolds (d : Dev) (id : Nat) : Bool :=
  match d.jobs.find? fun j => j.id = id with
  | none => true
  | some j => ((d.jobs.filter fun x => x.core / 96 = j.core / 96).take 256).any fun x => x.id = id

/-- A counted operation that ends in its core; a job's when a tracker holds the job (R332, R333). -/
def Pend.endsHere (e : Pend) (d : Dev) : Bool := !e.ext && (e.job = 0 || trackerHolds d (e.job - 1))

/-- The block takes room on its core (R224). -/
def Block.onCore (b : Block) : Bool := b.state = .resident || b.state = .parked || b.state = .preempting

/-- A path entry becomes the contents of a slot (R151). -/
def Path.toSlot (p : Path) : Slot :=
  { pc := p.pcw, act := p.act, fmt := p.fmt, fpstat := p.fpstat, rjpc := p.rjpc, rjm := p.rjm, micro := p.micro,
    due := p.due }

/-- The split-entry form of a slot (R151). -/
def Slot.toPath (x : Slot) : Path :=
  { pcw := x.pc, rjpc := x.rjpc, act := x.act, rjm := x.rjm, fmt := x.fmt, fpstat := x.fpstat, micro := x.micro,
    due := x.due }

/-- The topmost path entry of a stack, and the stack without it; entries stand bottom first (R177). -/
def takeTop (l : List Path) : Option (Path × List Path) :=
  match l with
  | [] => none
  | p :: t => match takeTop t with
    | some (x, t') => some (x, p :: t')
    | none => if p.waiting then none else some (p, t)

/-- Entries that a trap found on the stack and that stay in place while its handler runs (R408). -/
def Group.stackBase (g : Group) : Nat := if g.ctx.inh then g.ctx.depth else 0

/-- An empty slot k filled from the stack (R151); a handler's paths lie above the depth at its entry. -/
def Group.fill (g : Group) (k : Bool) : Group :=
  if (g.slot k).act != 0 then g else
    match takeTop (g.stack.drop g.stackBase) with
    | some (p, t) => { g.onSlot k fun _ => p.toSlot with stack := g.stack.take g.stackBase ++ t }
    | none => g.onSlot k fun _ => {}

/-! ## Table changes and the end of a clause (R183, R186) -/

/-- One table change applied (R186). -/
def Group.change (g : Group) : TableChange → Group
  | .install false false x y => { g with mapA := Sparse.put x g.mapA x y }
  | .install true false x y => { g with mapB := Sparse.put x g.mapB x y }
  | .install false true x y => { g with mapPA := Sparse.put x g.mapPA x y }
  | .install true true x y => { g with mapPB := Sparse.put x g.mapPB x y }
  | .clear a b =>
    let g := if a then { g with mapA := [], mapPA := [] } else g
    if b then { g with mapB := [], mapPB := [] } else g

/-- What slot k has due takes effect: table changes, a region closed, a region opened for the lanes left in the slot (R183,
R185, R186, R199). A slot that has emptied opens none (log 34). -/
def Group.settle (g : Group) (k : Bool) (x : Due) : Group :=
  let g := x.tables.foldl Group.change g
  let g := if x.closes then { g with meld := {} } else g
  match x.opens with
  | some b => if (g.slot k).act = 0 then g else { g with meld := { bmask := b &&& (g.slot k).act, active := true, slot := k } }
  | none => g

/-- The issuing slot leaves its clause for address `next`; what it has due takes effect. -/
def State.leave (s : State) (next : DWord) : State :=
  let g := s.grp.settle s.k s.slot.due
  { s with grp := g.onSlot s.k fun x =>
      { x with pc := next, clause := none, due := {}, wait := .none, micro := 0, read := [], denied := 0, urgent := false } }

/-- The clause that holds the issuing slot's instruction address. -/
def State.clauseAddr (s : State) : DWord := s.slot.pc &&& ~~~ 31#64

/-- Slot index of the instruction at the issuing slot's address. -/
def State.slotIdx (s : State) : Nat := s.slot.pc.toNat / 4 % 8

/-- The last instruction slot of the clause in execution (R22). -/
def State.lastIdx (s : State) : Nat := bits s.header 22 20 + bits s.header 23 23

/-- The issuing slot goes on with the next slot of its clause, or with the next clause (R22). -/
def State.advance (s : State) : State :=
  if s.slotIdx < s.lastIdx then
    s.onSlot fun x => { x with pc := x.pc + 4, wait := .none, micro := 0, read := [], denied := 0, urgent := false }
  else s.leave (s.clauseAddr + 32)

/-- The word in execution, for TRAPINFO0. -/
def State.word (s : State) : Word := ((s.slot.clause.map fun c => nth 0 c.words s.slotIdx)).getD 0

end Sys2Proof.Machine
end

