-- ==== Sys2Proof/Machine/Fabric.lean ====
section
/-! DEFINITION. Error records and interrupts (24 R428, R439; 21 R395, R438), ports, routes and packets (17 R347-R349),
deadlines and outstanding requests (17 R353-R354), and the platform table (11 R233-R235). -/

namespace Sys2Proof.Machine

open Sys2Proof

/-! ## Error records and interrupts -/

/-- One error record posted; the oldest of 4,096 is lost and counted (R428). -/
def postError (d : Dev) (kind part unit count addr : Nat) : Dev :=
  let r : ErrorRec := ⟨d.time, kind, part, unit, count, addr⟩
  if d.errors.length < 4096 then { d with errors := d.errors ++ [r] }
  else { d with errors := d.errors.drop 1 ++ [r], errorsLost := d.errorsLost + 1 }

/-- Vector `vec` of function f is raised (R395, R438): beyond VECCNT it posts an error record; masked it becomes
pending; otherwise its message is sent. -/
def raiseVector (d : Dev) (f vec : Nat) : Dev :=
  let cnt := ((partOfFn d f).map (·.vecCnt)).getD 0
  if cnt ≤ vec then postError d 11 f vec 1 0
  else
    let fn := Sparse.get {} d.funcs f
    let v := Sparse.get {} fn.vectors vec
    if fn.fmask || v.masked then
      modFn d f fun x => { x with vectors := Sparse.upd {} x.vectors vec fun v => { v with pending := true } }
    else { d with interrupts := d.interrupts ++ [(v.addr, v.data)] }

/-! ## Deadlines -/

/-- The deadline length of a class for an owner's partition (R353). -/
def deadlineOf (d : Dev) (o cls : Nat) : Nat :=
  let f := Sparse.get {} d.funcs (fnOf d o)
  match cls with
  | 0 => f.fdl0 | 1 => f.fdl1 | 2 => f.fdl2 | _ => f.fdl3

/-! ## Ports and routes -/

/-- The live listed ports of the entry for a destination, in the order of the entry (R348, R349). -/
def liveListed (d : Dev) (dst : Nat) : List Nat :=
  let r := Sparse.get {} d.routes dst
  (r.ports.take (if r.nport ≤ 4 then r.nport else 0)).filter fun p => (Sparse.get {} d.ports p).live

/-- The hop budget of an entry (R348). -/
def hopBudget (r : Route) : Nat := if 1 ≤ r.hops ∧ r.hops ≤ 6 then r.hops else 6

/-! ## Channels (R349, R350) -/

/-- The set of channels of a packet (R349): P 0, L 1, B 2. Pieces and results of a bulk collective take set B, and those of a
priority collective set P (log 26 for the bodies the spec does not place). -/
def PacketBody.setOf (b : PacketBody) (pri : Bool) : Nat :=
  match b with
  | .form _ _ _ _ _ | .gone _ _ | .ack _ | .probe _ _ _ _ _ | .answer _ _ _ _ _ | .notice _ _ _ _ _ _ _ _ _ | .credit _ _ _ _ _ _ _ => 0
  | .piece _ _ _ _ _ _ _ _ _ _ | .result _ _ _ _ _ _ _ _ _ _ | .pieces _ _ _ _ _ _ _ => if pri then 0 else 2
  | .xdata _ _ _ _ _ _ | .xack _ _ | .migrate _ | .childEnd _ _ _ _ _ => 2
  | .rstv _ _ _ _ _ _ _ _ _ | .status _ _ | .claim _ _ _ _ _ | .grant _ _ _ | .xend _ _ | .request _ _ _ _ _ | .response _ _ _
  | .childRun _ _ _ _ _ _ | .childNews _ _ _ _ | .launchShare _ _ _ _ _ | .launchTrig _ _ | .launchStop _ _ _ _ | .launchEnd _ _ _ _
  | .viewAsk _ _ _ _ _ _ | .launchBegun _ _ | .launchReady _ _ | .launchGo _ _ | .blockEnd _ _ _ _ | .nameEvent _ _ _ _ | .nameAsk _ _ | .nameSays _ _ => 1

/-- The packet is a response, of the class served first (R350). -/
def PacketBody.responds (b : PacketBody) : Bool :=
  match b with
  | .status _ _ | .grant _ _ _ | .xack _ _ | .response _ _ _ | .ack _ | .answer _ _ _ _ _ | .nameSays _ _ => true
  | _ => false

/-- The destination line of a packet that has one (R349). -/
def PacketBody.line (b : PacketBody) : Option Nat :=
  match b with
  | .request _ _ pa _ _ => some (pa / 128)
  | _ => none

/-- Payload bytes of a packet. -/
def PacketBody.payload (b : PacketBody) : Nat :=
  match b with
  | .rstv _ _ _ _ data _ _ _ _ => 4 * data.length
  | .xdata _ _ _ _ bytes _ => bytes.length
  | .request _ _ _ _ data | .response _ _ data => data.length
  | .piece _ _ _ _ _ _ _ _ bytes _ | .result _ _ _ _ _ _ _ _ bytes _ => bytes.length
  | .pieces _ _ _ _ _ _ rows => rows.foldl (fun n r => n + r.2.2.1.length) 0
  | .childEnd _ _ _ pages _ => pages.foldl (fun n e => n + e.2.length) 0
  | .launchShare _ _ _ _ record => record.length
  | _ => 0

/-- Flits of a packet: a header and its payload (R347). -/
def packetFlits (p : Packet) : Nat := 1 + ceilDiv (PacketBody.payload p.body) 64

/-- Flits that wait for a port. -/
def Port.occupancy (x : Port) : Nat := x.queued.foldl (fun n w => n + packetFlits w.packet) 0

/-- A packet of the same source to the same line waits at the port (R349). -/
def Port.holdsLine (x : Port) (p : Packet) : Bool :=
  (PacketBody.line p.body).isSome && x.queued.any fun w =>
    w.packet.src = p.src && w.packet.dst = p.dst && PacketBody.line w.packet.body = PacketBody.line p.body

/-- The port a package chooses among the live listed ones: that where an earlier packet of the source to the line waits, else the
one with the fewest flits waiting, the first listed of equals (R349). -/
def choosePort (d : Dev) (p : Packet) (dst : Nat) : Option Nat :=
  let l := liveListed d dst
  match l.find? fun i => (Sparse.get {} d.ports i).holdsLine p with
  | some i => some i
  | none => l.foldl (fun b i => match b with
    | none => some i
    | some j => if (Sparse.get {} d.ports i).occupancy < (Sparse.get {} d.ports j).occupancy then some i else some j) none

/-- A malformed route entry posts an error record (R348, R439). -/
def checkRoute (d : Dev) (dst : Nat) : Dev :=
  if 4 < (Sparse.get {} d.routes dst).nport then postError d 8 0xFF 0 1 dst else d

/-- A packet with its budget and hop index joins those that wait for a port's link (R347, R349). -/
def usePort (d : Dev) (w : Wire) (port : Nat) : Dev :=
  { d with ports := Sparse.upd {} d.ports port fun x => { x with queued := x.queued ++ [w] } }

/-- A packet as its source sends it: the budget of the entry for its destination less the first link, hop index 0 (R349). -/
def sourceWire (d : Dev) (p : Packet) : Wire := ⟨p, hopBudget (Sparse.get {} d.routes p.dst) - 1, 0⟩

/-- A packet waits at a port of this package, as its source sends it. -/
def waitsAt (d : Dev) (p : Packet) (port : Nat) : Bool := (Sparse.get {} d.ports port).queued.contains (sourceWire d p)

/-- A packet sent from this package: to itself it is accepted here; to another it takes a live listed port, and with
none it is discarded with an error record (R349). -/
def sendPacket (d : Dev) (p : Packet) : Dev :=
  if p.dst = d.pkg then { d with inbox := d.inbox ++ [p] }
  else
    let d := checkRoute d p.dst
    match choosePort d p p.dst with
    | some port => usePort d (sourceWire d p) port
    | none => postError d 9 (fnOf d p.owner) 0 1 p.dst

/-- A packet of this package with its stamp and the deadline of a class (R351, R353). -/
def mkPacket (d : Dev) (dst o cls : Nat) (body : PacketBody) : Packet :=
  { src := d.pkg, dst := dst, owner := o, stamp := d.time, deadline := d.time + deadlineOf d o cls, body := body
    pset := PacketBody.setOf body false }

/-- An answer that needs no deadline of its own. -/
def reply (d : Dev) (p : Packet) (body : PacketBody) : Dev :=
  sendPacket d { src := d.pkg, dst := p.src, owner := p.owner, stamp := d.time, deadline := p.deadline, body := body
                 pset := PacketBody.setOf body false }

/-! ## Links (R347, R350) -/

/-- The place of the packet that a link takes next: of the sets P, L, B the first that waits, but one that has waited 64 flit
times before the others; in a set responses before requests, in each class the oldest (R350). -/
def Port.next (x : Port) : Option Nat :=
  let has := fun (s : Nat) => x.queued.any fun w => w.packet.pset = s
  let pick := fun (s : Nat) => (x.queued.findIdx? fun w => w.packet.pset = s && PacketBody.responds w.packet.body).orElse fun _ =>
    x.queued.findIdx? fun w => w.packet.pset = s
  match [0, 1, 2].find? fun s => has s && decide (64 ≤ nth 0 x.waits s) with
  | some s => pick s
  | none => ([0, 1, 2].find? has).bind pick

/-- The link takes its next packet: its flits stand on the wire, and the other sets that wait have waited so many flit times
more (R347, R350). -/
def Port.serve (x : Port) : Port :=
  match x.next with
  | none => x
  | some k => match x.queued[k]? with
    | none => x
    | some w =>
      let q := dropAt x.queued k
      { x with
        queued := q, wire := x.wire ++ [w]
        waits := (List.range 3).map fun s =>
          if s = w.packet.pset || !(q.any fun y => y.packet.pset = s) then 0 else nth 0 x.waits s + packetFlits w.packet }

/-- A port's link serves one packet, unless it is dead or retrains. -/
def servePort (d : Dev) (port : Nat) : Dev :=
  let x := Sparse.get {} d.ports port
  if x.live && !x.retraining then { d with ports := Sparse.put {} d.ports port x.serve } else d

/-- The oldest packet on the wire has arrived: its flits are acknowledged, and the failed replays before it count no more (R347). -/
def landPort (d : Dev) (port : Nat) : Dev :=
  let x := Sparse.get {} d.ports port
  match x.wire with
  | w :: t =>
    if x.live && !x.retraining then
      { d with outbox := d.outbox ++ [(port, w)], ports := Sparse.put {} d.ports port { x with wire := t, fails := 0 } }
    else d
  | [] => d

/-- Packet k of the inbox. -/
def inboxAt (d : Dev) (k : Nat) : Option Packet := d.inbox[k]?

/-- The inbox without packet k. -/
def dropInbox (d : Dev) (k : Nat) : Dev := { d with inbox := dropAt d.inbox k }

/-! ## The platform table (R232-R235) -/

/-- Fields of a platform name (R232). -/
def nameHome (n : DWord) : Nat := bits n.toNat 47 38
def nameIndex (n : DWord) : Nat := bits n.toNat 37 16
def nameGen (n : DWord) : Nat := bits n.toNat 15 0

/-- A name from its fields. -/
def mkName (home idx gen : Nat) : DWord := BitVec.ofNat 64 (home * 2 ^ 38 + idx * 2 ^ 16 + gen)

/-- The value is not a name that the owner's partition can reach (R235, R239, R355). -/
def badName (d : Dev) (o : Nat) (n : DWord) : Bool :=
  bits n.toNat 63 48 != 0 || nameGen n == 0 || !((partOf d o).any fun p => inPod p (nameHome n))

/-- Entries of the platform table (R233). -/
def nameEntries : Nat := 2 ^ 22

/-- The entry a `nameget` takes: the lowest FREE one, else the one retired longest ago (R235). Entries beyond the
listed ones are FREE. -/
def freeName (d : Dev) : Option Nat :=
  match firstFrom 0 (d.names.length + 1) fun i => (Sparse.get {} d.names i).state = .free with
  | some i => if i < nameEntries then some i else oldest
  | none => oldest
where
  /-- The retired entry of the earliest retirement. -/
  oldest : Option Nat :=
    ((d.names.filter fun e => e.2.state = .retired).foldl (fun b e => match b with
      | none => some e
      | some x => if e.2.retiredAt < x.2.retiredAt then some e else some x) none).map (·.1)

/-- GEN after one more name (R234). -/
def nextGen (g : Nat) : Nat := if g + 1 < 2 ^ 16 then g + 1 else 1

/-- A block event for a name of another package goes to its home (R234). -/
def tellHome (d : Dev) (o : Nat) (n : DWord) (event core save : Nat) : Dev :=
  sendPacket d { (mkPacket d (nameHome n) o 1 (.nameEvent n event core save)) with deadline := 2 ^ 64 }

/-- The entry of a name becomes RETIRED (R234): its deferred packets are answered when they are served. A name of another package
is retired there. -/
def retireName (d : Dev) (o : Nat) (n : DWord) : Dev :=
  if n = 0 then d
  else if nameHome n ≠ d.pkg then tellHome d o n 4 0 0
  else
    let e := Sparse.get {} d.names (nameIndex n)
    if e.gen = nameGen n && e.state != .free && e.state != .retired then
      { d with
        names := Sparse.put {} d.names (nameIndex n) { e with state := .retired, retiredAt := d.nameClock, deferred := [] }
        nameClock := d.nameClock + 1
        deferCount := d.deferCount - e.deferred.length
        inbox := d.inbox ++ e.deferred }
    else d

/-- f applied to the entry of a name of this package, while its generation lives (R234). -/
def modName (d : Dev) (n : DWord) (f : NameEntry → NameEntry) : Dev :=
  { d with names := Sparse.upd {} d.names (nameIndex n) fun e =>
      if e.gen = nameGen n && e.state != .free && e.state != .retired then f e else e }

/-- The entry after an event told by the package that holds the block (R234). -/
def NameEntry.after (e : NameEntry) (event loc core save : Nat) : NameEntry :=
  match event with
  | 1 => { e with state := .resident, loc := loc, core := core, save := 0 }
  | 3 => { e with state := .moving }
  | _ => { e with state := .saved, loc := loc, save := save }

/-- The entries of the named groups of a block after it resumed on a core (1) or was saved at an address (2) here: those of this
package at once, the others by a message to their homes (R234). -/
def onNames (d : Dev) (b : Block) (event core save : Nat) : Dev :=
  b.groups.foldl (fun d g =>
    if g.pname = 0 then d
    else if nameHome g.pname = d.pkg then modName d g.pname fun e => e.after event d.pkg core save
    else tellHome d b.shape.owner g.pname event core save) d

/-- The names of every group of a block become RETIRED (R234). -/
def retireNames (d : Dev) (b : Block) : Dev := b.groups.foldl (fun d g => retireName d b.shape.owner g.pname) d

/-! ## Requests outstanding at this package (R242, R354) -/

/-- Every record of one request identifier. -/
def findOut (d : Dev) (id : Nat) : Option Outstanding := d.outstanding.find? fun o => o.id = id

/-- The records without that of an identifier. -/
def dropOut (d : Dev) (id : Nat) : Dev := { d with outstanding := d.outstanding.filter fun o => o.id ≠ id }

/-- A counted operation of a group still has requests outstanding. -/
def awaiting (d : Dev) (b g pend : Nat) : Bool :=
  d.outstanding.any fun o => o.block = b && o.gidx = g && o.pend = pend

end Sys2Proof.Machine
end

