-- ==== Sys2Proof/Machine/Flags.lean ====
section
/-! DEFINITION. Number formats, rounding, and every flag computation of FPSTAT (04 R64-R75, 06 R104): an encoding is
read as an exact value, an operation forms an exact value, and one rounding gives the encoding and the flags. -/

namespace Sys2Proof.Machine

open Sys2Proof

/-! ## Flags (R104) -/

/-- The five flags of FPSTAT: IV, DZ, OF, UF, NX from bit 0. -/
abbrev FFlags := BitVec 5
def fIV : FFlags := 1
def fDZ : FFlags := 2
def fOF : FFlags := 4
def fUF : FFlags := 8
def fNX : FFlags := 16

/-- A flag when b holds. -/
def flagIf (b : Bool) (f : FFlags) : FFlags := if b then f else 0

/-! ## Formats (R64, R65) -/

/-- A binary floating-point format: fraction width, exponent width, bias, whether it has infinities. -/
structure Fmt where
  w : Nat
  ew : Nat
  bias : Nat
  inf : Bool
  deriving DecidableEq, Repr

def f64 : Fmt := ⟨52, 11, 1023, true⟩
def f32 : Fmt := ⟨23, 8, 127, true⟩
def f16 : Fmt := ⟨10, 5, 15, true⟩
def bf16 : Fmt := ⟨7, 8, 127, true⟩
def f8a : Fmt := ⟨3, 4, 7, false⟩
def f8b : Fmt := ⟨2, 5, 15, true⟩

/-- Weight of the sign bit. -/
def Fmt.signBit (F : Fmt) : Nat := 2 ^ (F.w + F.ew)
/-- The canonical NaN (R65, R66). -/
def Fmt.nan (F : Fmt) : Nat :=
  if F.inf then (2 ^ F.ew - 1) * 2 ^ F.w + 2 ^ (F.w - 1) else 2 ^ (F.w + F.ew) - 1
/-- Plus infinity of a format that has one. -/
def Fmt.infinity (F : Fmt) : Nat := (2 ^ F.ew - 1) * 2 ^ F.w
/-- The largest finite encoding (R65). -/
def Fmt.maxEnc (F : Fmt) : Nat := if F.inf then F.infinity - 1 else 2 ^ (F.w + F.ew) - 2
/-- A sign put on an encoding. -/
def Fmt.signed (F : Fmt) (neg : Bool) (x : Nat) : Nat := if neg then x + F.signBit else x

/-- An exact value: NaN, an infinity, or (-1)^neg · m · 2^e, where `sticky` says that the exact value lies strictly
between m and m + 1 units of 2^e. -/
inductive Val where
  | nan
  | inf (neg : Bool)
  | num (neg : Bool) (m : Nat) (e : Int) (sticky : Bool)
  deriving DecidableEq, Repr

/-- The value of an encoding (R65). -/
def Fmt.val (F : Fmt) (x : Nat) : Val :=
  let neg := bitOf x (F.w + F.ew)
  let e := bits x (F.w + F.ew - 1) F.w
  let f := x % 2 ^ F.w
  if e = 0 then .num neg f (1 - F.bias - F.w) false
  else if e = 2 ^ F.ew - 1 && F.inf then if f = 0 then .inf neg else .nan
  else if !F.inf && e = 2 ^ F.ew - 1 && f = 2 ^ F.w - 1 then .nan
  else .num neg (2 ^ F.w + f) ((e : Int) - F.bias - F.w) false

/-- The encoding is a subnormal of the format. -/
def Fmt.subnormal (F : Fmt) (x : Nat) : Bool := bits x (F.w + F.ew - 1) F.w = 0 && x % 2 ^ F.w != 0

/-- An `f32` operand after DAZ (R67). -/
def daz32 (daz : Bool) (x : Nat) : Nat := if daz && f32.subnormal x then x / 2 ^ 31 % 2 * 2 ^ 31 else x

/-! ## Rounding (R71-R74) -/

/-- Rounding modes, codes 0 to 4 of FMT.RM (R71). -/
inductive Rnd where
  | rne | rtz | rdn | rup | rna
  deriving DecidableEq, Repr

/-- The mode of an RM code; none for a reserved code (R71). -/
def Rnd.ofCode : Nat → Option Rnd
  | 0 => some .rne | 1 => some .rtz | 2 => some .rdn | 3 => some .rup | 4 => some .rna | _ => none

/-- Where the part below the unit lies: nothing, below half, half, above half. -/
inductive Rest where
  | none | below | half | above
  deriving DecidableEq, Repr

/-- The unit part and the rest of m (and a sticky part) in units of 2^sh. -/
def splitAt (m : Nat) (sticky : Bool) (sh : Int) : Nat × Rest :=
  if sh ≤ 0 then (m * 2 ^ (-sh).toNat, if sticky then .below else .none)
  else
    let n := sh.toNat
    if m ≠ 0 && Nat.log2 m + 1 < n then (0, .below)
    else
      let r := m % 2 ^ n
      let h := 2 ^ (n - 1)
      (m / 2 ^ n, if r = 0 && !sticky then .none else if r < h then .below
        else if r = h && !sticky then .half else .above)

/-- The mode takes the neighbour away from zero (R71, R72). -/
def roundsUp (m : Rnd) (neg odd : Bool) (r : Rest) : Bool :=
  match r with
  | .none => false
  | .below => (m = .rup && !neg) || (m = .rdn && neg)
  | .half => match m with
    | .rne => odd | .rna => true | .rtz => false | .rup => !neg | .rdn => neg
  | .above => match m with
    | .rne | .rna => true | .rtz => false | .rup => !neg | .rdn => neg

/-- round_fp (R72): encoding and flags. `iv` says that a NaN comes from an invalid operation. -/
def roundFp (F : Fmt) (m : Rnd) (sat : Bool) (x : Val) (iv : Bool := false) : Nat × FFlags :=
  match x with
  | .nan => (F.nan, flagIf iv fIV)
  | .inf neg =>
    if sat then (F.signed neg F.maxEnc, 0)
    else if F.inf then (F.signed neg F.infinity, 0) else (F.signed neg F.nan, fIV)
  | .num neg 0 _ false => (F.signed neg 0, 0)
  | .num neg k e sticky =>
    let E := (Nat.log2 k : Int) + e
    let emin : Int := 1 - F.bias
    let ovf := fun (_ : Unit) =>
      (if sat || m = .rtz || (m = .rdn && !neg) || (m = .rup && neg) then F.signed neg F.maxEnc
        else if F.inf then F.signed neg F.infinity else F.signed neg F.nan, fOF ||| fNX)
    if E > (2 ^ F.ew : Int) then ovf ()
    else
      let q := (if E < emin then emin else E) - F.w
      let (y, r) := splitAt k sticky (q - e)
      let y := if roundsUp m neg (y % 2 = 1) r then y + 1 else y
      let inexact := r != .none
      let enc := if y < 2 ^ F.w then y else (q + F.w + F.bias).toNat * 2 ^ F.w + (y - 2 ^ F.w)
      if F.maxEnc < enc then ovf ()
      else (F.signed neg enc, flagIf inexact fNX ||| flagIf (inexact && decide (y < 2 ^ F.w)) fUF)

/-- round_int (R73) into the integers from lo to hi. -/
def roundInt (lo hi : Int) (m : Rnd) (x : Val) : Int × FFlags :=
  match x with
  | .nan => (0, fIV)
  | .inf neg => (if neg then lo else hi, fIV)
  | .num neg k e sticky =>
    if k ≠ 0 && 70 < (Nat.log2 k : Int) + e then (if neg then lo else hi, fIV)
    else
      let (y, r) := splitAt k sticky (-e)
      let y := if roundsUp m neg (y % 2 = 1) r then y + 1 else y
      let i : Int := if neg then -(y : Int) else y
      if i < lo then (lo, fIV) else if hi < i then (hi, fIV) else (i, flagIf (r != .none) fNX)

/-! ## Exact arithmetic -/

/-- The signed integer of m in units of 2^(e - e0). -/
def signedAt (neg : Bool) (m : Nat) (e e0 : Int) : Int :=
  let k : Int := (m * 2 ^ (e - e0).toNat : Nat)
  if neg then -k else k

/-- A value from a signed integer in units of 2^e; an exact zero takes the sign given. -/
def ofSigned (i : Int) (e : Int) (zneg : Bool) : Val :=
  if i = 0 then .num zneg 0 e false else .num (decide (i < 0)) i.natAbs e false

/-- The sum of two values and whether it is invalid; an exact zero is +0 unless both are negative (R106). -/
def addVal (a b : Val) : Val × Bool :=
  match a, b with
  | .nan, _ | _, .nan => (.nan, false)
  | .inf s, .inf t => if s = t then (.inf s, false) else (.nan, true)
  | .inf s, _ => (.inf s, false)
  | _, .inf t => (.inf t, false)
  | .num s m e _, .num t n f _ =>
    if m = 0 && n ≠ 0 then (.num t n f false, false)
    else if n = 0 && m ≠ 0 then (.num s m e false, false)
    else
      let e0 := if e < f then e else f
      (ofSigned (signedAt s m e e0 + signedAt t n f e0) e0 (s && t), false)

/-- The negated value. -/
def negVal : Val → Val
  | .nan => .nan
  | .inf s => .inf (!s)
  | .num s m e k => .num (!s) m e k

/-- The product of two values and whether it is invalid (R106). -/
def mulVal (a b : Val) : Val × Bool :=
  match a, b with
  | .nan, _ | _, .nan => (.nan, false)
  | .inf s, .inf t => (.inf (s != t), false)
  | .inf s, .num t n _ _ => if n = 0 then (.nan, true) else (.inf (s != t), false)
  | .num s m _ _, .inf t => if m = 0 then (.nan, true) else (.inf (s != t), false)
  | .num s m e _, .num t n f _ => (.num (s != t) (m * n) (e + f) false, false)

/-- a·b + c and whether it is invalid (R108). -/
def fmaVal (a b c : Val) : Val × Bool :=
  match mulVal a b with
  | (.nan, iv) => (.nan, iv)
  | (p, _) => addVal p c

/-- The value scaled by 2^n, exactly (R75, R106). -/
def scaleVal (a : Val) (n : Int) : Val :=
  match a with
  | .num s m e k => .num s m (e + n) k
  | x => x

/-- The value of an integer; its zero is +0. -/
def intVal (i : Int) : Val := ofSigned i 0 false

/-- Order of two numbers, with -0 below +0 when `zeros` distinguishes them; none when one is NaN. -/
def cmpVal (zeros : Bool) (a b : Val) : Option Ordering :=
  match a, b with
  | .nan, _ | _, .nan => none
  | .inf s, .inf t => some (if s = t then .eq else if s then .lt else .gt)
  | .inf s, _ => some (if s then .lt else .gt)
  | _, .inf t => some (if t then .gt else .lt)
  | .num s m e _, .num t n f _ =>
    let e0 := if e < f then e else f
    let x := signedAt s m e e0
    let y := signedAt t n f e0
    some (if x < y then .lt else if y < x then .gt
      else if zeros && m = 0 && s != t then (if s then .lt else .gt) else .eq)

/-! ## Dual-power weights (R69, R70, R74) -/

/-- One term of a `dpw8` code, in units of 2^-6 (R69). -/
def dpwTerm (s : Bool) (c : Nat) : Int := if c = 7 then 0 else if s then -(2 ^ (6 - c) : Int) else 2 ^ (6 - c)

/-- Value of a `dpw8` encoding in units of 2^-6, before scaling (R69). -/
def dpwUnits (x : Nat) : Int := dpwTerm (bitOf x 7) (bits x 6 4) + dpwTerm (bitOf x 3) (bits x 2 0)

/-- Value of a `dpw8` encoding; every zero is +0 (R69). -/
def dpwVal (x : Nat) : Val := ofSigned (dpwUnits x) (-6) false

/-- A code of a term with code 7 carries sign 0 (R70). -/
def dpwClean (x : Nat) : Bool := !(bits x 6 4 = 7 && bitOf x 7) && !(bits x 2 0 = 7 && bitOf x 3)

/-- Preference of R70: smaller c1, then smaller c2, then s1 = 0. -/
def dpwRank (x : Nat) : Nat := bits x 6 4 * 16 + bits x 2 0 * 2 + b2n (bitOf x 7)

/-- The canonical encoding of a value on the grid, in units of 2^-6 (R70). -/
def canonicalDpw (u : Int) : Nat :=
  if u = 0 then 0x77 else
    (((List.range 256).filter fun x => dpwClean x && dpwUnits x = u).foldl (fun b x => match b with
      | none => some x
      | some y => if dpwRank x < dpwRank y then some x else some y) none).getD 0x77

/-- The value u units of 2^-6 lies on the grid (R69). -/
def onDpwGrid (u : Nat) : Bool := (List.range 256).any fun x => dpwUnits x = (u : Int)

/-- The largest grid value not above u units, and the least above it. -/
def dpwBelow (u : Nat) : Nat := ((List.range (u + 1)).filter onDpwGrid).getLast?.getD 0
def dpwAbove (u : Nat) : Nat := ((List.range 129).find? fun x => decide (u < x) && onDpwGrid x).getD 128

/-- round_dpw8 (R74): the encoding and the flags. -/
def roundDpw (m : Rnd) (x : Val) : Nat × FFlags :=
  match x with
  | .nan => (0x77, fIV)
  | .inf neg => (if neg then 0x88 else 0x00, fOF ||| fNX)
  | .num neg k e sticky =>
    -- |x| against 2 = 128 units
    if k ≠ 0 && (8 < (Nat.log2 k : Int) + e) then (if neg then 0x88 else 0x00, fOF ||| fNX)
    else
      let (u, r) := splitAt k sticky (-6 - e)
      if 128 < u || (u = 128 && r != .none) then (if neg then 0x88 else 0x00, fOF ||| fNX)
      else
        let lo := dpwBelow u
        let exact := lo = u && r = .none
        let hi := dpwAbove u
        -- compare twice the distance: x against the midpoint (lo + hi) / 2, in half units
        let twice := 2 * u + (match r with | .half | .above => 1 | _ => 0)
        let beyond := decide (lo + hi < twice) ||
          (twice = lo + hi && (match r with | .below | .above => true | _ => false))
        let tie := twice = lo + hi && (match r with | .none | .half => true | _ => false)
        let up := !exact && match m with
          | .rne => beyond
          | .rna => beyond || tie
          | .rtz => false
          | .rdn => neg
          | .rup => !neg
        let y : Int := if up then hi else lo
        (canonicalDpw (if neg then -y else y), flagIf (!exact) fNX)

/-! ## FMT (R79) -/

/-- Fields of FMT (R79). -/
def fmtHK (x : BitVec 16) : Bool := x.getLsbD 0
def fmtNF (x : BitVec 16) : Nat := bits x.toNat 2 1
def fmtI4S (x : BitVec 16) : Bool := x.getLsbD 3
def fmtRM (x : BitVec 16) : Option Rnd := Rnd.ofCode (bits x.toNat 6 4)
def fmtSAT (x : BitVec 16) : Bool := x.getLsbD 7
def fmtDAZ (x : BitVec 16) : Bool := x.getLsbD 8
def fmtSEXP (x : BitVec 16) : Int := sext (x.toNat / 2 ^ 9) 7

/-- The packed half kind (R79). -/
def halfKind (hk : Bool) : Fmt := if hk then bf16 else f16

end Sys2Proof.Machine
end

