-- ==== Sys2Proof/Machine/Special.lean ====
section
/-! DEFINITION. Quotients, square roots and the special functions as exact values to far beyond the precision of f32
(06 R113-R115; log 10): fixed point with 400 fraction bits, then one rounding. -/

namespace Sys2Proof.Machine

open Sys2Proof

/-- Fraction bits of the fixed point (log 10). -/
def fixP : Nat := 400
/-- π and the natural logarithm of 2 in fixed point, rounded down. -/
def fixPi : Int := 8112377246730971238862271351300894519161151600179265203591191037615230905373990498745523360926816815427566779727327576236
def fixLn2 : Int := 1789879222497203190815761498240779176894896805856420935579692301363062920687047601279850318367644315849030039181347319086

/-- The fixed-point 1. -/
def fixOne : Int := 2 ^ fixP
/-- Product and quotient in fixed point, rounded down. -/
def fixMul (a b : Int) : Int := a * b / fixOne
def fixDiv (a b : Int) : Int := a * fixOne / b

/-- m · 2^e in fixed point. -/
def toFix (m : Nat) (e : Int) : Int :=
  if 0 ≤ e + fixP then (m * 2 ^ (e + fixP).toNat : Nat) else (m / 2 ^ (-(e + fixP)).toNat : Nat)

/-- An irrational value in fixed point. -/
def ofFix (neg : Bool) (x : Int) : Val := .num neg x.toNat (-fixP) true

/-- The integer square root, by bits from n - 1 down. -/
def isqrt (x : Nat) : Nat → Nat → Nat
  | 0, r => r
  | n + 1, r => if (r + 2 ^ n) * (r + 2 ^ n) ≤ x then isqrt x n (r + 2 ^ n) else isqrt x n r

/-- √(m · 2^e) with at least 80 bits. -/
def sqrtVal (m : Nat) (e : Int) : Val :=
  let m := if e % 2 = 0 then m else 2 * m
  let e := if e % 2 = 0 then e else e - 1
  let x := m * 2 ^ 160
  let r := isqrt x ((Nat.log2 x) / 2 + 1) 0
  .num false r (e / 2 - 80) (r * r != x)

/-- 1 / √(m · 2^e) with at least 80 bits. -/
def rsqVal (m : Nat) (e : Int) : Val :=
  let m := if e % 2 = 0 then m else 2 * m
  let e := if e % 2 = 0 then e else e - 1
  let q := 2 ^ 240 / m
  let r := isqrt q ((Nat.log2 q) / 2 + 1) 0
  .num false r (-(e / 2) - 120) (r * r != q || 2 ^ 240 % m != 0)

/-- The quotient of two nonzero numbers with at least 80 bits beyond the divisor. -/
def divVal (neg : Bool) (m : Nat) (e : Int) (n : Nat) (f : Int) : Val :=
  .num neg (m * 2 ^ 160 / n) (e - f - 160) (m * 2 ^ 160 % n != 0)

/-- t + t²/2! + … : the exponential series without its 1, n further terms from term k. -/
def expSeries (t : Int) : Nat → Int → Int → Int
  | 0, _, _ => 0
  | n + 1, k, term => let x := fixMul term t / k; x + expSeries t n (k + 1) x

/-- e^t - 1 for 0 ≤ t < 2. -/
def expm1Fix (t : Int) : Int := expSeries t 110 1 fixOne

/-- x - x³/3! + … or 1 - x²/2! + … : alternating series in t², n terms from index k. -/
def altSeries (t2 : Int) : Nat → Int → Int → Int
  | 0, _, _ => 0
  | n + 1, k, term => term - altSeries t2 n (k + 2) (fixMul term t2 / (k * (k + 1)))

/-- sin and cos of an angle in fixed point from 0 to π/2. -/
def sinFix (t : Int) : Int := altSeries (fixMul t t) 50 2 t
def cosFix (t : Int) : Int := altSeries (fixMul t t) 50 1 fixOne

/-- z + z³/3 + … : n terms from index k. -/
def atanhSeries (z2 : Int) : Nat → Int → Int → Int
  | 0, _, _ => 0
  | n + 1, k, pow => pow / k + atanhSeries z2 n (k + 2) (fixMul pow z2)

/-- The natural logarithm of y, in fixed point, 3/4 ≤ y < 3/2. -/
def lnFix (y : Int) : Int :=
  let z := fixDiv (y - fixOne) (y + fixOne)
  2 * atanhSeries (fixMul z z) 130 1 z

/-- The quotient and the rest of m · 2^e by 2^k, as (floor, rest in units of 2^min(e,k)). -/
def floorAt (m : Nat) (e k : Int) : Nat × Nat :=
  if k ≤ e then (m * 2 ^ (e - k).toNat, 0) else (m / 2 ^ (k - e).toNat, m % 2 ^ (k - e).toNat)

/-- 2^x for a finite nonzero x (R113): exact for an integer x. -/
def ex2Val (neg : Bool) (m : Nat) (e : Int) : Val :=
  if 40 < (Nat.log2 m : Int) + e then .num false (if neg then 1 else 1) (if neg then -(2 ^ 20) else 2 ^ 20) true
  else
    let (n, r) := floorAt m e 0
    if r = 0 then .num false 1 (if neg then -(n : Int) else n) false
    else
      let f := toFix r e
      -- x = n + f or -(n + f) = -(n + 1) + (1 - f)
      let i : Int := if neg then -(n : Int) - 1 else n
      let f := if neg then fixOne - f else f
      -- a fraction below the fixed point keeps 2^f on its side of 1
      if f = fixOne then .num false (2 ^ 160 - 1) (i + 1 - 160) true
      else .num false (fixOne + expm1Fix (fixMul f fixLn2)).toNat (i - fixP) true

/-- log₂ x for a finite x above 0 (R113): exact for a power of two. -/
def lg2Val (m : Nat) (e : Int) : Val :=
  let l := Nat.log2 m
  if m = 2 ^ l then intVal (l + e)
  else
    let y := toFix m (-(l : Int))
    let big := decide (3 * fixOne ≤ 2 * y)
    let i : Int := if big then l + e + 1 else l + e
    let y := if big then y / 2 else y
    let v := i * fixOne + fixDiv (lnFix y) fixLn2
    ofFix (decide (v < 0)) v.natAbs

/-- sin(2πx) for a finite nonzero x (R113): the value and the cases that are exact. -/
def sinVal (neg : Bool) (m : Nat) (e : Int) : Val :=
  let (n, r) := floorAt m e (-2)      -- quarter turns and the rest
  let q := n % 4
  if r = 0 then
    match q with
    | 0 | 2 => .num neg 0 0 false
    | 1 => .num neg 1 0 false
    | _ => .num (!neg) 1 0 false
  else
    let t := fixMul (toFix r e) (2 * fixPi)
    let v := if q % 2 = 0 then sinFix t else cosFix t
    ofFix (neg != decide (2 ≤ q)) v

/-- cos(2πx) for a finite x (R113). -/
def cosVal (m : Nat) (e : Int) : Val :=
  let (n, r) := floorAt m e (-2)
  let q := n % 4
  if r = 0 then
    match q with
    | 0 => .num false 1 0 false
    | 2 => .num true 1 0 false
    | _ => .num false 0 0 false
  else
    let t := fixMul (toFix r e) (2 * fixPi)
    let v := if q % 2 = 0 then cosFix t else sinFix t
    ofFix (decide (q = 1 ∨ q = 2)) v

/-- tanh x for a finite nonzero x (R113). -/
def tanhVal (neg : Bool) (m : Nat) (e : Int) : Val :=
  let E := (Nat.log2 m : Int) + e
  if E < -60 then .num neg (m * 2 ^ 64 - 1) (e - 64) true
  else if 5 < E then .num neg (2 ^ 160 - 1) (-160) true
  else
    let x2 := 2 * toFix m e
    -- 2x = n ln 2 + r
    let n := x2 / fixLn2
    let r := x2 % fixLn2
    let em1 := (fixOne + expm1Fix r) * 2 ^ n.toNat - fixOne
    ofFix neg (fixDiv em1 (em1 + 2 * fixOne))

end Sys2Proof.Machine
end

