-- ==== Sys2Proof/Machine/Float.lean ====
section
/-! DEFINITION. Floating-point operations on encodings: arithmetic, selection, comparison, special functions,
conversions and the fixed summation orders (06 R106-R121, 04 R75, R83). -/

namespace Sys2Proof.Machine

open Sys2Proof

/-! ## Arithmetic on encodings -/

/-- One operation of two operands, rounded to nearest even (R106). -/
def binF (F : Fmt) (f : Val → Val → Val × Bool) (a b : Nat) : Nat × FFlags :=
  let r := f (F.val a) (F.val b)
  roundFp F .rne false r.1 r.2

def addF (F : Fmt) (a b : Nat) : Nat × FFlags := binF F addVal a b
def subF (F : Fmt) (a b : Nat) : Nat × FFlags := binF F (fun x y => addVal x (negVal y)) a b
def mulF (F : Fmt) (a b : Nat) : Nat × FFlags := binF F mulVal a b

/-- a·b + c, rounded once (R108). -/
def fmaF (F : Fmt) (a b c : Nat) : Nat × FFlags :=
  let r := fmaVal (F.val a) (F.val b) (F.val c)
  roundFp F .rne false r.1 r.2

/-- The smaller operand, selected as its encoding (R107). -/
def minF (F : Fmt) (a b : Nat) : Nat :=
  match F.val a, F.val b with
  | .nan, .nan => F.nan
  | .nan, _ => b
  | _, .nan => a
  | x, y => if cmpVal true y x = some .lt then b else a

/-- The larger operand, selected as its encoding (R107). -/
def maxF (F : Fmt) (a b : Nat) : Nat :=
  match F.val a, F.val b with
  | .nan, .nan => F.nan
  | .nan, _ => b
  | _, .nan => a
  | x, y => if cmpVal true x y = some .lt then b else a

/-- A float comparison (R37, R109). -/
def condF (F : Fmt) (c : FCond) (a b : Nat) : Bool :=
  match c, cmpVal false (F.val a) (F.val b) with
  | .uno, o => o.isNone
  | .ord, o => o.isSome
  | .ueq, none | .une, none => true
  | _, none => false
  | .oeq, some o | .ueq, some o => o = .eq
  | .one, some o | .une, some o => o != .eq
  | .olt, some o => o = .lt
  | .ole, some o => o != .gt
  | .ogt, some o => o = .gt
  | .oge, some o => o != .lt

/-- a · 2^n, rounded once (R106). -/
def sclF (a : Nat) (n : Int) : Nat × FFlags := roundFp f32 .rne false (scaleVal (f32.val a) n)

/-- The integral value of an encoding in a mode, with the sign of its input and no flag (R110). -/
def rndF (F : Fmt) (m : Rnd) (a : Nat) : Nat :=
  match F.val a with
  | .num neg k e s =>
    if 0 ≤ e then a
    else
      let (y, r) := splitAt k s (-e)
      (roundFp F .rne false (.num neg (if roundsUp m neg (y % 2 = 1) r then y + 1 else y) 0 false)).1
  | x => (roundFp F .rne false x).1

/-! ## Special functions (R113, R114) -/

/-- The special functions of LX 11 to 18. -/
inductive SpecialFn where
  | rcp | rsq | sqrt | ex2 | lg2 | sin | cos | tanh
  deriving DecidableEq, Repr

/-- The exact value of a special function, with IV or DZ (R113). -/
def specialVal (f : SpecialFn) (x : Val) : Val × FFlags :=
  match f, x with
  | _, .nan => (.nan, 0)
  | .rcp, .inf s => (.num s 0 0 false, 0)
  | .rcp, .num s m e _ => if m = 0 then (.inf s, fDZ) else (divVal s 1 0 m e, 0)
  | .rsq, .inf s => if s then (.nan, fIV) else (.num false 0 0 false, 0)
  | .rsq, .num s m e _ => if m = 0 then (.inf s, fDZ) else if s then (.nan, fIV) else (rsqVal m e, 0)
  | .sqrt, .inf s => if s then (.nan, fIV) else (.inf false, 0)
  | .sqrt, .num s m e k => if m = 0 then (.num s m e k, 0) else if s then (.nan, fIV) else (sqrtVal m e, 0)
  | .ex2, .inf s => (if s then .num false 0 0 false else .inf false, 0)
  | .ex2, .num s m e _ => (if m = 0 then .num false 1 0 false else ex2Val s m e, 0)
  | .lg2, .inf s => if s then (.nan, fIV) else (.inf false, 0)
  | .lg2, .num s m e _ => if m = 0 then (.inf true, fDZ) else if s then (.nan, fIV) else (lg2Val m e, 0)
  | .sin, .inf _ => (.nan, fIV)
  | .sin, .num s m e k => (if m = 0 then .num s m e k else sinVal s m e, 0)
  | .cos, .inf _ => (.nan, fIV)
  | .cos, .num _ m e _ => (if m = 0 then .num false 1 0 false else cosVal m e, 0)
  | .tanh, .inf s => (.num s 1 0 false, 0)
  | .tanh, .num s m e k => (if m = 0 then .num s m e k else tanhVal s m e, 0)

/-- A special function on an encoding (R113). -/
def specialF (f : SpecialFn) (a : Nat) : Nat × FFlags :=
  let v := specialVal f (f32.val a)
  let r := roundFp f32 .rne false v.1
  (r.1, r.2 ||| v.2)

/-- a / b, rounded once (R114). R114 has no row for an infinity divided by a zero: an infinity without DZ (log 36). -/
def divF (a b : Nat) : Nat × FFlags :=
  match f32.val a, f32.val b with
  | .nan, _ | _, .nan => (f32.nan, 0)
  | .inf _, .inf _ => (f32.nan, fIV)
  | .inf s, .num t _ _ _ => (f32.signed (s != t) f32.infinity, 0)
  | .num s _ _ _, .inf t => (f32.signed (s != t) 0, 0)
  | .num s m e _, .num t n f _ =>
    if n = 0 then if m = 0 then (f32.nan, fIV) else (f32.signed (s != t) f32.infinity, fDZ)
    else if m = 0 then (f32.signed (s != t) 0, 0)
    else roundFp f32 .rne false (divVal (s != t) m e n f)

/-! ## Conversions (R116-R121, R75) -/

/-- Limits of an integer type: signed or not, of n bits. -/
def intLo (sgn : Bool) (n : Nat) : Int := if sgn then -(2 ^ (n - 1) : Int) else 0
def intHi (sgn : Bool) (n : Nat) : Int := if sgn then 2 ^ (n - 1) - 1 else 2 ^ n - 1

/-- Width and signedness of the type codes of R117. -/
def cvtWidth (t : Nat) : Nat := match t / 2 with | 0 => 32 | 1 => 64 | 2 => 16 | _ => 8
def cvtSigned (t : Nat) : Bool := t % 2 = 0

/-- The low bits of x as an integer of a type of R117. -/
def cvtInt (t x : Nat) : Int := if cvtSigned t then sext x (cvtWidth t) else (x % 2 ^ cvtWidth t : Nat)

/-- Round an exact value to a narrow kind NF (R75): codes of FMT.NF. -/
def toNarrow (nf : Nat) (m : Rnd) (sat : Bool) (sexp : Int) (x : Val) : Nat × FFlags :=
  let y := scaleVal x (-sexp)
  match nf with
  | 0 => roundFp f8a m sat y
  | 1 => roundFp f8b m sat y
  | 2 => let r := roundInt (-128) 127 m y; ((r.1 % 256).toNat, r.2)
  | _ => roundDpw m y

/-- Value of a byte in a narrow kind NF, before scaling (R75). -/
def narrowVal (nf x : Nat) : Val :=
  match nf with
  | 0 => f8a.val x
  | 1 => f8b.val x
  | 2 => intVal (sext x 8)
  | _ => dpwVal x

/-- Round to the 4-bit kind (R119). -/
def toNibble (i4s : Bool) (m : Rnd) (sexp : Int) (x : Val) : Nat × FFlags :=
  let r := roundInt (intLo i4s 4) (intHi i4s 4) m (scaleVal x (-sexp))
  ((r.1 % 16).toNat, r.2)

/-- Value of a nibble in the 4-bit kind. -/
def nibbleVal (i4s : Bool) (x : Nat) : Val := intVal (if i4s then sext x 4 else (x % 16 : Nat))

/-- An exact value as an encoding; used where the spec says the result is exact. -/
def exactF (F : Fmt) (x : Val) : Nat := (roundFp F .rne false x).1

/-- `qnt` (R121). -/
def quantise (m : Rnd) (sexp : Int) (v : Val) : Nat × FFlags :=
  let x := scaleVal v (-sexp)
  let big : Bool := match x with
    | .nan => false
    | .inf _ => true
    | .num _ k e s => cmpVal false (.num false k e false) (.num false 2 0 false) = some .gt
        || (s && cmpVal false (.num false k e false) (.num false 2 0 false) = some .eq)
  if big then let r := roundDpw m (scaleVal x (-1)); (0x10000 + r.1 * 256 + r.1, r.2)
  else let r := roundDpw m x; (0x7700 + r.1, r.2)

/-! ## Fixed summation orders (R83) -/

/-- One level of a tree: neighbours combined, an odd last one carried up unchanged. -/
def treeLevel {α : Type} (f : α → α → α) : List α → List α
  | a :: b :: t => f a b :: treeLevel f t
  | l => l

/-- The tree over a list (R83); n bounds the number of levels. -/
def treeFold {α : Type} (f : α → α → α) (d : α) : Nat → List α → α
  | 0, l => l.headD d
  | n + 1, l => match l with
    | [] => d
    | [a] => a
    | l => treeFold f d n (treeLevel f l)

/-- An addition that carries its flags along (R193). -/
def addTrack (a b : Nat × FFlags) : Nat × FFlags :=
  let r := addF f32 a.1 b.1
  (r.1, a.2 ||| b.2 ||| r.2)

/-- tree_sum of f32 encodings with the flags of every step (R83, R193). -/
def treeSum (l : List Nat) : Nat × FFlags := treeFold addTrack (0x80000000, 0) l.length (l.map fun x => (x, 0))

/-- An exact fixed-chunk accumulation step: c + S rounded once (R83). -/
def accumulate (c : Nat) (s : Val × Bool) : Nat :=
  let r := addVal (f32.val c) s.1
  (roundFp f32 .rne false r.1 r.2).1

/-! ## Operators of reductions on encodings (R306, R364, R276) -/

/-- Signed and unsigned selection on words of n bits. -/
def minS (n a b : Nat) : Nat := if sext b n < sext a n then b else a
def maxS (n a b : Nat) : Nat := if sext a n < sext b n then b else a
def minU (a b : Nat) : Nat := if b < a then b else a
def maxU (a b : Nat) : Nat := if a < b then b else a

/-- Signed saturation to n bits, as the unsigned pattern. -/
def satS (n : Nat) (i : Int) : Nat :=
  ((if i < intLo true n then intLo true n else if intHi true n < i then intHi true n else i) % (2 ^ n : Int)).toNat

/-- Both halves combined in a half kind. -/
def halves (F : Fmt) (f : Fmt → Nat → Nat → Nat × FFlags) (a b : Nat) : Nat × FFlags :=
  let lo := f F (a % 65536) (b % 65536)
  let hi := f F (a / 65536 % 65536) (b / 65536 % 65536)
  (hi.1 * 65536 + lo.1, lo.2 ||| hi.2)

/-- The fold a ⊕ b of a reduction page (R306). -/
def viewOp (redop a b : Nat) : Nat :=
  match redop with
  | 1 => (a + b) % 2 ^ 32
  | 2 => (a + b) % 2 ^ 64
  | 3 => (addF f32 a b).1
  | 4 => (halves f16 addF a b).1
  | 5 => (halves bf16 addF a b).1
  | 6 => minS 32 a b
  | 7 => maxS 32 a b
  | 8 => minF f32 a b
  | 9 => maxF f32 a b
  | 10 => Nat.lor a b
  | 11 => Nat.land a b
  | 12 => Nat.xor a b
  | _ => satS 32 (sext a 32 + sext b 32)

/-- The operator of a collective on f32 or i32 elements (R362, R364). -/
def collOp (red a b : Nat) : Nat :=
  match red with
  | 1 => (addF f32 a b).1
  | 2 => (a + b) % 2 ^ 32
  | 3 => minF f32 a b
  | 4 => maxF f32 a b
  | 5 => minS 32 a b
  | _ => maxS 32 a b

/-- An element of the result: a NaN is 0x7FC0_0000, of one contribution too (R364). -/
def collOut (red x : Nat) : Nat := if (red = 1 || red = 3 || red = 4) && f32.val x == .nan then 0x7FC00000 else x

end Sys2Proof.Machine
end

