-- ==== Sys2Proof/Machine/Engine.lean ====
section
/-! DEFINITION. Reads and writes that engines make at the home slices by virtual address (12 R250, 17 R436, 15 R315). -/

namespace Sys2Proof.Machine

open Sys2Proof

/-- Why an engine's access does not go on: a trap cause, or a replayable fault (R386). -/
inductive EngFault where
  | trap (cause : Cause) (va : Nat)
  | park (va kind level entry : Nat)
  deriving DecidableEq, Repr

/-- An engine's translation of one address as a party that waits on `tag`; an engine has no path to a remote page
(log 20). -/
def engXlat (d : Dev) (o va : Nat) (acc : Acc) (tag : Option Nat) : Except EngFault (Leaf × Nat) :=
  match xlat d o va acc tag with
  | .ok l pa => if l.kind = .remote then .error (.trap cPROTECTION va) else .ok (l, pa)
  | .trap c => .error (.trap c va)
  | .park k lvl e => .error (.park va k lvl e)

/-- Bytes from va to the end of its 64 KiB block, at most n. -/
def toBlockEnd (va n : Nat) : Nat := min n (2 ^ 16 - va % 2 ^ 16)

/-- The segments of n bytes at va within 64 KiB blocks, at most k of them. -/
def segments : Nat → Nat → Nat → List (Nat × Nat)
  | 0, _, _ => []
  | k + 1, va, n => if n = 0 then [] else
      let m := toBlockEnd va n
      (va, m) :: segments k (va + m) (n - m)

/-- The segments of n bytes at va. -/
def segmentsOf (va n : Nat) : List (Nat × Nat) := segments (n / 2 ^ 16 + 2) va n

/-- Every block of n bytes at va translated for an access; the physical segments in order. -/
def engRange (d : Dev) (o va n : Nat) (acc : Acc) (tag : Option Nat) : Except EngFault (List (Leaf × Nat × Nat)) :=
  (segmentsOf va n).foldr (fun sg r => match engXlat d o sg.1 acc tag, r with
    | .error e, _ => .error e
    | .ok _, .error e => .error e
    | .ok (l, pa), .ok t => .ok ((l, pa, sg.2) :: t)) (.ok [])

/-- n bytes at va read at their homes, and whether a poisoned sector was met. -/
def engRead (d : Dev) (o va n : Nat) (tag : Option Nat) : Except EngFault (List Byte × Bool) :=
  (engRange d o va n .read tag).map fun l =>
    (l.flatMap fun x => homeBytes d (keyOf d o) x.2.1 x.2.2, l.any fun x => poisoned d x.2.1 x.2.2)

/-- Bytes written at va at their homes; every block is translated before a byte is written. -/
def engWrite (d : Dev) (o va : Nat) (bytes : List Byte) (tag : Option Nat) : Except EngFault Dev :=
  (engRange d o va bytes.length .write tag).map fun l =>
    (l.foldl (fun (s : Dev × List Byte) x =>
      (homeStore s.1 (keyOf d o) x.2.1 (s.2.take x.2.2), s.2.drop x.2.2)) (d, bytes)).1

/-- The bytes at va written as poisoned sectors (R420). -/
def engPoison (d : Dev) (o va n : Nat) : Dev :=
  match engRange d o va n .write none with
  | .ok l => l.foldl (fun d x => poisonBytes d x.2.1 x.2.2) d
  | .error _ => d

/-- The 4-byte words of the n bytes at va that lie in poisoned sectors. -/
def engBadWords (d : Dev) (o va n : Nat) (tag : Option Nat) : List Nat :=
  (List.range (n / 4)).filter fun i => match engRead d o (va + 4 * i) 4 tag with
    | .ok (_, bad) => bad
    | .error _ => false

/-- A list cut into pieces of n elements, at most k of them. -/
def piecesOf {α : Type} (n : Nat) : Nat → List α → List (List α)
  | 0, _ => []
  | k + 1, l => if l.isEmpty then [] else l.take n :: piecesOf n k (l.drop n)

end Sys2Proof.Machine
end

