-- ==== Sys2Proof/Machine/Collective.lean ====
section
/-! DEFINITION. Consists and collectives at the Turntables of this package (17 R359-R371, R436): pieces, roots, results,
ends and aborts. -/

namespace Sys2Proof.Machine

open Sys2Proof

/-! ## Consists -/

/-- The number under which the model keeps a CID of an owner's partition: CIDs are unique within a partition only (R359). -/
def cidKey (d : Dev) (o cid : Nat) : Nat := ((partOf d o).map fun p => p.part + 1).getD 0 * 2 ^ 16 + cid

/-- The CID that packets carry. -/
def plainCid (k : Nat) : Nat := k % 2 ^ 16

/-- The consist that the Turntable of a die holds under a CID. -/
def consistAt (d : Dev) (die cid : Nat) : Option Consist := d.consists.find? fun c => c.die = die && c.cid = cid

/-- Any Turntable of this package holds the CID (R360, R367). -/
def heldHere (d : Dev) (cid : Nat) : Option Consist := d.consists.find? fun c => c.cid = cid

/-- The package with f applied to a consist. -/
def modConsist (d : Dev) (die cid : Nat) (f : Consist → Consist) : Dev :=
  { d with consists := modFirst d.consists (fun c => c.die = die && c.cid = cid) f }

/-- The rank of a package and die in a member table. -/
def rankOf (ms : List (Nat × Nat)) (pkg die : Nat) : Option Nat :=
  match ms.findIdx? fun m => m.1 = pkg && m.2 = die with
  | some i => some i
  | none => none

/-- The dies of this package among the members, in rank order. -/
def localDies (d : Dev) (ms : List (Nat × Nat)) : List Nat := (ms.filter fun m => m.1 = d.pkg).map (·.2)

/-- The member of a rank. -/
def memberAt (c : Consist) (r : Nat) : Nat × Nat := nth (0, 0) c.members r

/-- The rank that a Turntable of this package serves. -/
def localRank (d : Dev) (c : Consist) : Nat := (rankOf c.members d.pkg c.die).getD 0

/-- The digest that a FORM carries: of CID, N and the member table (R361). -/
def formDigest (cid n : Nat) (table : List Byte) : DWord :=
  (Config.shake256 (bytesOf cid 2 ++ bytesOf n 2 ++ table)).setWidth 64

/-! ## Collectives -/

/-- The collective of a Turntable with an identifier (R362). -/
def collAt (d : Dev) (die cid epoch seq : Nat) : Option Coll :=
  d.colls.find? fun c => c.die = die && c.cid = cid && c.epoch = epoch && c.seq = seq

/-- The package with f applied to the collective of a record identifier. -/
def modColl (d : Dev) (id : Nat) (f : Coll → Coll) : Dev := { d with colls := modFirst d.colls (fun c => c.id = id) f }

def findColl (d : Dev) (id : Nat) : Option Coll := d.colls.find? fun c => c.id = id

/-- The collective has ended at this Turntable (R370). -/
def Coll.ended (c : Coll) : Bool := c.state = .done || c.state = .aborted

/-- The record of a collective at a Turntable, made WAITING where there is none (R370). -/
def ensureColl (d : Dev) (die cid epoch seq : Nat) : Dev × Nat :=
  match collAt d die cid epoch seq with
  | some c => (d, c.id)
  | none => ({ d with colls := d.colls ++ [{ id := d.nextId, die := die, cid := cid, epoch := epoch, seq := seq,
                                             heard := d.time }]
                      nextId := d.nextId + 1 }, d.nextId)

/-- A packet that a Turntable sends on its pinned route and keeps until it is acknowledged (R349, R365). A pinned first
port that is dead gives none. -/
def sendPinned (d : Dev) (c : Consist) (coll dstRank : Nat) (body : Nat → PacketBody) : Option Dev :=
  let dst := (memberAt c dstRank).1
  let id := d.nextId
  let pri := (findColl d coll).any fun x => x.card.any (·.pri)
  let p := { mkPacket d dst c.owner 3 (body id) with pset := PacketBody.setOf (body id) pri }
  let d := { d with
    nextId := id + 1
    sent := d.sent ++ [⟨id, p, coll, p.deadline, d.time + deadlineOf d c.owner 3 / 4⟩] }
  if dst = d.pkg then some { d with inbox := d.inbox ++ [p] }
  else match c.pins.find? fun x => x.1 = dst with
    | some x => if (Sparse.get {} d.ports x.2).live then some (usePort d (sourceWire d p) x.2) else none
    | none => none

/-- The status of a package for a collective (R367): once it has ended at every member here, that of the lowest local
rank, with the least count of result chunks. -/
def packageStatus (d : Dev) (cid epoch seq : Nat) : Option CollStatus :=
  match heldHere d cid with
  | none => none
  | some c =>
    let cs := (localDies d c.members).map fun die => collAt d die cid epoch seq
    if cs.all fun x => (x.any Coll.ended) then
      ((cs.head?.bind id).bind (·.status)).map fun st =>
        { st with chunks := cs.foldl (fun m x => min m (((x.bind (·.status)).map (·.chunks)).getD 0)) st.chunks }
    else none

/-- The status word of R367. -/
def statusWord (s : CollStatus) : DWord :=
  BitVec.ofNat 64 (s.code + s.failRank * 2 ^ 8 + s.detRank * 2 ^ 18 + s.chunks / 2 ^ 32 % 16 * 2 ^ 28 +
    s.chunks % 2 ^ 32 * 2 ^ 32)

/-- An access of a Turntable meets a replayable fault: it parks (R436). -/
def parkColl (d : Dev) (c : Coll) (o : Nat) (va kind lvl e : Nat) (acc : Acc) : Dev :=
  let l := ((c.subs.head?.bind fun s => findLaunch d s.launch).map (·.id)).getD 0
  let r := parkFault d o va kind lvl e acc ⟨l, 4, c.die, 0⟩
  modColl r.1 c.id fun c => { c with parked := some r.2 }

/-- The member of a collective on this package that was submitted, lowest in rank, with its submission. -/
def submittedHere (d : Dev) (cid epoch seq : Nat) : Option (Coll × Submit) :=
  ((heldHere d cid).map fun k => localDies d k.members).getD [] |>.findSome? fun die =>
    (collAt d die cid epoch seq).bind fun c => c.subs.head?.map fun s => (c, s)

/-- STATUS and STIME are written into the card once the collective has ended at every member here (R367, R436). -/
def writeCard (d : Dev) (cid epoch seq : Nat) : Dev :=
  match packageStatus d cid epoch seq, submittedHere d cid epoch seq with
  | some st, some (c, s) =>
    match engWrite d s.owner (s.card.toNat + 0x18) (bytesOf (statusWord st).toNat 8 ++ bytesOf st.stime 8) c.parked with
    | .ok d => modColl d c.id fun c => { c with parked := none }
    | .error (.trap _ _) => modColl d c.id fun c => { c with parked := none }
    | .error (.park va k lvl e) => parkColl d c s.owner va k lvl e .write
  | _, _ => d

/-- A member ends a collective with a status: staging is discarded and the card written (R370). -/
def endColl (d : Dev) (id : Nat) (state : CollState) (st : CollStatus) : Dev :=
  match findColl d id with
  | none => d
  | some c =>
    if c.ended then d
    else
      let c := { c with state := state, status := some { st with chunks := c.written.length }, pieces := [], results := [], parked := none }
      let d := modColl d id fun _ => c
      writeCard (if state = .aborted then { d with sent := d.sent.filter fun s => s.coll ≠ id } else d) c.cid c.epoch c.seq

/-- The notices of an abort, one for each member, over the route tables (R368). -/
def sendNotices (d : Dev) (c : Consist) (coll cid epoch seq : Nat) (st : CollStatus) : Dev :=
  c.members.zipIdx.foldl (fun d m =>
    if m.2 = localRank d c then d
    else
      let id := d.nextId
      let p := mkPacket d m.1.1 c.owner 3 (.notice id (plainCid cid) epoch seq st.code st.failRank st.detRank st.stime m.2)
      sendPacket { d with
        nextId := id + 1
        sent := d.sent ++ [⟨id, p, coll, p.deadline, d.time + deadlineOf d c.owner 3 / 4⟩] } p) d

/-- The consist of a Turntable becomes BROKEN by a status (R361). -/
def breakConsist (d : Dev) (die cid : Nat) (st : CollStatus) : Dev :=
  modConsist d die cid fun c => if c.state = .ready then { c with state := .broken, brokenBy := some st } else c

/-- A member detects a failure of a collective (R368): the status, the notices, the end, and the consist BROKEN. -/
def detectAbort (d : Dev) (id code failRank : Nat) : Dev :=
  match findColl d id with
  | none => d
  | some c => match consistAt d c.die c.cid with
    | none => d
    | some k =>
      let st : CollStatus := ⟨code, failRank, localRank d k, 0, d.time⟩
      let d := endColl d id .aborted st
      breakConsist (sendNotices d k id c.cid c.epoch c.seq st) c.die c.cid st

/-! ## Geometry (R364) -/

/-- Bytes of a chunk: 2^CLOG. -/
def CollCard.chunk (c : CollCard) : Nat := 2 ^ c.clog
/-- Chunks of a segment. -/
def CollCard.chunks (c : CollCard) : Nat := ceilDiv c.count c.chunk
/-- Bytes of chunk k. -/
def CollCard.chunkLen (c : CollCard) (k : Nat) : Nat := min c.chunk (c.count - k * c.chunk)
/-- Pieces of chunk k, each of at most 4 KiB (R365). -/
def CollCard.pieceCount (c : CollCard) (k : Nat) : Nat := ceilDiv (c.chunkLen k) 4096

/-- Buffer bytes of a member (R364). -/
def CollCard.bufferLen (c : CollCard) (n : Nat) : Nat := if c.op = 1 || c.op = 2 then n * c.count else c.count

/-- The operation writes the buffer of this rank, at some segment (R363, R364). -/
def CollCard.writesBuffer (c : CollCard) (rank : Nat) : Bool := !(c.op = 3 && c.root = rank)

/-- Result chunks expected at a rank, as keys: segment * chunks + chunk. -/
def CollCard.expected (c : CollCard) (n rank : Nat) : List Nat :=
  match c.op with
  | 0 => List.range c.chunks
  | 1 => (List.range c.chunks).map fun k => rank * c.chunks + k
  | 2 => ((List.range n).filter fun s => s != rank).flatMap fun s => (List.range c.chunks).map fun k => s * c.chunks + k
  | _ => if c.root = rank then [] else List.range c.chunks

/-- Byte offset in the buffer of a result chunk key. -/
def CollCard.keyOff (c : CollCard) (key : Nat) : Nat :=
  key / c.chunks * c.count + key % c.chunks * c.chunk

/-- What a member sends at activation: destination rank, result or contribution, segment, chunk (R364). -/
def CollCard.sends (c : CollCard) (n rank : Nat) : List (Nat × Bool × Nat × Nat) :=
  match c.op with
  | 0 => (List.range c.chunks).map fun k => (k % n, false, 0, k)
  | 1 => (List.range n).flatMap fun s => (List.range c.chunks).map fun k => (s, false, s, k)
  | 2 => ((List.range n).filter fun r => r != rank).flatMap fun r => (List.range c.chunks).map fun k => (r, true, rank, k)
  | _ => if c.root = rank then
      ((List.range n).filter fun r => r != rank).flatMap fun r => (List.range c.chunks).map fun k => (r, true, 0, k)
    else []

/-- The chunk key that packets of a segment carry. -/
def CollCard.key (c : CollCard) (seg k : Nat) : Nat := seg * c.chunks + k

/-! ## Sending, forming and writing -/

/-- Cut into pieces of at most 4 KiB with their indexes. -/
def chunkPieces (bytes : List Byte) : List (List Byte × Nat) := (piecesOf 4096 (bytes.length / 4096 + 1) bytes).zipIdx

/-- The poisoned elements of a chunk that lie in its piece i, counted from the piece's start. -/
def poisonIn (l : List Nat) (i : Nat) : List Nat := (l.filter fun e => e / 1024 = i).map (· % 1024)

/-- One send of a member: each piece on its pinned route; a dead first port aborts with ABORT_LINK (R368). -/
def sendChunk (d : Dev) (id : Nat) (k : Consist) (rank dst : Nat) (result : Bool) (key : Nat) (bytes : List Byte)
    (poison : List Nat) : Dev :=
  (chunkPieces bytes).foldl (fun d p => match findColl d id with
    | none => d
    | some c => if c.ended then d else
      let body := fun i => if result then .result i (plainCid c.cid) c.epoch c.seq rank dst key p.2 p.1 (poisonIn poison p.2)
        else .piece i (plainCid c.cid) c.epoch c.seq rank dst key p.2 p.1 (poisonIn poison p.2)
      match sendPinned d k id dst body with
      | some d => d
      | none => detectAbort d id 2 dst) d

/-- The contributions of a member read from its buffer: every read must succeed before any is sent (R436). -/
def readSends (d : Dev) (o buf : Nat) (card : CollCard) (tag : Option Nat) :
    List (Nat × Bool × Nat × Nat) → Except EngFault (List (Nat × Bool × Nat × List Byte × List Nat))
  | [] => .ok []
  | (dst, result, seg, k) :: t =>
    match engRead d o (buf + seg * card.count + k * card.chunk) (card.chunkLen k) tag with
    | .error e => .error e
    | .ok (b, bad) => match readSends d o buf card tag t with
      | .error e => .error e
      | .ok l =>
        let ws := if bad then engBadWords d o (buf + seg * card.count + k * card.chunk) (card.chunkLen k) tag else []
        .ok ((dst, result, card.key seg k, b, ws) :: l)

/-- The words of a byte list. -/
def wordsOf (l : List Byte) : List Nat := (piecesOf 4 (l.length / 4 + 1) l).map natOf

/-- The result of one piece: for each element the tree over the ranks (R364, R83). -/
def combine (red : Nat) (contribs : List (List Byte)) : List Byte :=
  let ws := contribs.map wordsOf
  let n := ((ws.head?).map (·.length)).getD 0
  (List.range n).flatMap fun i => bytesOf (collOut red (treeFold (collOp red) 0 ws.length (ws.map fun w => nth 0 w i))) 4

/-- The contributions present for one piece, in rank order, when every rank's is there. -/
def allPieces (c : Coll) (n key idx : Nat) : Option (List Piece) :=
  let l := (List.range n).filterMap fun r => c.pieces.find? fun p => p.rank = r && p.chunk = key && p.idx = idx
  if l.length = n then some l else none

/-- A priority collective that works at the Turntable suspends a bulk one there (R366). -/
def suspended (d : Dev) (c : Coll) : Bool :=
  !c.card.any (·.pri) && d.colls.any fun x => x.die = c.die && x.state = .active && x.card.any (·.pri)

/-- A root forms and sends the results of every piece for which all contributions are present, unless a priority collective goes
first (R365, R366). -/
def rootWork (d : Dev) (id : Nat) : Dev :=
  match findColl d id with
  | none => d
  | some c => if suspended d c then d else match c.card, consistAt d c.die c.cid with
    | some card, some k =>
      let n := k.members.length
      let rank := localRank d k
      let keys := (c.pieces.filter fun p => p.rank = 0).map fun p => (p.chunk, p.idx)
      keys.foldl (fun d ki => match findColl d id with
        | none => d
        | some c => if c.ended then d else match allPieces c n ki.1 ki.2 with
          | none => d
          | some ps =>
            let bytes := combine card.red (ps.map (·.bytes))
            let bad := (ps.flatMap (·.poison)).eraseDups
            let d := modColl d id fun c => { c with
              pieces := c.pieces.filter (fun p => !(p.chunk = ki.1 && p.idx = ki.2)), formed := c.formed ++ [ki] }
            let dsts := if card.op = 1 then [rank] else List.range n
            dsts.foldl (fun d dst => match findColl d id with
              | none => d
              | some c => if c.ended then d else
                match sendPinned d k id dst fun i => .result i (plainCid c.cid) c.epoch c.seq rank dst ki.1 ki.2 bytes bad with
                | some d => d
                | none => detectAbort d id 2 dst) d) d
    | _, _ => d

/-- The pieces of a result chunk in order when all are there. -/
def fullChunk (c : Coll) (card : CollCard) (key : Nat) : Option (List Byte × List Nat) :=
  let k := key % card.chunks
  let l := (List.range (card.pieceCount k)).filterMap fun i => c.results.find? fun p => p.chunk = key && p.idx = i
  if l.length = card.pieceCount k then some (l.flatMap (·.bytes), l.flatMap fun p => p.poison.map (· + 1024 * p.idx)) else none

/-- Every result chunk that is whole is written into the member's buffer, once (R365, R436). -/
def writeResults (d : Dev) (id : Nat) : Dev :=
  match findColl d id with
  | none => d
  | some c => match c.card, consistAt d c.die c.cid, c.subs.head? with
    | some card, some k, some s =>
      if c.state ≠ .active then d
      else
        let rank := localRank d k
        let want := card.expected k.members.length rank
        let d := want.foldl (fun d key => match findColl d id with
          | none => d
          | some c =>
            if c.ended || c.written.contains (rank, key) then d
            else match fullChunk c card key with
              | none => d
              | some (bytes, bad) =>
                let va := s.buf.toNat + card.keyOff key
                match engWrite d s.owner va bytes c.parked with
                | .ok d =>
                  let d := bad.foldl (fun d i => engPoison d s.owner (va + 4 * i) 4) d
                  modColl d id fun c => { c with
                    written := c.written ++ [(rank, key)], parked := none
                    results := c.results.filter fun p => p.chunk ≠ key }
                | .error (.trap _ _) => detectAbort d id 6 rank
                | .error (.park va kind lvl e) => parkColl d c s.owner va kind lvl e .write) d
        match findColl d id with
        | some c => if !c.ended && want.all fun key => c.written.contains (rank, key) then
            endColl d id .done ⟨1, 0, 0, c.written.length, d.time⟩ else d
        | none => d
    | _, _, _ => d

/-! ## Credits (R365; log 26) -/

/-- The chunk keys that a rank forms (R364). -/
def CollCard.roots (c : CollCard) (n rank : Nat) : List Nat :=
  match c.op with
  | 0 => (List.range c.chunks).filter fun k => k % n = rank
  | 1 => (List.range c.chunks).map fun k => rank * c.chunks + k
  | _ => []

/-- Pieces of a chunk key, by index. -/
def CollCard.keyPieces (c : CollCard) (key : Nat) : List Nat := List.range (c.pieceCount (key % c.chunks))

/-- The next rank to which a root grants credit for a chunk. -/
def Coll.nextGrant (c : Coll) (key : Nat) : Nat := ((c.granted.find? fun e => e.1 = key).map (·.2)).getD 0

/-- The ranks from 0 on whose contributions to a chunk are here without a gap. -/
def Coll.arrived (c : Coll) (card : CollCard) (n key : Nat) : Nat :=
  ((List.range n).takeWhile fun r => (card.keyPieces key).all fun i =>
    c.formed.contains (key, i) || c.pieces.any fun x => x.rank = r && x.chunk = key && x.idx = i).length

/-- The bits set in a number below 2^n: the tree nodes that the contributions of as many ranks leave (R365, R83). -/
def bitCount : Nat → Nat → Nat
  | 0, _ => 0
  | n + 1, x => x % 2 + bitCount n (x / 2)

/-- Chunks of staging that a root holds for a chunk, those granted and not here among them. -/
def Coll.nodes (c : Coll) (card : CollCard) (n key : Nat) : Nat :=
  let a := c.arrived card n key
  if n ≤ a then 0 else bitCount 11 a + (c.nextGrant key - a)

/-- A collective's share of the 8 MiB of staging, of which 17 collectives have one each (R363, R365), takes one more chunk. -/
def Coll.roomToGrant (c : Coll) (card : CollCard) (n : Nat) : Bool :=
  decide ((c.granted.foldl (fun m e => m + c.nodes card n e.1) 0 + 1) * card.chunk ≤ 8 * 2 ^ 20 / 17)

/-- A root grants credit for a chunk to rank r, if it is the next one and there is room (R365). -/
def grantOne (d : Dev) (id : Nat) (k : Consist) (rank key r : Nat) : Dev :=
  match findColl d id with
  | none => d
  | some c => match c.card with
    | none => d
    | some card =>
      if c.ended || c.nextGrant key ≠ r || !c.roomToGrant card k.members.length then d
      else
        let d := modColl d id fun c => { c with granted := (key, r + 1) :: c.granted.filter fun e => e.1 ≠ key }
        match sendPinned d k id r fun i => .credit i (plainCid c.cid) c.epoch c.seq rank r key with
        | some d => d
        | none => detectAbort d id 2 r

/-- A root grants what credits it can: chunk after chunk, each in increasing rank (R365). -/
def grantCredits (d : Dev) (id : Nat) : Dev :=
  match findColl d id with
  | none => d
  | some c => match c.card, consistAt d c.die c.cid with
    | some card, some k =>
      if c.state ≠ .active then d
      else
        let n := k.members.length
        let rank := localRank d k
        (card.roots n rank).foldl (fun d key => (List.range n).foldl (fun d r => grantOne d id k rank key r) d) d
    | _, _ => d

/-- A contribution chunk that a member is about to send: its collective, rank and consist, the bytes, the poisoned elements. -/
structure Share1 where
  coll : Nat
  rank : Nat
  bytes : List Byte
  poison : List Nat
  deriving DecidableEq, Repr

/-- One packet with piece i of the contributions of several local ranks, each kept as a piece of its own until it is acknowledged
(R365); a dead pinned port aborts. -/
def sendTogether (d : Dev) (k : Consist) (epoch seq root key i : Nat) (xs : List Share1) : Dev :=
  let cid := plainCid k.cid
  let dst := (memberAt k root).1
  let rows := xs.zipIdx.map fun x => (d.nextId + x.2, x.1.rank, nth [] ((chunkPieces x.1.bytes).map (·.1)) i, poisonIn x.1.poison i)
  let pri := (xs.head?.bind fun x => findColl d x.coll).any fun c => c.card.any (·.pri)
  let wrap := fun (b : PacketBody) => { mkPacket d dst k.owner 3 b with pset := PacketBody.setOf b pri }
  let one := fun (r : Nat × Nat × List Byte × List Nat) =>
    wrap (.piece r.1 cid epoch seq r.2.1 root key i r.2.2.1 r.2.2.2)
  let kept := (xs.zip rows).map fun e =>
    (⟨e.2.1, one e.2, e.1.coll, (one e.2).deadline, d.time + deadlineOf d k.owner 3 / 4⟩ : Sent)
  let p := match rows with
    | [r] => one r
    | _ => wrap (.pieces cid epoch seq root key i rows)
  let d := { d with nextId := d.nextId + rows.length, sent := d.sent ++ kept }
  if dst = d.pkg then { d with inbox := d.inbox ++ [p] }
  else match k.pins.find? fun x => x.1 = dst with
    | some x => if (Sparse.get {} d.ports x.2).live then usePort d (sourceWire d p) x.2
      else xs.foldl (fun d x => detectAbort d x.coll 2 root) d
    | none => xs.foldl (fun d x => detectAbort d x.coll 2 root) d

/-- The contribution of a member to a chunk, read from its buffer: nothing where the read parks or fails (R436). -/
def readShare (d : Dev) (id key : Nat) : Dev × Option Share1 :=
  match findColl d id with
  | none => (d, none)
  | some c => match c.card, consistAt d c.die c.cid, c.subs.head? with
    | some card, some k, some s =>
      let va := s.buf.toNat + card.keyOff key
      let len := card.chunkLen (key % card.chunks)
      match engRead d s.owner va len c.parked with
      | .error (.trap _ _) => (detectAbort d id 6 (localRank d k), none)
      | .error (.park va kind lvl e) => (parkColl d c s.owner va kind lvl e .read, none)
      | .ok (b, bad) => (d, some ⟨id, localRank d k, b, if bad then engBadWords d s.owner va len c.parked else []⟩)
    | _, _, _ => (d, none)

/-- The members of this package that hold credit for a chunk of a root and have not sent it, and can. -/
def payers (d : Dev) (cid epoch seq : Nat) (e : Nat × Nat) : List Nat :=
  (d.colls.filter fun c => c.cid = cid && c.epoch = epoch && c.seq = seq && c.state = .active && c.credits.contains e &&
    !c.paid.contains e).map (·.id)

/-- The contributions to a chunk for which credit is here go to its root, those of several local ranks in one packet as far as
4 KiB go (R365). -/
def payChunk (d : Dev) (cid epoch seq : Nat) (e : Nat × Nat) : Dev :=
  let r := (payers d cid epoch seq e).foldl (fun (r : Dev × List Share1) id =>
    let x := readShare r.1 id e.2
    (x.1, r.2 ++ x.2.toList)) (d, [])
  match (r.2.head?).bind fun x => (findColl r.1 x.coll).bind fun c => consistAt r.1 c.die c.cid with
  | none => r.1
  | some k =>
    let d := r.2.foldl (fun d x => modColl d x.coll fun c => { c with paid := e :: c.paid, parked := none }) r.1
    let size := ((r.2.head?).map fun x => x.bytes.length).getD 0
    let fit := max 1 (4096 / max 1 size)
    ((piecesOf fit (r.2.length + 1) r.2).foldl (fun d xs =>
      (List.range (ceilDiv size 4096)).foldl (fun d i => sendTogether d k epoch seq e.1 e.2 i xs) d) d)

/-- A member sends the contributions for which it holds credit. -/
def payCredits (d : Dev) (id : Nat) : Dev :=
  match findColl d id with
  | none => d
  | some c => if c.state ≠ .active then d else c.credits.foldl (fun d e => payChunk d c.cid c.epoch c.seq e) d

/-- A submitted collective becomes ACTIVE: what it sends without credit is read and sent (R365, R370). -/
def activate (d : Dev) (id : Nat) : Dev :=
  match findColl d id with
  | none => d
  | some c => match c.card, consistAt d c.die c.cid, c.subs.head? with
    | some card, some k, some s =>
      if c.state ≠ .waiting then d
      else
        let rank := localRank d k
        match readSends d s.owner s.buf.toNat card c.parked ((card.sends k.members.length rank).filter fun x => x.2.1) with
        | .error (.trap _ _) => detectAbort d id 6 rank
        | .error (.park va kind lvl e) => parkColl d c s.owner va kind lvl e .read
        | .ok l =>
          let d := modColl d id fun c => { c with state := .active, parked := none, heard := d.time }
          l.foldl (fun d x => sendChunk d id k rank x.1 x.2.1 x.2.2.1 x.2.2.2.1 x.2.2.2.2) d
    | _, _, _ => d

/-- All that a collective can do with what it holds. -/
def collWork (d : Dev) (id : Nat) : Dev :=
  let d := activate d id
  let d := grantCredits d id
  let d := payCredits d id
  let d := rootWork d id
  let d := writeResults d id
  match findColl d id with
  | some c => if c.ended && c.parked.isSome then writeCard d c.cid c.epoch c.seq else d
  | none => d

/-- Unended collectives of a launch abort: ABORT_MEMBER_GONE with the lowest rank that the launch submitted (R417). -/
def abortOfLaunch (d : Dev) (launch : Nat) : Dev :=
  let mine := d.colls.filter fun c => !c.ended && c.subs.any fun s => s.launch = launch
  mine.foldl (fun d c =>
    let low := ((mine.filter fun x => x.cid = c.cid && x.epoch = c.epoch && x.seq = c.seq).flatMap fun x =>
      (x.subs.filter fun s => s.launch = launch).map (·.rank)).foldl min 1024
    detectAbort d c.id 4 low) d

end Sys2Proof.Machine
end

