-- ==== Sys2Proof/Machine/SaveArea.lean ====
section
/-! DEFINITION. The bytes of a save area (10 R219, R227-R228; 08 R151; 15 R325; 16 R339, R346; 17 R357; 20 R378; 23 R409). While a
block is saved they are one with what the block holds, and are computed from it (log 16). -/

namespace Sys2Proof.Machine

open Sys2Proof

/-! ## Registers in it -/

/-- MXSTAT (R145). -/
def Block.mxstat (b : Block) : DWord :=
  let q := b.seq
  let res := match q.res with
    | .none => 0
    | .home => 1
    | .neighbour _ => 2
  let nbe := match q.res with
    | .none | .home => 0
    | .neighbour e => e % 4
  dw (b2n q.iv + 2 * b2n q.of + 4 * b2n q.uf + 8 * b2n q.nx + 16 * b2n q.run + 32 * b2n q.halt + 2 ^ 6 * res + 2 ^ 8 * nbe +
    2 ^ 10 * b2n q.rstw + 2 ^ 16 * q.cause.toNat + 2 ^ 24 * q.tiles.length)

/-- The last join of a block (R323). -/
def lastJoinOf (d : Dev) (b : Block) : LastJoin := ((d.joins.find? fun j => j.1 = b.key).map (·.2)).getD {}

/-- The child record of a block in its fork (R319). -/
def ownChildOf (d : Dev) (b : Block) : Option Child := b.child.bind fun c => (forkOf d c.parent).bind fun f => f.child c.idx

/-- FORKSTAT of a block (R323). -/
def forkstatOf (d : Dev) (b : Block) : DWord :=
  let c := b.child
  let j := lastJoinOf d b
  let st := j.status.toNat
  dw ((c.map (·.idx)).getD 0 + 2 ^ 6 * b2n c.isSome + 2 ^ 7 * b2n (forkOf d b.key).isSome +
    2 ^ 8 * b2n ((ownChildOf d b).any (·.restartable)) + 2 ^ 12 * (c.map (·.depth)).getD 0 + 2 ^ 16 * (c.map (·.nch)).getD 0 +
    2 ^ 24 * min 255 ((c.map (·.runs)).getD 0) + 2 ^ 32 * bits st 3 0 + 2 ^ 36 * bits st 13 8 + 2 ^ 48 * j.rcnt)

/-- TWINQ of a block (R324). -/
def twinqOf (d : Dev) (b : Block) : DWord :=
  dw (b.shape.quota + 2 ^ 24 * ((ownChildOf d b).map (·.shadows.length)).getD 0)

/-- MELD (R185). -/
def Meld.word (m : Meld) : DWord := dw (m.bmask.toNat + 2 ^ 32 * b2n m.active + 2 ^ 33 * b2n m.slot)

/-- TRAPST (R410). -/
def TrapCtx.word (c : TrapCtx) : DWord :=
  dw (b2n c.inh + 2 * b2n c.next + 4 * b2n c.preq + 2 ^ 8 * (c.depth % 64))

/-! ## The block control record, barriers and sequencer (R219, R227) -/

/-- STATE of a block control record: the states in the order of R224 (log 16). -/
def BlockState.code (x : BlockState) : Nat :=
  match x with
  | .unstarted | .inTransit => 0
  | .resident => 1
  | .parked => 2
  | .preempting => 3
  | .saved | .moving => 4
  | .evicted => 5
  | .retired => 6

/-- Word k of the block control record (R219). -/
def Block.recordWord (b : Block) (k : Nat) : Nat :=
  match k with
  | 0 => b.launchId.toNat
  | 1 => packFields [(0, b.blin), (32, b.state.code), (40, b2n b.trigd), (41, b2n b.cor), (42, b2n b.handlerPending),
      (43, b2n b.waitEvt), (48, b.slotEntry)]
  | 2 => b.record
  | 3 => b.saveAddr
  | 4 => packFields [(0, b.core), (32, b.trigm.toNat)]
  | 5 => packFields [(0, b.exitm.toNat), (32, b.nres)]
  | 6 => b.stime
  | _ => 0

/-- Word k of a named barrier's save word (R227, R339). -/
def Bar.saveWord (x : Bar) (k : Nat) : Nat :=
  if k = 0 then packFields [(0, x.expect.toNat), (16, x.arrived.toNat), (31, b2n x.broken), (32, (wrap32 x.pending).toNat)]
  else packFields [(0, x.phase.toNat), (32, x.arr.toNat)]

/-- Word k of a matrix barrier, in the same form: ARRIVED counts the groups and the sequencer (R127, R227; log 16). -/
def MBar.saveWord (x : MBar) (k : Nat) : Nat :=
  if k = 0 then packFields [(16, countM x.arr + b2n x.seqArr)] else packFields [(0, x.phase.toNat), (32, x.arr.toNat)]

/-- A number in n bits, two's complement. -/
def inBits (n : Nat) (i : Int) : Nat := (i % (2 ^ n : Int)).toNat

/-- Word k of the sequencer context, in the order of R227; the slot map has a bit for each name claimed (log 16). -/
def Block.seqWord (b : Block) (k : Nat) : Nat :=
  let q := b.seq
  if k < 16 then (Sparse.get 0 q.k k).toNat
  else match k with
    | 16 => q.kq.toNat
    | 17 => packFields [(0, q.ka), (4, q.kb), (8, inBits 7 q.ea), (15, inBits 7 q.eb)]
    | 18 => b2n (q.res != .none)
    | 19 => packFields (q.tiles.map fun t => (t.1, 1))
    | 20 => q.pc.toNat
    | 21 => b.mxstat.toNat
    | _ => 0

/-! ## Forks, registrations and counters (R325, R346, R357) -/

/-- The 64 bytes of a fork record (R307). -/
def ForkRec.bytes (r : ForkRec) : List Byte :=
  bytesOf r.entry.toNat 8 ++ bytesOf r.args.toNat 8 ++ bytesOf r.log.toNat 8 ++ bytesOf r.scratch 4 ++ bytesOf r.logn 2 ++
    [r.nch, r.domain, r.groups, r.vregs, r.sregs, r.accs, b2n r.trapc + 2 * b2n r.trapx].map (BitVec.ofNat 8)

/-- The state of a fork (R320; log 16). -/
def ForkState.code (x : ForkState) : Nat :=
  match x with
  | .running => 0 | .fallback => 1 | .serial => 2 | .failing => 3 | .joined => 4

/-- Word k of the fork state of a block (R325; the state and the link of a child: log 16). -/
def forkWord (d : Dev) (b : Block) (k : Nat) : Nat :=
  match k, forkOf d b.key with
  | 8, some f => packFields [(0, f.state.code), (8, f.m), (16, f.rerun), (24, f.failb)]
  | 9, some f => packFields [(0, f.conflicts.length), (32, f.rcnt)]
  | 10, _ => (lastJoinOf d b).status.toNat
  | 11, _ => (b.child.map fun c => packFields [(0, c.parent + 1), (56, c.idx)]).getD 0
  | k, some f => if k < 8 then natOf ((f.fr.bytes.drop (8 * k)).take 8) else 0
  | _, none => 0

/-- Word k of a registration (R346). -/
def LBuf.word (l : LBuf) (k : Nat) : Nat :=
  match k with
  | 0 => l.sel.toNat
  | 1 => packFields [(0, l.off), (32, l.len)]
  | 2 => packFields [(0, l.bar), (4, l.mode), (8, b2n l.free), (9, 1)]
  | _ => 0

/-- Word k of the first 4 KiB of a save area (R227). -/
def headWord (d : Dev) (b : Block) (k : Nat) : Nat :=
  if k < 0x08 then b.recordWord k
  else if k < 0x28 then (Sparse.get {} b.bars ((k - 0x08) / 2)).saveWord (k % 2)
  else if k < 0x38 then (Sparse.get {} b.mbars ((k - 0x28) / 2)).saveWord (k % 2)
  else if k < 0x60 then b.seqWord (k - 0x38)
  else if k < 0x80 then forkWord d b (k - 0x60)
  else if k < 0xA0 then (b.lbufs[(k - 0x80) / 4]?.map fun l => l.word (k % 4)).getD 0
  else if k < 0xB0 then let c := Sparse.get {} b.counters (k - 0xA0); packFields [(0, c.count), (32, c.target)]
  else 0

/-! ## Group contexts (R228, R151, R378, R409) -/

/-- Word k of a split entry (R151). -/
def Path.word (p : Path) (k : Nat) : Nat :=
  match k with
  | 0 => p.pcw.toNat
  | 1 => p.rjpc.toNat
  | 2 => packFields [(0, p.act.toNat), (32, p.rjm.toNat)]
  | _ => packFields [(0, p.fmt.toNat), (32, p.fpstat.toNat), (37, b2n p.waiting), (40, p.rslot.toNat)]

/-- Word k of the predicates p0 to p(n - 1): lane L in byte L (R228). -/
def predWord (t : Table Mask) (n k : Nat) : Nat :=
  packFields ((List.range 8).flatMap fun l => (List.range n).map fun i => (8 * l + i, b2n (inM (Sparse.get 0 t i) (8 * k + l))))

/-- Word k of a renaming table: the vector map, then the map of p0 to p6 (R228). -/
def mapWord (v p : Table Nat) (k : Nat) : Nat :=
  if k < 16 then packFields ((List.range 8).map fun i => (8 * i, Sparse.get (8 * k + i) v (8 * k + i)))
  else if k = 16 then packFields ((List.range 7).map fun i => (8 * i, Sparse.get i p i))
  else 0

/-- Word k of a trap-register file (R169). -/
def TrapRegs.word (t : TrapRegs) (k : Nat) : Nat :=
  match k with
  | 0 => t.cause.toNat
  | 1 => t.pc.toNat
  | 2 => t.slot.toNat
  | 3 => t.mask.toNat
  | 4 => t.path.toNat
  | 5 => t.info0.toNat
  | 6 => t.info1.toNat
  | 7 => t.info2.toNat
  | 8 => t.info3.toNat
  | _ => t.time.toNat

/-- Word k of the trap context (R409). -/
def Group.ctxWord (g : Group) (k : Nat) : Nat :=
  let c := g.ctx
  if k < 4 then c.slot0.word k
  else if k < 8 then c.slot1.word (k - 4)
  else if 15 ≤ k ∧ k < 19 then predWord c.preds 7 (k - 15)
  else match k with
    | 8 => c.meld.word.toNat
    | 9 => c.mm.toNat
    | 10 => c.s0.toNat
    | 11 => c.s1.toNat
    | 12 => c.s2.toNat
    | 13 => c.s3.toNat
    | 14 => c.word.toNat
    | 19 => packFields ((List.range 5).map fun i => (i, b2n (g.reports.any fun r => r.bit = i)))
    | 20 => c.q.toNat
    | _ => 0

/-- Word k of a hold entry (R378). -/
def Hold.word (h : Hold) (k : Nat) : Nat :=
  match k with
  | 0 => packFields [(0, h.reg), (7, 1), (8, b2n h.held), (32, h.hmask.toNat)]
  | 1 => packFields [(0, h.arr.toNat), (32, h.conf.toNat)]
  | 2 => h.stamp
  | _ => 0

/-- Word k of a group context (R228); the split area holds the oldest entry first (log 16). -/
def groupWord (d : Dev) (b : Block) (g : Group) (k : Nat) : Nat :=
  if k < 0x04 then g.slot0.toPath.word k
  else if k < 0x08 then g.slot1.toPath.word (k - 4)
  else if k < 0x0A then 0
  else if k < 0x10 then match k with
    | 0x0A => g.mm.toNat
    | 0x0B => g.meld.word.toNat
    | 0x0C => g.rsstat.toNat
    | 0x0D => (forkstatOf d b).toNat
    | 0x0E => (twinqOf d b).toNat
    | _ => packFields [(0, g.q.toNat), (8, g.stack.length)]
  else if k < 0x1A then g.trap.word (k - 0x10)
  else if k < 0x40 then g.ctxWord (k - 0x1A)
  else if k < 0x80 then (Sparse.get 0 g.s (k - 0x40)).toNat
  else if k < 0x84 then predWord g.p 8 (k - 0x80)
  else if k < 0xA0 then 0
  else if k < 0xC0 then mapWord g.mapA g.mapPA (k - 0xA0)
  else if k < 0xE0 then mapWord g.mapB g.mapPB (k - 0xC0)
  else if k < 0x100 then (g.holds[(k - 0xE0) / 4]?.map fun h => h.word (k % 4)).getD 0
  else if k < 0x200 then (g.stack.reverse[(k - 0x100) / 4]?.map fun p => p.word (k % 4)).getD 0
  else packFields [(0, (Sparse.get 0 g.v (2 * (k - 0x200))).toNat), (32, (Sparse.get 0 g.v (2 * (k - 0x200) + 1)).toNat)]

/-! ## The image of a block (R226, R227) -/

/-- The save keeps vector register r of a group: all, or with a handler v0 to v(PKEEP - 1) and those with a hold entry (R226,
R245). -/
def Block.keepsReg (b : Block) (g : Group) (r : Nat) : Bool :=
  !b.partialSave || decide (r < b.shape.pkeep) || g.holds.any fun h => h.reg = r

/-- Bytes 8k to 8k + 7 of a claimed tile slot and its side store (R132, R227). -/
def Tile.word (t : Tile) (k : Nat) : Nat :=
  let of := fun (x : Table Byte) (o : Nat) => natOf ((List.range 8).map fun i => Sparse.get 0 x (8 * o + i))
  if k < 512 then of t.bytes k
  else if k < 528 then packFields ((List.range 8).map fun i => (8 * i, inBits 8 (Sparse.get 0 t.exps (8 * (k - 512) + i))))
  else if t.map = [] then of t.masks (k - 528) else of t.map (k - 528)

/-- Bytes of scratchpad that a save keeps (R226). -/
def Block.keptScratch (b : Block) : Nat := if b.partialSave then b.shape.pscr else roundUp b.shape.scrb 4096

/-- Word k of the parts after the group contexts: scratchpad, accumulator tiles, tile slots (R227). -/
def Block.bulkWord (b : Block) (k : Nat) : Nat :=
  let scr := roundUp b.shape.scrb 4096 / 8
  if k < scr then natOf ((List.range 8).map fun i => Sparse.get 0 b.scratch (8 * k + i))
  else if k - scr < 2048 * b.shape.accs then
    let a := 2 * (k - scr)
    packFields [(0, (Sparse.get 0 b.seq.acc a).toNat), (32, (Sparse.get 0 b.seq.acc (a + 1)).toNat)]
  else
    let o := k - scr - 2048 * b.shape.accs
    ((b.seq.tiles.find? fun t => t.1 = o / 656).map fun t => t.2.word (o % 656)).getD 0

/-- Bytes 8k to 8k + 7 of a block's save area (R227). -/
def saveWord (d : Dev) (b : Block) (k : Nat) : Nat :=
  if k < 0x200 then headWord d b k
  else if k < 0x200 + 0xA00 * b.shape.groups then
    ((b.groups.find? fun g => g.idx = (k - 0x200) / 0xA00).map fun g => groupWord d b g ((k - 0x200) % 0xA00)).getD 0
  else b.bulkWord (k - 0x200 - 0xA00 * b.shape.groups)

/-- What a save writes of the area: offsets and lengths (R148, R226-R228). -/
def Block.saveSpans (b : Block) : List (Nat × Nat) :=
  let bulk := 0x1000 + 0x5000 * b.shape.groups
  let acc := bulk + roundUp b.shape.scrb 4096
  [(0, 0x1000)] ++
    (b.groups.flatMap fun g => (0x1000 + 0x5000 * g.idx, 0x1000) ::
      ((List.range b.shape.vregs).filter (b.keepsReg g)).map fun r => (0x2000 + 0x5000 * g.idx + 128 * r, 128)) ++
    [(bulk, b.keptScratch), (acc, 0x4000 * b.shape.accs)] ++
    b.seq.tiles.map fun t => (acc + 0x4000 * b.shape.accs + 5248 * t.1, 5248)

/-- The block's context is in its save area, not on a core. -/
def Block.inArea (b : Block) : Bool := b.state = .saved || b.state = .evicted || b.state = .moving

/-- What the part itself keeps at an offset of a block's area: the control record always, the rest while it is saved (R219,
R227). -/
def Block.areaHolds (b : Block) (off : Nat) : Bool :=
  decide (off < 64) || b.inArea && b.saveSpans.any fun s => decide (s.1 ≤ off ∧ off < s.1 + s.2)

/-- The byte at a physical address that a save area of this package holds, with the key it is encrypted under (R227). -/
def savedByte (d : Dev) (pa : Nat) : Option (Nat × Byte) :=
  (d.blocks.find? fun b => b.loc = d.pkg && decide (b.saveAddr ≤ pa ∧ pa < b.saveAddr + b.saveLen) && b.areaHolds (pa - b.saveAddr)).map
    fun b =>
      let o := pa - b.saveAddr
      (keyOf d b.shape.owner, BitVec.ofNat 8 (saveWord d b (o / 8) / 2 ^ (8 * (o % 8))))

/-! ## What stays in memory when a block leaves its area -/

/-- Home memory with n bytes at an address replaced. -/
def Memory.splice (m : Memory) (lo : Nat) (l : List Byte) : Memory :=
  (m.filter fun c => decide (c.1 < lo)) ++ (l.zipIdx.filterMap fun e => if e.1 = Memory.empty then none else some (lo + e.2, e.1)) ++
    m.filter fun c => decide (lo + l.length ≤ c.1)

/-- A span of a save area as bytes. -/
def spanBytes (d : Dev) (b : Block) (s : Nat × Nat) : List Byte :=
  (List.range (s.2 / 8)).flatMap fun i => bytesOf (saveWord d b (s.1 / 8 + i)) 8

/-- A span of the area stands in memory, under the owner's key and without poison (R227, R265). -/
def storeSpan (d : Dev) (b : Block) (s : Nat × Nat) : Dev :=
  let lo := b.saveAddr + s.1
  let secs := (List.range (s.2 / 32)).map fun i => lo / 32 + i
  { d with
    mem := Memory.splice d.mem lo (spanBytes d b s)
    keys := secs.foldl (fun t x => Sparse.put 0 t x (keyOf d b.shape.owner)) d.keys }

/-- The bytes of a saved block stay in its area when it leaves it (R227). -/
def leaveArea (d : Dev) (b : Block) : Dev :=
  if b.inArea && b.loc = d.pkg then b.saveSpans.foldl (fun d s => storeSpan d b s) d else d

/-- A save writes its spans whole, which ends their poison (R227, R265). -/
def clearArea (d : Dev) (b : Block) : Dev :=
  { d with bad := d.bad.filter fun e => !b.saveSpans.any fun s =>
      decide (b.saveAddr + s.1 < 32 * e.1 + 32 ∧ 32 * e.1 < b.saveAddr + s.1 + s.2) }

/-- A poisoned sector lies in what the block's save area holds (R420). -/
def saveBad (d : Dev) (b : Block) : Bool :=
  d.bad.any fun e => b.saveSpans.any fun s => decide (b.saveAddr + s.1 < 32 * e.1 + 32 ∧ 32 * e.1 < b.saveAddr + s.1 + s.2)

end Sys2Proof.Machine
end

