-- ==== Sys2Proof/Machine/Units.lean ====
section
/-! DEFINITION. Which block and group is focused, and the end of a unit: what a discarded block gives back (23 R417,
R419), termination records (R418), discarded forks (15 R320, R325), revoked registrations (16 R345). -/

namespace Sys2Proof.Machine

open Sys2Proof

/-! ## Focus (log 4) -/

/-- The blocks with one more, in increasing key. -/
def putBlock (l : List Block) (b : Block) : List Block := insertBy (fun x y => decide (x.key ≤ y.key)) b l

/-- The focused group and block go back to their places. -/
def State.unfocus (s : State) : State :=
  if s.focused then
    let b := { s.blk with groups := insertBy (fun x y => decide (x.idx ≤ y.idx)) s.grp s.blk.groups }
    { s with focused := false, onStream := false, k := false, grp := {}, blk := {}, dev := { s.dev with blocks := putBlock s.dev.blocks b } }
  else s

/-- An event whose condition does not hold does not occur: nothing changes (log 4). -/
def State.noEvent (s : State) : Res := .next s.unfocus

/-- Slot k of group g of block b comes into focus, if there is such a group. -/
def State.focus (s : State) (b g : Nat) (k : Bool) : Option State :=
  let s := s.unfocus
  match findBlock s.dev b with
  | none => none
  | some x => match x.groups.find? fun y => y.idx = g with
    | none => none
    | some y => some { s with
        focused := true, k := k, grp := y
        blk := { x with groups := dropFirst x.groups fun z => z.idx = g }
        dev := { s.dev with blocks := dropFirst s.dev.blocks fun z => z.key = b } }

/-! ## What a block gives back -/

/-- One object ends: its dirty sectors go to their homes (R256). -/
def endObj (d : Dev) (o : Obj) : Dev :=
  let d := writeBackIf d fun x => x.cluster = o.cluster && x.key = o.key && inObj o (x.sector / 4) x.key
  { d with objs := dropFirst d.objs fun x => x = o }

/-- Every object of a block ends (R257). -/
def releaseObjs (d : Dev) (b : Nat) : Dev := (d.objs.filter fun o => o.block = b).foldl endObj d

/-- A block's registrations are revoked: the channel remembers its BLIN (R345). -/
def revokeAll (d : Dev) (b blin : Nat) : Dev :=
  { d with channels := d.channels.map fun c =>
      if c.members.contains b then { c with members := c.members.filter (· ≠ b), revoked := c.revoked ++ [blin] } else c }

/-- Tiles that a neighbour lent to a block go back (R129). -/
def returnLent (d : Dev) (b : Block) : Dev :=
  match b.seq.res with
  | .neighbour e => { d with lent := Sparse.upd 0 d.lent e (· - b.shape.accs) }
  | .none | .home => d

/-- A save area of this package goes back to the pool (R227). -/
def freeSave (d : Dev) (b : Block) : Dev :=
  if b.loc ≠ d.pkg then d else
  modPart d b.shape.owner fun p => { p with saves := dropFirst p.saves fun a => a = (b.saveAddr, b.saveLen) }

/-- A block leaves the package with everything it holds (R417 steps 2 to 5); the stores of a child are then at their homes (R318).
Its jobs go on: as orphans of a discarded block, or for a block that retired (R340). -/
def dropBlock (d : Dev) (b : Nat) (orphan : Bool := true) : Dev :=
  match findBlock d b with
  | none => d
  | some x =>
    let d := if x.child.isSome then releaseAt d x.cluster .sys else d
    let d := releaseObjs d b
    let d := retireNames d x
    let d := revokeAll d b x.blin
    let d := returnLent d x
    let d := freeSave (leaveArea d x) x
    { d with
      jobs := modIf d.jobs (fun j => j.block = b) fun j => { j with orphan := j.orphan || orphan, origin := some x }
      outstanding := d.outstanding.filter fun o => o.block ≠ b
      joins := d.joins.filter fun j => j.1 ≠ b
      formDone := d.formDone.filter fun f => f.block ≠ b
      blocks := d.blocks.filter fun y => y.key ≠ b }

/-- The Sidings pages of a list of shadows go back. -/
def freePages (d : Dev) (o l : Nat) (ps : List (Nat × Shadow)) : Dev := ps.foldl (fun d e => freePage d o l e.2) d

/-- The package on which child i of a fork that spans packages runs (R309). -/
def Fork.awayPkg (f : Fork) (d : Dev) (i : Nat) : Nat :=
  let pod := ((partOf d f.owner).map (·.pod)).getD []
  nth d.pkg pod (i % max 1 pod.length)

/-- Every page of a fork goes back and the fork is forgotten. -/
def freeFork (d : Dev) (f : Fork) : Dev :=
  let d := f.children.foldl (fun d c => freePages d f.owner f.launch c.shadows) d
  let d := freePages d f.owner f.launch f.twins
  { d with forks := d.forks.filter fun x => x.block ≠ f.block }

/-- A block is discarded, with its open fork, that fork's children and their descendants (R320, R325); forks nest at
most eight deep, so nine levels reach every one. -/
def discardBlock : Nat → Dev → Nat → Dev
  | 0, d, _ => d
  | n + 1, d, b =>
    let d := match forkOf d b with
      | none => d
      | some f =>
        let d := f.children.foldl (fun d c => match c.state with
          | .running x => discardBlock n d x
          | .away => sendPacket d (mkPacket d (f.awayPkg d c.idx) f.owner 1 (.childNews b c.idx c.runs 3))
          | _ => d) d
        match forkOf d b with
        | none => d
        | some f => freeFork d f
    dropBlock d b

/-- The job belongs to child i of the fork of block b, or to a descendant of that child. -/
def Job.under (j : Job) (b i : Nat) : Bool := j.chain.any fun c => c.1 = b && c.2 = i

/-- News of a child to the package where it runs, or from there to that of the forking block (R309). -/
def childSay (d : Dev) (dst o b i run what : Nat) : Dev := sendPacket d (mkPacket d dst o 1 (.childNews b i run what))

/-- The package on which child i of a fork runs (R309). -/
def Fork.pkgOf (f : Fork) (d : Dev) (i : Nat) : Nat :=
  if f.fr.domain = 4 then f.awayPkg d i else d.pkg

/-- Children lo to hi - 1 of the fork of block b that are neither merged nor lost are discarded: their blocks end, also on other
packages, their shadows go back, their descendants go with them, their jobs go on as orphans (R320, R340). -/
def discardChildren (d : Dev) (b lo hi : Nat) : Dev :=
  match forkOf d b with
  | none => d
  | some f => f.children.foldl (fun d c =>
      if decide (lo ≤ c.idx) && decide (c.idx < hi) && c.state != .merged && c.state != .lost then
        let d := match c.state with
          | .running x => discardBlock 9 d x
          | .away => childSay d (f.pkgOf d c.idx) f.owner b c.idx c.runs 3
          | _ => d
        let d := freePages d f.owner f.launch (((forkOf d b).bind (·.child c.idx)).map (·.shadows) |>.getD [])
        let d := { d with jobs := modIf d.jobs (fun j => j.under b c.idx) fun j => { j with orphan := true } }
        modFork d b fun f => f.modChild c.idx fun c => { c with state := .discarded, shadows := [] }
      else d) d

/-! ## The end of a launch or child -/

/-- The blocks of a launch, its forks' children among them. -/
def launchBlocks (d : Dev) (l : Nat) : List Block := d.blocks.filter fun b => b.launch = l

/-- The other packages that run blocks of a launch are told that it ends, and so is the one that accepted it (log 25). -/
def tellStop (d : Dev) (l : Launch) (status : Nat) (cause : BitVec 8) : Dev :=
  let say := fun d pkg home key => sendPacket d (mkPacket d pkg l.lr.owner 0 (.launchStop home key status cause))
  let d := if l.told then l.shares.foldl (fun d x => if x.ended then d else say d x.pkg d.pkg l.key) d else d
  let d := (d.blocks.filter fun b => b.launch = l.key && b.loc != d.pkg && b.state = .saved).foldl (fun d b => say d b.loc d.pkg l.key) d
  match l.away with
  | some h => say d h.1 h.1 h.2
  | none => d

/-- The launch ends with a status and cause: its blocks are discarded, its collectives aborted, its jobs write no more;
the completion word follows when its jobs have ended (R417, R223). -/
def endLaunch (d : Dev) (l status : Nat) (cause : BitVec 8) : Dev :=
  let d := match findLaunch d l with
    | some x => tellStop d x status cause
    | none => d
  let d := abortOfLaunch d l
  let d := (launchBlocks d l).foldl (fun d b => discardBlock 9 d b.key) d
  let d := (d.forks.filter fun f => f.launch = l && f.home.isSome).foldl freeFork d
  let d := { d with
    binds := d.binds.filter fun e => e.2.launch ≠ l || e.2.state = 0
    jobs := modIf d.jobs (fun j => j.launch = l) fun j => { j with dropped := true } }
  modLaunch d l fun x => { x with
    state := .ending, status := status, cause := cause, shares := if x.told then x.shares else [] }

/-- A fork child is lost: its block, descendants and forks go, their jobs write no more, its shadows are freed unread
(R419). -/
def loseChild (d : Dev) (b : Nat) (c : ChildOf) : Dev :=
  let d := discardBlock 9 d b
  let d := { d with jobs := modIf d.jobs (fun j => j.under c.parent c.idx) fun j => { j with dropped := true } }
  match forkOf d c.parent with
  | none => d
  | some f => match f.home with
  | some (src, p, run) => freeFork (childSay d src f.owner p c.idx run 0) f
  | none =>
    let d := freePages d f.owner f.launch ((f.child c.idx).map (·.shadows) |>.getD [])
    modFork d c.parent fun f => f.modChild c.idx fun c => { c with state := .lost, shadows := [] }

/-! ## Termination records (R418) -/

/-- What a termination record says beyond its trap registers. -/
structure Ending where
  gidx : Nat
  agent : Nat
  unit : Nat
  double : Bool
  deriving DecidableEq, Repr

/-- The bytes of a termination record; STAMP is written when the record is posted (R418). -/
def terminationBytes (b : Block) (t : TrapRegs) (e : Ending) : List Byte :=
  bytesOf t.pc.toNat 8 ++ bytesOf t.time.toNat 8 ++ bytesOf b.launchId.toNat 8 ++ bytesOf 0 4 ++
    bytesOf b.shape.owner 2 ++ bytesOf 4 1 ++ bytesOf t.cause.toNat 1 ++ bytesOf e.agent 1 ++
    bytesOf t.path.toNat 1 ++ bytesOf e.unit 2 ++ bytesOf t.mask.toNat 4 ++ bytesOf t.info1.toNat 8 ++
    bytesOf 0 2 ++ bytesOf b.blin 4 ++ bytesOf e.gidx 1 ++
    bytesOf (b2n b.child.isSome + 2 * b2n e.double) 1 ++ bytesOf t.info0.toNat 8

/-- A termination record waits for a slot of its function's fault ring, or is dropped with an error record when the
queue is disabled (R418). -/
def terminate (d : Dev) (b : Block) (t : TrapRegs) (e : Ending) : Dev :=
  let fn := b.fn
  if (Sparse.get {} d.funcs fn).fq.enabled then
    let r : RingRec := { tag := 0, term := true, bytes := terminationBytes b t e, since := d.time, launch := b.launch,
                         part := fn }
    modFn d fn fun f => { f with fq := { f.fq with waiting := f.fq.waiting ++ [r] } }
  else postError d 10 fn b.core 1 b.launchId.toNat

/-- The unit that holds a block ends: the launch FAULTED, or the child lost (R406, R417, R419). -/
def endUnit (d : Dev) (b : Block) (t : TrapRegs) (e : Ending) : Dev :=
  let d := terminate d b t e
  match b.child with
  | some c => loseChild d b.key c
  | none => endLaunch d b.launch 5 t.cause

end Sys2Proof.Machine
end

