-- ==== Sys2Proof/Machine/Ops.lean ====
section
/-! DEFINITION. The named operations every instruction is written over: taking a trap and returning from it (23
R406-R416), the scoreboard, holds and poison tags that an operand meets (02 R28, 11 R238, 13 R271), counted
operations (02 R26-R27), and what a lane or uniform instruction does once its operands are ready. -/

namespace Sys2Proof.Machine

open Sys2Proof

/-! ## Cause codes (R407) -/

def cILLEGAL_INSTRUCTION : Cause := 0x01
def cILLEGAL_CLAUSE : Cause := 0x02
def cILLEGAL_OPERAND : Cause := 0x03
def cMELD_VIOLATION : Cause := 0x04
def cREJOIN_DEADLOCK : Cause := 0x05
def cSPLIT_STACK_OVERFLOW : Cause := 0x06
def cMEMBER_MASK : Cause := 0x07
def cSCRATCH_BOUNDS : Cause := 0x10
def cMISALIGNED : Cause := 0x11
def cATOMIC_SPACE : Cause := 0x14
def cPOISON_CONSUMED : Cause := 0x15
def cFABRIC_TIMEOUT : Cause := 0x16
def cREMOTE_DENIED : Cause := 0x17
def cFORK_PARENT_WRITE : Cause := 0x20
def cVIEW_CONFLICT : Cause := 0x21
def cTWIN_POOL_EXHAUSTED : Cause := 0x22
def cNONDETERMINISTIC_OP : Cause := 0x24
def cREMOTE_CONFLICT : Cause := 0x30
def cNAME_INVALID : Cause := 0x31
def cPREEMPT : Cause := 0x40
def cUSER_TRAP : Cause := 0x48
def cBREAKPOINT : Cause := 0x49
def cMATRIX_SLOT : Cause := 0x50
def cMATRIX_RESERVATION : Cause := 0x51
def cCOPY_DESCRIPTOR : Cause := 0x58
def cMULTICAST_REGISTRATION : Cause := 0x59

/-! ## Taking a trap (R408-R412) -/

/-- A mask as a double word. -/
def Mask.dw (m : Mask) : DWord := m.setWidth 64

/-- The word in execution, as TRAPINFO0 records it (R52). -/
def State.wordInfo (s : State) : DWord := s.word.setWidth 64

/-- What a trap reports beyond its place and time: cause, lanes, path, information, and whether `rft` goes on after
the instruction (R407). -/
structure Raise where
  cause : Cause
  mask : Mask
  path : BitVec 2
  info0 : DWord := 0
  info1 : DWord := 0
  info2 : DWord := 0
  info3 : DWord := 0
  next : Bool := false
  deriving DecidableEq, Repr

/-- The trap context saved for the trapping group (R409): both slots, the trapping slot at TRAPPC. -/
def Group.savedContext (g : Group) (q : TrapReq) : TrapCtx :=
  let p0 := g.slot0.toPath
  let p1 := g.slot1.toPath
  { slot0 := if q.pslot then p0 else { p0 with pcw := q.regs.pc }
    slot1 := if q.pslot then { p1 with pcw := q.regs.pc } else p1
    pslot := q.pslot, meld := g.meld, mm := g.mm
    stags := g.stags.filter fun e => decide (e.1 < 4)
    s0 := Sparse.get 0 g.s 0, s1 := Sparse.get 0 g.s 1, s2 := Sparse.get 0 g.s 2, s3 := Sparse.get 0 g.s 3
    q := g.q, preds := g.p.filter fun e => decide (e.1 < 7)
    mapA := g.mapA, mapB := g.mapB, mapPA := g.mapPA, mapPB := g.mapPB
    inh := true, next := q.next, preq := g.preempt.isSome, depth := g.stack.length }

/-- The group at the first clause of its handler (R408). -/
def Group.enterHandler (g : Group) (q : TrapReq) (handler : DWord) : Group :=
  { g with
    ctx := g.savedContext q
    trap := q.regs
    trapReq := none
    slot0 := { pc := handler, act := g.live }
    slot1 := {}
    mm := g.live
    meld := {} }

/-- A trap whose counted operations have completed is taken: the group enters its handler, or, with none or inside
one, its unit ends (R406, R408, R411). -/
def State.takeTrap (s : State) (q : TrapReq) : State :=
  if s.grp.ctx.inh || s.blk.shape.handler = 0 then
    let b := s.blk
    let e : Ending := ⟨s.grp.idx, 0, b.core, s.grp.ctx.inh⟩
    s.unfocus.onDev fun d => endUnit d b q.regs e
  else s.onGrp fun g => g.enterHandler q s.blk.shape.handler

/-- A pending trap is taken once every counted operation of the group has completed (R408). -/
def State.tryTrap (s : State) : State :=
  match s.grp.trapReq with
  | none => s
  | some q => if s.grp.pend = [] then s.takeTrap q else s

/-- The issuing slot traps at address pc: the group stops and enters its handler when its counted operations have
completed (R408). -/
def State.raiseAt (s : State) (pc : DWord) (r : Raise) : State :=
  let t : TrapRegs := ⟨r.cause, pc, BitVec.ofNat 3 (pc.toNat / 4), r.mask, r.path, r.info0, r.info1, r.info2, r.info3,
                       dw s.dev.time⟩
  let s := s.onGrp fun g => { g with trapReq := some ⟨s.k, t, r.next⟩ }
  (s.waitFor .trap).tryTrap

/-- The issuing slot traps at its instruction. -/
def State.raise (s : State) (r : Raise) : State := s.raiseAt s.slot.pc r

/-- TRAPPATH of a trap that depends on no lane (R188). -/
def State.wholePath (s : State) : BitVec 2 :=
  if s.inRegion then match s.meldField with
    | 2 => 1
    | 3 => 2
    | _ => 0
  else 0

/-- The lanes that a lane-dependent trap is taken for, and TRAPPATH: path A's faulting lanes first (R188). -/
def State.trapLanes (s : State) (bad : Mask) : Mask × BitVec 2 :=
  if s.inRegion then match s.meldField with
    | 2 => (bad, 1)
    | 3 => (bad, 2)
    | _ => if bad &&& ~~~ s.grp.meld.bmask != 0 then (bad &&& ~~~ s.grp.meld.bmask, 1) else (bad, 2)
  else (bad, 0)

/-- A trap for the lanes of `bad`, whose information depends on the lanes it is taken for (R188). -/
def State.trapLane (s : State) (c : Cause) (bad : Mask) (info : Mask → DWord × DWord × DWord) : State :=
  let m := s.trapLanes bad
  let i := info m.1
  s.raise { cause := c, mask := m.1, path := m.2, info0 := s.wordInfo, info1 := i.1, info2 := i.2.1, info3 := i.2.2 }

/-- A trap for the lanes of `bad` whose TRAPINFO0 is the word and TRAPINFO1 as given. -/
def State.trapLane1 (s : State) (c : Cause) (bad : Mask) (i1 : DWord) : State := s.trapLane c bad fun _ => (i1, 0, 0)

/-- A trap that depends on no lane, with a mask of its own (R188). -/
def State.trapMask (s : State) (c : Cause) (m : Mask) (i0 i1 i2 i3 : DWord) : State :=
  s.raise { cause := c, mask := m, path := s.wholePath, info0 := i0, info1 := i1, info2 := i2, info3 := i3 }

/-- A trap that depends on no lane: TRAPMASK is the slot's whole active mask (R188). -/
def State.trapAll (s : State) (c : Cause) (i0 i1 : DWord) : State := s.trapMask c s.slot.act i0 i1 0 0

/-- A trap that leaves the instruction without effect, TRAPINFO0 the word. -/
def State.violation (s : State) (c : Cause) : State := s.trapAll c s.wordInfo 0

/-- A write of FMT in a path-only clause of a region (R80). -/
def State.pathOnly (s : State) : Bool := s.inRegion && 2 ≤ s.meldField

/-- ILLEGAL_OPERAND of a uniform instruction at execution. -/
def State.badOperand (s : State) (i1 : DWord) : State := s.trapAll cILLEGAL_OPERAND s.wordInfo i1

/-! ## Returning from a trap (R416) -/

/-- A saved slot restored with the lanes that have not exited. -/
def Path.restore (p : Path) (x : Mask) : Slot := { p.toSlot with act := p.act &&& x }

/-- The address at which the trapping slot resumes (R416). -/
def Group.resumeAt (g : Group) : DWord := if g.ctx.next then g.trap.pc + 4 else g.trap.pc

/-- `rft` goes on in another clause than the one that trapped, so that what its slot had due takes effect (R183, R186). -/
def Group.resumesNext (g : Group) : Bool :=
  let at' := (if g.ctx.pslot then g.ctx.slot1 else g.ctx.slot0).pcw
  g.resumeAt.toNat / 32 != at'.toNat / 32

/-- What a slot has due at the end of its clause takes effect and is due no longer. -/
def Group.settleSlot (g : Group) (k : Bool) : Group :=
  (g.settle k (g.slot k).due).onSlot k fun x => { x with due := {} }

/-- The group after `rft`: slots, region, tables, member mask, s0-s3, predicates as at the trap; split-stack entries above
DEPTH discarded (R188, R416). -/
def Group.returned (g : Group) : Group :=
  let x := g.live
  let at' := fun (sl : Slot) => if g.resumeAt = sl.pc then sl else { sl with pc := g.resumeAt, micro := 0 }
  let a := g.ctx.slot0.restore x
  let b := g.ctx.slot1.restore x
  let g' := { g with
    stack := g.stack.take g.ctx.depth
    slot0 := if g.ctx.pslot then a else at' a
    slot1 := if g.ctx.pslot then at' b else b
    meld := { g.ctx.meld with bmask := g.ctx.meld.bmask &&& x }
    mm := g.ctx.mm &&& x
    q := g.ctx.q
    p := (g.ctx.preds.filter fun (e : Nat × Mask) => decide (e.1 < 7)) ++ g.p.filter fun (e : Nat × Mask) => decide (7 ≤ e.1)
    mapA := g.ctx.mapA, mapB := g.ctx.mapB, mapPA := g.ctx.mapPA, mapPB := g.ctx.mapPB
    ctx := { g.ctx with inh := false, preq := false } }
  let g' := (((g'.setS 0 g.ctx.s0).setS 1 g.ctx.s1).setS 2 g.ctx.s2).setS 3 g.ctx.s3
  let g' := { g' with stags := g.ctx.stags ++ g.stags.filter fun (e : Nat × Tag) => decide (4 ≤ e.1) }
  let g' := if g.resumesNext then g'.settleSlot g.ctx.pslot else g'
  (g'.fill false).fill true

/-! ## Operands (R28, R187, R238, R271) -/

/-- An operand of an instruction: n vector registers from r, a lane predicate, n uniform registers from r. -/
inductive Opnd where
  | v (r n : Nat)
  | p (r : Nat)
  | s (r n : Nat)
  deriving DecidableEq, Repr

/-- n vector registers from r on, each an operand by itself (R119, R187). -/
def eachV (r n : Nat) : List Opnd := (List.range n).map fun i => .v (r + i) 1

/-- The lanes that use path B's table in the clause (R184). -/
def State.lanesB (s : State) : Mask :=
  if s.renamed then match s.meldField with
    | 2 => 0
    | 3 => BitVec.allOnes 32
    | _ => s.grp.meld.bmask
  else 0

/-- The vector registers that the lanes of T use for name r, with their lanes. -/
def State.physV (s : State) (T : Mask) (r : Nat) : List (Mask × Nat) :=
  if s.renamed then
    List.filter (fun (e : Mask × Nat) => e.1 != 0)
      [(T &&& ~~~ s.lanesB, Sparse.get r s.grp.mapA r), (T &&& s.lanesB, Sparse.get r s.grp.mapB r)]
  else if T = 0 then [] else [(T, r)]

/-- Lanes of T for which the registers named r to r + n - 1 are not a run that starts as R187 asks; R187 speaks
of pairs, and the four registers of a 16-byte access are taken in the same way (log 37). -/
def State.badRun (s : State) (T : Mask) (r n : Nat) : Mask :=
  if n < 2 || !s.renamed then 0 else
    maskOf fun L => inM T L && (s.vname L r % 2 = 1 ||
      (List.range n).any fun i => s.vname L (r + i) != s.vname L r + i)

/-- Lanes of T with a badly renamed pair among the operands (R187). -/
def State.badNames (s : State) (T : Mask) (os : List Opnd) : Mask :=
  os.foldl (fun m o => match o with
    | .v r n => m ||| s.badRun T r n
    | .p _ | .s _ _ => m) 0

/-- The registers that the lanes of T use for the vector operands, with their lanes. -/
def State.regsOf (s : State) (T : Mask) (os : List Opnd) : List (Mask × Nat) :=
  os.flatMap fun o => match o with
    | .v r n => (List.range n).flatMap fun i => s.physV T (r + i)
    | .p _ | .s _ _ => []

/-- The keys of the vector register words among the operands. -/
def State.vkeysOf (s : State) (T : Mask) (os : List Opnd) : List Nat :=
  (s.regsOf T os).flatMap fun e => (lanesOf e.1).map fun L => 32 * e.2 + L

/-- The lane predicates that the lanes of T use for the operands. -/
def State.pkeysOf (s : State) (T : Mask) (os : List Opnd) : List Nat :=
  os.flatMap fun o => match o with
    | .p r => (lanesOf T).map fun L => s.pname L r
    | .v _ _ | .s _ _ => []

/-- The uniform registers among the operands. -/
def skeysOf (os : List Opnd) : List Nat :=
  os.flatMap fun o => match o with
    | .s r n => (List.range n).map fun i => r + i
    | .v _ _ | .p _ => []

/-- A counted operation still to complete writes one of the operands (R28). -/
def State.pendingOn (s : State) (T : Mask) (os : List Opnd) : Bool :=
  s.grp.pend.any fun e =>
    (s.vkeysOf T os).any (e.vkeys.contains ·) || (s.pkeysOf T os).any (e.pkeys.contains ·) ||
      (skeysOf os).any (e.skeys.contains ·)

/-- The flag of a counted operation that writes one of the operands is named in WAIT (R28). -/
def State.missed (s : State) (T : Mask) (os : List Opnd) : Bool :=
  s.grp.pend.any fun e =>
    ((s.vkeysOf T os).any (e.vkeys.contains ·) || (s.pkeysOf T os).any (e.pkeys.contains ·) ||
      (skeysOf os).any (e.skeys.contains ·)) && (decide (12 ≤ e.flag) || !bitOf s.header e.flag)

/-- The issuing slot stalls on a register whose write is pending; a read counts in FLAGMISS when it begins to stall on a
flag its clause did not wait for (R28). -/
def State.stallPending (s : State) (T : Mask) (rd : List Opnd) : State :=
  let s := if s.slot.wait != .register && s.missed T rd then
      s.onDev fun d => { d with flagMiss := Sparse.upd 0 d.flagMiss s.blk.core (· + 1) }
    else s
  s.waitFor .register

/-- A hold entry is complete (R236). -/
def Hold.complete (h : Hold) : Bool := h.held && h.hmask &&& ~~~ h.arr == 0

/-- The hold entry of register x (R236). -/
def Group.holdOf (g : Group) (x : Nat) : Option Hold := g.holds.find? fun h => h.reg = x

/-- The group without the hold entry of register x. -/
def Group.endHold (g : Group) (x : Nat) : Group := { g with holds := g.holds.filter fun h => h.reg ≠ x }

/-- The first operand register that has a hold entry which p selects. -/
def State.heldReg (s : State) (T : Mask) (os : List Opnd) (p : Hold → Bool) : Option (Mask × Hold) :=
  (s.regsOf T os).findSome? fun e => (s.grp.holdOf e.2).bind fun h => if p h then some (e.1, h) else none

/-- A read meets a refused delivery: the trap ends the entry (R238). -/
def State.trapRefused (s : State) (m : Mask) (h : Hold) : State :=
  let c := s.trapLanes m
  (s.onGrp fun g => g.endHold h.reg).raise
    { cause := cREMOTE_CONFLICT, mask := c.1, path := c.2, info0 := 1, info1 := dw h.reg, info2 := Mask.dw h.conf,
      info3 := dw h.stamp }

/-- A local write meets a hold entry (R238). -/
def State.trapLocalWrite (s : State) (m : Mask) (h : Hold) : State :=
  let c := s.trapLanes m
  s.raise { cause := cREMOTE_CONFLICT, mask := c.1, path := c.2, info0 := 4, info1 := dw h.reg }

/-- The lanes of T that read a tagged register word (R271). -/
def State.taggedLanes (s : State) (T : Mask) (rd : List Opnd) : Mask :=
  if s.grp.tags.isEmpty then 0 else
    maskOf fun L => (s.vkeysOf T rd).any fun k => k % 32 = L && s.grp.tags.any fun e => e.1 = k

/-- The poison tag of a lane's first tagged operand word. -/
def State.tagOf (s : State) (T : Mask) (rd : List Opnd) (L : Nat) : Option Tag :=
  (s.vkeysOf T rd).findSome? fun k => if k % 32 = L then (s.grp.tags.find? fun e => e.1 = k).map (·.2) else none

/-- The tag of the first tagged uniform operand (R281). -/
def State.stagOf (s : State) (rd : List Opnd) : Option Tag :=
  (skeysOf rd).findSome? fun k => (s.grp.stags.find? fun e => e.1 = k).map (·.2)

/-- A read of tagged register words traps (R271). -/
def State.trapTagged (s : State) (T bad : Mask) (rd : List Opnd) : State :=
  let m := s.trapLanes bad
  match s.tagOf T rd (lowest m.1) with
  | none => s
  | some t => s.raise { cause := t.cause, mask := m.1, path := m.2, info0 := s.wordInfo, info1 := t.addr,
                        info2 := dw t.pkg, info3 := dw t.stamp }

/-- A read of a tagged uniform register traps with TRAPMASK 0 (R281). -/
def State.trapUniformTag (s : State) (t : Tag) : State :=
  s.trapMask t.cause 0 s.wordInfo t.addr (dw t.pkg) (dw t.stamp)

/-- What keeps an instruction with these operands from being performed, as the state it leaves: a badly renamed pair
(R187), a refused delivery, an incomplete held register or a local write to a held one (R238), a pending register
(R28), a poison tag (R271, R281). -/
def State.blocked (s : State) (T : Mask) (rd wr : List Opnd) : Option State :=
  if T = 0 then none
  else if s.badNames T (rd ++ wr) != 0 then
    some (s.trapLane1 cILLEGAL_OPERAND (s.badNames T (rd ++ wr)) 0)
  else match s.heldReg T rd fun h => h.conf != 0 with
  | some e => some (s.trapRefused e.1 e.2)
  | none => match s.heldReg T rd fun h => h.held && !h.complete with
  | some e => some (s.waitFor (.held e.2.reg))
  | none => match s.heldReg T wr fun h => !(h.complete && (s.regsOf T rd).any fun e => e.2 = h.reg) with
  | some e => some (s.trapLocalWrite e.1 e.2)
  | none =>
    if s.pendingOn T rd then some (s.stallPending T rd)
    else if s.pendingOn T wr then some (s.waitFor .register)
    else if s.taggedLanes T rd != 0 then some (s.trapTagged T (s.taggedLanes T rd) rd)
    else (s.stagOf rd).map s.trapUniformTag

/-- Complete hold entries on registers that the instruction reads are consumed: they end, and the read is an acquire at
system scope (R238). -/
def State.consume (s : State) (T : Mask) (rd : List Opnd) : State :=
  let done := (s.regsOf T rd).filter fun e => s.grp.holds.any fun h => h.reg = e.2 && h.complete
  if done.isEmpty then s else
    { s with
      grp := done.foldl (fun g e => g.endHold e.2) s.grp
      dev := acquireAt s.dev s.blk.core s.blk.cluster .sys }

/-- An instruction whose operands are ready does `f`; otherwise the step leaves what `blocked` says. -/
def State.withOperands (s : State) (T : Mask) (rd wr : List Opnd) (f : State → Res) : Res :=
  match s.blocked T rd wr with
  | some t => .next t
  | none => f (s.consume T rd)

/-- A lane instruction that is not counted: f on the taking-part lanes, then the next slot (R30, R31). -/
def State.laneOp (s : State) (rd wr : List Opnd) (f : State → State) : Res :=
  s.withOperands s.part rd wr fun t => .next (f t).advance

/-- A uniform instruction that is not counted. -/
def State.uniOp (s : State) (rd wr : List Opnd) (f : State → State) : Res :=
  s.withOperands 1 rd wr fun t => .next (f t).advance

/-! ## Counted operations (R26, R27) -/

/-- A flag's count after a change; 12 and above name no flag (R23). -/
def Group.bump (g : Group) (flag : Nat) (f : Nat → Nat) : Group :=
  if flag < 12 then { g with flags := Sparse.upd 0 g.flags flag f } else g

/-- The flag that counts an operation of this clause, by SETA or SETB (R26). -/
def State.flagOf (s : State) (setA : Bool) : Nat := if setA then s.setA else s.setB

/-- The flag stands at 63, so that the operation stalls (R27). -/
def State.flagFull (s : State) (setA : Bool) : Bool :=
  decide (s.flagOf setA < 12) && decide (63 ≤ Sparse.get 0 s.grp.flags (s.flagOf setA))

/-- A counted operation issues: its flag rises and what it will write is noted (R26). -/
def State.count (s : State) (setA : Bool) (f : Pend → Pend) : State :=
  let e := f { id := s.dev.nextId, setA := setA, flag := s.flagOf setA, slot := b2n s.k }
  { s with
    grp := { s.grp.bump (s.flagOf setA) (· + 1) with pend := s.grp.pend ++ [e] }
    dev := { s.dev with nextId := s.dev.nextId + 1 } }

/-- A counted instruction: it stalls at a full flag, then on its operands; otherwise f (R26-R28). -/
def State.counted (s : State) (setA : Bool) (T : Mask) (rd wr : List Opnd) (f : State → Res) : Res :=
  if s.flagFull setA then .next (s.waitFor .flagFull) else s.withOperands T rd wr f

/-- What a counted operation writes when it completes (R26, R28): registers, predicates, tags, in that order. -/
def Group.land (g : Group) (e : Pend) : Group :=
  let g := e.vals.foldl (fun g x => g.setV x.1 x.2) g
  let g := { g with tags := e.tags.foldl (fun t (x : Nat × Tag) => Sparse.ins x.1 x.2 t) g.tags }
  let g := e.svals.foldl (fun g x => g.setS x.1 x.2) g
  let g := { g with stags := e.stags.foldl (fun t (x : Nat × Tag) => Sparse.ins x.1 x.2 t) g.stags }
  { g with p := e.preds.foldl (fun t (x : Nat × Mask × Mask) => Sparse.upd 0 t x.1 fun m => (m &&& ~~~ x.2.1) ||| (x.2.2 &&& x.2.1)) g.p }

/-- The group after the counted operation of an identifier completes: its writes land and its flag falls (R26). -/
def Group.complete (g : Group) (id : Nat) : Group :=
  match g.pend.find? fun e => e.id = id with
  | none => g
  | some e => ({ g.land e with pend := g.pend.filter fun x => x.id ≠ id }).bump e.flag (· - 1)

/-- Some counted operation of the issuing slot has not completed (R104). -/
def State.slotBusy (s : State) : Bool := s.grp.pend.any fun e => decide (e.slot = b2n s.k)

/-! ## Deferred reports (R271, R435) -/

/-- The pending report of the lowest DEFER bit that qualifies (R435). -/
def State.report (s : State) (p : Report → Bool) : Option Report :=
  if s.grp.ctx.inh then none else
    (s.grp.reports.filter p).foldl (fun b r => match b with
      | none => some r
      | some x => if r.bit < x.bit then some r else some x) none

/-- The trap of a pending report, with TRAPMASK 0 (R407, R435); `word` is TRAPINFO0 of a failed access (R271). -/
def Report.raise (r : Report) (path : BitVec 2) (word : DWord) : Raise :=
  { cause := r.cause, mask := 0, path := path, info0 := if 2 ≤ r.bit then word else r.info0, info1 := r.info1
    info2 := r.info2, info3 := r.info3 }

/-- The group without a report that is raised. -/
def State.dropReport (s : State) (r : Report) : State :=
  s.onGrp fun g => { g with reports := dropFirst g.reports fun x => x = r }

/-- A pending report is raised once at the issuing slot's instruction (R435). -/
def State.raiseReport (s : State) (r : Report) (word : DWord) : State :=
  (s.dropReport r).raise (r.raise s.wholePath word)

/-- The report is of a failed access by the issuing slot (R271, R420). -/
def State.ownAccess (s : State) (r : Report) : Bool := decide (2 ≤ r.bit) && decide (r.slot = b2n s.k)

/-- An instruction at which reports that p selects are raised first (R271). -/
def State.reporting (s : State) (p : Report → Bool) (f : State → Res) : Res :=
  match s.report p with
  | some r => .next (s.raiseReport r s.wordInfo)
  | none => f s

/-- A clause with this header names the flag of one of the accesses that a report stands for (R271). -/
def Report.namedBy (r : Report) (h : Nat) : Bool := (r.flag :: r.more).any fun f => decide (f < 12) && bitOf h f

/-- A report of a failure that is delivered later. Each stream halt and each failed job is reported (R146, R340); the failed
accesses of a slot have one report for each DEFER bit, with what the earliest left, at the flag of any of them (R271). -/
def Group.defer (g : Group) (r : Report) : Group :=
  if decide (2 ≤ r.bit) && g.reports.any fun x => x.bit = r.bit && x.slot = r.slot then
    { g with reports := modFirst g.reports (fun x => x.bit = r.bit && x.slot = r.slot) fun x =>
        { x with more := x.more ++ [r.flag] } }
  else { g with reports := g.reports ++ [r] }

/-! ## Guards of uniform instructions (R33) -/

/-- The guard of a UR or UB member holds (R33). -/
def State.holds (s : State) (g : QGuard) : Bool :=
  match g with
  | .always => true
  | .on q neg => s.rq q.val != neg

/-- A guarded uniform instruction: it has no effect where its guard fails (R33). -/
def State.guardedOp (s : State) (g : QGuard) (rd wr : List Opnd) (f : State → State) : Res :=
  if s.holds g then s.uniOp rd wr f else .next s.advance

end Sys2Proof.Machine
end

