-- ==== Sys2Proof/Machine/Operands.lean ====
section
/-! DEFINITION. Operand forms: the B operand of LR words and immediates of every class (02 R32, R33), register pairs
(R35), and the shapes of lane and uniform instructions over them. -/

namespace Sys2Proof.Machine

open Sys2Proof

/-! ## Immediates (R32, R33) -/

/-- IMM8 sign-extended to 32 bits. -/
def sx8 (i : BitVec 8) : Word := i.signExtend 32
/-- IMM8 zero-extended to 32 bits. -/
def zx8 (i : BitVec 8) : Word := i.setWidth 32
/-- IMM16 sign-extended to 32 bits. -/
def sx16 (i : BitVec 16) : Word := i.signExtend 32
/-- IMM10 sign-extended to 64 bits. -/
def sx10 (i : BitVec 10) : DWord := i.signExtend 64
/-- IMM10 zero-extended to 64 bits. -/
def zx10 (i : BitVec 10) : DWord := i.setWidth 64
/-- IMM16 sign-extended to 64 bits. -/
def sx16d (i : BitVec 16) : DWord := i.signExtend 64

/-! ## The B operand (R32) -/

/-- The B operand as one 32-bit value in lane L: a vector register, or the low word of a uniform register. -/
def State.rb (s : State) (L : Nat) : BOp → Word
  | .v r => s.rv L r
  | .s r => (s.rs r).setWidth 32

/-- The B operand as a 64-bit value: a pair, or a whole uniform register. -/
def State.rb2 (s : State) (L : Nat) : BOp → DWord
  | .v r => s.rv2 L r
  | .s r => s.rs r

/-- The registers that a B operand of n words reads. -/
def opndB (n : Nat) : BOp → Opnd
  | .v r => .v r n
  | .s r => .s r 1

/-! ## Shapes of lane instructions -/

/-- One 32-bit source. -/
def State.lane1 (s : State) (d a : VReg) (f : Word → Word) : Res :=
  s.laneOp [.v a 1] [.v d 1] fun t => t.wv t.part d fun L => f (t.rv L a)

/-- A 32-bit source and a B operand. -/
def State.lane2 (s : State) (d a : VReg) (b : BOp) (f : Word → Word → Word) : Res :=
  s.laneOp [.v a 1, opndB 1 b] [.v d 1] fun t => t.wv t.part d fun L => f (t.rv L a) (t.rb L b)

/-- A 32-bit source, a B operand and the old destination. -/
def State.lane3 (s : State) (d a : VReg) (b : BOp) (f : Word → Word → Word → Word) : Res :=
  s.laneOp [.v a 1, opndB 1 b, .v d 1] [.v d 1] fun t =>
    t.wv t.part d fun L => f (t.rv L a) (t.rb L b) (t.rv L d)

/-- Two 32-bit vector sources and a third. -/
def State.laneABC (s : State) (d a b c : VReg) (f : Word → Word → Word → Word) : Res :=
  s.laneOp [.v a 1, .v b 1, .v c 1] [.v d 1] fun t =>
    t.wv t.part d fun L => f (t.rv L a) (t.rv L b) (t.rv L c)

/-- A register of the C field, v0 to v31 (R32). -/
def cReg (c : Fin 32) : VReg := ⟨c.val, by omega⟩

/-! ## Shapes of uniform instructions -/

/-- Two 64-bit sources under a guard. -/
def State.uni2 (s : State) (d a b : SReg) (g : QGuard) (f : DWord → DWord → DWord) : Res :=
  s.guardedOp g [.s a 1, .s b 1] [.s d 1] fun t => t.ws d (f (t.rs a) (t.rs b))

/-- One 64-bit source under a guard. -/
def State.uni1 (s : State) (d a : SReg) (g : QGuard) (f : DWord → DWord) : Res :=
  s.guardedOp g [.s a 1] [.s d 1] fun t => t.ws d (f (t.rs a))

/-- A 64-bit source and an immediate, no guard. -/
def State.uniI (s : State) (d a : SReg) (x : DWord) (f : DWord → DWord → DWord) : Res :=
  s.uniOp [.s a 1] [.s d 1] fun t => t.ws d (f (t.rs a) x)

/-! ## Byte values of register data (R5, R268) -/

/-- The four bytes of a word. -/
def wordBytes (w : Word) : List Byte := bytesOf w.toNat 4

/-- The eight bytes of a double word. -/
def dwordBytes (w : DWord) : List Byte := bytesOf w.toNat 8

/-- The 32-bit words of a list of bytes, four at a time. -/
def wordsFrom (l : List Byte) : List Word := (piecesOf 4 (l.length / 4 + 1) l).map fun p => BitVec.ofNat 32 (natOf p)

end Sys2Proof.Machine
end

