-- ==== Sys2Proof/Machine/Issue.lean ====
section
/-! DEFINITION. Fetching and issuing a clause of a group (02 R22-R30, R51-R53; 14 R302), the instruction in a slot,
and reports and pre-emption met at an instruction boundary (10 R225, 13 R271). -/

namespace Sys2Proof.Machine

open Sys2Proof

/-! ## Fetch (R302) -/

/-- What a fetch gives: the words and the package, a trap at the clause, or a replayable fault. -/
inductive Fetch where
  | ok (d : Dev) (ws : List Word)
  | trap (c : Cause)
  | park (kind level entry : Nat)
  deriving DecidableEq, Repr

/-- The block's own place in its chain of forks. -/
def State.chain (s : State) : List (Nat × Nat) := chainOf s.dev s.blk.child

/-- The 32 bytes of a clause as the block sees them: a view page of its fork through its view, else through the
instruction cache (R302, R310), and whether the sector is poisoned (R420). -/
def clauseBytes (d : Dev) (b : Block) (chain : List (Nat × Nat)) (l : Leaf) (va pa : Nat) : Dev × List Byte × Bool :=
  let key := keyOf d b.shape.owner
  let off := va % 2 ^ 16
  match if l.kind = .view then viewSource d l.redop (va / 2 ^ 16) chain else .memory with
  | .memory => fetchBytes d b.core b.cluster key pa 32
  | .identity => (d, (List.range 32).map fun i => idByte l.redop (off + i), false)
  | .page sh => (d, (List.range 32).map fun i => sh.read (off + i), Sparse.get false sh.bad (off / 32))

/-- A clause of a block's code fetched by a party that waits on `tag` (R126, R302, R420). -/
def fetchClause (d : Dev) (b : Block) (addr : DWord) (tag : Option Nat) : Fetch :=
  match xlat d b.shape.owner addr.toNat .fetch tag with
  | .trap c => .trap c
  | .park kind lvl e => .park kind lvl e
  | .ok l pa =>
    let r := clauseBytes (keepLeaf d b.shape.owner addr.toNat l) b (chainOf d b.child) l addr.toNat pa
    if r.2.2 then .trap cPOISON_CONSUMED else .ok r.1 (wordsFrom r.2.1)

/-! ## Headers (R23, R51) -/

/-- A word of the kinds that SETA counts, by class and code (R26). -/
def countedWord (w : Nat) : Bool :=
  let fn5 := w / 2 ^ 23 % 32
  let fn6 := w / 2 ^ 22 % 64
  match w / 2 ^ 28 with
  | 4 => fn5 = 0 || fn5 = 2 || fn5 = 4 || fn5 = 6 || fn5 = 7 || (8 ≤ fn5 && fn5 ≤ 18) || (24 ≤ fn5 && fn5 ≤ 27) ||
      29 ≤ fn5
  | 5 => fn6 ≤ 0x21 || fn6 = 0x25 || fn6 = 0x26
  | 12 => fn5 = 0 || fn5 = 1 || fn5 = 4 || fn5 = 5 || (7 ≤ fn5 && fn5 ≤ 9)
  | _ => false

/-- A word of a class that holds counted members traps ILLEGAL_INSTRUCTION (R51). -/
def badWord (w : Nat) : Bool :=
  match w / 2 ^ 28 with
  | 4 => illegal (checkRow w (decodeLmem w))
  | 5 => illegal (checkRow w (decodeLX w))
  | 12 => illegal (checkRow w (decodeUmem w))
  | _ => false
where
  /-- The error ILLEGAL_INSTRUCTION. -/
  illegal : Decoded → Bool
    | .error .illegalInstruction => true
    | .error .illegalOperand => false
    | .ok _ => false

/-- The instruction words of a clause: words 1 to COUNT, or 2 to COUNT + 1 with WSET (R22). -/
def codeWords (ws : List Word) : List Word :=
  let h := (nth 0 ws 0).toNat
  (ws.drop (1 + bits h 23 23)).take (bits h 22 20)

/-- The header of a group's clause is legal (R23). -/
def headerLegal (ws : List Word) : Bool :=
  let h := (nth 0 ws 0).toNat
  let seta := bits h 15 12
  let setb := bits h 19 16
  let count := bits h 22 20
  count != 0 && !(count = 7 && bitOf h 23) && !bitOf h 27 && !(12 ≤ seta && seta ≤ 14) &&
    !(12 ≤ setb && setb ≤ 14) && !(bits h 30 28 = 7 && bitOf h 31) &&
    !(seta = 15 && (codeWords ws).any fun w => countedWord w.toNat && !badWord w.toNat)

/-- The header of a matrix-stream clause is legal (R25). -/
def streamHeaderLegal (ws : List Word) : Bool :=
  let h := (nth 0 ws 0).toNat
  bits h 11 0 = 0 && bits h 15 12 = 15 && bits h 19 16 = 15 && !bitOf h 23 && bits h 25 24 = 0 && bits h 30 28 = 7 &&
    !bitOf h 31 && !bitOf h 27 && bits h 22 20 != 0

/-- The lanes that a clause guard selects; it is never renamed (R30, R187). -/
def State.guardLanes (s : State) (h : Nat) : Mask :=
  if bits h 30 28 = 7 then BitVec.allOnes 32
  else if bitOf h 31 then ~~~ Sparse.get 0 s.grp.p (bits h 30 28) else Sparse.get 0 s.grp.p (bits h 30 28)

/-- The lanes and TRAPPATH of a trap at a clause of this header: the path it names in a region (R52, R188). -/
def State.clausePath (s : State) (h : Nat) : Mask × BitVec 2 :=
  if s.inRegion then match bits h 25 24 with
    | 2 => (s.slot.act &&& ~~~ s.grp.meld.bmask, 1)
    | 3 => (s.slot.act &&& s.grp.meld.bmask, 2)
    | _ => (s.slot.act, 0)
  else (s.slot.act, 0)

/-- A write of the guard predicate is pending (R28). -/
def State.guardPending (s : State) (h : Nat) : Bool :=
  bits h 30 28 != 7 && s.grp.pend.any fun e => e.pkeys.contains (bits h 30 28)

/-- The stall of a guard on a flag that its clause does not name in WAIT counts in FLAGMISS when it begins (R28). -/
def State.stallGuard (s : State) (h : Nat) : State :=
  let missed := s.grp.pend.any fun e => e.pkeys.contains (bits h 30 28) && (decide (12 ≤ e.flag) || !bitOf h e.flag)
  if s.slot.wait != .register && missed then
    s.onDev fun d => { d with flagMiss := Sparse.upd 0 d.flagMiss s.blk.core (· + 1) }
  else s

/-- A flag named in WAIT does not read zero (R27). -/
def State.waitsFlag (s : State) (h : Nat) : Bool :=
  (List.range 12).any fun i => bitOf h i && Sparse.get 0 s.grp.flags i != 0

/-! ## Issuing a clause (CLAUSE_ISSUE, R22-R30, R52) -/

/-- A trap at the fetch of a clause, TRAPSLOT 0 (R52). -/
def State.trapFetch (s : State) (c : Cause) : State :=
  s.raiseAt s.clauseAddr { cause := c, mask := s.slot.act, path := 0, info1 := s.clauseAddr }

/-- A header or meld trap, TRAPSLOT 0: the lanes active in the clause after its guard, on the path it names (R52, R188). -/
def State.trapHeader (s : State) (c : Cause) (word : Word) : State :=
  let p := s.clausePath word.toNat
  s.raiseAt s.clauseAddr
    { cause := c, mask := p.1 &&& s.guardLanes word.toNat, path := p.2, info0 := word.setWidth 64 }

/-- The tag that a wait holds (R386). -/
def Wait.tag : Wait → Option Nat
  | .fault t => some t
  | _ => Option.none

/-- A group slot, or the command it prepares, as a party of a fault record (R387). -/
def State.party (s : State) (lanes : Mask) (agent : Nat := 0) : Party :=
  ⟨s.blk.launchId.toNat, agent, s.blk.core, lanes.toNat⟩

/-- The issuing slot parks on a replayable fault (R386, R388). -/
def State.park (s : State) (va kind lvl e : Nat) (acc : Acc) (lanes : Mask) (agent : Nat := 0) : State :=
  let r := parkFault s.dev s.blk.shape.owner va kind lvl e acc (s.party lanes agent)
  ({ s with dev := r.1 }).waitFor (.fault r.2)

/-- The issuing slot waits before its clause issues; a tag it parked on, or a trap due at a barrier, stays with it over a
save (R226, R339, R388). -/
def State.waitClause (s : State) (w : Wait) : State :=
  if s.slot.wait.tag.isSome || s.slot.wait = .broken then s else s.waitFor w

/-- A fetched clause whose header is legal issues: the guard is read once, and the slot stands at its first instruction
or where a resumption put it (R27, R30, R416). -/
def State.latch (s : State) (ws : List Word) : State :=
  let h := (nth 0 ws 0).toNat
  let first := 1 + bits h 23 23
  if s.slotIdx > bits h 22 20 + bits h 23 23 then s.leave (s.clauseAddr + 32)
  else if s.waitsFlag h then s.waitClause .flags
  else match s.report fun r => s.ownAccess r && r.namedBy h with
  | some r => (s.dropReport r).raiseAt s.clauseAddr (r.raise (s.clausePath h).2 ((nth 0 ws 0).setWidth 64))
  | none =>
    if s.guardPending h then (s.stallGuard h).waitClause .register
    else
      let pc := if s.slotIdx < first then s.clauseAddr + dw (4 * first) else s.slot.pc
      let c : Clause := ⟨s.clauseAddr, ws, s.guardLanes h⟩
      (s.waitClause .none).onSlot fun x => { x with pc := pc, clause := some c }

/-- The clause at the issuing slot's address is fetched, checked and issued (R22-R30, R51-R53). -/
def State.issueClause (s : State) : State :=
  match fetchClause s.dev s.blk s.clauseAddr s.slot.wait.tag with
  | .trap c => s.trapFetch c
  | .park kind lvl e => s.park s.clauseAddr.toNat kind lvl e .fetch 0
  | .ok d ws =>
    let s := { s with dev := d }
    let h := (nth 0 ws 0).toNat
    let stray := bits h 25 24 != 0 && !s.inRegion
    if (!headerLegal ws || stray) && s.guardPending h then (s.stallGuard h).waitClause .register
    else if !headerLegal ws then s.trapHeader cILLEGAL_CLAUSE (nth 0 ws 0)
    else if stray then s.trapHeader cMELD_VIOLATION (nth 0 ws 0)
    else s.latch ws

/-! ## The instruction in a slot (R51, R52) -/

/-- Every register that an instruction names is allocated (R34). -/
def allocated (sh : Shape) (i : Instr) : Bool :=
  i.vnames.all (· < sh.vregs) && i.snames.all (· < sh.sregs) && i.anames.all (· < sh.accs)

/-- The instruction that a word of a group stream or matrix stream holds, or its decode-time trap (R51 point 3). -/
noncomputable def slotInstr (sh : Shape) (mx : Bool) (w : Word) : Except DecodeError Instr :=
  if (w.toNat / 2 ^ 28 == 15) != mx then .error .illegalInstruction
  else match decode w.toNat with
    | .error e => .error e
    | .ok i => if allocated sh i then .ok i else .error .illegalOperand

/-- The cause of a decode-time trap (R51). -/
def decodeCause : DecodeError → Cause
  | .illegalInstruction => cILLEGAL_INSTRUCTION
  | .illegalOperand => cILLEGAL_OPERAND

/-- A decode-time trap at the issuing slot's word (R52). -/
def State.trapDecode (s : State) (e : DecodeError) : State := s.trapMask (decodeCause e) s.part s.wordInfo 0 0 0

/-! ## Pre-emption at a boundary (R225) -/

/-- The group takes a pre-emption request before its next unissued instruction (R225). -/
def State.takePreempt (s : State) (reason deadline : Nat) : State :=
  let s := { s with k := s.grp.slot0.act = 0, grp := { s.grp with preempt := none } }
  s.raise { cause := cPREEMPT, mask := s.slot.act, path := s.wholePath, info0 := dw reason, info1 := dw deadline }

end Sys2Proof.Machine
end

