-- ==== Sys2Proof/Machine/Sched.lean ====
section
/-! DEFINITION. Triggers of groups, blocks and launches, and the watermark of a launch queue (10 R201, R206, R210-R212). -/

namespace Sys2Proof.Machine

open Sys2Proof

/-! ## Queues -/

/-- f applied to queue q of function fn. -/
def modQueue (d : Dev) (fn q : Nat) (f : Queue → Queue) : Dev :=
  modFn d fn fun x => { x with queues := Sparse.upd {} x.queues q f }

/-- Queue q of function fn. -/
def queueOf (d : Dev) (fn q : Nat) : Queue := Sparse.get {} (Sparse.get {} d.funcs fn).queues q

/-- TRIGWM passes what has triggered or was skipped below RIDX, in at most n steps (R201, R206). -/
def Queue.raiseMark : Nat → Queue → Queue
  | 0, q => q
  | n + 1, q =>
    if q.trigwm = q.ridx then q
    else if Sparse.get false q.trigd q.trigwm then
      Queue.raiseMark n { q with trigd := Sparse.erase q.trigd q.trigwm, trigwm := (q.trigwm + 1) % 2 ^ 32 }
    else match q.skips.find? fun r => r.1 = q.trigwm with
      | some r => Queue.raiseMark n { q with skips := dropFirst q.skips fun x => x = r, trigwm := (r.1 + r.2) % 2 ^ 32 }
      | none => q

/-- TRIGWM raised as far as it goes. -/
def Queue.settle (q : Queue) : Queue := q.raiseMark (q.trigd.length + q.skips.length)

/-- An index of a queue triggers (R210). -/
def Queue.mark (q : Queue) (i : Nat) : Queue := ({ q with trigd := Sparse.put false q.trigd i true } : Queue).settle

/-! ## Dependences (R210) -/

/-- wrap32(a - b). -/
def gap (a b : Nat) : Nat := (a + 2 ^ 32 - b % 2 ^ 32) % 2 ^ 32

/-- Index i lies behind X (R210). -/
def behind (i x : Nat) : Bool := decide (0 < gap x i ∧ gap x i ≤ 2 ^ 31)

/-- A dependence of a launch of function fn has triggered (R210). -/
def depMet (d : Dev) (fn : Nat) (dep : DWord) : Bool :=
  let i := bits dep.toNat 31 0
  let x := queueOf d fn (bits dep.toNat 37 32)
  behind i x.trigwm || Sparse.get false x.trigd i || x.skips.any fun r => decide (gap i r.1 < r.2)

/-- Every dependence of a launch has triggered; the part of a launch of another package has none (log 25). -/
def depsMet (d : Dev) (l : Launch) : Bool := l.away.isSome || l.lr.deps.all (depMet d l.fn)

/-! ## Parts of a launch on other packages (R217; log 25) -/

/-- A message about a launch to another package of its pod. -/
def sendShare (d : Dev) (l : Launch) (dst : Nat) (body : PacketBody) : Dev := sendPacket d (mkPacket d dst l.lr.owner 0 body)

/-- The packages that run blocks of a launch whose dependences have triggered are told, once. -/
def tellShares (d : Dev) : Dev :=
  d.launches.foldl (fun d l =>
    if l.told || l.shares.isEmpty || l.state != .waiting || !depsMet d l then d
    else
      let d := l.shares.foldl (fun d x => sendShare d l x.pkg (.launchShare d.pkg l.key l.q l.idx l.image)) d
      modLaunch d l.key fun x => { x with told := true, image := [] }) d

/-! ## Launches -/

/-- A launch triggers (R210, R211); the part of another package's launch is reported to it. -/
def triggerLaunch (d : Dev) (l : Nat) : Dev :=
  match findLaunch d l with
  | none => d
  | some x =>
    if x.triggered then d
    else
      let d := modLaunch d l fun x => { x with triggered := true }
      match x.away with
      | some h => if x.stub then d else sendShare d x h.1 (.launchTrig h.1 h.2)
      | none => if x.detached then d else tellShares (modQueue d x.fn x.q fun q => q.mark (x.idx % 2 ^ 32))

/-- The extents of the levels of a launch. -/
def LaunchRec.extents (r : LaunchRec) : List Nat := r.levels.map (·.extent)

/-- The product of a list of numbers. -/
def product (l : List Nat) : Nat := l.foldl (· * ·) 1

/-- The innermost level whose domain is the pod (R217). -/
def LaunchRec.podLevel (r : LaunchRec) : Option Nat := (r.levels.zipIdx.find? fun e => e.1.domain = 4).map (·.2)

/-- Blocks of one child instance of the innermost pod level, or of the whole launch (R217). -/
def LaunchRec.childSize (r : LaunchRec) : Nat :=
  match r.podLevel with
  | some p => product (r.extents.take p)
  | none => product r.extents

/-- Blocks of the launch that run on this package: child instance j on package j of the pod member table (R217). -/
def blocksHere (d : Dev) (l : Launch) : Nat :=
  match l.lr.podLevel with
  | none => l.lr.childSize
  | some p => match (partOf d l.lr.owner).bind fun x => x.pod.findIdx? (· = d.pkg) with
    | some j => if j < product (l.lr.extents.drop p) then l.lr.childSize else 0
    | none => 0

/-- A launch all of whose blocks have started, and triggered or retired, triggers (R211). -/
def checkTrigger (d : Dev) (l : Nat) : Dev :=
  match findLaunch d l with
  | none => d
  | some x =>
    if x.started = blocksHere d x && x.trigd = x.started && x.shares.all (·.trig) then triggerLaunch d l else d

/-- f applied to the bind record of a block while it stands (R214). -/
def onBind (d : Dev) (b : Block) (f : Bind → Bind) : Dev :=
  { d with binds := d.binds.map fun (e : Nat × Bind) =>
      if e.1 = b.slotEntry ∧ e.2.launch = b.launch ∧ e.2.state ≠ 0 then (e.1, f e.2) else e }

/-- A block of a launch triggers (R211); one that moved here counts where its launch was accepted. -/
def triggerBlock (d : Dev) (b : Block) : Dev :=
  match b.cameFrom with
  | some h => sendPacket d (mkPacket d h.1 b.shape.owner 0 (.blockEnd h.1 h.2 b.blin false))
  | none =>
  let d := onBind d b fun r => { r with trigd := r.trigd + 1 }
  checkTrigger (modLaunch d b.launch fun x => { x with trigd := x.trigd + 1 }) b.launch

/-- Every group of the block, the focused one among them, has triggered or ended (R211). -/
def State.allTriggered (s : State) : Bool :=
  (s.grp.triggered || s.grp.ended) && s.blk.groups.all fun g => g.triggered || g.ended

/-- The focused block triggers when its groups have; a fork child never does (R211, R309). -/
def State.settleTrigger (s : State) : State :=
  if s.blk.child.isSome || s.blk.trigd || !s.allTriggered then s
  else { s with blk := { s.blk with trigd := true }, dev := triggerBlock s.dev s.blk }

/-- The focused group triggers (R212). -/
def State.trigger (s : State) : State :=
  if s.grp.triggered then s
  else
    let s := s.onGrp fun g => { g with triggered := true }
    (s.onBlk fun b => { b with trigm := setLane b.trigm s.grp.idx true }).settleTrigger

/-! ## Fabric operations of a slot -/

/-- Operations of the issuing slot that only the fabric ends (R292). -/
def State.fabricBusy (s : State) : Bool := s.grp.pend.any fun e => e.ext && e.slot = b2n s.k

/-- A job that the issuing slot started still runs (R292). -/
def State.slotJobs (s : State) : Bool :=
  s.dev.jobs.any fun j => j.block = s.blk.key && j.gidx = s.grp.idx && j.pslot = b2n s.k && !j.orphan && !j.performed

/-- Jobs and transfers of the block still run (R308). -/
def State.blockJobs (s : State) : Bool :=
  s.dev.jobs.any (fun j => j.block = s.blk.key && !j.orphan) ||
    s.dev.outstanding.any fun o => o.block = s.blk.key && o.purpose = .transfer

end Sys2Proof.Machine
end

