-- ==== Sys2Proof/Machine/System.lean ====
section
/-! DEFINITION. System registers (08 R164-R170, 23 R410, R413), names (11 R235), the trigger (10 R212), fences and cache
invalidations (14 R292, R299, R301), and the end of an object (12 R256). -/

namespace Sys2Proof.Machine

open Sys2Proof

/-! ## Reading a system register -/

/-- The last join of the focused block (R323). -/
def State.lastJoin (s : State) : LastJoin := lastJoinOf s.dev s.blk

/-- The child record of the focused block in its fork (R319). -/
def State.ownChild (s : State) : Option Child := ownChildOf s.dev s.blk

/-- FORKSTAT (R323). -/
def State.forkstat (s : State) : DWord := forkstatOf s.dev s.blk

/-- TWINQ (R324). -/
def State.twinq (s : State) : DWord := twinqOf s.dev s.blk

/-- ALLOC (R166). -/
def Shape.alloc (x : Shape) : DWord := dw (x.vregs + 2 ^ 8 * x.sregs + 2 ^ 16 * x.accs + 2 ^ 32 * x.scrb)

/-- A system register as `srd` reads it, reserved fields zero (R165-R169, R410). -/
def State.sysReg (s : State) (n : Nat) : DWord :=
  let g := s.grp
  let x := s.blk.shape
  match n with
  | 0x000 => 32
  | 0x001 => dw g.idx
  | 0x002 => dw x.groups
  | 0x003 => dw s.blk.blin
  | 0x004 => dw x.nlev
  | 0x005 => s.blk.launchId
  | 0x006 => dw x.owner
  | 0x007 => x.alloc
  | 0x008 => dw s.dev.time
  | 0x009 => dw (Sparse.get 0 s.dev.cycles s.blk.core)
  | 0x00A => g.pname
  | 0x00B => x.args
  | 0x100 => s.slot.fmt.setWidth 64
  | 0x101 => s.slot.fpstat.setWidth 64
  | 0x102 => Mask.dw g.mm
  | 0x103 => g.meld.word
  | 0x104 => g.rsstat
  | 0x105 => s.forkstat
  | 0x106 => s.twinq
  | 0x118 => s.blk.mxstat
  | 0x200 => g.trap.cause.setWidth 64
  | 0x201 => g.trap.pc
  | 0x202 => g.trap.slot.setWidth 64
  | 0x203 => Mask.dw g.trap.mask
  | 0x204 => g.trap.path.setWidth 64
  | 0x205 => g.trap.info0
  | 0x206 => g.trap.info1
  | 0x207 => g.trap.info2
  | 0x208 => g.trap.info3
  | 0x209 => g.trap.time
  | 0x20A => g.ctx.s0
  | 0x20B => g.ctx.s1
  | 0x20C => g.ctx.s2
  | 0x20D => g.ctx.s3
  | 0x20E => g.ctx.q.setWidth 64
  | 0x20F => Mask.dw g.ctx.mm
  | 0x210 => g.ctx.word
  | n =>
    if 0x010 ≤ n ∧ n ≤ 0x017 then dw (nth 0 x.lidx (n - 0x010))
    else if 0x018 ≤ n ∧ n ≤ 0x01F then dw (nth 1 x.lext (n - 0x018))
    else 0

/-- The registers whose value is a time, which a strict launch may not read (R170). -/
def isTimeReg (n : Nat) : Bool := n = 0x008 || n = 0x009 || n = 0x209

/-- `srd sD, num` (R104, R170, R413). -/
def execSrd (d : SReg) (n : BitVec 16) (s : State) : Res :=
  if s.blk.shape.strict && isTimeReg n.toNat then .next (s.violation cNONDETERMINISTIC_OP)
  else if n = 0x101 && s.slotBusy then .next (s.waitFor .ops)
  else s.uniOp [] [.s d 1] fun t => t.ws d (t.sysReg n.toNat)

/-! ## Writing a system register -/

/-- The reserved bits of a register that `swr` may write (R79, R104, R145, R168, R169, R323, R324, R410). -/
def reservedBits (n : Nat) : DWord :=
  match n with
  | 0x100 => ~~~ 0xFFFF#64
  | 0x101 => ~~~ 0x1F#64
  | 0x102 | 0x203 | 0x20F => ~~~ 0xFFFFFFFF#64
  | 0x105 => 0x0000FC0000800E00#64
  | 0x106 => ~~~ 0x1FFFFFFFFFFF#64
  | 0x118 => 0xFFFFFFFF8000F800#64
  | 0x200 | 0x20E => ~~~ 0xFF#64
  | 0x201 => 3#64
  | 0x202 => ~~~ 0x7#64
  | 0x204 => ~~~ 0x3#64
  | 0x210 => ~~~ 0x3F07#64
  | _ => 0

/-- A write that `swr` refuses (R164, R185, R413). -/
def State.refusesWrite (s : State) (n : Nat) (x : DWord) : Bool :=
  decide (n ≤ 0xFF) || n = 0x103 || (decide (0x200 ≤ n ∧ n ≤ 0x2FF) && !s.grp.ctx.inh) || x &&& reservedBits n != 0

/-- RCNT of the last join rewritten (R323). -/
def State.setRcnt (s : State) (r : Nat) : State :=
  let j := s.lastJoin
  s.onDev fun d => { d with joins := (s.blk.key, { j with rcnt := r }) :: d.joins.filter fun e => e.1 ≠ s.blk.key }

/-- The sticky flags of MXSTAT that x names are cleared (R145). -/
def Seq.clearFlags (q : Seq) (x : DWord) : Seq :=
  { q with iv := q.iv && !x.getLsbD 0, of := q.of && !x.getLsbD 1, uf := q.uf && !x.getLsbD 2,
           nx := q.nx && !x.getLsbD 3 }

/-- The trap registers changed. -/
def State.onTrap (s : State) (f : TrapRegs → TrapRegs) : State := s.onGrp fun g => { g with trap := f g.trap }

/-- The trap context changed. -/
def State.onCtx (s : State) (f : TrapCtx → TrapCtx) : State := s.onGrp fun g => { g with ctx := f g.ctx }

/-- The RW and W1C fields of a register written (R413). -/
def State.writeSys (s : State) (n : Nat) (x : DWord) : State :=
  match n with
  | 0x100 => s.onSlot fun y => { y with fmt := x.setWidth 16 }
  | 0x101 => s.onSlot fun y => { y with fpstat := x.setWidth 5 }
  | 0x102 => s.onGrp fun g => { g with mm := x.setWidth 32 }
  | 0x104 => s.onGrp fun g => { g with rsstat := x }
  | 0x105 => s.setRcnt (bits x.toNat 63 48)
  | 0x118 => s.onBlk fun b => { b with seq := b.seq.clearFlags x }
  | 0x200 => s.onTrap fun t => { t with cause := x.setWidth 8 }
  | 0x201 => s.onTrap fun t => { t with pc := x }
  | 0x202 => s.onTrap fun t => { t with slot := x.setWidth 3 }
  | 0x203 => s.onTrap fun t => { t with mask := x.setWidth 32 }
  | 0x204 => s.onTrap fun t => { t with path := x.setWidth 2 }
  | 0x205 => s.onTrap fun t => { t with info0 := x }
  | 0x206 => s.onTrap fun t => { t with info1 := x }
  | 0x207 => s.onTrap fun t => { t with info2 := x }
  | 0x208 => s.onTrap fun t => { t with info3 := x }
  | 0x209 => s.onTrap fun t => { t with time := x }
  | 0x20A => s.onCtx fun c => { c with s0 := x, stags := Sparse.erase c.stags 0 }
  | 0x20B => s.onCtx fun c => { c with s1 := x, stags := Sparse.erase c.stags 1 }
  | 0x20C => s.onCtx fun c => { c with s2 := x, stags := Sparse.erase c.stags 2 }
  | 0x20D => s.onCtx fun c => { c with s3 := x, stags := Sparse.erase c.stags 3 }
  | 0x20E => s.onCtx fun c => { c with q := x.setWidth 8 }
  | 0x20F => s.onCtx fun c => { c with mm := x.setWidth 32 }
  | 0x210 => s.onCtx fun c => { c with next := x.getLsbD 1 }
  | _ => s

/-- `swr sS, num` (R80, R413). -/
def execSwr (r : SReg) (n : BitVec 16) (s : State) : Res :=
  s.withOperands 1 [.s r 1] [] fun t =>
    if t.refusesWrite n.toNat (t.rs r) then .next (t.badOperand 0)
    else if n = 0x100 && t.pathOnly then .next (t.violation cMELD_VIOLATION)
    else .next (t.writeSys n.toNat (t.rs r)).advance

/-! ## Platform names (R235) -/

/-- The group takes entry i of the platform table (R234). -/
def State.takeName (s : State) (i : Nat) : State :=
  let e := Sparse.get {} s.dev.names i
  let gen := nextGen e.gen
  let e := { e with
    state := .resident, gen := gen, loc := s.dev.pkg, core := s.blk.core, gidx := s.grp.idx, owner := s.blk.shape.owner,
    save := 0, block := s.blk.key, claims := [], deferred := [] }
  { s with
    grp := { s.grp with pname := mkName s.dev.pkg i gen }
    dev := { s.dev with names := Sparse.put {} s.dev.names i e } }

/-- A block's operation ends its own and its ancestors' restartability; a child of another package's fork tells it there (R309,
R319). -/
def endRestart (d : Dev) (chain : List (Nat × Nat)) : Dev :=
  chain.foldl (fun d c =>
    let tell := (forkOf d c.1).bind fun f => if (f.child c.2).any (·.restartable) then f.home.map fun h => (f, h) else none
    let d := match tell with
      | some (f, src, b, run) => childSay d src f.owner b c.2 run 2
      | none => d
    modFork d c.1 fun f => f.modChild c.2 fun x => { x with restartable := false }) d

/-- The issuing block and its ancestors stop being restartable (R319). -/
def State.notRestartable (s : State) : State := s.onDev fun d => endRestart d s.chain

/-- `nameget sD` (R235, R319). -/
def execNameget (d : SReg) (s : State) : Res :=
  s.uniOp [] [.s d 1] fun s =>
    let s := s.notRestartable
    if s.grp.pname ≠ 0 then s.ws d s.grp.pname
    else match freeName s.dev with
      | some i => let t := s.takeName i; t.ws d t.grp.pname
      | none => s.ws d 0

/-- `nameput` (R234, R235). -/
def execNameput (s : State) : Res :=
  .next { s with
    grp := if s.grp.pname = 0 then s.grp else { s.grp with pname := 0, holds := [] }
    dev := retireName s.dev s.blk.shape.owner s.grp.pname : State }.advance

/-- The code of a name whose entry is here (R235). -/
def nameCode (d : Dev) (n : DWord) : Nat :=
  let e := Sparse.get {} d.names (nameIndex n)
  if e.state = .free || e.gen ≠ nameGen n then 0
  else match e.state with
    | .resident => 1
    | .saved => 2
    | .moving => 3
    | .free | .retired => 4

/-- A name of another package is asked of its home: the register is written when the answer comes, and a read of it stalls until
then (R28, R235). -/
def State.askName (s : State) (x : SReg) (n : DWord) : State :=
  let id := s.dev.nextId
  let p := mkPacket s.dev (nameHome n) s.blk.shape.owner 1 (.nameAsk (id + 1) n)
  let o : Outstanding := { id := id + 1, purpose := .nameq, block := s.blk.key, gidx := s.grp.idx, pend := id, pslot := b2n s.k
                           deadline := p.deadline, target := nameHome n, name := n, keys := [2 ^ 20 + x.val] }
  let e : Pend := { id := id, setA := false, flag := 15, slot := b2n s.k, ext := true, skeys := [x.val] }
  (s.onGrp fun g => { g with pend := g.pend ++ [e] }).onDev fun d =>
    sendPacket { d with nextId := id + 2, outstanding := d.outstanding ++ [o] } p

/-- `nameq sX`: the operand check comes before strict mode (R235). -/
def execNameq (x : SReg) (s : State) : Res :=
  s.withOperands 1 [.s x 1] [.s x 1] fun t =>
    if badName t.dev t.blk.shape.owner (t.rs x) then .next (t.trapAll cNAME_INVALID (t.rs x) 0)
    else if t.blk.shape.strict then .next (t.violation cNONDETERMINISTIC_OP)
    else
      let n := t.rs x
      .next (if nameHome n = t.dev.pkg then t.ws x (dw (nameCode t.dev n)) else t.askName x n).advance

/-! ## trig (R212) -/

/-- `trig`: the slot's accesses reach system scope, then the group is marked; in a fork child it has no effect (R211,
R212, R309). -/
def execTrig (s : State) : Res :=
  if s.blk.child.isSome then .next s.advance
  else if s.fabricBusy then .next (s.waitFor .ops)
  else .next (s.onDev fun d => releaseAt d s.blk.cluster .sys).trigger.advance

/-! ## Fences (R292, R299, R301) -/

/-- The release of the issuing slot at a scope. -/
def State.release (s : State) (sc : Scope) : State := s.onDev fun d => releaseAt d s.blk.cluster sc

/-- The acquire of the issuing slot at a scope. -/
def State.acquire (s : State) (sc : Scope) : State := s.onDev fun d => acquireAt d s.blk.core s.blk.cluster sc

/-- One ticket of the package's order (R293). -/
def State.ticket (s : State) : State := s.onDev fun d => { d with tickets := d.tickets + 1 }

/-- The reach of a fence: engines and fabric; memory needs no wait, since a local access is performed as it issues
(R292). -/
def reachEngines (r : Fin 8) : Bool := bitOf r 1
def reachFabric (r : Fin 8) : Bool := bitOf r 2

/-- Reports of failed accesses, and with engine reach of failed jobs, are raised at a fence (R271, R340). -/
def State.fenceReport (s : State) (r : Fin 8) (x : Report) : Bool := s.ownAccess x || (x.bit = 1 && reachEngines r)

/-- A fence with a release part: it waits for the classes it reaches, raises what failed among them, then acts (R292,
R271). -/
def State.fenceOut (s : State) (r : Fin 8) (f : State → State) : Res :=
  if reachFabric r && s.fabricBusy then .next (s.waitFor .ops)
  else if reachEngines r && s.slotJobs then .next (s.waitFor .jobs)
  else s.reporting (s.fenceReport r) fun t => .next (f t).advance

/-- Reads of the slot that another package has still to answer (R288). -/
def State.remoteReads (s : State) : Bool := s.grp.pend.any fun e => e.ext && e.setA && decide (e.slot = b2n s.k)

/-- `fence.acq`: with fabric reach, after the reads that it orders (R288, R292). -/
def execFenceAcq (r : Fin 8) (c : Scope) (s : State) : Res :=
  if reachFabric r && s.remoteReads then .next (s.waitFor .ops)
  else s.reporting (s.fenceReport r) fun t => .next (t.acquire c).advance

/-- `fence.rel` (R292). -/
def execFenceRel (r : Fin 8) (c : Scope) (s : State) : Res := s.fenceOut r fun t => t.release c

/-- `fence.ar` (R292). -/
def execFenceAr (r : Fin 8) (c : Scope) (s : State) : Res := s.fenceOut r fun t => (t.release c).acquire c

/-- `fence.sc`: a ticket between the release and the acquire (R292, R293). -/
def execFenceSc (r : Fin 8) (c : Scope) (s : State) : Res := s.fenceOut r fun t => ((t.release c).ticket).acquire c

/-- Remote stores of the slot are awaited at system scope (R299). -/
def State.remoteStores (s : State) (sc : Scope) : Bool :=
  sc = .sys && s.grp.pend.any fun e => e.ext && !e.setA && decide (e.slot = b2n s.k)

/-- `fence.layout.SCOPE` (R299). -/
def execFenceLayout (c : Scope) (s : State) : Res :=
  if s.remoteStores c then .next (s.waitFor .ops)
  else .next ((s.release c).onDev fun d => { d with records := dropUnits d.records (coreWithin c s.blk.core) }).advance

/-- `icinv.SCOPE` (R301). -/
def execIcinv (c : Scope) (s : State) : Res :=
  if s.remoteStores c then .next (s.waitFor .ops)
  else .next ((s.release c).onDev fun d => { d with icache := dropUnits d.icache (coreWithin c s.blk.core) }).advance

/-! ## objrel (R256) -/

/-- The block's object with a record address ends, its dirty sectors written back. -/
def endObject (d : Dev) (b : Nat) (a : DWord) : Dev :=
  (d.objs.filter fun o => o.block = b && o.recAddr = a).foldl endObj d

/-- `objrel sS` (R256). -/
def execObjrel (r : SReg) (s : State) : Res :=
  s.uniOp [.s r 1] [] fun t => t.onDev fun d => endObject d t.blk.key (t.rs r)

end Sys2Proof.Machine
end

