-- ==== Sys2Proof/Machine/Barrier.lean ====
section
/-! DEFINITION. Named barriers and matrix barriers (09 R195-R198, 07 R127, 14 R297, 16 R339): arrivals, waits, deliveries,
and what the end of a group does to them. -/

namespace Sys2Proof.Machine

open Sys2Proof

/-! ## Named barriers (R195) -/

/-- Barrier n of a block; its reset EXPECT is GROUPS (R195). -/
def Block.bar (b : Block) (n : Nat) : Bar := Sparse.get { expect := BitVec.ofNat 11 b.shape.groups } b.bars n

/-- The block with barrier n changed. -/
def Block.setBar (b : Block) (n : Nat) (x : Bar) : Block :=
  { b with bars := Sparse.put { expect := BitVec.ofNat 11 b.shape.groups } b.bars n x }

/-- A phase completes when ARRIVED = EXPECT and PENDING = 0 (R195); a barrier that expects no arrival, its groups having
ended, completes none (R377; log 27). -/
def Bar.test (x : Bar) : Bar :=
  if x.expect ≠ 0 ∧ x.arrived = x.expect ∧ x.pending = 0 then
    { x with phase := x.phase + 1, arrived := 0, arr := 0, engine := false, engineLast := x.engine }
  else x

/-- The arrivals of the phase are complete while bytes are still due, so that a further arrival waits (R339). -/
def Bar.full (x : Bar) : Bool := x.arrived = x.expect

/-- Group g arrives (R196). -/
def Bar.arrive (x : Bar) (g : Nat) : Bar := { x with arr := setLane x.arr g true, arrived := x.arrived + 1 }.test

/-- An engine arrives (R339). -/
def Bar.engineArrive (x : Bar) : Bar := { x with arrived := x.arrived + 1, engine := true }.test

/-- A delivery of n bytes: beyond -2^27 it is not applied and the barrier becomes BROKEN (R338, R339). -/
def Bar.deliver (x : Bar) (n : Nat) : Bar :=
  if n = 0 then x
  else if x.pending - n < -(2 ^ 27) then { x with broken := true }
  else { x with pending := x.pending - n, engine := true }.test

/-- Group g has ended: it stops counting (R197). -/
def Bar.leave (x : Bar) (g : Nat) : Bar :=
  { x with
    expect := if x.expect = 0 then 0 else x.expect - 1
    arrived := if inM x.arr g then x.arrived - 1 else x.arrived
    arr := setLane x.arr g false }.test

/-- The phase in which a group last arrived at barrier n has not completed (R196). -/
def Group.awaitsBar (g : Group) (x : Bar) (n : Nat) : Bool := Sparse.get 0 g.barPhase n == x.phase.toNat + 1

/-- The barrier operation of a BROKEN barrier: it has not begun when it runs again (R339). -/
def State.broken (s : State) : State :=
  (s.onSlot fun x => { x with micro := 0 }).trapMask cCOPY_DESCRIPTOR s.slot.act 6 0 0 0

/-- The barrier is BROKEN, or became so while the slot waited at it (R339). -/
def State.breaks (s : State) (n : Nat) : Bool := (s.blk.bar n).broken || s.slot.wait = .broken

/-- The issuing group arrives at barrier n. -/
def State.arriveBar (s : State) (n : Nat) : State :=
  let x := s.blk.bar n
  { s with
    grp := { s.grp with barPhase := Sparse.put 0 s.grp.barPhase n (x.phase.toNat + 1) }
    blk := s.blk.setBar n (x.arrive s.grp.idx) }

/-- An arrival, or the wait for the current phase before it; `f` follows the arrival (R196, R339). -/
def State.arriving (s : State) (n : Nat) (f : State → State) : State :=
  let x := s.blk.bar n
  if s.breaks n then s.broken
  else if inM x.arr s.grp.idx || x.full then s.waitFor (.barArrive n)
  else f (s.arriveBar n)

/-- A wait returns: for a phase that counted an engine's arrival or delivery the group acquires at die scope (R297). -/
def State.returnBar (s : State) (n : Nat) : State :=
  let x := s.blk.bar n
  let p := Sparse.get 0 s.grp.barPhase n
  if p != 0 && (x.engineLast || p != x.phase.toNat) then s.acquire .die else s

/-- The wait for the phase of the last arrival (R196). -/
def State.waitBar (s : State) (n : Nat) : State :=
  let x := s.blk.bar n
  if s.breaks n then s.broken
  else if s.grp.awaitsBar x n then s.waitFor (.bar n)
  else (s.returnBar n).advance

/-- Reports of failed accesses, raised at an arrival (R271). -/
def State.accessReport (s : State) (r : Report) : Bool := s.ownAccess r

/-- The report of a failed job that names barrier n (R340). -/
def jobReport (n : Nat) (r : Report) : Bool := r.bit = 1 && r.bar = n

/-- `bar.arr bN` (R196, R271). -/
def execBarArr (n : Fin 16) (s : State) : Res :=
  s.reporting s.accessReport fun t => .next (t.arriving n State.advance)

/-- `bar.wait bN` (R196, R340). -/
def execBarWait (n : Fin 16) (s : State) : Res := s.reporting (jobReport n) fun t => .next (t.waitBar n)

/-- `bar.sync bN`: the arrival once, then the wait (R196; log 13). -/
def execBarSync (n : Fin 16) (s : State) : Res :=
  if s.slot.micro = 0 then
    s.reporting (fun r => s.accessReport r || jobReport n r) fun t =>
      .next (t.arriving n fun u => (u.onSlot fun x => { x with micro := 1 }).waitBar n)
  else s.reporting (jobReport n) fun t => .next (t.waitBar n)

/-- A slot of the group waits on barrier n (R196). -/
def Group.waitsOn (g : Group) (x : Bar) (n : Nat) : Bool :=
  (g.slot0.wait = .bar n || g.slot1.wait = .bar n) && g.awaitsBar x n

/-- Barrier n is in use, so that `bar.init` is refused (R196). -/
def State.barBusy (s : State) (n : Nat) : Bool :=
  let x := s.blk.bar n
  !x.broken && (x.arrived != 0 || x.pending != 0 || s.grp.waitsOn x n || s.blk.groups.any fun g => g.waitsOn x n)

/-- A barrier set up: what engines still owe it is discarded where it was BROKEN (R196, R339). -/
def State.initBar (s : State) (n : Nat) (e : BitVec 11) : State :=
  let x := s.blk.bar n
  let s := s.onBlk fun b => b.setBar n { expect := e, phase := x.phase }
  if x.broken then s.onDev fun d => { d with
      jobs := d.jobs.map fun j =>
        let j := if j.block = s.blk.key ∧ j.bar = n then { j with mode := 0 } else j
        { j with arrivals := j.arrivals.filter (· ≠ (s.blk.key, n)) } }
  else s

/-- `bar.init bN, sE` (R196). -/
def execBarInit (e : SReg) (n : Fin 16) (s : State) : Res :=
  s.withOperands 1 [.s e 1] [] fun t =>
    let x := (t.rs e).toNat
    if x = 0 ∨ 1024 < x ∨ t.barBusy n then .next (t.badOperand 0) else .next (t.initBar n (BitVec.ofNat 11 x)).advance

/-- `bar.expect bN, sB` (R196). -/
def execBarExpect (b : SReg) (n : Fin 16) (s : State) : Res :=
  s.withOperands 1 [.s b 1] [] fun t =>
    let x := t.blk.bar n
    let p := x.pending + (t.rs b).toInt
    if p < -(2 ^ 27) ∨ 2 ^ 27 - 1 < p then .next (t.badOperand 0)
    else .next (t.onBlk fun k => k.setBar n ({ x with pending := p } : Bar).test).advance

/-! ## Matrix barriers (R127, R198) -/

/-- Matrix barrier n of a block. -/
def Block.mbar (b : Block) (n : Nat) : MBar := Sparse.get {} b.mbars n

/-- The groups, by index, that have not ended. -/
def liveGroups (gs : List Group) : Mask := gs.foldl (fun m g => if g.ended then m else setLane m g.idx true) 0

/-- A matrix barrier after the test for completion (R127). -/
def MBar.test (x : MBar) (live : Mask) (run : Bool) : MBar :=
  if (x.arr != 0 || x.seqArr) && live &&& ~~~ x.arr == 0 && (x.seqArr || !run) then { phase := x.phase + 1 } else x

/-- The block with f applied to matrix barrier n and the barrier tested (R127). -/
def Block.onMBar (b : Block) (live : Mask) (n : Nat) (f : MBar → MBar) : Block :=
  { b with mbars := Sparse.upd {} b.mbars n fun x => (f x).test live b.seq.run }

/-- Every matrix barrier tested, after a group ended or RUN became 0 (R127). -/
def Block.testMBars (b : Block) (live : Mask) : Block := (List.range 8).foldl (fun b n => b.onMBar live n id) b

/-- The groups of the focused block that have not ended, the focused one among them. -/
def State.liveAll (s : State) : Mask := liveGroups (s.grp :: s.blk.groups)

/-- `mbar.arr n` (R127, R198, R271). -/
def execMbarArr (n : Fin 8) (s : State) : Res :=
  s.reporting s.accessReport fun t =>
    let x := t.blk.mbar n
    if inM x.arr t.grp.idx then .next (t.waitFor (.mbarArrive n))
    else .next { t with
      grp := { t.grp with mbarPhase := Sparse.put 0 t.grp.mbarPhase n (x.phase.toNat + 1) }
      blk := t.blk.onMBar t.liveAll n fun y => { y with arr := setLane y.arr t.grp.idx true } : State }.advance

/-- `mbar.wait n`; a stream halt traps here (R127, R146, R198). -/
def execMbarWait (n : Fin 8) (s : State) : Res :=
  s.reporting (fun r => r.bit = 0) fun t =>
    if Sparse.get 0 t.grp.mbarPhase n = (t.blk.mbar n).phase.toNat + 1 then .next (t.waitFor (.mbar n))
    else .next t.advance

/-! ## The end of a group (R127, R197) -/

/-- The barriers of a block after group g ended; `live` are the groups that have not (R127, R197). -/
def Block.leaveBars (b : Block) (g : Nat) (live : Mask) : Block :=
  ((List.range 16).foldl (fun b n => b.setBar n ((b.bar n).leave g)) b).testMBars live

end Sys2Proof.Machine
end

