-- ==== Sys2Proof/Machine/Forks.lean ====
section
/-! DEFINITION. What a failed allocation does to a fork (15 R320), when a child stops being restartable (R319), and the jobs
that a discard waits for (16 R340). -/

namespace Sys2Proof.Machine

open Sys2Proof

/-! ## Exhaustion (R320) -/

/-- Every unmerged child of index lo to hi - 1 that is not lost is restartable (R320). -/
def Fork.allRestartable (f : Fork) (lo hi : Nat) : Bool :=
  f.children.all fun c => !(decide (lo ≤ c.idx) && decide (c.idx < hi)) || c.state = .merged || c.state = .lost || c.restartable

/-- The children lo to hi - 1 of the fork of block b are discarded and the fork takes its next state (R320). -/
def failAt (d : Dev) (b lo hi : Nat) (again : Bool) : Dev :=
  let d := discardChildren d b lo hi
  modFork d b fun f => if again then { f with state := .fallback, rerun := lo } else { f with state := .failing, failb := lo }

/-- An allocation fails for a child of another package's fork: it ends here, and the fork decides there (R309, R320). -/
def failAway (d : Dev) (f : Fork) (i : Nat) : Dev :=
  let d := match f.home with
    | some (src, b, run) => childSay d src f.owner b i run 1
    | none => d
  let d := discardChildren d f.block i (i + 1)
  ((forkOf d f.block).map (freeFork d)).getD d

/-- An allocation fails for a party with this chain, innermost fork first (R320): in SERIAL a nested fork passes the
failure to the fork that encloses it. -/
def exhaust (d : Dev) : List (Nat × Nat) → Dev
  | [] => d
  | (b, i) :: outer => match forkOf d b with
    | none => d
    | some f => if f.home.isSome then failAway d f i else match f.state with
      | .running => failAt d b i f.fr.nch (f.allRestartable i f.fr.nch)
      | .fallback => failAt d b i f.rerun (f.allRestartable i f.rerun)
      | .serial => match outer with
        | [] => failAt d b f.m (f.m + 1) false
        | _ :: _ => exhaust d outer
      | .failing => if i < f.failb then failAt d b i f.failb false else d
      | .joined => d

/-- The focused block's allocation failed: the failing access does not issue (R311, R320). -/
def State.exhausted (s : State) : State :=
  let c := s.chain
  s.unfocus.onDev fun d => exhaust d c

/-- Children of the fork of block b that still may run: below FAILB while it fails (R320). -/
def Fork.bound (f : Fork) : Nat := if f.state = .failing then f.failb else f.fr.nch

/-- Jobs of discarded children of the fork, or of their descendants, still run (R340). -/
def orphansRun (d : Dev) (f : Fork) : Bool :=
  d.jobs.any fun j => j.orphan && !j.dropped && !j.performed && j.chain.any fun c => c.1 = f.block

end Sys2Proof.Machine
end

