-- ==== Sys2Proof/Machine/Access.lean ====
section
/-! DEFINITION. One access of a party to memory: its checks (13 R269, 15 R305, R310, 12 R255, 14 R303), the operation of an
atomic (13 R276), and where a load, store or atomic is performed (12 R250, 13 R275, 15 R310, 17 R351). -/

namespace Sys2Proof.Machine

open Sys2Proof

/-! ## Checks of one address -/

/-- What an access is, as far as its checks and its ordering go. -/
structure Access where
  acc : Acc
  size : Nat
  /-- Scope of an atomic's space check (R275); `.sys` for the others. -/
  scope : Scope := .sys
  /-- A sequentially consistent atomic (R279). -/
  sc : Bool := false
  /-- An order-sensitive member (R280). -/
  sensitive : Bool := false
  /-- Release before, acquire after, at a scope (R252). -/
  rel : Option Scope := none
  acq : Option Scope := none
  deriving DecidableEq, Repr

/-- The outcome of check 3 for one address (R269): performed at `pa`, a trap (`obj`: of a READ object), or a replayable
fault. -/
inductive Check where
  | ok (l : Leaf) (pa : Nat)
  | hard (c : Cause) (obj : Bool)
  | soft (kind lvl e : Nat)
  deriving DecidableEq, Repr

def Check.isHard : Check → Bool
  | .hard _ _ => true
  | .ok _ _ | .soft _ _ _ => false

/-- The cause of a trap of check 3. -/
def Check.cause : Check → Cause
  | .hard c _ => c
  | .ok _ _ | .soft _ _ _ => 0

def Check.isSoft : Check → Bool
  | .soft _ _ _ => true
  | .ok _ _ | .hard _ _ => false

/-- The kind of a replayable fault. -/
def Check.kind : Check → Nat
  | .soft k _ _ => k
  | .ok _ _ | .hard _ _ => 0

/-- The key under which the block accesses memory. -/
def State.key (s : State) : Nat := keyOf s.dev s.blk.shape.owner

/-- The address lies in a READ object of the block (R255). -/
def State.inReadObject (s : State) (pa : Nat) : Bool :=
  s.dev.objs.any fun o => o.block = s.blk.key && !o.priv && inObj o (pa / 128) s.key

/-- The block has an open fork (R310). -/
def State.forking (s : State) : Bool := (forkOf s.dev s.blk.key).isSome

/-- Check 3 of R269 for one address, with the rules for view pages and READ objects (R255, R310). -/
def State.checkVa (s : State) (a : Acc) (va : Nat) : Check :=
  match xlat s.dev s.blk.shape.owner va a s.slot.wait.tag with
  | .trap c => .hard c false
  | .park k lvl e => .soft k lvl e
  | .ok l pa =>
    if a.writes && l.kind = .view && s.forking then .hard cFORK_PARENT_WRITE false
    else if a.writes && l.kind != .remote && s.inReadObject pa then .hard cPROTECTION true
    else .ok (if a.writes then l else readLeaf s.dev l va s.chain) pa

/-- A block whose one group is whole shares its scratchpad and its view pages with nobody (R303). -/
def State.alone (s : State) : Bool := s.blk.shape.groups = 1 && !s.split

/-- Check 4: an atomic to the host window, or to a remote page below system scope (R275). -/
def Access.badSpace (a : Access) (c : Check) : Bool :=
  match c with
  | .ok l pa => a.acc = .atomic && (isHost pa || (l.kind = .remote && (a.sc || a.scope != .sys)))
  | .hard _ _ | .soft _ _ _ => false

/-- Check 5: an order-sensitive member at a shared location of a strict launch (R280, R303). -/
def State.unsettled (s : State) (a : Access) (c : Check) : Bool :=
  match c with
  | .ok l _ => s.blk.shape.strict && a.sensitive && !(s.alone && l.kind = .view && s.blk.child.isSome)
  | .hard _ _ | .soft _ _ _ => false

/-! ## Checks of a lane instruction (R269) -/

/-- TRAPINFO1 of a failure of check 3: 1 for a READ object, else the address (R255, R269). -/
def Check.info (c : Check) (va : Nat) : DWord :=
  match c with
  | .hard _ true => 1
  | .hard _ false | .ok _ _ | .soft _ _ _ => dw va

/-- A replayable fault of check 3: the lowest failing lane names it (R269). -/
def State.parkCheck (s : State) (c : Check) (m : Mask) (va : Nat → Nat) (a : Acc) : State :=
  match c with
  | .soft k lvl e => s.park (va (lowest m)) k lvl e a m
  | .ok _ _ | .hard _ _ => s

/-- The checks of R269 over the lanes of T, as the state that a failure leaves. -/
def State.laneChecks (s : State) (a : Access) (T : Mask) (va : Nat → Nat) : Option State :=
  let out := fun L => s.checkVa a.acc (va L)
  let where' := fun (p : Nat → Bool) => maskOf fun L => inM T L && p L
  let mis := where' fun L => va L % a.size != 0
  let hard := (s.trapLanes (where' fun L => (out L).isHard)).1
  let soft := where' fun L => (out L).isSoft
  let space := where' fun L => a.badSpace (out L)
  let strict := where' fun L => s.unsettled a (out L)
  if mis != 0 then some (s.trapLane cMISALIGNED mis fun m => (dw (va (lowest m)), 0, 0))
  else if hard != 0 then
    let cause := (out (lowest hard)).cause
    some (s.trapLane cause (maskOf fun L => inM hard L && (out L).cause = cause) fun m =>
      ((out (lowest m)).info (va (lowest m)), 0, 0))
  else if soft != 0 then
    let c := out (lowest soft)
    some (s.parkCheck c (maskOf fun L => inM soft L && (out L).kind = c.kind) va a.acc)
  else if space != 0 then some (s.trapLane cATOMIC_SPACE space fun m => (dw (va (lowest m)), 0, 0))
  else if strict != 0 then some (s.trapLane cNONDETERMINISTIC_OP strict fun m => (dw (va (lowest m)), 0, 0))
  else none

/-- The checks of R269 for a uniform access, TRAPMASK 0 (R281). -/
def State.uniChecks (s : State) (a : Access) (va : Nat) : Option State :=
  let c := s.checkVa a.acc va
  let trap := fun (cause : Cause) => some (s.trapMask cause 0 s.wordInfo (dw va) 0 0)
  if va % a.size != 0 then trap cMISALIGNED
  else match c with
    | .hard cause obj => some (s.trapMask cause 0 s.wordInfo (if obj then 1 else dw va) 0 0)
    | .soft k lvl e => some (s.park va k lvl e a.acc 0)
    | .ok _ _ =>
      if a.badSpace c then trap cATOMIC_SPACE
      else if s.unsettled a c then trap cNONDETERMINISTIC_OP
      else none

/-! ## The range scoreboard (R283) -/

/-- Ranges of one kind overlap [lo, hi). -/
def hitsRange (l : List (Bool × Nat × Nat)) (scratch : Bool) (lo hi : Nat) : Bool :=
  l.any fun r => r.1 = scratch && decide (r.2.1 < hi) && decide (lo < r.2.2)

/-- An access of the block overlaps an entry of its range scoreboard (R283). -/
def State.rangeHit (s : State) (writes scratch : Bool) (lo hi : Nat) : Bool :=
  s.dev.ranges.any fun r => r.block = s.blk.key &&
    (hitsRange r.writes scratch lo hi || (writes && hitsRange r.reads scratch lo hi))

/-- The access stalls on the range scoreboard; RSBSTALL counts the stall (R283). -/
def State.stallRange (s : State) : State :=
  (s.onDev fun d => { d with rsbStall := Sparse.upd 0 d.rsbStall s.blk.core (· + 1) }).waitFor .scoreboard

/-! ## The operation of an atomic (R276) -/

/-- The signed value of n bytes. -/
def signedOf (n x : Nat) : Int := sext x (8 * n)

/-- The new value of an atomic at n bytes: `x` is the data, or the value to compare, and `y` the new value of a
compare and swap (R276). -/
def atomNew (op : AtomOp) (n old x y : Nat) : Nat :=
  let m := 2 ^ (8 * n)
  match op with
  | .add => (old + x) % m
  | .min => if signedOf n x < signedOf n old then x % m else old
  | .max => if signedOf n old < signedOf n x then x % m else old
  | .minn => if x % m < old then x % m else old
  | .maxn => if old < x % m then x % m else old
  | .and => old &&& x
  | .or => old ||| x % m
  | .xor => old ^^^ x % m
  | .exch => x % m
  | .cas => if old = x % m then y % m else old
  | .fadd => (addF f32 old (x % m)).1

/-- The operation depends on the order in which it is performed (R280). -/
def orderSensitive : AtomOp → Bool
  | .exch | .cas | .fadd => true
  | .add | .min | .max | .minn | .maxn | .and | .or | .xor => false

/-! ## Where an access is performed -/

/-- The party of an access: core, cluster, owner key, and its chain of forks. -/
structure Who where
  core : Nat
  cl : Nat
  key : Nat
  chain : List (Nat × Nat)
  deriving DecidableEq, Repr

/-- The focused block as a party. -/
def State.who (s : State) : Who := ⟨s.blk.core, s.blk.cluster, s.key, s.chain⟩

/-- The path of a load (R250, R272); `record` is the layout-record cache (R300). -/
inductive Via where
  | plain (strm : Bool)
  | constant
  | readOnly
  | record
  deriving DecidableEq, Repr

/-- Sectors of a shadow under n bytes at an offset are poisoned. -/
def Shadow.poisonedAt (x : Shadow) (off n : Nat) : Bool :=
  Sparse.get false x.bad (off / 32) || Sparse.get false x.bad ((off + n - 1) / 32)

/-- What a child sees of a page of its forks, where that is not memory (R310). -/
def viewRead (d : Dev) (w : Who) (l : Leaf) (va n : Nat) : Option (List Byte × Bool) :=
  if l.kind != .view then none
  else
    let off := va % 2 ^ 16
    match viewSource d l.redop (va / 2 ^ 16) w.chain with
    | .memory => none
    | .identity => some ((List.range n).map fun i => idByte l.redop (off + i), false)
    | .page x => some ((List.range n).map fun i => x.read (off + i), x.poisonedAt off n)

/-- A load of n bytes of one line: its bytes, and whether it met poison (R250, R265, R272). -/
def loadAt (d : Dev) (w : Who) (v : Via) (l : Leaf) (va pa n : Nat) : Dev × List Byte × Bool :=
  match viewRead d w l va n with
  | some r => (d, r)
  | none => match v with
    | .plain strm =>
      let r := loadBytes d w.core w.cl w.key pa n strm
      (r.1, r.2, loadBad d w.core w.cl w.key pa n)
    | .constant => loadConst d w.core w.cl w.key pa n
    | .readOnly =>
      let r := loadRo d w.core w.cl w.key pa n
      (r.1, r.2, inBad (roLine d w.core w.cl w.key pa).bad pa n)
    | .record => loadRecord d w.core w.cl w.key pa n

/-- The page is served by the party's own shadow (R310). -/
def inShadow (w : Who) (l : Leaf) : Option (Nat × Nat) := if l.kind = .view then w.chain.head? else none

/-- A store of bytes of one sector (R250, R310). -/
def storeAt (d : Dev) (w : Who) (l : Leaf) (va pa : Nat) (bytes : List Byte) (strm : Bool) : Dev :=
  match inShadow w l with
  | some c => storeShadow d c.1 c.2 (va / 2 ^ 16) (va % 2 ^ 16) bytes
  | none => storeBytes d w.core w.cl w.key pa bytes strm

/-- One access of an instruction: its lane, address, page and physical address. -/
structure LaneAcc where
  lane : Nat
  va : Nat
  leaf : Leaf
  pa : Nat
  deriving DecidableEq, Repr

/-- The bytes of sector s that a store of n bytes for each of xs writes, one bit a byte (R265). -/
def coverOf (xs : List LaneAcc) (n s : Nat) : Nat :=
  xs.foldl (fun m x => if x.pa / 32 = s then m ||| ((2 ^ n - 1) <<< (x.pa % 32)) else m) 0

/-- The sectors that one store instruction has written whole, in memory or in the party's shadow: their poison ends (R265). -/
def cleanWhole (d : Dev) (w : Who) (xs : List LaneAcc) (n : Nat) : Dev :=
  (xs.filter fun x => x.pa % 32 = 0 && coverOf xs n (x.pa / 32) = 2 ^ 32 - 1).foldl (fun d x =>
    match inShadow w x.leaf with
    | some c => cleanShadow d c.1 c.2 (x.va / 2 ^ 16) (x.va % 2 ^ 16 / 32)
    | none => cleanSector d w.core w.cl w.key x.pa) d

/-- An atomic at its home or in the party's shadow: the old value, or none at a poisoned sector, where nothing is
performed (R250, R276, R310, R420). -/
def atomAt (d : Dev) (w : Who) (l : Leaf) (va pa n : Nat) (op : AtomOp) (x y : Nat) : Dev × Option Nat :=
  match inShadow w l with
  | some c =>
    let off := va % 2 ^ 16
    match shadowAt d c.1 c.2 (va / 2 ^ 16) with
    | none => (d, none)
    | some sh =>
      if sh.poisonedAt off n then (d, none)
      else
        let old := natOf ((List.range n).map fun i => sh.read (off + i))
        (storeShadow d c.1 c.2 (va / 2 ^ 16) off (bytesOf (atomNew op n old x y) n), some old)
  | none =>
    let d := dropLine d w.core w.cl (pa / 128)
    if poisoned d pa n then (d, none)
    else
      let old := homeNat d w.key pa n
      (homeStore d w.key pa (bytesOf (atomNew op n old x y) n), some old)

/-! ## Before an access is performed -/

/-- The accesses of the lanes of T in increasing lane order (R270). -/
def State.laneAccs (s : State) (a : Acc) (T : Mask) (va : Nat → Nat) : List LaneAcc :=
  (lanesOf T).filterMap fun L => match s.checkVa a (va L) with
    | .ok l pa => some ⟨L, va L, l, pa⟩
    | .hard _ _ | .soft _ _ _ => none

/-- What an allocation for a page of the block needs (R311). -/
def State.pageReq (s : State) (x : LaneAcc) : PageReq :=
  ⟨s.blk.shape.owner, s.blk.launch, s.blk.shape.quota, s.blk.cluster, s.key, x.leaf.redop, x.va / 2 ^ 16, x.leaf.pa⟩

/-- The shadows that the writes of xs need, or none where an allocation fails (R311). -/
def State.makeRoom (s : State) (xs : List LaneAcc) : Option Dev :=
  let c := s.chain
  if c.isEmpty then some s.dev
  else xs.foldl (fun o x => o.bind fun d => if x.leaf.kind = .view then allocChain d (s.pageReq x) c else some d) (some s.dev)

/-- A request for n bytes of another package: of its memory, or of a page of its fork that a child here has not written (R309,
R351). -/
def State.askBody (s : State) (l : Leaf) (id va pa n : Nat) (op : RemoteOp) (data : List Byte) : PacketBody :=
  match if l.held.kind = .view then (awayFork s.dev s.chain).bind (·.home) else none with
  | some (_, b, _) => .viewAsk id b ((s.chain.getLast?.map (·.2)).getD 0) va n false
  | none => .request id op pa n data

/-- The first page that a write of a child of another package's fork needs from there (R309, R311). -/
def State.pageToFetch (s : State) (xs : List LaneAcc) : Option (Fork × LaneAcc) :=
  (awayFork s.dev s.chain).bind fun f =>
    (xs.find? fun x => x.leaf.kind = .view && !isReduction x.leaf.redop && (pageAt f.twins (x.va / 2 ^ 16)).isNone).map fun x => (f, x)

/-- The page is asked for in pieces of 4 KiB; the slot holds until it is here, and traps where it does not come (R309, R354). -/
def State.askPage (s : State) (f : Fork) (x : LaneAcc) : State :=
  match s.slot.wait with
  | .denied t => s.raise { cause := t.cause, mask := s.slot.act, path := s.wholePath, info0 := s.wordInfo, info1 := t.addr,
                           info2 := dw t.pkg, info3 := dw t.stamp }
  | .remote _ => s
  | _ =>
    let id := s.dev.nextId
    let h := f.home.getD (0, 0, 0)
    let idx := (s.chain.getLast?.map (·.2)).getD 0
    let vpn := x.va / 2 ^ 16
    let come : Shadow := { redop := x.leaf.redop, pa := x.leaf.pa, shared := true }
    let s := s.onDev fun d => modFork d f.block fun f => { f with coming := (vpn, come) :: f.coming.filter fun e => e.1 ≠ vpn }
    let ask := fun (d : Dev) (i : Nat) =>
      let va := vpn * 2 ^ 16 + 4096 * i
      let p := mkPacket d h.1 s.blk.shape.owner 0 (.viewAsk (id + i) h.2.1 idx va 4096 true)
      let o : Outstanding :=
        { id := id + i, purpose := .page, block := s.blk.key, gidx := s.grp.idx, pend := id, pslot := b2n s.k
          deadline := p.deadline, target := h.1, addr := dw va, bytes := 4096 }
      sendPacket { d with outstanding := d.outstanding ++ [o] } p
    (s.onDev fun d => (List.range 16).foldl ask { d with nextId := id + 16 }).waitFor (.remote id)

/-- The shadows that the writes of xs need, or the state in which the access does not issue (R309, R311). -/
def State.reserve (s : State) (xs : List LaneAcc) : Except State Dev :=
  match s.pageToFetch xs with
  | some (f, x) => .error (s.askPage f x)
  | none => match s.makeRoom xs with
    | none => .error s.exhausted
    | some d => .ok d

/-- The translations of xs are held (R382); a child that writes outside view pages stops being restartable (R319). -/
def State.noteAccess (s : State) (a : Acc) (xs : List LaneAcc) : State :=
  let s := s.onDev fun d => xs.foldl (fun d x => keepLeaf d s.blk.shape.owner x.va x.leaf) d
  if a.writes && xs.any fun x => x.leaf.kind != .view then s.notRestartable else s

/-- What stands before the accesses of an instruction that passed its checks: the range scoreboard, the shadows, and the
acknowledgements that a release at system scope awaits (R252, R283, R311). -/
def State.ready (s : State) (a : Access) (xs : List LaneAcc) : Except State State :=
  if xs.any fun x => s.rangeHit a.acc.writes false x.va (x.va + a.size) then .error s.stallRange
  else if a.rel = some .sys && s.fabricBusy then .error (s.waitFor .ops)
  else if !a.acc.writes then .ok (s.noteAccess a.acc xs)
  else match s.reserve xs with
    | .error t => .error t
    | .ok d => .ok (({ s with dev := d }).noteAccess a.acc xs)

/-- The release of an access, if it is one (R252). -/
def State.releaseFor (s : State) (a : Access) : State :=
  match a.rel with
  | some sc => s.release sc
  | none => s

/-- The acquire of an access, if it is one (R252). -/
def State.acquireFor (s : State) (a : Access) : State :=
  match a.acq with
  | some sc => s.acquire sc
  | none => s

/-! ## Remote accesses (R351-R354) -/

/-- What a remote access asks for: the operation and the data that go with it. -/
structure Remote where
  op : RemoteOp
  data : List Byte
  deriving DecidableEq, Repr

/-- One request to another package, for counted operation `pend` (R351, R353). -/
def State.sendRemote (s : State) (pend : Nat) (x : LaneAcc) (a : Access) (r : Remote) (keys : List Nat)
    (signed : Bool) : State :=
  s.onDev fun d =>
    let id := d.nextId
    let p := mkPacket d x.leaf.peer s.blk.shape.owner 0 (s.askBody x.leaf id x.va x.pa a.size r.op r.data)
    let o : Outstanding :=
      { id := id, purpose := .access, block := s.blk.key, gidx := s.grp.idx, pend := pend, pslot := b2n s.k,
        deadline := p.deadline, target := x.leaf.peer, addr := dw x.va, keys := keys, bytes := a.size, signed := signed,
        returns := !keys.isEmpty, acq := a.acq }
    sendPacket { d with nextId := id + 1, outstanding := d.outstanding ++ [o] } p

end Sys2Proof.Machine
end

