-- ==== Sys2Proof/Machine/LaneMem.lean ====
section
/-! DEFINITION. Lane memory instructions (13 R267-R280): loads, stores, prefetch, atomics and reductions, in memory and in
the scratchpad. -/

namespace Sys2Proof.Machine

open Sys2Proof

/-! ## Sizes and addresses (R268) -/

/-- Bytes of an access size. -/
def sizeBytes : Size → Nat
  | .x8 | .s8 => 1
  | .x16 | .s16 => 2
  | .b32 => 4
  | .b64 => 8
  | .b128 => 16

/-- Registers that a size takes. -/
def sizeRegs : Size → Nat
  | .b64 => 2
  | .b128 => 4
  | .x8 | .s8 | .x16 | .s16 | .b32 => 1

/-- The bytes of a load, widened to its registers (R268). -/
def widen (z : Size) (bytes : List Byte) : List Word :=
  let x := natOf bytes
  match z with
  | .x8 | .x16 => [BitVec.ofNat 32 x]
  | .s8 => [wrap32 (sext x 8)]
  | .s16 => [wrap32 (sext x 16)]
  | .b32 | .b64 | .b128 => wordsFrom bytes

/-- The address of lane L of a global member (R268). -/
def State.gva (s : State) (a : VReg) (f : BitVec 5) (z : Size) (L : Nat) : Nat :=
  (s.rv2 L a + wrap64 (f.toInt * sizeBytes z)).toNat

/-- The offset of lane L of a scratchpad member, exact (R268). -/
def State.sof (s : State) (a : VReg) (f : BitVec 5) (z : Size) (L : Nat) : Int := (s.rv L a).toNat + f.toInt * sizeBytes z

/-- n words of lane L from register r on. -/
def State.laneWords (s : State) (L r n : Nat) : List Word := (List.range n).map fun i => s.rv L (r + i)

/-- The low bytes of the register operand of a store (R273). -/
def State.laneData (s : State) (L r : Nat) (z : Size) : List Byte :=
  ((s.laneWords L r (sizeRegs z)).flatMap wordBytes).take (sizeBytes z)

/-- n bytes of the operand from register r on, as a number. -/
def State.laneNat (s : State) (L r n : Nat) : Nat := natOf (((s.laneWords L r (ceilDiv n 4)).flatMap wordBytes).take n)

/-! ## What a lane instruction gathers -/

/-- Effects of the lanes performed so far: the package, register words and poison tags for completion, and failed
accesses without return. -/
structure Gather where
  dev : Dev
  vals : List (Nat × Word) := []
  tags : List (Nat × Tag) := []
  lost : List Nat := []
  deriving DecidableEq, Repr

/-- The register keys that lane L writes, n registers from d. -/
def State.laneKeys (s : State) (L d n : Nat) : List Nat := (List.range n).map fun i => s.vkey L (d + i)

/-- A lane's result, or poison tags on its registers (R271). -/
def Gather.put (g : Gather) (d : Dev) (keys : List Nat) (ws : List Word) (bad : Option Tag) : Gather :=
  match bad with
  | some t => { g with dev := d, tags := g.tags ++ keys.map fun k => (k, t) }
  | none => { g with dev := d, vals := g.vals ++ keys.zip ws }

/-- The poison tag of a local access (R271). -/
def State.poisonTag (s : State) (va : Nat) : Tag := ⟨cPOISON_CONSUMED, dw va, 0, s.dev.time⟩

/-- Accesses to another package among those of the instruction. -/
def remotes (xs : List LaneAcc) : List LaneAcc := xs.filter fun x => x.leaf.kind = .remote

/-- Accesses performed in this package. -/
def locals (xs : List LaneAcc) : List LaneAcc := xs.filter fun x => x.leaf.kind != .remote

/-- The deferred report of a poisoned access without return (R271, R420). -/
def State.poisonReport (s : State) (va flag : Nat) : Report :=
  { bit := 4, cause := cPOISON_CONSUMED, slot := b2n s.k, flag := flag, info1 := dw va, info3 := dw s.dev.time }

/-- A counted operation after its lanes were performed: what lands at completion, and the requests to other packages
(R26, R267, R353). -/
def State.issueMem (s : State) (setA : Bool) (a : Access) (xs : List LaneAcc) (g : Gather) (keys : Nat → List Nat)
    (signed : Bool) (req : Nat → Remote) : State :=
  let far := remotes xs
  let id := g.dev.nextId
  let s := { s with dev := g.dev }
  let s := s.count setA fun e => { e with
    ext := !far.isEmpty, vkeys := xs.flatMap fun x => keys x.lane, vals := g.vals, tags := g.tags
    addr := dw ((far.head?.map (·.va)).getD 0) }
  let s := far.foldl (fun s x => s.sendRemote id x a (req x.lane) (keys x.lane) signed) s
  s.onGrp fun k => (g.lost.head?.map fun va => k.defer (s.poisonReport va (s.flagOf setA))).getD k

/-- An access that acquires and has reached another package stands at its instruction until the answers are in; then it acquires
and the slot goes on (R287-R289; log 30). -/
def State.laneAcquired (s : State) (a : Access) : State :=
  if s.grp.pend.any fun e => e.id + 1 = s.slot.micro then s.waitFor .ops else (s.acquireFor a).advance

/-- The slot after its accesses were issued: it goes on, or stays with an acquire that waits for another package. -/
def State.laneIssued (s : State) (a : Access) (xs : List LaneAcc) : State :=
  match s.grp.pend.getLast? with
  | some e => if a.acq.isSome && e.ext && !(remotes xs).isEmpty then
      (s.onSlot fun x => { x with micro := e.id + 1 }).waitFor .ops
    else (s.acquireFor a).advance
  | none => (s.acquireFor a).advance

/-- A global lane instruction: stalls, checks, then `f` on its accesses (R267, R269). An instruction with no lane
taking part completes at once (R26, R27). -/
def State.laneMem (s : State) (setA : Bool) (a : Access) (rd wr : List Opnd) (va : Nat → Nat)
    (f : State → List LaneAcc → State) : Res :=
  if a.acq.isSome && s.slot.micro ≠ 0 then .next (s.laneAcquired a)
  else if s.flagFull setA then .next (s.waitFor .flagFull)
  else if s.part = 0 then .next s.advance
  else match s.blocked s.part rd wr with
  | some t => .next t
  | none => match s.laneChecks a s.part va with
  | some t => .next t
  | none =>
    let xs := s.laneAccs a.acc s.part va
    match s.ready a xs with
    | .error t => .next t
    | .ok t => .next ((f ((t.consume s.part rd).releaseFor a) xs).laneIssued a xs)

/-! ## Loads and stores -/

/-- A load by a path (R272). -/
def State.loadLanes (s : State) (v : Via) (acq : Option Scope) (d a : VReg) (f : BitVec 5) (z : Size) : Res :=
  let ac : Access := { acc := .read, size := sizeBytes z, acq := acq }
  let n := sizeRegs z
  s.laneMem true ac [.v a 2] [.v d n] (s.gva a f z) fun t xs =>
    let keys := fun L => t.laneKeys L d n
    let g := (locals xs).foldl (fun (g : Gather) x =>
      let r := loadAt g.dev t.who v x.leaf x.va x.pa ac.size
      g.put r.1 (keys x.lane) (widen z r.2.1) (if r.2.2 then some (t.poisonTag x.va) else none)) { dev := t.dev }
    t.issueMem true ac xs g keys (z = .s8 || z = .s16) fun _ => ⟨.load, []⟩

/-- A store (R273). -/
def State.storeLanes (s : State) (strm : Bool) (rel : Option Scope) (d a : VReg) (f : BitVec 5) (z : Size) : Res :=
  let ac : Access := { acc := .write, size := sizeBytes z, rel := rel }
  s.laneMem false ac [.v a 2, .v d (sizeRegs z)] [] (s.gva a f z) fun t xs =>
    let g := (locals xs).foldl (fun (g : Gather) x =>
      { g with dev := storeAt g.dev t.who x.leaf x.va x.pa (t.laneData x.lane d z) strm }) { dev := t.dev }
    t.issueMem false ac xs { g with dev := cleanWhole g.dev t.who (locals xs) ac.size } (fun _ => []) false fun L =>
      ⟨.store, t.laneData L d z⟩

/-- `ld[.strm].SZ` (R272). -/
def execLd (d a : VReg) (f : BitVec 5) (z : Size) (c : Bool) (s : State) : Res := s.loadLanes (.plain c) none d a f z

/-- `st[.strm].SZ` (R273). -/
def execSt (d a : VReg) (f : BitVec 5) (z : Size) (c : Bool) (s : State) : Res := s.storeLanes c none d a f z

/-- `ld.acq.SCOPE.SZ` (R272). -/
def execLdAcq (d a : VReg) (c : Scope) (z : Size) (s : State) : Res := s.loadLanes (.plain false) (some c) d a 0 z

/-- `st.rel.SCOPE.SZ` (R273). -/
def execStRel (d a : VReg) (c : Scope) (z : Size) (s : State) : Res := s.storeLanes false (some c) d a 0 z

/-- `ldc.SZ` (R254, R272). -/
def execLdc (d a : VReg) (f : BitVec 5) (z : Size) (_c : Bool) (s : State) : Res := s.loadLanes .constant none d a f z

/-- `ldro.SZ` (R254, R272). -/
def execLdro (d a : VReg) (f : BitVec 5) (z : Size) (_c : Bool) (s : State) : Res := s.loadLanes .readOnly none d a f z

/-! ## Prefetch (R274) -/

/-- The prefetch of one address; what fails translation or permission is dropped. -/
def State.prefetchVa (s : State) (va : Nat) (strm : Bool) (d : Dev) : Dev :=
  match xlatRaw d s.blk.shape.owner va .read with
  | .ok l pa => if l.kind = .remote then d else prefetch (keepLeaf d s.blk.shape.owner va l) s.blk.core s.blk.cluster s.key pa strm
  | .trap _ | .park _ _ _ => d

/-- `pf[.strm].SZ`: it waits for its address registers and raises no trap, so a lane whose address it cannot read is
left out. -/
def execPf (a : VReg) (f : BitVec 5) (z : Size) (c : Bool) (s : State) : Res :=
  let rd := [Opnd.v a 2]
  let T := s.part &&& ~~~ s.badNames s.part rd
  if T != 0 && s.pendingOn T rd then .next (s.stallPending T rd)
  else
    let T := T &&& ~~~ s.taggedLanes T rd
    if (s.heldReg T rd fun h => h.conf != 0).isSome then .next s.advance
    else match s.blocked T rd [] with
    | some t => .next t
    | none => .next ((s.consume T rd).onDev fun d => forLanes T (fun L d => s.prefetchVa (s.gva a f z L) c d) d).advance

/-! ## Atomics and reductions (R275-R277, R279) -/

/-- Bytes of an atomic: 8 for `b64`. -/
def atomBytes (wide : Bool) : Nat := if wide then 8 else 4

/-- Release and acquire of an ORD (R275). -/
def ordRel (o : Ord) (c : Scope) : Option Scope :=
  match o with
  | .rel | .ar => some c
  | .rlx | .acq => none

def ordAcq (o : Ord) (c : Scope) : Option Scope :=
  match o with
  | .acq | .ar => some c
  | .rlx | .rel => none

/-- Registers of the data of an atomic: compare and swap takes the new value too. -/
def atomRegs (op : AtomOp) (n : Nat) : Nat := if op = .cas then n / 2 else n / 4

/-- The access of a global atomic or reduction. -/
def atomAccess (op : AtomOp) (wide : Bool) (c : Scope) (o : Ord) (sc : Bool) : Access :=
  { acc := .atomic, size := atomBytes wide, scope := c, sc := sc, sensitive := orderSensitive op, rel := ordRel o c, acq := ordAcq o c }

/-- A global atomic with return (R276). -/
def State.atomLanes (s : State) (op : AtomOp) (wide : Bool) (c : Scope) (o : Ord) (sc : Bool) (d a : VReg) : Res :=
  let ac := atomAccess op wide c o sc
  let n := ac.size
  s.laneMem true ac [.v a 2, .v d (atomRegs op n)] [.v d (n / 4)] (s.gva a 0 .x8) fun t xs =>
    let keys := fun L => t.laneKeys L d (n / 4)
    let x := fun L => t.laneNat L d n
    let y := fun L => t.laneNat L (d + n / 4) n
    let t := if sc then t.onDev fun k => { k with tickets := k.tickets + xs.length } else t
    let g := (locals xs).foldl (fun (g : Gather) e =>
      let r := atomAt g.dev t.who e.leaf e.va e.pa n op (x e.lane) (if op = .cas then y e.lane else 0)
      g.put r.1 (keys e.lane) (wordsFrom (bytesOf (r.2.getD 0) n)) (if r.2.isNone then some (t.poisonTag e.va) else none))
      { dev := t.dev }
    t.issueMem true ac xs g keys false fun L =>
      ⟨.atomic op, bytesOf (x L) n ++ if op = .cas then bytesOf (y L) n else []⟩

/-- A reduction: no value returns (R277). -/
def State.redLanes (s : State) (op : AtomOp) (wide : Bool) (c : Scope) (rel : Bool) (d a : VReg) : Res :=
  let ac := atomAccess op wide c (if rel then .rel else .rlx) false
  let n := ac.size
  s.laneMem false ac [.v a 2, .v d (n / 4)] [] (s.gva a 0 .x8) fun t xs =>
    let x := fun L => t.laneNat L d n
    let g := (locals xs).foldl (fun (g : Gather) e =>
      let r := atomAt g.dev t.who e.leaf e.va e.pa n op (x e.lane) 0
      { g with dev := r.1, lost := if r.2.isNone then g.lost ++ [e.va] else g.lost }) { dev := t.dev }
    t.issueMem false ac xs g (fun _ => []) false fun L => ⟨.atomic op, bytesOf (x L) n⟩

/-- `atom.add` (R276). -/
def execAtomAdd (d a : VReg) (c : Scope) (o : Ord) (z : Bool) (s : State) : Res := s.atomLanes .add z c o false d a
/-- `atom.min`, signed (R276). -/
def execAtomMin (d a : VReg) (c : Scope) (o : Ord) (z : Bool) (s : State) : Res := s.atomLanes .min z c o false d a
/-- `atom.max`, signed (R276). -/
def execAtomMax (d a : VReg) (c : Scope) (o : Ord) (z : Bool) (s : State) : Res := s.atomLanes .max z c o false d a
/-- `atom.minn`, unsigned (R276). -/
def execAtomMinn (d a : VReg) (c : Scope) (o : Ord) (z : Bool) (s : State) : Res := s.atomLanes .minn z c o false d a
/-- `atom.maxn`, unsigned (R276). -/
def execAtomMaxn (d a : VReg) (c : Scope) (o : Ord) (z : Bool) (s : State) : Res := s.atomLanes .maxn z c o false d a
/-- `atom.and` (R276). -/
def execAtomAnd (d a : VReg) (c : Scope) (o : Ord) (z : Bool) (s : State) : Res := s.atomLanes .and z c o false d a
/-- `atom.or` (R276). -/
def execAtomOr (d a : VReg) (c : Scope) (o : Ord) (z : Bool) (s : State) : Res := s.atomLanes .or z c o false d a
/-- `atom.xor` (R276). -/
def execAtomXor (d a : VReg) (c : Scope) (o : Ord) (z : Bool) (s : State) : Res := s.atomLanes .xor z c o false d a
/-- `atom.exch` (R276). -/
def execAtomExch (d a : VReg) (c : Scope) (o : Ord) (z : Bool) (s : State) : Res := s.atomLanes .exch z c o false d a
/-- `atom.cas` (R276). -/
def execAtomCas (d a : VReg) (c : Scope) (o : Ord) (z : Bool) (s : State) : Res := s.atomLanes .cas z c o false d a
/-- `atom.fadd`, b32 (R276). -/
def execAtomFadd (d a : VReg) (c : Scope) (o : Ord) (s : State) : Res := s.atomLanes .fadd false c o false d a

/-- `red.add` (R277). -/
def execRedAdd (d a : VReg) (c : Scope) (o z : Bool) (s : State) : Res := s.redLanes .add z c o d a
/-- `red.fadd`, b32 (R277). -/
def execRedFadd (d a : VReg) (c : Scope) (o : Bool) (s : State) : Res := s.redLanes .fadd false c o d a
/-- `red.min`, signed (R277). -/
def execRedMin (d a : VReg) (c : Scope) (o z : Bool) (s : State) : Res := s.redLanes .min z c o d a
/-- `red.max`, signed (R277). -/
def execRedMax (d a : VReg) (c : Scope) (o z : Bool) (s : State) : Res := s.redLanes .max z c o d a
/-- `red.or` (R277). -/
def execRedOr (d a : VReg) (c : Scope) (o z : Bool) (s : State) : Res := s.redLanes .or z c o d a

/-- `atom.sc.add`: each lane takes a ticket (R279). -/
def execAtomScAdd (d a : VReg) (c : Scope) (z : Bool) (s : State) : Res := s.atomLanes .add z c .ar true d a
/-- `atom.sc.exch` (R279). -/
def execAtomScExch (d a : VReg) (c : Scope) (z : Bool) (s : State) : Res := s.atomLanes .exch z c .ar true d a
/-- `atom.sc.cas` (R279). -/
def execAtomScCas (d a : VReg) (c : Scope) (z : Bool) (s : State) : Res := s.atomLanes .cas z c .ar true d a

/-! ## The scratchpad (R253, R269, R278) -/

/-- Byte of the scratchpad. -/
def Block.sbyte (b : Block) (i : Nat) : Byte := Sparse.get 0 b.scratch i

/-- n bytes of the scratchpad. -/
def Block.sbytes (b : Block) (off n : Nat) : List Byte := (List.range n).map fun i => b.sbyte (off + i)

/-- A poisoned word lies under n bytes of the scratchpad (R265, R420). -/
def Block.spoison (b : Block) (off n : Nat) : Bool :=
  (List.range ((off + n + 3) / 4 - off / 4)).any fun i => Sparse.get false b.scratchBad (off / 4 + i)

/-- Bytes written into the scratchpad; a word written whole is no longer poisoned (R265). -/
def Block.swrite (b : Block) (off : Nat) (bytes : List Byte) : Block :=
  let n := bytes.length
  { b with
    scratch := bytes.zipIdx.foldl (fun t e => Sparse.put 0 t (off + e.2) e.1) b.scratch
    scratchBad := b.scratchBad.filter fun e => !(decide (off ≤ 4 * e.1) && decide (4 * e.1 + 4 ≤ off + n)) }

/-- Checks 1, 2 and 5 of R269 for a scratchpad member. -/
def State.scratchChecks (s : State) (T : Mask) (n : Nat) (sensitive : Bool) (off : Nat → Int) : Option State :=
  let at' := fun (m : Mask) => wrap64 (off (lowest m))
  let mis := maskOf fun L => inM T L && off L % n != 0
  let out := maskOf fun L => inM T L && (decide (off L < 0) || decide ((s.blk.shape.scrb : Int) < off L + n))
  if mis != 0 then some (s.trapLane cMISALIGNED mis fun m => (at' m, 0, 0))
  else if out != 0 then some (s.trapLane cSCRATCH_BOUNDS out fun m => (at' m, dw s.blk.shape.scrb, 0))
  else if sensitive && s.blk.shape.strict && !s.alone then some (s.trapLane cNONDETERMINISTIC_OP T fun m => (at' m, 0, 0))
  else none

/-- Effects of the lanes of a scratchpad member performed so far. -/
structure ScratchGather where
  blk : Block
  vals : List (Nat × Word) := []
  tags : List (Nat × Tag) := []
  deriving DecidableEq, Repr

/-- A scratchpad lane instruction: stalls, checks, then `f` for each lane in increasing order (R269, R270). -/
def State.laneScratch (s : State) (setA writes : Bool) (n : Nat) (sensitive : Bool) (rd wr : List Opnd)
    (off : Nat → Int) (f : State → Nat → Nat → ScratchGather → ScratchGather) : Res :=
  if s.flagFull setA then .next (s.waitFor .flagFull)
  else if s.part = 0 then .next s.advance
  else match s.blocked s.part rd wr with
  | some t => .next t
  | none => match s.scratchChecks s.part n sensitive off with
  | some t => .next t
  | none =>
    if (lanesOf s.part).any fun L => s.rangeHit writes true (off L).toNat ((off L).toNat + n) then .next s.stallRange
    else
      let t := s.consume s.part rd
      let g := forLanes s.part (fun L => f t L (off L).toNat) { blk := t.blk }
      .next (({ t with blk := g.blk }).count setA fun e => { e with
        vkeys := (lanesOf s.part).flatMap fun L => s.vkeysOf (setLane 0 L true) wr, vals := g.vals, tags := g.tags }).advance

/-- A lane's result from the scratchpad, or its poison tags. -/
def ScratchGather.put (g : ScratchGather) (b : Block) (keys : List Nat) (ws : List Word) (bad : Option Tag) : ScratchGather :=
  match bad with
  | some t => { g with blk := b, tags := g.tags ++ keys.map fun k => (k, t) }
  | none => { g with blk := b, vals := g.vals ++ keys.zip ws }

/-- The poison tag of a scratchpad word. -/
def State.scratchTag (s : State) (b : Block) (off n : Nat) : Option Tag :=
  if b.spoison off n then some (s.poisonTag off) else none

/-- `lds.SZ` (R272). -/
def execLds (d a : VReg) (f : BitVec 5) (z : Size) (_c : Bool) (s : State) : Res :=
  let n := sizeBytes z
  s.laneScratch true false n false [.v a 1] [.v d (sizeRegs z)] (s.sof a f z) fun t L off g =>
    g.put g.blk (t.laneKeys L d (sizeRegs z)) (widen z (g.blk.sbytes off n)) (t.scratchTag g.blk off n)

/-- `sts.SZ` (R273). -/
def execSts (d a : VReg) (f : BitVec 5) (z : Size) (_c : Bool) (s : State) : Res :=
  s.laneScratch false true (sizeBytes z) false [.v a 1, .v d (sizeRegs z)] [] (s.sof a f z) fun t L off g =>
    { g with blk := g.blk.swrite off (t.laneData L d z) }

/-- A scratchpad atomic (R278). -/
def State.scratchAtom (s : State) (op : AtomOp) (d a : VReg) : Res :=
  s.laneScratch true true 4 (orderSensitive op) [.v a 1, .v d (atomRegs op 4)] [.v d 1] (s.sof a 0 .x8) fun t L off g =>
    let old := natOf (g.blk.sbytes off 4)
    let b := g.blk.swrite off (bytesOf (atomNew op 4 old (t.laneNat L d 4) (if op = .cas then t.laneNat L (d + 1) 4 else 0)) 4)
    match t.scratchTag g.blk off 4 with
    | some x => g.put g.blk (t.laneKeys L d 1) [] (some x)
    | none => g.put b (t.laneKeys L d 1) [BitVec.ofNat 32 old] none

/-- `atoms.add` (R278); its ORD acts at block scope, where it needs nothing. -/
def execAtomsAdd (d a : VReg) (_c : Bool) (_o : Ord) (s : State) : Res := s.scratchAtom .add d a
/-- `atoms.cas` (R278). -/
def execAtomsCas (d a : VReg) (_c : Bool) (_o : Ord) (s : State) : Res := s.scratchAtom .cas d a
/-- `atoms.exch` (R278). -/
def execAtomsExch (d a : VReg) (_c : Bool) (_o : Ord) (s : State) : Res := s.scratchAtom .exch d a
/-- `atoms.fadd` (R278). -/
def execAtomsFadd (d a : VReg) (_c : Bool) (_o : Ord) (s : State) : Res := s.scratchAtom .fadd d a

end Sys2Proof.Machine
end

