-- ==== Sys2Proof/Machine/UniMem.lean ====
section
/-! DEFINITION. Uniform memory instructions (13 R281, R282): they act once for the issuing slot. -/

namespace Sys2Proof.Machine

open Sys2Proof

/-! ## Shapes -/

/-- The address of a global member: sA + OFS11·size, wrapping (R281). -/
def State.uva (s : State) (a : SReg) (o : BitVec 11) (n : Nat) : Nat := (s.rs a + wrap64 (o.toInt * n)).toNat

/-- The key by which a request names uniform register r. -/
def uniKey (r : Nat) : Nat := 2 ^ 20 + r

/-- A uniform access as one access of an instruction. -/
def State.uniAccs (s : State) (a : Acc) (va : Nat) : List LaneAcc :=
  match s.checkVa a va with
  | .ok l pa => [⟨0, va, l, pa⟩]
  | .hard _ _ | .soft _ _ _ => []

/-- What a uniform access gathers: the package, its value or poison tag. -/
structure UniGather where
  dev : Dev
  vals : List (Nat × DWord) := []
  tags : List (Nat × Tag) := []
  deriving DecidableEq, Repr

/-- A counted uniform access with its requests to another package (R26, R281). -/
def State.issueUni (s : State) (setA : Bool) (a : Access) (xs : List LaneAcc) (g : UniGather) (wr : List Nat)
    (r : Remote) : State :=
  let far := remotes xs
  let id := g.dev.nextId
  let s := { s with dev := g.dev }
  let s := s.count setA fun e => { e with
    ext := !far.isEmpty, skeys := wr, svals := g.vals, stags := g.tags, addr := dw ((far.head?.map (·.va)).getD 0) }
  far.foldl (fun s x => s.sendRemote id x a r (wr.map uniKey) false) s

/-- A global uniform access: stalls, checks, then `f` (R269, R281). -/
def State.uniMem (s : State) (setA : Bool) (a : Access) (rd wr : List Opnd) (va : Nat)
    (f : State → List LaneAcc → State) : Res :=
  if s.flagFull setA then .next (s.waitFor .flagFull)
  else match s.blocked 1 rd wr with
  | some t => .next t
  | none => match s.uniChecks a va with
  | some t => .next t
  | none =>
    let xs := s.uniAccs a.acc va
    match s.ready a xs with
    | .error t => .next t
    | .ok t => .next (f t xs).advance

/-- A uniform load of n bytes (R282). -/
def State.uniLoad (s : State) (v : Via) (n : Nat) (d a : SReg) (o : BitVec 11) : Res :=
  let ac : Access := { acc := .read, size := n }
  s.uniMem true ac [.s a 1] [.s d 1] (s.uva a o n) fun t xs =>
    let g := (locals xs).foldl (fun (g : UniGather) x =>
      let r := loadAt g.dev t.who v x.leaf x.va x.pa n
      if r.2.2 then { g with dev := r.1, tags := [(d.val, t.poisonTag x.va)] }
      else { g with dev := r.1, vals := [(d.val, dw (natOf r.2.1))] }) { dev := t.dev }
    t.issueUni true ac xs g [d.val] ⟨.load, []⟩

/-- A uniform store of the low n bytes of a register (R282). -/
def State.uniStore (s : State) (n : Nat) (d a : SReg) (o : BitVec 11) : Res :=
  let ac : Access := { acc := .write, size := n }
  let bytes := bytesOf (s.rs d).toNat n
  s.uniMem false ac [.s a 1, .s d 1] [] (s.uva a o n) fun t xs =>
    let g := (locals xs).foldl (fun (g : UniGather) x =>
      { g with dev := storeAt g.dev t.who x.leaf x.va x.pa bytes false }) { dev := t.dev }
    t.issueUni false ac xs g [] ⟨.store, bytes⟩

/-- A uniform atomic at package scope, relaxed (R282). -/
def State.uniAtom (s : State) (op : AtomOp) (d a : SReg) : Res :=
  let ac := atomAccess op true .pkg .rlx false
  let x := (s.rs d).toNat
  let y := if op = .cas then (s.rs (d + 1)).toNat else 0
  s.uniMem true ac [.s a 1, .s d (if op = .cas then 2 else 1)] [.s d 1] (s.uva a 0 8) fun t xs =>
    let g := (locals xs).foldl (fun (g : UniGather) e =>
      let r := atomAt g.dev t.who e.leaf e.va e.pa 8 op x y
      match r.2 with
      | some old => { g with dev := r.1, vals := [(d.val, dw old)] }
      | none => { g with dev := r.1, tags := [(d.val, t.poisonTag e.va)] }) { dev := t.dev }
    t.issueUni true ac xs g [d.val] ⟨.atomic op, []⟩

/-! ## Memory -/

/-- `sld.b64` (R282). -/
def execSldB64 (d a : SReg) (o : BitVec 11) (s : State) : Res := s.uniLoad (.plain false) 8 d a o
/-- `sld.b32`, zero-extended (R282). -/
def execSldB32 (d a : SReg) (o : BitVec 11) (s : State) : Res := s.uniLoad (.plain false) 4 d a o
/-- `sst.b64` (R282). -/
def execSstB64 (d a : SReg) (o : BitVec 11) (s : State) : Res := s.uniStore 8 d a o
/-- `sst.b32` (R282). -/
def execSstB32 (d a : SReg) (o : BitVec 11) (s : State) : Res := s.uniStore 4 d a o
/-- `sldc`: through the constant cache (R254, R282). -/
def execSldc (d a : SReg) (o : BitVec 11) (s : State) : Res := s.uniLoad .constant 8 d a o
/-- `satom.add` (R282). -/
def execSatomAdd (d a : SReg) (s : State) : Res := s.uniAtom .add d a
/-- `satom.cas` (R282). -/
def execSatomCas (d a : SReg) (s : State) : Res := s.uniAtom .cas d a
/-- `satom.exch` (R282). -/
def execSatomExch (d a : SReg) (s : State) : Res := s.uniAtom .exch d a

/-! ## Scratchpad -/

/-- The offset of a scratchpad member, exact (R281). -/
def State.uof (s : State) (a : SReg) (o : BitVec 11) : Int := (s.rs a).toNat + o.toInt * 8

/-- Checks 1 and 2 of R269 for a uniform scratchpad member, TRAPMASK 0 (R281). -/
def State.uniScratchChecks (s : State) (off : Int) : Option State :=
  if off % 8 ≠ 0 then some (s.trapMask cMISALIGNED 0 s.wordInfo (wrap64 off) 0 0)
  else if off < 0 ∨ (s.blk.shape.scrb : Int) < off + 8 then
    some (s.trapMask cSCRATCH_BOUNDS 0 s.wordInfo (wrap64 off) (dw s.blk.shape.scrb) 0)
  else none

/-- A uniform scratchpad member (R281, R283). -/
def State.uniScratch (s : State) (setA writes : Bool) (rd wr : List Opnd) (off : Int) (f : State → Nat → State) : Res :=
  if s.flagFull setA then .next (s.waitFor .flagFull)
  else match s.blocked 1 rd wr with
  | some t => .next t
  | none => match s.uniScratchChecks off with
  | some t => .next t
  | none =>
    if s.rangeHit writes true off.toNat (off.toNat + 8) then .next s.stallRange else .next (f s off.toNat).advance

/-- `slds` (R282). -/
def execSlds (d a : SReg) (o : BitVec 11) (s : State) : Res :=
  s.uniScratch true false [.s a 1] [.s d 1] (s.uof a o) fun t off =>
    t.count true fun e =>
      if t.blk.spoison off 8 then { e with skeys := [d.val], stags := [(d.val, t.poisonTag off)] }
      else { e with skeys := [d.val], svals := [(d.val, dw (natOf (t.blk.sbytes off 8)))] }

/-- `ssts` (R282). -/
def execSsts (d a : SReg) (o : BitVec 11) (s : State) : Res :=
  s.uniScratch false true [.s a 1, .s d 1] [] (s.uof a o) fun t off =>
    (t.onBlk fun b => b.swrite off (dwordBytes (s.rs d))).count false id

end Sys2Proof.Machine
end

