-- ==== Sys2Proof/Machine/Layouts.lean ====
section
/-! DEFINITION. Layout records (16 R328-R329): their kinds, fields and faults, element addresses, spans and scale entries
(04 R76), records read by an instruction (R300, R333), and `obj.read` and `obj.priv` (12 R255). -/

namespace Sys2Proof.Machine

open Sys2Proof

/-! ## Element kinds (R328) -/

/-- The kind of a TYPE code. -/
def Elem.ofCode : Nat → Option Elem
  | 0 => some .bf16 | 1 => some .f16 | 2 => some .f8a | 3 => some .f8b | 4 => some .i8 | 5 => some .n8 | 6 => some .dpw8
  | 7 => some .i4 | 8 => some .n4 | 9 => some .f32 | 10 => some .i32 | 11 => some .n32 | 12 => some .f64
  | 13 => some .i16 | 14 => some .n16 | _ => none

/-- Bits of an element. -/
def Elem.width : Elem → Nat
  | .i4 | .n4 => 4
  | .f8a | .f8b | .i8 | .n8 | .dpw8 => 8
  | .bf16 | .f16 | .i16 | .n16 => 16
  | .f32 | .i32 | .n32 => 32
  | .f64 => 64

/-- A 4-bit kind. -/
def Elem.nibble (t : Elem) : Bool := t.width = 4

/-- Bytes that hold an element. -/
def Elem.size (t : Elem) : Nat := if t.nibble then 1 else t.width / 8

/-- The value of an element; a `dpw8` value has SEXP 0 (R334). -/
def Elem.val (t : Elem) (x : Nat) : Val :=
  match t with
  | .bf16 => Machine.bf16.val x
  | .f16 => Machine.f16.val x
  | .f8a => Machine.f8a.val x
  | .f8b => Machine.f8b.val x
  | .f32 => Machine.f32.val x
  | .f64 => Machine.f64.val x
  | .i4 | .i8 | .i16 | .i32 => intVal (sext x t.width)
  | .n4 | .n8 | .n16 | .n32 => intVal (x : Int)
  | .dpw8 => dpwVal x

/-- A value rounded to an element, with its flags (R334). -/
def Elem.round (t : Elem) (m : Rnd) (sat : Bool) (v : Val) : Nat × FFlags :=
  let int := fun (lo hi : Int) =>
    let r := roundInt lo hi m v
    ((r.1 % 2 ^ t.width).toNat, r.2)
  match t with
  | .bf16 => roundFp Machine.bf16 m false v
  | .f16 => roundFp Machine.f16 m false v
  | .f8a => roundFp Machine.f8a m sat v
  | .f8b => roundFp Machine.f8b m sat v
  | .f32 => roundFp Machine.f32 m false v
  | .f64 => roundFp Machine.f64 m false v
  | .i4 | .i8 | .i16 | .i32 => int (-(2 ^ (t.width - 1))) (2 ^ (t.width - 1) - 1)
  | .n4 | .n8 | .n16 | .n32 => int 0 (2 ^ t.width - 1)
  | .dpw8 => roundDpw m v

/-! ## The record (R328, R329) -/

/-- The number at n bytes from offset off of a record. -/
def recNat (b : List Byte) (off n : Nat) : Nat := natOf ((b.drop off).take n)

/-- The number is a multiple of m. -/
def multiple (x : Int) (m : Nat) : Bool := x % (m : Int) = 0

/-- Extents and strides of a record. -/
def recExt (b : List Byte) : List Nat := (List.range 5).map fun i => recNat b (0x08 + 3 * i) 3
def recStr (b : List Byte) : List Int := (List.range 5).map fun i => sext (recNat b (0x17 + 5 * i) 5) 40

/-- The fields of a record in address order, with whether each is legal (R328, R329). -/
def layoutFields (b : List Byte) : List (Nat × Bool) :=
  let t := Elem.ofCode (recNat b 0x3C 1)
  let esz := (t.map (·.size)).getD 1
  let nib := (t.map (·.nibble)).getD false
  let l := recNat b 0x3D 1
  let str := recStr b
  let str0 := nth 0 str 0
  [(0x00, multiple (recNat b 0 8) esz)] ++
  ((recExt b).zipIdx.map fun e => (0x08 + 3 * e.2, decide (1 ≤ e.1))) ++
  [(0x17, multiple str0 esz && !(nib && str0 != 0) && !(decide (1 ≤ l ∧ l ≤ 5) && str0 != esz))] ++
  ((str.drop 1).zipIdx.map fun e => (0x1C + 5 * e.2, multiple e.1 esz)) ++
  [(0x3C, t.isSome && !(nib && decide (1 ≤ l ∧ l ≤ 5))), (0x3D, decide (l ≤ 5)), (0x3E, decide (recNat b 0x3E 1 < 4)),
   (0x3F, decide (recNat b 0x3F 1 < 2))]

/-- The offset of the first illegal field. -/
def firstBad (l : List (Nat × Bool)) : Option Nat := (l.find? fun e => !e.2).map (·.1)

/-- A record, or the offset of its first illegal field. -/
def parseLayout (b : List Byte) : Except Nat Layout :=
  match firstBad (layoutFields b), Elem.ofCode (recNat b 0x3C 1) with
  | some o, _ => .error o
  | none, none => .error 0x3C
  | none, some t => .ok
    { base := recNat b 0 8, ext := recExt b, str := recStr b, scale := recNat b 0x30 8
      pad := BitVec.ofNat 32 (recNat b 0x38 4), type := t, ilv := recNat b 0x3D 1, spn := recNat b 0x3E 1
      scratch := recNat b 0x3F 1 = 1 }

/-! ## Elements (R329) -/

/-- The interleave factor F. -/
def Layout.fac (r : Layout) : Nat := 2 ^ r.ilv

/-- What coordinate i of dimension n adds to BASE. -/
def Layout.term (r : Layout) (n : Nat) (i : Int) : Int :=
  if n = 0 then
    if r.type.nibble then i / 2 else if r.ilv = 0 then i * nth 0 r.str 0 else r.fac * i * r.type.size
  else if n = 1 && r.ilv != 0 then (i % r.fac) * r.type.size + i / r.fac * nth 0 r.str 1
  else i * nth 0 r.str n

/-- The address of the element at five coordinates, phantom rows included. -/
def Layout.addr (r : Layout) (c : List Int) : Int :=
  c.zipIdx.foldl (fun a e => a + r.term e.2 e.1) r.base

/-- The high half of a byte holds the element of a 4-bit kind (R68). -/
def Layout.high (r : Layout) (c : List Int) : Bool := r.type.nibble && decide (nth 0 c 0 % 2 = 1)

/-- The coordinates lie within the extents. -/
def Layout.inside (r : Layout) (c : List Int) : Bool :=
  c.zipIdx.all fun e => decide (0 ≤ e.1) && decide (e.1 < nth 1 r.ext e.2)

/-- Rows up to the end of the last group of F, the phantom rows among them (R329). -/
def Layout.rows (r : Layout) : Nat := roundUp (nth 1 r.ext 1) r.fac

/-- The pad value as the bits of an element. -/
def Layout.padBits (r : Layout) : Nat := r.pad.toNat % 2 ^ r.type.width

/-! ## Spans (R255, R336) -/

/-- A box: lowest and highest coordinate of each dimension. -/
abbrev Box := List (Int × Int)

/-- The box holds no point. -/
def emptyBox (b : Box) : Bool := b.any fun e => decide (e.2 < e.1)

/-- The box of every element of a record. -/
def Layout.whole (r : Layout) : Box := r.ext.map fun e => (0, Int.ofNat e - 1)

/-- The part of a box within the extents. -/
def Layout.clip (r : Layout) (b : Box) : Box := b.zipIdx.map fun e => (max 0 e.1.1, min e.1.2 ((nth 1 r.ext e.2 : Nat) - 1 : Int))

/-- The coordinates of a dimension at which its term can be least or greatest from a to b. -/
def Layout.corners (r : Layout) (n : Nat) (a b : Int) : List Int :=
  let f : Int := r.fac
  [a, b] ++ if n = 1 && r.ilv != 0 then
    ([a / f, a / f + 1, b / f - 1, b / f].flatMap fun q => [q * f, q * f + f - 1]).filter fun i =>
      decide (a ≤ i) && decide (i ≤ b)
  else []

/-- The least and the greatest term of a dimension from a to b. -/
def Layout.reach (r : Layout) (n : Nat) (a b : Int) : Int × Int :=
  (r.corners n a b).foldl (fun m i => (min m.1 (r.term n i), max m.2 (r.term n i))) (r.term n a, r.term n a)

/-- Lowest byte and end of the elements of a box that is not empty. -/
def Layout.span (r : Layout) (b : Box) : Int × Int :=
  let m := b.zipIdx.foldl (fun (m : Int × Int) e =>
    let x := r.reach e.2 e.1.1 e.1.2
    (m.1 + x.1, m.2 + x.2)) ((r.base : Int), (r.base : Int))
  (m.1, m.2 + r.type.size)

/-! ## Scale vectors (R76) -/

/-- The scale entry of an element within the extents. -/
def Layout.scaleIndex (r : Layout) (c : List Int) : Nat :=
  let i := fun n => (nth 0 c n).toNat
  let e := fun n => nth 1 r.ext n
  (i 1 + e 1 * (i 2 + e 2 * (i 3 + e 3 * i 4))) * ceilDiv (e 0) 64 + i 0 / 64

/-- Lowest byte and end of the scale entries of a box within the extents. -/
def Layout.scaleSpan (r : Layout) (b : Box) : Int × Int :=
  ((r.scale + r.scaleIndex (b.map (·.1)) : Nat), (r.scale + r.scaleIndex (b.map (·.2)) + 1 : Nat))

/-- A virtual address from an exact sum (R4). -/
def vaOf (i : Int) : Nat := (i % 2 ^ 64).toNat

/-! ## Records read by an instruction -/

/-- n bytes of one line as a party of the focused block reads them, and whether they met poison. -/
def State.lineBytes (s : State) (v : Via) (l : Leaf) (va pa n : Nat) : State × List Byte × Bool :=
  let r := loadAt s.dev s.who v l va pa n
  ({ s with dev := r.1 }, r.2)

/-- The bytes at an address that the instruction has already read: it reads a record once (R307, R331). -/
def State.hasRead (s : State) (va n : Nat) : Option (List Byte) :=
  (s.slot.read.find? fun e => e.1 = va && e.2.length = n).map (·.2)

/-- Bytes that the instruction has read at an address. -/
def State.noteRead (s : State) (va : Nat) (b : List Byte) : State := s.onSlot fun x => { x with read := x.read ++ [(va, b)] }

/-- A record on another package is asked of it once; the slot holds until the answer, and traps where there is none (R351,
R354; log 20). -/
def State.askRecord (s : State) (l : Leaf) (va pa n : Nat) : State :=
  match s.slot.wait with
  | .denied t => s.raise { cause := t.cause, mask := s.slot.act, path := s.wholePath, info0 := s.wordInfo, info1 := t.addr,
                           info2 := dw t.pkg, info3 := dw t.stamp }
  | .remote _ => s
  | _ =>
    let id := s.dev.nextId
    let p := mkPacket s.dev l.peer s.blk.shape.owner 0 (s.askBody l id va pa n .load [])
    let o : Outstanding :=
      { id := id, purpose := .record, block := s.blk.key, gidx := s.grp.idx, pend := id, pslot := b2n s.k
        deadline := p.deadline, target := l.peer, addr := dw va, bytes := n }
    (s.onDev fun d => sendPacket { d with nextId := id + 1, outstanding := d.outstanding ++ [o] } p).waitFor (.remote id)

/-- The translation of a read by an instruction that acts once per slot, or the state its failure leaves (R188, R269). -/
def State.onceXlat (s : State) (va agent : Nat) : Except State (Leaf × Nat) :=
  match s.checkVa .read va with
  | .ok l pa => .ok (l, pa)
  | .hard c _ => .error (s.trapAll c s.wordInfo (dw va))
  | .soft k lvl e => .error (s.park va k lvl e .read 0 agent)

/-- n bytes of one line that an instruction reads once: its bytes, or the state in which it traps, parks or waits for another
package (R265, R269, R307, R331, R360). -/
def State.readOnce (s : State) (v : Via) (va agent n : Nat) : Except State (State × List Byte) :=
  match s.hasRead va n with
  | some b => .ok (s, b)
  | none => match s.onceXlat va agent with
  | .error t => .error t
  | .ok (l, pa) =>
    let s := s.onDev fun d => keepLeaf d s.blk.shape.owner va l
    if l.kind = .remote then .error (s.askRecord l va pa n)
    else
      let r := s.lineBytes v l va pa n
      if r.2.2 then .error (r.1.trapAll cPOISON_CONSUMED s.wordInfo (dw va)) else .ok (r.1.noteRead va r.2.1, r.2.1)

/-- A record or card of n bytes, through the layout-record cache (R300, R333). -/
def State.onceRead (s : State) (va agent n : Nat) : Except State (State × List Byte) := s.readOnce .record va agent n

/-- The first failure among the translations of the n 64 KiB blocks from va. -/
def State.onceBlocks (s : State) (agent : Nat) : Nat → Nat → Option State
  | 0, _ => none
  | n + 1, va => match s.onceXlat (va % 2 ^ 64) agent with
    | .error t => some t
    | .ok _ => s.onceBlocks agent n (va / 2 ^ 16 * 2 ^ 16 + 2 ^ 16)

/-- The 64 KiB blocks that the bytes from lo to hi - 1 touch. -/
def blocks64 (lo hi : Int) : Nat := ((hi - 1) / 2 ^ 16 - lo / 2 ^ 16 + 1).toNat

/-! ## Objects (R255) -/

/-- The leaf and physical lines of each 64 KiB block of the lines from lo to hi. -/
def State.objectLines (s : State) : Nat → Nat → Nat → List (Leaf × Nat × Nat)
  | 0, _, _ => []
  | n + 1, lo, hi =>
    let stop := min hi (lo / 2 ^ 9 * 2 ^ 9 + 2 ^ 9)
    match s.checkVa .read (128 * lo) with
    | .ok l pa => (l, pa / 128, pa / 128 + (stop - lo)) :: s.objectLines n stop hi
    | .hard _ _ | .soft _ _ _ => []

/-- An object is held, unless the block holds 8 or its cluster 32 (R255). -/
def State.holdObject (s : State) (q : Nat) (a : DWord) (ls : List (Nat × Nat)) (priv : Bool) : State :=
  let s := s.onDev fun d => endObject d s.blk.key a
  if 8 ≤ (s.dev.objs.filter fun o => o.block = s.blk.key).length ||
      32 ≤ (s.dev.objs.filter fun o => o.cluster = s.blk.cluster).length then s.wq q false
  else
    let o : Obj := ⟨s.blk.key, s.blk.cluster, s.blk.core, a, ls, priv, s.key⟩
    (s.onDev fun d => { d with objs := d.objs ++ [o] }).wq q true

/-- An object over the span of a record (R255). -/
def State.declareObject (s : State) (q : Nat) (a : DWord) (priv : Bool) : State :=
  if a.toNat % 64 ≠ 0 then s.trapAll cMISALIGNED s.wordInfo a
  else match s.onceRead a.toNat 0 64 with
  | .error t => t
  | .ok (t, b) => match parseLayout b with
    | .error _ => t.badOperand 0
    | .ok r =>
      if r.scratch then t.badOperand 0
      else
        let sp := r.span r.whole
        match t.onceBlocks 0 (blocks64 sp.1 sp.2) (vaOf sp.1) with
        | some u => u
        | none =>
          if 4 * 2 ^ 20 ≤ sp.2 - 1 - sp.1 then t.badOperand 0
          else
            let lo := vaOf sp.1 / 128
            let hi := (vaOf sp.1 + (sp.2 - sp.1).toNat + 127) / 128
            let ls := t.objectLines (blocks64 sp.1 sp.2 + 1) lo hi
            if ls.any fun e => e.1.kind != .ordinary then t.badOperand 0
            else (t.holdObject q a (ls.map (·.2)) priv).advance

/-- `obj.read qP, sS` (R255). -/
def execObjRead (r : SReg) (q : QReg) (s : State) : Res :=
  s.withOperands 1 [.s r 1] [] fun t => .next (t.declareObject q.val (t.rs r) false)

/-- `obj.priv qP, sS` (R255). -/
def execObjPriv (r : SReg) (q : QReg) (s : State) : Res :=
  s.withOperands 1 [.s r 1] [] fun t => .next (t.declareObject q.val (t.rs r) true)

end Sys2Proof.Machine
end

