-- ==== Sys2Proof/Machine/Jobs.lean ====
section
/-! DEFINITION. Job cards (16 R331, R335), the slice and footprint of a job (R334-R338), the checks of R333, the release
of `cpy.slice`, `cpyx.slice` and `mcst` to an engine, and multicast registrations (R342-R343). -/

namespace Sys2Proof.Machine

open Sys2Proof

/-! ## Job cards (R331, R335) -/

/-- The five signed coordinates of an origin (R135). -/
def originOf (lo hi : Nat) : List Int :=
  [sext (bits lo 31 0) 32, sext (bits lo 63 32) 32, sext (bits hi 20 0) 21, sext (bits hi 41 21) 21, sext (bits hi 62 42) 21]

/-- Every byte from lo to hi - 1 of a record is zero. -/
def zeroBytes (b : List Byte) (lo hi : Nat) : Bool := recNat b lo (hi - lo) = 0

/-- The fields of a card in address order, with whether each is legal (R331, R335). -/
def cardFields (k : JobKind) (b : List Byte) : List (Nat × Bool) :=
  let cvt := recNat b 0x45 1
  [(0x10, !bitOf (recNat b 0x18 8) 63), (0x20, !bitOf (recNat b 0x28 8) 63)] ++
  ((List.range 5).map fun i =>
    let x := recNat b (0x30 + 4 * i) 4
    (0x30 + 4 * i, decide (x ≤ 16777215) && (k != .gather || decide (i < 3) || x = 1))) ++
  [(0x44, decide (recNat b 0x44 1 ≤ 4)), (0x45, decide (cvt % 8 ≤ 4) && decide (cvt < 16)), (0x46, zeroBytes b 0x46 0x48)] ++
  (if k = .gather then
    [0x48, 0x4A].map (fun o => (o, decide (1 ≤ recNat b o 2))) ++
    [0x4C, 0x4D, 0x4E, 0x4F, 0x50, 0x51].map fun o => (o, decide (1 ≤ recNat b o 1))
  else [(0x48, zeroBytes b 0x48 0x56)]) ++
  [(0x56, zeroBytes b 0x56 0x60), (0x68, zeroBytes b 0x68 0x80)]

/-- A card, or the offset of its first illegal field. -/
def parseCard (k : JobKind) (b : List Byte) : Except Nat Card :=
  match firstBad (cardFields k b) with
  | some o => .error o
  | none => .ok
    { src := dw (recNat b 0 8), dst := dw (recNat b 8 8)
      sorg := originOf (recNat b 0x10 8) (recNat b 0x18 8), dorg := originOf (recNat b 0x20 8) (recNat b 0x28 8)
      box := (List.range 5).map fun i => recNat b (0x30 + 4 * i) 4
      split := recNat b 0x44 1, rm := bits (recNat b 0x45 1) 2 0, sat := bitOf (recNat b 0x45 1) 3
      ow := recNat b 0x48 2, oh := recNat b 0x4A 2, sx := recNat b 0x4C 1, sy := recNat b 0x4D 1, dx := recNat b 0x4E 1
      dy := recNat b 0x4F 1, fw := recNat b 0x50 1, fh := recNat b 0x51 1, px := recNat b 0x52 2, py := recNat b 0x54 2 }

/-! ## The slice (R332, R334) -/

/-- Slice index, number of slices and MODE of a slice selector. -/
def selIdx (x : Nat) : Nat := bits x 5 0
def selCount (x : Nat) : Nat := bits x 13 8 + 1
def selMode (x : Nat) : Nat := bits x 17 16

/-- The slice selector is legal (R332). -/
def sliceLegal (x : Nat) : Bool :=
  bits x 7 6 = 0 && bits x 15 14 = 0 && selMode x != 3 && bits x 63 18 = 0 && decide (selIdx x < selCount x)

/-- Lowest box coordinates and extents of slice i of ns (R334). -/
def sliceOf (c : Card) (i ns : Nat) : List Nat × List Nat :=
  let e := nth 0 c.box c.split
  let lo := i * e / ns
  let hi := (i + 1) * e / ns
  ((List.range 5).map (fun n => if n = c.split then lo else 0), modAt c.box c.split fun _ => hi - lo)

/-- A slice as a box of coordinates from an origin. -/
def boxFrom (org : List Int) (lo size : List Nat) : Box :=
  org.zipIdx.map fun (e : Int × Nat) =>
    let a : Int := e.1 + (nth 0 lo e.2 : Nat)
    (a, a + (nth 0 size e.2 : Nat) - 1)

/-- The destination elements that a slice writes (R334). -/
def destBox (c : Card) (r : Layout) (lo size : List Nat) : Box := r.clip (boxFrom c.dorg lo size)

/-- The box points of a slice whose destination lies inside, as a box of source coordinates (R334). -/
def sourceBox (c : Card) (s r : Layout) (lo size : List Nat) : Box :=
  s.clip ((destBox c r lo size).zipIdx.map fun e =>
    let off := nth 0 c.sorg e.2 - nth 0 c.dorg e.2
    (e.1.1 + off, e.1.2 + off))

/-- A box with the phantom rows that its last row brings (R329, R334). -/
def Layout.withPhantoms (r : Layout) (b : Box) : Box :=
  modAt b 1 fun e => (e.1, if e.2 = (nth 1 r.ext 1 : Nat) - 1 then (r.rows : Int) - 1 else e.2)

/-! ## Footprints (R336) -/

/-- A span as a range of the scoreboard: rounded out to lines, or to words of the scratchpad (R336). -/
def rangeOf (scratch : Bool) (x : Int × Int) : Bool × Nat × Nat :=
  let m := if scratch then 4 else 128
  let lo := if scratch then x.1.toNat else vaOf x.1
  (scratch, lo / m * m, roundUp (lo + (x.2 - x.1).toNat) m)

/-- The box of source elements that a slice can reach (R336). -/
def reachBox (k : JobKind) (c : Card) (s r : Layout) (lo size : List Nat) : Box :=
  if k = .gather then s.whole else sourceBox c s r lo size

/-- The byte spans of the scale entries that a slice reads (R336). -/
def scaleSpans (k : JobKind) (c : Card) (s r : Layout) (lo size : List Nat) : List (Bool × Int × Int) :=
  let src := reachBox k c s r lo size
  let dst := destBox c r lo size
  if size.any (· = 0) then []
  else (if s.scale = 0 || emptyBox src then [] else [(false, s.scaleSpan src)]) ++
    (if r.scale = 0 || emptyBox dst then [] else [(false, r.scaleSpan dst)])

/-- The byte spans that a slice reads, its scale entries among them (R336). -/
def readSpans (k : JobKind) (c : Card) (s r : Layout) (lo size : List Nat) : List (Bool × Int × Int) :=
  let src := reachBox k c s r lo size
  (if size.any (· = 0) || emptyBox src then [] else [(s.scratch, s.span src)]) ++ scaleSpans k c s r lo size

/-- The byte span that a slice writes (R336). -/
def writeSpans (c : Card) (r : Layout) (lo size : List Nat) : List (Bool × Int × Int) :=
  let dst := destBox c r lo size
  if size.any (· = 0) || emptyBox dst then [] else [(r.scratch, r.span (r.withPhantoms dst))]

/-- The number of points of a box. -/
def boxCount (b : Box) : Nat := b.foldl (fun n e => n * (e.2 + 1 - e.1).toNat) 1

/-- The points of a box, the first coordinate varying fastest (R334). -/
def boxPoints : Box → List (List Int)
  | [] => [[]]
  | e :: t => (boxPoints t).flatMap fun p => (List.range (e.2 + 1 - e.1).toNat).map fun i => (e.1 + Int.ofNat i) :: p

/-- The number of bytes in a union of intervals ordered by their start. -/
def unionLen (l : List (Int × Int)) : Nat :=
  (l.foldl (fun (x : Nat × Option Int) e =>
    let a := match x.2 with
      | none => e.1
      | some h => max h e.1
    (x.1 + (e.2 - a).toNat, some (max a e.2))) (0, none)).1

/-- Bytes that a slice writes, as R338 counts them. -/
def countedBytes (c : Card) (r : Layout) (lo size : List Nat) : Nat :=
  let dst := destBox c r lo size
  if size.any (· = 0) || emptyBox dst then 0
  else if r.type.nibble then
    match dst with
    | [] => 0
    | e :: t => unionLen (sortBy (fun a b => decide (a.1 ≤ b.1)) ((boxPoints t).map fun p =>
        (r.addr (e.1 :: p), r.addr (e.2 :: p) + 1)))
  else boxCount (r.withPhantoms dst) * r.type.size

/-! ## Channels (R342) -/

/-- CH, LV and MODE of a channel selector. -/
def chanCh (x : Nat) : Nat := bits x 7 0
def chanLv (x : Nat) : Nat := bits x 10 8
def chanMode (x : Nat) : Nat := bits x 17 16

/-- The channel selector is legal, its MODE among those given (R342). -/
def State.chanLegal (s : State) (x : Nat) (modes : List Nat) : Bool :=
  let levels := ((findLaunch s.dev s.blk.launch).map (·.lr.levels)).getD []
  bits x 15 11 = 0 && bits x 63 18 = 0 && modes.contains (chanMode x) &&
    ((levels.zipIdx.find? fun e => e.2 = chanLv x).any fun e => decide (e.1.domain ≤ 2))

/-- The level instance that holds the block: its index among those of the launch (R342). -/
def State.levelInst (s : State) (lv : Nat) : Nat :=
  let ext := ((findLaunch s.dev s.blk.launch).map (·.lr.extents)).getD []
  s.blk.blin / product (ext.take (lv + 1))

/-- The channel of a selector (R342). -/
def State.findChan (s : State) (x : Nat) : Option Channel :=
  s.dev.channels.find? fun c => c.launch = s.blk.launch && c.level = chanLv x && c.inst = s.levelInst (chanLv x) && c.ch = chanCh x

/-- The channel of a selector, brought into being where it has not been named before; LEN 0 says that no block has
registered on it (R342). -/
def State.openChan (s : State) (x : Nat) : State × Channel :=
  match s.findChan x with
  | some c => (s, c)
  | none =>
    let c : Channel := { id := s.dev.nextId, launch := s.blk.launch, level := chanLv x, inst := s.levelInst (chanLv x),
                         ch := chanCh x, len := 0 }
    (s.onDev fun d => { d with channels := d.channels ++ [c], nextId := d.nextId + 1 }, c)

/-! ## The checks of a job command (R333) -/

/-- COPY_DESCRIPTOR of a command: subcode, address at fault, offset of the field (R333). -/
def State.badCopy (s : State) (sub : Nat) (a : DWord) (off : Nat) : State :=
  s.trapMask cCOPY_DESCRIPTOR s.slot.act (dw sub) a (dw off) 0

/-- Some 64 KiB block among n from va has a leaf that p selects, or none: its first address that does. -/
def State.findPage (s : State) (p : Option Leaf → Bool) : Nat → Nat → Option Nat
  | 0, _ => none
  | n + 1, va =>
    let l := match s.checkVa .read (va % 2 ^ 64) with
      | .ok l _ => some l
      | .hard _ _ | .soft _ _ _ => none
    if p l then some (va % 2 ^ 64) else s.findPage p n (va / 2 ^ 16 * 2 ^ 16 + 2 ^ 16)

/-- The first page of the global ranges that p selects. -/
def State.findInRanges (s : State) (p : Option Leaf → Bool) (rs : List (Bool × Nat × Nat)) : Option Nat :=
  rs.findSome? fun r => if r.1 then none else s.findPage p (blocks64 r.2.1 r.2.2) r.2.1

def isView : Option Leaf → Bool
  | some l => l.held.kind = .view
  | none => false

/-- Checks 1 to 3: the card (R333). -/
def State.readCard (s : State) (k : JobKind) (a : DWord) : Except State (State × Card) :=
  if a.toNat % 128 ≠ 0 then .error (s.trapAll cMISALIGNED s.wordInfo a)
  else match s.onceRead a.toNat 3 128 with
  | .error t => .error t
  | .ok (t, b) => match parseCard k b with
    | .error o => .error (t.badCopy 1 a o)
    | .ok c => .ok (t, c)

/-- Check 4: a record's address. -/
def State.recordAligned (s : State) (c : Card) : Option State :=
  if c.src.toNat % 64 ≠ 0 then some (s.trapAll cMISALIGNED s.wordInfo c.src)
  else if c.dst.toNat % 64 ≠ 0 then some (s.trapAll cMISALIGNED s.wordInfo c.dst)
  else none

/-- The offset of the first field of a record that is illegal by itself, or by what its job asks of it (R333). -/
def firstField (b : List Byte) (asked : List (Nat × Bool)) : Option Nat :=
  let own := match parseLayout b with
    | .error o => [o]
    | .ok _ => []
  (own ++ (asked.filter fun e => !e.2).map (·.1)).min?

/-- Check 6 on one record: its fields, SPN = 0 among them, and what the job asks (R329, R335, R344). -/
def State.copyRecord (s : State) (a : DWord) (b : List Byte) (asked : List (Nat × Bool)) : Except State Layout :=
  match firstField b ((0x3E, recNat b 0x3E 1 = 0) :: asked), parseLayout b with
  | some o, _ | none, .error o => .error (s.badCopy 2 a o)
  | none, .ok r => .ok r

/-- Checks 4 to 6: the two records, with what `cpyx.slice` and `mcst` ask of them (R333, R335, R344). -/
def State.readRecords (s : State) (k : JobKind) (c : Card) : Except State (State × Layout × Layout) :=
  match s.recordAligned c with
  | some t => .error t
  | none => match s.onceRead c.src.toNat 3 64 with
  | .error t => .error t
  | .ok (t, sb) => match t.onceRead c.dst.toNat 3 64 with
  | .error t => .error t
  | .ok (t, db) => match t.copyRecord c.src sb [(0x14, k != .gather || recNat sb 0x14 3 = 1)] with
  | .error t => .error t
  | .ok x => match t.copyRecord c.dst db [(0x3F, k != .multicast || bitOf (recNat db 0x3F 1) 0)] with
  | .error t => .error t
  | .ok y => .ok (t, x, y)

/-- Check 7: every block of the scale entries that the job reads (R333). -/
def State.scaleChecks (s : State) (sp : List (Bool × Int × Int)) : Option State :=
  sp.findSome? fun e => s.onceBlocks 3 (blocks64 e.2.1 e.2.2) (vaOf e.2.1)

/-- Check 9: a scratchpad span lies below a limit. -/
def spanWithin (limit : Nat) (e : Bool × Int × Int) : Bool :=
  !e.1 || (decide (0 ≤ e.2.1) && decide (e.2.2 ≤ (limit : Int)))

/-- What a command needs of its selector: legality, slice, MODE, limit of destination scratchpad bytes (R333). -/
structure Select where
  ok : Bool
  i : Nat
  ns : Nat
  mode : Nat
  limit : Option Nat
  chan : Nat := 0
  deriving DecidableEq, Repr

/-- The slice selector of a copy (R332). -/
def State.copySelect (s : State) (x : Nat) : Select := ⟨sliceLegal x, selIdx x, selCount x, selMode x, some s.blk.shape.scrb, 0⟩

/-- The channel selector of a multicast (R342, R344). -/
def State.castSelect (s : State) (x : Nat) : Select :=
  let len := ((s.findChan x).map (·.len)).getD 0
  ⟨s.chanLegal x [0, 2], 0, 1, chanMode x, if len = 0 then none else some len, 0⟩

/-- The job of a command whose checks 1 to 6 passed. The spans of a multicast are offsets in each landing buffer (R344); which of
the quadrant's two engines takes the job is free (R327; log 31). -/
def State.mkJob (s : State) (k : JobKind) (a : DWord) (c : Card) (x y : Layout) (sel : DWord) (bar : Nat) (q : Select) : Job :=
  let sl := sliceOf c q.i q.ns
  { id := s.dev.nextId, kind := k, engine := 2 * (s.blk.core / 24) + Config.copyEngine s.dev.nextId % 2, block := s.blk.key, gidx := s.grp.idx, pslot := b2n s.k
    owner := s.blk.shape.owner, launch := s.blk.launch, core := s.blk.core, cluster := s.blk.cluster, cardAddr := a
    card := c, src := x, dst := y, sel := sel, bar := bar, chan := q.chan, mode := q.mode, lo := sl.1, size := sl.2
    count := countedBytes c y sl.1 sl.2
    reads := (readSpans k c x y sl.1 sl.2).map fun e => rangeOf e.1 e.2
    writes := (writeSpans c y sl.1 sl.2).map fun e => rangeOf e.1 e.2
    child := s.blk.child, chain := s.chain }

/-- Checks 7 to 11 of a job, as the state that a failure leaves (R333). -/
def State.jobChecks (s : State) (k : JobKind) (a : DWord) (c : Card) (x y : Layout) (q : Select) : Option State :=
  let sl := sliceOf c q.i q.ns
  let rd := readSpans k c x y sl.1 sl.2
  let wr := writeSpans c y sl.1 sl.2
  let wrong := if q.i < q.ns then s.scaleChecks (scaleSpans k c x y sl.1 sl.2) else none
  match wrong with
  | some t => some t
  | none =>
    if !q.ok then some (s.badCopy 3 a 0)
    else if !(rd.all (spanWithin s.blk.shape.scrb)) then some (s.badCopy 4 c.src 0)
    else if !(wr.all fun e => q.limit.all fun n => spanWithin n e) then some (s.badCopy 4 c.dst 0)
    else if 2 ^ 27 - 1 < countedBytes c y sl.1 sl.2 then some (s.badCopy 5 a 0)
    else if !s.forking || k = .multicast then none
    else (s.findInRanges isView (wr.map fun e => rangeOf e.1 e.2)).map fun va =>
      s.trapAll cFORK_PARENT_WRITE s.wordInfo (dw va)

/-- The job touches a byte that is in neither a view page nor the child's scratchpad (R319). -/
def State.leavesChild (s : State) (j : Job) : Bool :=
  !s.chain.isEmpty && (j.kind = .multicast || (s.findInRanges (fun l => !isView l) j.writes).isSome)

/-- A free entry of the core's range scoreboard; the entries of a block that is saved stand in its save area (R283). -/
def State.rangeFree (s : State) : Bool :=
  decide ((s.dev.ranges.filter fun r => r.core = s.blk.core && (findBlock s.dev r.block).all (·.onCore)).length < 32)

/-- A range moved by the place of a landing buffer. -/
def shiftRange (off : Nat) (r : Bool × Nat × Nat) : Bool × Nat × Nat := (r.1, r.2.1 + off, r.2.2 + off)

/-- The ranges that a job writes as its own block's accesses meet them: a multicast writes the block's scratchpad where the block
is a receiver itself (R283; log 21). -/
def State.ownWrites (s : State) (j : Job) : List (Bool × Nat × Nat) :=
  if j.kind = .multicast then match s.blk.lbufs.find? fun l => l.chan = j.chan with
    | some l => j.writes.map (shiftRange l.off)
    | none => []
  else j.writes

/-- A job is released to its engine: the release at package scope, its scoreboard entry, the counted operation (R283,
R296, R332). -/
def State.startJob (s : State) (j : Job) : State :=
  let s := s.release .pkg
  let s := if s.leavesChild j then s.notRestartable else s
  let s := s.onDev fun d => { d with
    jobs := d.jobs ++ [j], nextId := d.nextId + 1
    ranges := d.ranges ++ [⟨j.block, j.core, j.id, j.reads, s.ownWrites j⟩] }
  (s.count false fun e => { e with job := j.id + 1 }).advance

/-- A job command at its commit point (R332, R333). -/
def State.jobCommand (s : State) (k : JobKind) (a sel : DWord) (bar : Nat) : State :=
  match s.readCard k a with
  | .error t => t
  | .ok (t, c) => match t.readRecords k c with
  | .error t => t
  | .ok (t, x, y) =>
    let q := if k = .multicast then t.castSelect sel.toNat else t.copySelect sel.toNat
    match t.jobChecks k a c x y q with
    | some u => u
    | none =>
      if !t.rangeFree then t.waitFor .scoreboard
      else
        let r := if k = .multicast then t.openChan sel.toNat else (t, ⟨0, 0, 0, 0, 0, 0, [], []⟩)
        r.1.startJob (r.1.mkJob k a c x y sel bar { q with chan := r.2.id })

/-- `cpy.slice sC, sX, bN` (R332). -/
def execCpySlice (c x : SReg) (n : Fin 16) (s : State) : Res :=
  s.counted false 1 [.s c 1, .s x 1] [] fun t => .next (t.jobCommand .copy (t.rs c) (t.rs x) n)

/-- `cpyx.slice sC, sX, bN` (R332, R335). -/
def execCpyxSlice (c x : SReg) (n : Fin 16) (s : State) : Res :=
  s.counted false 1 [.s c 1, .s x 1] [] fun t => .next (t.jobCommand .gather (t.rs c) (t.rs x) n)

/-- `mcst sC, sH, bN` (R332, R344). -/
def execMcst (c h : SReg) (n : Fin 16) (s : State) : Res :=
  s.counted false 1 [.s c 1, .s h 1] [] fun t => .next (t.jobCommand .multicast (t.rs c) (t.rs h) n)

/-! ## Registrations (R342, R343) -/

/-- MULTICAST_REGISTRATION with its subcode (R342). -/
def State.badReg (s : State) (sub : Nat) : State := s.trapMask cMULTICAST_REGISTRATION s.slot.act (dw sub) 0 0 0

/-- The buffer is aligned and lies within the block's scratchpad (R342). -/
def bufferLegal (l scrb : Nat) : Bool :=
  let off := bits l 19 0
  let len := bits l 51 32
  bits l 31 20 = 0 && bits l 63 52 = 0 && off % 128 = 0 && len % 128 = 0 && decide (128 ≤ len) && decide (len ≤ 524288) &&
    decide (off + len ≤ scrb)

/-- The block is a member of the channel. -/
def State.member (s : State) (c : Channel) : Bool := c.members.contains s.blk.key

/-- The channel changed. -/
def modChan (d : Dev) (id : Nat) (f : Channel → Channel) : Dev := { d with channels := modFirst d.channels (fun c => c.id = id) f }

/-- The block registers on a channel (R342). -/
def State.register (s : State) (h l : DWord) (n : Nat) : State :=
  let x := h.toNat
  let old := s.findChan x
  if !s.chanLegal x [1, 2] then s.badReg 1
  else if old.any s.member then s.badReg 2
  else if !bufferLegal l.toNat s.blk.shape.scrb then s.badReg 3
  else
    let len := bits l.toNat 51 32
    if old.any fun c => c.len != 0 && c.len != len then s.badReg 4
    else if 8 ≤ s.blk.lbufs.length || old.any fun c => decide (1024 ≤ c.members.length) then s.badReg 5
    else
      let r := s.openChan x
      let s := (r.1.onDev fun d => modChan d r.2.id fun c => { c with len := len, members := c.members ++ [s.blk.key] }).notRestartable
      (s.onBlk fun b => { b with lbufs := b.lbufs ++
        [⟨r.2.id, h, bits l.toNat 19 0, len, n, chanMode x, true⟩] }).advance

/-- `lbuf.reg sH, sL, bN` (R342). -/
def execLbufReg (h l : SReg) (n : Fin 16) (s : State) : Res :=
  s.withOperands 1 [.s h 1, .s l 1] [] fun t => .next (t.register (t.rs h) (t.rs l) n)

/-- The channel of the block's registration that a selector of `lbuf.free` or `lbuf.drop` names, or the subcode of the
trap (R342). -/
def State.ownReg (s : State) (x : Nat) : Except Nat Channel :=
  if !s.chanLegal x [0] then .error 1
  else match s.findChan x with
  | none => .error 2
  | some c => if s.member c then .ok c else .error 2

/-- `lbuf.free sH` (R343). -/
def execLbufFree (h : SReg) (s : State) : Res :=
  s.withOperands 1 [.s h 1] [] fun t => match t.ownReg (t.rs h).toNat with
    | .error n => .next (t.badReg n)
    | .ok c => .next ((t.release .die).onBlk fun b => { b with lbufs := modFirst b.lbufs (fun x => x.chan = c.id) fun x =>
        { x with free := true } }).advance

/-- A delivery to the block on the channel is in flight: an arrival of a message still to be made (R343). -/
def State.delivering (s : State) (c : Channel) : Bool :=
  s.dev.jobs.any fun j => j.kind = .multicast && j.chan = c.id && j.performed && j.arrivals.any fun a => a.1 = s.blk.key

/-- `lbuf.drop sH` (R343). -/
def execLbufDrop (h : SReg) (s : State) : Res :=
  s.withOperands 1 [.s h 1] [] fun t => match t.ownReg (t.rs h).toNat with
    | .error n => .next (t.badReg n)
    | .ok c =>
      if t.delivering c then .next (t.waitFor .delivery)
      else
        let t := t.onDev fun d => modChan d c.id fun c => { c with members := c.members.filter (· ≠ t.blk.key) }
        .next (t.onBlk fun b => { b with lbufs := b.lbufs.filter fun x => x.chan ≠ c.id }).advance

end Sys2Proof.Machine
end

