-- ==== Sys2Proof/Machine/Copy.lean ====
section
/-! DEFINITION. What an engine does with a job (16 R327-R346): the elements it reads, converts and writes, STATUS, deliveries
and arrivals, faults, and the delivery of a multicast. -/

namespace Sys2Proof.Machine

open Sys2Proof

/-! ## The job as a party -/

/-- The job's block, or what it was when it retired. -/
def Job.blockIn (j : Job) (d : Dev) : Option Block := (findBlock d j.block).orElse fun _ => j.origin

/-- The core and cluster whose copies the job's writes drop: those of its block now. -/
def Job.place (j : Job) (d : Dev) : Nat × Nat :=
  match findBlock d j.block with
  | some b => (b.core, b.cluster)
  | none => (j.core, j.cluster)

/-- The job as a party of accesses (R310). -/
def Job.who (j : Job) (d : Dev) : Who := ⟨(j.place d).1, (j.place d).2, keyOf d j.owner, j.chain⟩

/-- The job's block was discarded (R340). -/
def orphaned (d : Dev) (j : Job) : Bool := d.jobs.any fun x => x.id = j.id && x.orphan

/-- n bytes at va, which a page translates, as the job reads them at their home or through its view, and whether they are
poisoned (R250, R310); a page of another package's fork it does not reach (log 20). -/
def Job.loadFrom (j : Job) (d : Dev) (x : Leaf × Nat) (va n : Nat) : Except EngFault (List Byte × Bool) :=
  if (awayPage d x.1 va j.chain).isSome then .error (.trap cPROTECTION va) else match viewRead d (j.who d) x.1 va n with
    | some r => .ok r
    | none => .ok (homeBytes d (keyOf d j.owner) x.2 n, poisoned d x.2 n)

/-- n bytes of global memory as the job reads them. -/
def Job.load (j : Job) (d : Dev) (va n : Nat) : Except EngFault (List Byte × Bool) :=
  match engXlat d j.owner va .read j.parked with
  | .error e => .error e
  | .ok x => j.loadFrom d x va n

/-- n bytes of a record's space as the job reads them: poison fails the job (R340). -/
def Job.read (j : Job) (d : Dev) (scratch : Bool) (a : Int) (n : Nat) : Except EngFault (List Byte) :=
  let r := if scratch then
      match j.blockIn d with
      | some b => .ok (b.sbytes a.toNat n, b.spoison a.toNat n)
      | none => .ok (List.replicate n 0, false)
    else j.load d (vaOf a) n
  match r with
  | .error e => .error e
  | .ok (b, bad) => if bad then .error (.trap cPOISON_CONSUMED (vaOf a)) else .ok b

/-- Bytes that the job writes at va, which a page translates: at their home, or in the child's shadow; a write of a discarded
child to a view page is dropped (R250, R310, R340). The physical range written at home is told. -/
def Job.storeTo (j : Job) (d : Dev) (x : Leaf × Nat) (va : Nat) (bytes : List Byte) : Except EngFault (Dev × Option (Nat × Nat)) :=
  match inShadow (j.who d) x.1 with
  | none =>
    let w := j.place d
    .ok (engineStore d w.1 w.2 (keyOf d j.owner) x.2 bytes, some (x.2, bytes.length))
  | some c =>
    if orphaned d j then .ok (d, none)
    else if !isReduction x.1.redop && (awayFork d j.chain).any (fun f => (pageAt f.twins (va / 2 ^ 16)).isNone) then
      .error (.trap cPROTECTION va)
    else
      let q := ((j.blockIn d).map (·.shape.quota)).getD 0
      match allocChain d ⟨j.owner, j.launch, q, (j.place d).2, keyOf d j.owner, x.1.redop, va / 2 ^ 16, x.1.pa⟩ j.chain with
      | none => .ok (exhaust d j.chain, none)
      | some d => .ok (storeShadow d c.1 c.2 (va / 2 ^ 16) (va % 2 ^ 16) bytes, none)

/-- Bytes of global memory written by the job. -/
def Job.store (j : Job) (d : Dev) (va : Nat) (bytes : List Byte) : Except EngFault (Dev × Option (Nat × Nat)) :=
  match engXlat d j.owner va .write j.parked with
  | .error e => .error e
  | .ok x => j.storeTo d x va bytes

/-! ## One element (R334, R335) -/

/-- A scratchpad that a job writes: block, offset and length of the part it may write. -/
structure Target where
  block : Nat
  off : Nat
  len : Nat
  deriving DecidableEq, Repr

/-- How far a job has come: the package, STATUS bits, physical ranges written, the fault that stops it. -/
structure JobRun where
  d : Dev
  stat : Nat := 0
  wrote : List (Nat × Nat) := []
  stop : Option EngFault := none
  deriving DecidableEq, Repr

/-- Coordinates added point by point. -/
def addCoords (a b : List Int) : List Int := a.zipIdx.map fun (e : Int × Nat) => e.1 + nth 0 b e.2

/-- The gather coordinates of a box point, or none outside, with CONV_OVERRUN (R335). -/
def gatherCoords (c : Card) (s : Layout) (p : List Int) : Option (List Int) :=
  let o := addCoords c.sorg p
  let q := nth 0 o 1
  let t := nth 0 o 2
  let pix : Int := (c.oh * c.ow : Nat)
  let n := q / pix
  let r := q % pix
  if (nth 1 s.ext 3 : Nat) ≤ n ∨ ((c.fw * c.fh : Nat) : Int) ≤ t then none
  else some [nth 0 o 0, r % c.ow * c.sx + t % c.fw * c.dx - c.px, r / c.ow * c.sy + t / c.fw * c.dy - c.py, n, 0]

/-- The source coordinates of a box point; none beyond the last image or tap (R334, R335). -/
def Job.source (j : Job) (p : List Int) : Option (List Int) :=
  if j.kind = .gather then gatherCoords j.card j.src p else some (addCoords j.card.sorg p)

/-- The raw bits of an element as stored. -/
def elemBits (r : Layout) (c : List Int) (b : List Byte) : Nat :=
  if r.type.nibble then natOf b / (if r.high c then 16 else 1) % 16 else natOf b

/-- The scale entry of an element, 0 without SCALE (R76). -/
def Job.exponent (j : Job) (d : Dev) (r : Layout) (c : List Int) : Except EngFault Int :=
  if r.scale = 0 then .ok 0
  else match j.read d false (r.scale + r.scaleIndex c : Nat) 1 with
    | .error e => .error e
    | .ok b => .ok (sext (natOf b) 8)

/-- STATUS bits of the conversion flags: IV, OF, UF, NX from bit 5 (R341). -/
def statFlags (f : FFlags) : Nat :=
  2 ^ 5 * b2n (f.getLsbD 0) + 2 ^ 6 * b2n (f.getLsbD 2) + 2 ^ 7 * b2n (f.getLsbD 3) + 2 ^ 8 * b2n (f.getLsbD 4)

/-- The bits that the job writes at destination coordinates, with its STATUS bits (R334). -/
def Job.value (j : Job) (d : Dev) (s : Option (List Int)) (t : List Int) : Except EngFault (Nat × Nat) :=
  let src := match s with
    | some c => if j.src.inside c then some c else none
    | none => none
  let x : Except EngFault (Nat × Nat) := match src with
    | none => .ok (j.src.padBits, 2)
    | some c => (j.read d j.src.scratch (j.src.addr c) j.src.type.size).map fun b => (elemBits j.src c b, 0)
  match x with
  | .error e => .error e
  | .ok (x, st) =>
    if j.src.type = j.dst.type && j.src.scale = 0 && j.dst.scale = 0 then .ok (x, st)
    else
      let es : Except EngFault Int := match src with
        | none => .ok 0
        | some c => j.exponent d j.src c
      match es, j.exponent d j.dst t with
      | .error e, _ | .ok _, .error e => .error e
      | .ok es, .ok ed =>
        let y := j.dst.type.round ((Rnd.ofCode j.card.rm).getD .rne) j.card.sat (scaleVal (j.src.type.val x) (es - ed))
        .ok (y.1, st ||| statFlags y.2)

/-- Bytes written into every scratchpad of the job. -/
def putTargets (d : Dev) (tg : List Target) (a : Nat) (bytes : List Byte) : Dev :=
  tg.foldl (fun d t => if a + bytes.length ≤ t.len then modBlock d t.block fun b => b.swrite (t.off + a) bytes else d) d

/-- One byte that a 4-bit element shares, as it stands: poison stays (R265). -/
def Job.shared (j : Job) (d : Dev) (a : Int) (tg : Target) : Except EngFault Nat :=
  if j.dst.scratch then .ok (((findBlock d tg.block).map fun b => (b.sbyte (tg.off + a.toNat)).toNat).getD 0)
  else (j.load d (vaOf a) 1).map fun r => natOf r.1

/-- The bytes that hold an element: a 4-bit kind keeps the other half of its byte (R68). -/
def elemBytesOf (r : Layout) (c : List Int) (x old : Nat) : List Byte :=
  if r.type.nibble then bytesOf (if r.high c then old % 16 + 16 * x else old / 16 * 16 + x) 1 else bytesOf x r.type.size

/-- One element written at destination coordinates, phantom rows included (R329, R334). -/
def Job.put (j : Job) (tg : List Target) (r : JobRun) (c : List Int) (x : Nat) : JobRun :=
  if r.stop.isSome then r
  else
    let a := j.dst.addr c
    if j.dst.scratch then
      { r with d := tg.foldl (fun d t =>
          let old := match j.shared d a t with
            | .ok o => o
            | .error _ => 0
          putTargets d [t] a.toNat (elemBytesOf j.dst c x old)) r.d }
    else match if j.dst.type.nibble then j.shared r.d a ⟨0, 0, 0⟩ else .ok 0 with
      | .error e => { r with stop := some e }
      | .ok old => match j.store r.d (vaOf a) (elemBytesOf j.dst c x old) with
        | .error e => { r with stop := some e }
        | .ok (d, w) => { r with d := d, wrote := match w with
            | some w => w :: r.wrote
            | none => r.wrote }

/-- The phantom rows that the element at c brings (R334). -/
def Layout.phantoms (r : Layout) (c : List Int) : List (List Int) :=
  if r.ilv != 0 && nth 0 c 1 = (nth 1 r.ext 1 : Nat) - 1 then
    (List.range (r.rows - nth 1 r.ext 1)).map fun i => modAt c 1 fun _ => (nth 1 r.ext 1 + i : Nat)
  else []

/-- One box point of a job (R334). -/
def Job.point (j : Job) (tg : List Target) (r : JobRun) (p : List Int) : JobRun :=
  if r.stop.isSome then r
  else
    let s := j.source p
    let t := addCoords j.card.dorg p
    let r := if s.isNone then { r with stat := r.stat ||| 1 } else r
    if !j.dst.inside t then r
    else match j.value r.d s t with
      | .error e => { r with stop := some e }
      | .ok (x, st) =>
        let r := j.put tg { r with stat := r.stat ||| st } t x
        (j.dst.phantoms t).foldl (fun r c => j.put tg r c j.dst.padBits) r

/-- The box of the slice. -/
def Job.box (j : Job) : Box := boxFrom [0, 0, 0, 0, 0] j.lo j.size

/-- Sectors that the job wrote whole are no longer poisoned (R265). -/
def clearWritten (d : Dev) (wrote : List (Nat × Nat)) : Dev :=
  { d with bad := d.bad.filter fun e => !within wrote (32 * e.1) 32 }

/-- Every point of the slice in order, until a fault (R334). -/
def Job.run (j : Job) (d : Dev) (tg : List Target) : JobRun :=
  let r := (boxPoints j.box).foldl (j.point tg) { d := d }
  { r with d := clearWritten r.d r.wrote }

/-! ## STATUS (R341) -/

/-- STATUS after the OR: CAUSE is that of the first failing job. -/
def statusOr (old new : Nat) : Nat :=
  if bits old 23 16 = 0 then old ||| new else old ||| (new - bits new 23 16 * 2 ^ 16)

/-- The OR at the card's home slice, or what stops it: the address is translated once, as a write (R341). -/
def Job.status (j : Job) (d : Dev) (stat : Nat) : Except EngFault Dev :=
  let va := vaOf (j.cardAddr.toNat + 0x60 : Nat)
  match engXlat d j.owner va .write j.parked with
  | .error e => .error e
  | .ok x =>
    let w := j.place d
    let d := if x.1.kind = .view then d else dropLine d w.1 w.2 (x.2 / 128)
    match j.loadFrom d x va 8 with
    | .error e => .error e
    | .ok (old, bad) =>
      if bad then .error (.trap cPOISON_CONSUMED va)
      else (j.storeTo d x va (bytesOf (statusOr (natOf old) stat) 8)).map (·.1)

/-! ## Completion (R338-R340) -/

/-- A slot that waits at barrier n, which became BROKEN, is to trap: its arrival is void (R339). -/
def Slot.breakBar (x : Slot) (n : Nat) : Slot :=
  if x.wait = .bar n || x.wait = .barArrive n then { x with wait := .broken, micro := 0 } else x

/-- Bytes delivered into PENDING of a barrier; groups that wait at one that becomes BROKEN are to trap (R338, R339). -/
def deliverBytes (d : Dev) (b n bytes : Nat) : Dev :=
  modBlock d b fun x =>
    let y := (x.bar n).deliver bytes
    let x := x.setBar n y
    if y.broken then
      { x with groups := x.groups.map fun g => { g with slot0 := g.slot0.breakBar n, slot1 := g.slot1.breakBar n } }
    else x

/-- Arrivals that can be made are made: one at a barrier whose phase is full waits for the next (R339). -/
def arriveAll (d : Dev) : List (Nat × Nat) → Dev × List (Nat × Nat)
  | [] => (d, [])
  | (b, n) :: t =>
    match findBlock d b with
    | none => arriveAll d t
    | some x =>
      if (x.bar n).broken then arriveAll d t
      else if (x.bar n).full then
        let r := arriveAll d t
        (r.1, (b, n) :: r.2)
      else arriveAll (modBlock d b fun x => x.setBar n (x.bar n).engineArrive) t

/-- The job with f applied. -/
def modJob (d : Dev) (id : Nat) (f : Job → Job) : Dev := { d with jobs := modFirst d.jobs (fun x => x.id = id) f }

/-- A job leaves the tracker. -/
def dropJob (d : Dev) (id : Nat) : Dev :=
  { d with jobs := d.jobs.filter (fun x => x.id ≠ id), ranges := d.ranges.filter fun r => r.job ≠ id }

/-- A job whose accesses are performed: its arrivals, and its end once all are made (R283, R339). -/
def settleJob (d : Dev) (id : Nat) (arrivals : List (Nat × Nat)) : Dev :=
  let r := arriveAll d arrivals
  if r.2.isEmpty then dropJob r.1 id
  else modJob { r.1 with ranges := r.1.ranges.filter fun x => x.job ≠ id } id fun j =>
    { j with performed := true, parked := none, arrivals := r.2 }

/-- The report of a failed job (R340). -/
def Job.report (j : Job) (c : Cause) (va : Nat) : Report :=
  { bit := 1, cause := c, slot := 0, flag := 15, bar := j.bar, info0 := j.cardAddr, info1 := dw va, info2 := j.sel }

/-- A job failed: every group of its block is to trap; with none left, its unit ends (R340). -/
def failJob (d : Dev) (j : Job) (c : Cause) (va : Nat) : Dev :=
  match findBlock d j.block with
  | some b =>
    if b.groups.any fun g => g.live != 0 then
      modBlock d j.block fun b => { b with groups := b.groups.map fun g => if g.live = 0 then g else g.defer (j.report c va) }
    else endUnit d b (regs d) ⟨0, 2, j.engine, false⟩
  | none => match j.origin with
    | some b => if j.orphan then d else endUnit d b (regs d) ⟨0, 2, j.engine, false⟩
    | none => d
where
  regs (d : Dev) : TrapRegs :=
    { cause := c, info0 := j.cardAddr, info1 := dw va, time := dw d.time }

/-- The job waits for the resolution of a replayable fault; nothing of it stands yet (R340, R386). -/
def parkJob (d : Dev) (j : Job) (va kind lvl e : Nat) (acc : Acc) : Dev :=
  let lid := ((j.blockIn d).map (·.launchId.toNat)).getD 0
  let r := parkFault d j.owner va kind lvl e acc ⟨lid, 2, j.engine, 0⟩
  modJob r.1 j.id fun x => { x with parked := some r.2 }

/-- The kind of access that a park of the job names: a write where the address is one it writes. -/
def Job.accOf (j : Job) (va : Nat) : Acc :=
  if j.writes.any fun r => !r.1 && decide (r.2.1 ≤ va) && decide (va < r.2.2) then .write else .read

/-- A job after its elements: STATUS, deliveries, arrivals (R338-R341); `more` are STATUS bits of a multicast. -/
def finishJob (d : Dev) (j : Job) (r : JobRun) (more : Nat) (deliver : Dev → Dev) (arrivals : List (Nat × Nat)) : Dev :=
  match r.stop with
  | some (.park va kind lvl e) => parkJob d j va kind lvl e (j.accOf va)
  | stop =>
    let fault := match stop with
      | some (.trap c va) => some (c, va)
      | some (.park _ _ _ _) | none => none
    let stat := r.stat ||| more ||| match fault with
      | some (c, _) => 4 + 2 ^ 16 * c.toNat
      | none => 0
    let gone := fun (d : Dev) => (d.jobs.find? fun x => x.id = j.id).all (·.dropped)
    match if gone r.d then .ok r.d else j.status r.d stat with
    | .error (.park va kind lvl e) => parkJob d j va kind lvl e .write
    | .error (.trap c va) => settleJob (deliver (failJob r.d j (match fault with | some f => f.1 | none => c)
        (match fault with | some f => f.2 | none => va))) j.id arrivals
    | .ok d => settleJob (deliver (match fault with
        | some f => failJob d j f.1 f.2
        | none => d)) j.id arrivals

/-! ## COPY_JOB_EXECUTE (R334-R341) -/

/-- The members of a channel with their registrations. -/
def receivers (d : Dev) (c : Nat) : List (Nat × LBuf) :=
  ((d.channels.find? fun x => x.id = c).map (·.members)).getD [] |>.filterMap fun b =>
    (findBlock d b).bind fun x => (x.lbufs.find? fun l => l.chan = c).map fun l => (b, l)

/-- A span in its space: 2 b is the scratchpad of block b, 2 o + 1 the addresses of owner o. -/
def Job.spanAt (j : Job) (r : Bool × Nat × Nat) : Nat × Nat × Nat := (if r.1 then 2 * j.block else 2 * j.owner + 1, r.2)

/-- The spans that a job writes: a multicast those of every landing buffer (R336, R344). -/
def Job.writeSpace (j : Job) (d : Dev) : List (Nat × Nat × Nat) :=
  if j.kind = .multicast then
    (receivers d j.chan).flatMap fun x => j.writes.map fun r => (2 * x.1, r.2.1 + x.2.off, r.2.2 + x.2.off)
  else j.writes.map j.spanAt

/-- Spans of two lists overlap. -/
def spansMeet (a b : List (Nat × Nat × Nat)) : Bool :=
  a.any fun x => b.any fun y => x.1 = y.1 && decide (x.2.1 < y.2.2) && decide (y.2.1 < x.2.2)

/-- Two jobs conflict (R337). -/
def Job.conflicts (a b : Job) (d : Dev) : Bool :=
  let wa := a.writeSpace d
  let wb := b.writeSpace d
  spansMeet wa (b.reads.map b.spanAt ++ wb) || spansMeet wb (a.reads.map a.spanAt)

/-- A receiver's buffer is free as the channel sees it (R345). -/
def receiverFree (d : Dev) (chan b : Nat) : Bool :=
  match findBlock d b with
  | none => true
  | some x => (x.state = .resident || x.state = .parked || x.state = .evicted) &&
      (x.lbufs.find? fun l => l.chan = chan).all (·.free)

/-- A message that waits for a buffer which the job's own block has still to free: it comes after the job (log 21). -/
def Job.waitsFor (a b : Job) (d : Dev) : Bool :=
  a.kind = .multicast && !receiverFree d a.chan b.block && (receivers d a.chan).any fun x => x.1 = b.block

/-- A job that was released earlier conflicts with the job (R296, R337). -/
def held (d : Dev) (j : Job) : Bool :=
  (d.jobs.takeWhile fun x => x.id ≠ j.id).any fun x => !x.performed && x.conflicts j d && !x.waitsFor j d

/-- A parked job whose tag has not been answered (R388). -/
def Job.waits (j : Job) (d : Dev) : Bool := j.parked.any fun t => outstanding d t

/-- The scratchpad that a copy writes: its own block's. -/
def Job.own (j : Job) (d : Dev) : List Target :=
  match findBlock d j.block with
  | some b => [⟨b.key, 0, b.shape.scrb⟩]
  | none => []

/-- A copy or gather job is performed. -/
def performCopy (d : Dev) (j : Job) : Dev :=
  finishJob d j (j.run d (j.own d)) 0 (fun d => if j.mode = 1 then deliverBytes d j.block j.bar j.count else d)
    (if j.mode = 2 then [(j.block, j.bar)] else [])

/-- COPY_JOB_EXECUTE: a job of an engine is performed, or makes the arrivals it still owes. -/
def execCopyJobExecute (id : Nat) (s : State) : Res :=
  let s := s.unfocus
  match s.dev.jobs.find? fun j => j.id = id with
  | none => s.noEvent
  | some j =>
    if j.dropped then .next (s.onDev fun d => dropJob d id)
    else if j.performed then .next (s.onDev fun d => settleJob d id j.arrivals)
    else if j.kind = .multicast || j.waits s.dev || held s.dev j || !trackerHolds s.dev id then s.noEvent
    else .next (s.onDev fun d => performCopy d j)

/-! ## MULTICAST_SEND (R344, R345) -/

/-- FREE := 0 at the receivers of a message (R344). -/
def takeBuffers (d : Dev) (chan : Nat) (rs : List (Nat × LBuf)) : Dev :=
  rs.foldl (fun d r => modBlock d r.1 fun b => { b with
    lbufs := modFirst b.lbufs (fun l => l.chan = chan) fun l => { l with free := false } }) d

/-- STATUS bits of revoked receivers: MC_PARTIAL and the lowest BLIN (R341, R344). -/
def revokedStat (c : Channel) : Nat :=
  match c.revoked with
  | [] => 0
  | b :: t => 8 + 2 ^ 32 * t.foldl min b

/-- A multicast is performed: its source box into every receiver's buffer (R344). -/
def performCast (d : Dev) (j : Job) (c : Channel) : Dev :=
  let rs := receivers d c.id
  let tg : List Target := rs.map fun r => ⟨r.1, r.2.off, r.2.len⟩
  let r : JobRun := if rs.isEmpty then { d := d, stat := 16 } else j.run d tg
  let d' := finishJob d j r (revokedStat c)
    (fun d => rs.foldl (fun d x => if x.2.mode = 1 then deliverBytes d x.1 x.2.bar j.count else d)
      (modChan (takeBuffers d c.id rs) c.id fun c => { c with revoked := [] }))
    ((rs.filter (fun x => x.2.mode = 2)).map (fun x => (x.1, x.2.bar)) ++ (if j.mode = 2 then [(j.block, j.bar)] else []))
  d'

/-- MULTICAST_SEND: the first message that waits on its channel goes once every receiver is free or revoked. -/
def execMulticastSend (id : Nat) (s : State) : Res :=
  let s := s.unfocus
  match s.dev.jobs.find? fun j => j.id = id with
  | none => s.noEvent
  | some j =>
    if j.dropped then .next (s.onDev fun d => dropJob d id)
    else if j.performed then .next (s.onDev fun d => settleJob d id j.arrivals)
    else match s.dev.channels.find? fun c => c.id = j.chan with
    | none => s.noEvent
    | some c =>
      if j.kind != .multicast || j.waits s.dev || held s.dev j || !trackerHolds s.dev id || !(c.members.all (receiverFree s.dev c.id)) ||
          (s.dev.jobs.takeWhile fun x => x.id ≠ j.id).any (fun x => x.kind = .multicast && x.chan = j.chan && !x.performed)
      then s.noEvent
      else .next (s.onDev fun d => performCast d j c)

end Sys2Proof.Machine
end

