-- ==== Sys2Proof/Machine/Names.lean ====
section
/-! DEFINITION. Remote register stores (11 R239-R245): `rstv`, the check at the home package, the delivery at LOC, the status
that returns, RSSTAT; and the answers of R242 that transfers share. -/

namespace Sys2Proof.Machine

open Sys2Proof

/-! ## RSSTAT (R243) -/

/-- Field [hi:lo] of a double word replaced. -/
def setField (x : DWord) (hi lo v : Nat) : DWord :=
  dw (x.toNat - bits x.toNat hi lo * 2 ^ lo + v % 2 ^ (hi + 1 - lo) * 2 ^ lo)

/-- SENT after one more packet. -/
def statSent (x : DWord) : DWord := setField x 15 0 (bits x.toNat 15 0 + 1)

/-- RSSTAT after a status code (R242, R243). -/
def statCount (x : DWord) (code : Nat) : DWord :=
  let sat := fun (hi lo : Nat) => setField x hi lo (min 255 (bits x.toNat hi lo + 1))
  let y := match code with
    | 0 => setField x 31 16 (bits x.toNat 31 16 + 1)
    | 1 => sat 39 32
    | 2 => sat 47 40
    | _ => sat 55 48
  setField y 63 56 (max (bits y.toNat 63 56) code)

/-! ## rstv (R239) -/

/-- A value that is no name the sender can reach (R239, R355). -/
def State.nameFault (s : State) (n : DWord) : Option State :=
  if badName s.dev s.blk.shape.owner n then some (s.trapAll cNAME_INVALID n 0) else none

/-- The issuing slot awaits an acknowledgement of a remote access (R252). -/
def State.accessBusy (s : State) : Bool :=
  s.grp.pend.any fun e => decide (e.slot = b2n s.k) && s.dev.outstanding.any fun o => o.purpose = .access && o.pend = e.id

/-- The number and preceding deadline of the group's next packet to a name (R239). -/
def Group.nextStore (g : Group) (n : DWord) : Nat × Nat := ((g.rstvSeq.find? fun e => e.1 = n).map (·.2)).getD (0, 0)

/-- A packet sent to a name's home, counted by SETB; the store is a release at system scope (R239, R244). -/
def State.sendStore (s : State) (n : DWord) (t : VReg) (m : Mask) (data : List Word) : State :=
  let s := s.release .sys
  let id := s.dev.nextId
  let x := s.grp.nextStore n
  let p := mkPacket s.dev (nameHome n) s.blk.shape.owner 1
    (.rstv (id + 1) n t m data (s.blk.key * 32 + s.grp.idx) x.1 x.2 false)
  let o : Outstanding := { id := id + 1, purpose := .rstv, block := s.blk.key, gidx := s.grp.idx, pend := id, pslot := b2n s.k,
                           deadline := p.deadline, target := nameHome n, name := n }
  let s := s.count false fun e => { e with ext := true }
  let s := s.onGrp fun g => { g with
    rsstat := statSent g.rsstat
    rstvSeq := (n, x.1 + 1, p.deadline) :: g.rstvSeq.filter fun e => e.1 ≠ n }
  s.onDev fun d => sendPacket { d with nextId := id + 2, outstanding := d.outstanding ++ [o] } p

/-- `rstv sS, vT, vD` (R239): with no lane its flag rises and falls at once (R26). -/
def execRstv (d : VReg) (n : SReg) (t : VReg) (s : State) : Res :=
  s.counted false 1 [.s n 1] [] fun s =>
    match s.nameFault (s.rs n) with
    | some u => .next u
    | none =>
      if s.part = 0 then .next s.notRestartable.advance
      else if s.accessBusy then .next (s.waitFor .ops)
      else s.withOperands s.part [.v d 1] [] fun s =>
        .next (s.notRestartable.sendStore (s.rs n) t s.part ((lanesOf s.part).map fun L => s.rv L d)).advance

/-! ## The target (R240) -/

/-- The block and group that hold a name on this package, and that the package holds as resident or saved. -/
def holderOf (d : Dev) (n : DWord) : Option (Block × Group) :=
  d.blocks.findSome? fun b => if b.loc = d.pkg && b.state != .inTransit && b.state != .unstarted then
      (b.groups.find? fun g => g.pname = n).map fun g => (b, g)
    else none

/-- A delivery to register t of a group: the status, and the group after it (R240). -/
def Group.receive (g : Group) (vregs t : Nat) (m : Mask) (data : List Word) (stamp : Nat) : Group × Nat :=
  if vregs ≤ t then (g, 6)
  else
    let e := g.holdOf t
    if e.isNone && 8 ≤ g.holds.length then (g, 5)
    else
      let h : Hold := e.getD { reg := t, held := false, hmask := 0, arr := 0, conf := 0 }
      let put := fun (h : Hold) => { g with holds := h :: g.holds.filter fun x => x.reg ≠ t }
      if m &&& h.arr != 0 then (put { h with conf := h.conf ||| (m &&& h.arr), stamp := stamp }, 3)
      else
        let g := put { h with arr := h.arr ||| m }
        (((lanesOf m).zip data).foldl (fun g e => g.setV (32 * t + e.1) e.2) g, 0)

/-- A packet applied at LOC (R240). -/
def deliverStore (d : Dev) (n : DWord) (t : Nat) (m : Mask) (data : List Word) (stamp : Nat) : Dev × Nat :=
  match holderOf d n with
  | none => (d, 2)
  | some (b, g) =>
    let r := g.receive b.shape.vregs t m data stamp
    (modBlock d b.key fun b => b.modGroup g.idx fun _ => r.1, r.2)

/-! ## The check at home (R240, R241) -/

/-- What the entry of a name says of a packet: a status, deferral, or its entry (R240). -/
inductive HomeCheck where
  | status (code : Nat)
  | defer
  | go (e : NameEntry)
  deriving DecidableEq, Repr

/-- The check of a packet or claim against its entry (R240, R356, R420). -/
def homeCheck (d : Dev) (owner : Nat) (n : DWord) : HomeCheck :=
  let e := Sparse.get {} d.names (nameIndex n)
  if e.poisoned || e.state = .free || e.gen ≠ nameGen n then .status 1
  else match e.state with
    | .retired => .status 2
    | .moving => if e.owner ≠ owner then .status 4 else .defer
    | .resident | .saved => if e.owner ≠ owner then .status 4 else .go e
    | .free => .status 1

/-- A deadline that never passes: of a packet that home has accepted (R241). -/
def noDeadline : Nat := 2 ^ 64

/-- A packet put into the deferral queue of its entry; FULL where it finds no room (R241). -/
def deferPacket (d : Dev) (n : DWord) (p : Packet) (full : Dev → Dev) : Dev :=
  let e := Sparse.get {} d.names (nameIndex n)
  if 65536 ≤ d.deferCount || 4096 ≤ e.deferred.length then full d
  else { d with
    names := Sparse.put {} d.names (nameIndex n) { e with deferred := e.deferred ++ [{ p with deadline := noDeadline }] }
    deferCount := d.deferCount + 1 }

/-- An answer to a packet, for the source to judge by its own deadline. -/
def answer (d : Dev) (p : Packet) (body : PacketBody) : Dev := reply d { p with dst := d.pkg, deadline := noDeadline } body

/-- A remote store that home serves: answered, deferred, applied here, or forwarded once to LOC (R240, R241). -/
def serveStore (d : Dev) (p : Packet) : Dev :=
  match p.body with
  | .rstv id n t m data _ _ _ _ => match homeCheck d p.owner n with
    | .status c => answer d p (.status id c)
    | .defer => deferPacket d n p fun d => answer d p (.status id 5)
    | .go e =>
      if e.loc = d.pkg then
        let r := deliverStore d n t m data p.stamp
        answer r.1 p (.status id r.2)
      else
        let d := modName d n fun e => { e with fwd := e.fwd + 1, fwdBy := d.time + deadlineOf d p.owner 1 }
        sendPacket d { p with dst := e.loc, deadline := noDeadline, body := .rstv id n t m data 0 e.fwd e.fwdBy true }
  | _ => d

/-! ## The events (R240-R244) -/

/-- The number that home applies next from a sender to a name (R244). -/
def nextApplied (d : Dev) (k : Nat × Nat × DWord) : Nat := ((d.applied.find? fun e => e.1 = k).map (·.2)).getD 0

/-- The sender's packets up to a number are applied or skipped. -/
def noteApplied (d : Dev) (k : Nat × Nat × DWord) (seq : Nat) : Dev :=
  { d with applied := (k, max (nextApplied d k) (seq + 1)) :: d.applied.filter fun e => e.1 ≠ k }

/-- RSTV_HOME_CHECK: packet k of the inbox reaches its name's home. It is taken in the sender's order; a missing number is
passed over once its deadline has passed (R244). -/
def execRstvHomeCheck (k : Nat) (s : State) : Res :=
  let s := s.unfocus
  let d := s.dev
  match inboxAt d k with
  | some p => match p.body with
    | .rstv _ n _ _ _ sender seq prev false =>
      let key := (p.src, sender, n)
      if nextApplied d key < seq && decide (d.time ≤ prev) then s.noEvent
      else
        let d := noteApplied (dropInbox d k) key seq
        .next { s with dev := if p.deadline < d.time then d else serveStore d p }
    | _ => s.noEvent
  | none => s.noEvent

/-- RSTV_APPLY: a forwarded packet is applied at LOC, in the order in which the name's home forwarded it (R240, R244). -/
def execRstvApply (k : Nat) (s : State) : Res :=
  let s := s.unfocus
  match inboxAt s.dev k with
  | some p => match p.body with
    | .rstv id n t m data _ seq prev true =>
      let key := (nameHome n, 0, n)
      if nextApplied s.dev key < seq && decide (s.dev.time ≤ prev) then s.noEvent
      else
        let r := deliverStore (noteApplied (dropInbox s.dev k) key seq) n t m data p.stamp
        .next { s with dev := answer r.1 p (.status id r.2) }
    | _ => s.noEvent
  | none => s.noEvent

/-- The counted operation of an identifier in a group completes when the scheduler next turns to it. -/
def Group.acked (g : Group) (id : Nat) : Group :=
  { g with pend := g.pend.map fun e => if e.id = id then { e with ext := false } else e }

/-- The one status of a request is counted and its flag may complete (R242, R243). -/
def settleStatus (d : Dev) (o : Outstanding) (code : Nat) : Dev :=
  modBlock (dropOut d o.id) o.block fun b => b.modGroup o.gidx fun g =>
    { g.acked o.pend with rsstat := statCount g.rsstat code }

/-- RSTV_STATUS: a status returns; one that comes after the deadline finds the request ended as TIMEOUT (R242). -/
def execRstvStatus (k : Nat) (s : State) : Res :=
  let s := s.unfocus
  match inboxAt s.dev k with
  | some p => match p.body with
    | .status id c =>
      let d := dropInbox s.dev k
      .next { s with dev := match findOut d id with
        | none => d
        | some o => settleStatus d o (if o.deadline < d.time then 7 else c) }
    | _ => s.noEvent
  | none => s.noEvent

/-- RSTV_TIMEOUT: the deadline of a packet passes (R242). -/
def execRstvTimeout (id : Nat) (s : State) : Res :=
  let s := s.unfocus
  match findOut s.dev id with
  | some o =>
    if o.purpose = .rstv && decide (o.deadline < s.dev.time) then .next { s with dev := settleStatus s.dev o 7 }
    else s.noEvent
  | none => s.noEvent

end Sys2Proof.Machine
end

