-- ==== Sys2Proof/Machine/Transfer.lean ====
section
/-! DEFINITION. Bulk transfers into a named block (17 R355-R358): `fxfer`, the claim at home, the data packets, the status,
and the arrival counters. -/

namespace Sys2Proof.Machine

open Sys2Proof

/-! ## fxfer (R355) -/

/-- DOFF and LEN of a transfer descriptor. -/
def xferOff (x : Nat) : Nat := bits x 19 0
def xferLen (x : Nat) : Nat := bits x 39 20

/-- The descriptor keeps its limits (R355). -/
def xferLegal (x : Nat) : Bool :=
  xferOff x % 4 = 0 && xferLen x % 4 = 0 && decide (4 ≤ xferLen x) && decide (xferLen x ≤ 524288) && bits x 63 40 = 0

/-- A source page that a transfer refuses: remote, or the host window (R355). -/
def farPage : Option Leaf → Bool
  | some l => l.kind = .remote || isHost l.pa
  | none => false

/-- The checks of a transfer, as the state that a failure leaves (R355). -/
def State.xferChecks (s : State) (n a x : DWord) : Option State :=
  let va := a.toNat
  let k := blocks64 (va : Int) (va + xferLen x.toNat : Nat)
  match s.nameFault n with
  | some t => some t
  | none =>
    if !xferLegal x.toNat then some (s.badOperand x)
    else if va % 4 ≠ 0 then some (s.trapAll cMISALIGNED s.wordInfo a)
    else match s.onceBlocks 3 k va with
      | some t => some t
      | none => (s.findPage farPage k va).map fun v => s.badOperand (dw v)

/-- The source bytes at their homes or in the child's view, and the offsets of poisoned words (R250, R355, R420). -/
def State.xferSource (s : State) (va len : Nat) : List Byte × List Nat :=
  let w := s.who
  let parts := (segmentsOf va len).map fun sg => match s.checkVa .read (sg.1 % 2 ^ 64) with
    | .ok l pa => match viewRead s.dev w l (sg.1 % 2 ^ 64) sg.2 with
      | some r => (sg.1, r.1, (List.range (sg.2 / 4)).filter fun i => (viewRead s.dev w l (sg.1 % 2 ^ 64 + 4 * i) 4).any fun (y : List Byte × Bool) => y.2)
      | none => (sg.1, homeBytes s.dev s.key pa sg.2, (List.range (sg.2 / 4)).filter fun i => poisoned s.dev (pa + 4 * i) 4)
    | .hard _ _ | .soft _ _ _ => (sg.1, [], [])
  (parts.flatMap (·.2.1), parts.flatMap fun p => p.2.2.map fun i => p.1 - va + 4 * i)

/-- A claim sent to the name's home; the release of the command comes first (R296, R355). -/
def State.claim (s : State) (n a x : DWord) (k : Fin 16) : State :=
  let s := s.notRestartable.release .sys
  let src := s.xferSource a.toNat (xferLen x.toNat)
  let id := s.dev.nextId
  let p := mkPacket s.dev (nameHome n) s.blk.shape.owner 2 (.claim (id + 1) n (xferOff x.toNat) (xferLen x.toNat) k)
  let o : Outstanding :=
    { id := id + 1, purpose := .transfer, block := s.blk.key, gidx := s.grp.idx, pend := id, pslot := b2n s.k
      deadline := p.deadline, target := nameHome n, name := n, src := a, doff := xferOff x.toNat, len := xferLen x.toNat
      counter := k, owner := s.blk.shape.owner, data := src.1, badWords := src.2 }
  let s := s.count false fun e => { e with ext := true }
  let s := s.onGrp fun g => { g with rsstat := statSent g.rsstat }
  s.onDev fun d => sendPacket { d with nextId := id + 2, outstanding := d.outstanding ++ [o] } p

/-- `fxfer sN, sA, sX, cK` (R355); a source that a job of the block still writes is awaited (R296). -/
def execFxfer (n a x : SReg) (k : Fin 16) (s : State) : Res :=
  s.counted false 1 [.s n 1, .s a 1, .s x 1] [] fun t =>
    let va := (t.rs a).toNat
    match t.xferChecks (t.rs n) (t.rs a) (t.rs x) with
    | some u => .next u
    | none =>
      if t.rangeHit false false va (va + xferLen (t.rs x).toNat) then .next (t.waitFor .scoreboard)
      else if t.accessBusy then .next (t.waitFor .ops)
      else .next (t.claim (t.rs n) (t.rs a) (t.rs x) k).advance

/-! ## Arrival counters (R357) -/

/-- Arrival counter k of a block. -/
def Block.counter (b : Block) (k : Nat) : Counter := Sparse.get {} b.counters k

/-- The counter has released: TARGET is not 0 and COUNT has reached it (R357). -/
def Counter.released (c : Counter) : Bool := c.target != 0 && decide (c.target ≤ c.count)

/-- A slot that waits on counter k goes on, whatever becomes of the counter before it issues again (R357; log 13). -/
def Slot.release (x : Slot) (k : Nat) : Slot := if x.wait = .counter k then { x with wait := .none, micro := 1 } else x

/-- Both slots of a group do. -/
def Group.release (g : Group) (k : Nat) : Group := { g with slot0 := g.slot0.release k, slot1 := g.slot1.release k }

/-- Every waiting group is released together once counter k has released (R357). -/
def Block.release (b : Block) (k : Nat) : Block :=
  if (b.counter k).released then { b with groups := b.groups.map (·.release k) } else b

/-- `arrc.set cK, sV` (R357). -/
def execArrcSet (v : SReg) (k : Fin 16) (s : State) : Res :=
  s.counted false 1 [.s v 1] [] fun t =>
    let x := t.rs v
    let c := t.blk.counter k
    let clear := x.getLsbD 63
    let consume := x.getLsbD 62 && !clear
    if bits x.toNat 61 32 ≠ 0 then .next (t.badOperand x)
    else if consume && decide (c.count < c.target) then .next (t.badOperand (dw c.count))
    else
      let n := if clear then 0 else if consume then c.count - c.target else c.count
      let u := t.onBlk fun b => { b with counters := Sparse.put {} b.counters k ⟨n, bits x.toNat 31 0⟩ }
      let u := if (u.blk.counter k).released then { u with grp := u.grp.release k, blk := u.blk.release k } else u
      .next (u.count false id).advance

/-- `arrc.wait cK`: its return is an acquire at system scope (R357, R358). -/
def execArrcWait (k : Fin 16) (s : State) : Res :=
  if s.slot.micro = 1 || (s.blk.counter k).released then .next (s.acquire .sys).advance else .next (s.waitFor (.counter k))

/-! ## The claim at home (R356) -/

/-- A claim that home serves: refused, deferred, or granted with LOC (R356). -/
def serveClaim (d : Dev) (p : Packet) : Dev :=
  match p.body with
  | .claim id n doff len _ => match homeCheck d p.owner n with
    | .status c => answer d p (.grant id c 0)
    | .defer => deferPacket d n p fun d => answer d p (.grant id 5 0)
    | .go e =>
      if (findBlock d e.block).any fun b => decide (b.shape.scrb < doff + len) then answer d p (.grant id 6 0)
      else
        let d := { d with names := Sparse.upd {} d.names (nameIndex n) fun e => { e with claims := e.claims ++ [(p.src, id)] } }
        answer d p (.grant id 0 e.loc)
  | _ => d

/-- A deferred packet served when its entry has left MOVING (R241). -/
def serveDeferred (d : Dev) (p : Packet) : Dev :=
  match p.body with
  | .rstv _ _ _ _ _ _ _ _ _ => serveStore d p
  | .claim _ _ _ _ _ => serveClaim d p
  | _ => d

/-- The entry of a name of this package becomes SAVED at a place; where it was MOVING, its deferred packets are then served in arrival
order (R234, R241). -/
def settleName (d : Dev) (n : DWord) (loc save : Nat) : Dev :=
  let e := Sparse.get {} d.names (nameIndex n)
  let d := modName d n fun x => { x.after 2 loc 0 save with fwd := if e.state = .moving then 0 else x.fwd, fwdBy := 0 }
  if e.gen = nameGen n && e.state = .moving then
    let d := { d with
      names := Sparse.upd {} d.names (nameIndex n) (fun e => { e with deferred := [] }), deferCount := d.deferCount - e.deferred.length }
    e.deferred.foldl serveDeferred d
  else d

/-- A transfer's claim no longer stands (R356). -/
def endClaim (d : Dev) (src id : Nat) : Dev :=
  { d with names := d.names.map fun (e : Nat × NameEntry) => (e.1, { e.2 with claims := e.2.claims.filter (· ≠ (src, id)) }) }

/-- FXFER_CLAIM: packet k of the inbox is a claim, or the end of one, at the name's home (R356). -/
def execFxferClaim (k : Nat) (s : State) : Res :=
  let s := s.unfocus
  match inboxAt s.dev k with
  | some p => match p.body with
    | .claim _ _ _ _ _ =>
      let d := dropInbox s.dev k
      .next { s with dev := if p.deadline < d.time then d else serveClaim d p }
    | .xend id _ => .next { s with dev := endClaim (dropInbox s.dev k) p.src id }
    | _ => s.noEvent
  | none => s.noEvent

/-! ## Data packets (R356) -/

/-- The counter after n more bytes: it saturates (R357). -/
def Counter.add (c : Counter) (n : Nat) : Counter := { c with count := min (2 ^ 32 - 1) (c.count + n) }

/-- A data packet in the scratchpad of a block: its bytes, its poisoned words, its count, and the groups that wait for it (R356,
R357, R420). -/
def Block.land (b : Block) (doff k : Nat) (bytes : List Byte) (bad : List Nat) : Block :=
  let b := b.swrite doff bytes
  ({ b with
    scratchBad := bad.foldl (fun t o => Sparse.put false t ((doff + o) / 4) true) b.scratchBad
    counters := Sparse.upd {} b.counters k fun c => c.add bytes.length } : Block).release k

/-- FXFER_DATA_PACKET: packet k of the inbox is applied at LOC and acknowledged. -/
def execFxferDataPacket (k : Nat) (s : State) : Res :=
  let s := s.unfocus
  match inboxAt s.dev k with
  | some p => match p.body with
    | .xdata id n doff c bytes bad =>
      let d := dropInbox s.dev k
      .next { s with dev := if p.deadline < d.time then d else match holderOf d n with
        | none => d
        | some (b, _) => answer (modBlock d b.key fun b => b.land doff c bytes bad) p (.xack id doff) }
    | _ => s.noEvent
  | none => s.noEvent

/-! ## The status (R356) -/

/-- A transfer ends with its one status; a granted claim ends at home. -/
def endTransfer (d : Dev) (o : Outstanding) (code : Nat) (granted : Bool) : Dev :=
  let d := settleStatus d o code
  if granted then sendPacket d { (mkPacket d (nameHome o.name) o.owner 2 (.xend o.id o.name)) with deadline := noDeadline } else d

/-- The data packets of a granted transfer, each of at most 4 KiB (R355). -/
def sendData (d : Dev) (o : Outstanding) (loc : Nat) : Dev :=
  let ps := (piecesOf 4096 (o.len / 4096 + 1) o.data).zipIdx
  let offs := ps.map fun p => o.doff + 4096 * p.2
  let due := d.time + deadlineOf d o.owner 2
  let d := { d with outstanding := modFirst d.outstanding (fun x => x.id = o.id) fun x =>
    { x with awaited := offs, deadline := due, target := loc } }
  ps.foldl (fun d p =>
    let lo := 4096 * p.2
    let bad := (o.badWords.filter fun w => decide (lo ≤ w) && decide (w < lo + 4096)).map (· - lo)
    sendPacket d (mkPacket d loc o.owner 2 (.xdata o.id o.name (o.doff + lo) o.counter p.1 bad))) d

/-- A packet of the inbox that answers request `id`. -/
def answersTo (id : Nat) (p : Packet) : Bool :=
  match p.body with
  | .grant i _ _ => i = id
  | .xack i _ => i = id
  | _ => false

/-- An answer to a transfer: the grant starts its data, the last acknowledgement ends it. -/
def transferAnswer (d : Dev) (o : Outstanding) (p : Packet) : Dev :=
  match p.body with
  | .grant _ c loc => if c = 0 then sendData d o loc else endTransfer d o c false
  | .xack _ doff =>
    let rest := o.awaited.filter (· ≠ doff)
    let d := { d with outstanding := modFirst d.outstanding (fun x => x.id = o.id) fun x => { x with awaited := rest } }
    if rest.isEmpty then endTransfer d o 0 true else d
  | _ => d

/-- An answer to a transfer that has ended: a claim granted late ends at home (R356). -/
def lateAnswer (d : Dev) (id : Nat) (p : Packet) : Dev :=
  match p.body with
  | .grant _ 0 _ => sendPacket d { (mkPacket d p.src p.owner 2 (.xend id 0)) with deadline := noDeadline }
  | _ => d

/-- FXFER_STATUS: the source of transfer `id` takes the next answer, or ends it when its deadline has passed; the status
returns once every data packet is acknowledged or late (R356). -/
def execFxferStatus (id : Nat) (s : State) : Res :=
  let s := s.unfocus
  match findOut s.dev id with
  | some o =>
    if o.purpose ≠ .transfer then s.noEvent
    else if o.deadline < s.dev.time then .next { s with dev := endTransfer s.dev o 7 true }
    else match s.dev.inbox.findIdx? (answersTo id) with
      | none => s.noEvent
      | some k => match inboxAt s.dev k with
        | none => s.noEvent
        | some p => .next { s with dev := transferAnswer (dropInbox s.dev k) o p }
  | none => match s.dev.inbox.findIdx? (answersTo id) with
    | none => s.noEvent
    | some k => .next { s with dev := match inboxAt s.dev k with
        | some p => lateAnswer (dropInbox s.dev k) id p
        | none => s.dev }

end Sys2Proof.Machine
end

