-- ==== Sys2Proof/Machine/CollOps.lean ====
section
/-! DEFINITION. The collective instructions of a group (17 R359-R369): `coll.form`, `coll.reform`, `coll`, `coll.wait`,
`coll.abort`, and what they do at the Turntables. -/

namespace Sys2Proof.Machine

open Sys2Proof

/-! ## Relaxed reads of records -/

/-- n bytes of one line read once as a relaxed load by an instruction that acts once per slot (R269, R308, R360). -/
def State.lineRead (s : State) (va n : Nat) : Except State (State × List Byte) := s.readOnce (.plain false) va 0 n

/-- n bytes from va, a multiple of 64, in at most k pieces of 64 bytes: these bytes and no others (R360). -/
def State.linesRead (s : State) : Nat → Nat → Nat → Except State (State × List Byte)
  | 0, _, _ => .ok (s, [])
  | k + 1, va, n =>
    if n = 0 then .ok (s, [])
    else match s.lineRead (va % 2 ^ 64) (min n 64) with
    | .error t => .error t
    | .ok (s, b) => match s.linesRead k (va + 64) (n - 64) with
      | .error t => .error t
      | .ok (s, c) => .ok (s, b ++ c)

/-! ## Consist records (R359) -/

/-- A consist record as read. -/
structure ConsistRec where
  cid : Nat
  n : Nat
  flimit : Nat
  members : List (Nat × Nat)
  table : List Byte
  deriving DecidableEq, Repr

/-- The fields of the first 64 bytes, with whether each is legal; N = 0 only for a re-formation (R359, R360). -/
def consistFields (again : Bool) (b : List Byte) : List (Nat × Bool) :=
  [(0, decide (1 ≤ recNat b 0 2)), (2, decide (recNat b 2 2 ≤ 1024) && (again || decide (1 ≤ recNat b 2 2))),
   (8, zeroBytes b 8 0x40)]

/-- Package and die of a member entry. -/
def memberOf (x : Nat) : Nat × Nat := (bits x 9 0, bits x 11 10)

/-- The members of a table of n entries. -/
def membersOf (t : List Byte) (n : Nat) : List (Nat × Nat) := (List.range n).map fun i => memberOf (recNat t (2 * i) 2)

/-- The entries of the member table, with whether each is legal (R359). -/
def memberFields (p : Option Partition) (t : List Byte) (n : Nat) : List (Nat × Bool) :=
  let ms := membersOf t n
  (List.range n).map fun i =>
    let m := nth (0, 0) ms i
    (0x40 + 2 * i, bits (recNat t (2 * i) 2) 15 12 = 0 && p.any (fun q => inPod q m.1) && !((ms.take i).contains m))

/-- A record read and checked, or the trap of the first failure (R360). -/
def State.readConsist (s : State) (again : Bool) (a : DWord) : Except State (State × ConsistRec) :=
  if a.toNat % 64 ≠ 0 then .error (s.trapAll cMISALIGNED s.wordInfo a)
  else match s.linesRead 1 a.toNat 64 with
  | .error t => .error t
  | .ok (s, b) => match firstBad (consistFields again b) with
    | some o => .error (s.badOperand (dw o))
    | none =>
      let n := recNat b 2 2
      match s.linesRead (ceilDiv (2 * n) 64) (a.toNat + 64) (2 * n) with
      | .error t => .error t
      | .ok (s, t) => match firstBad (memberFields (partOf s.dev s.blk.shape.owner) t n) with
        | some o => .error (s.badOperand (dw o))
        | none => .ok (s, ⟨cidKey s.dev s.blk.shape.owner (recNat b 0 2), n, recNat b 4 4, membersOf t n, t.take (2 * n)⟩)

/-! ## Formation (R360, R361) -/

/-- FORM of every local member to every package of the table. -/
def sendForms (d : Dev) (o : Nat) (r : ConsistRec) (digest : DWord) : Dev :=
  let pkgs := (r.members.map (·.1)).eraseDups
  (localDies d r.members).foldl (fun d die =>
    let rank := (rankOf r.members d.pkg die).getD 0
    pkgs.foldl (fun d p => sendPacket d { (mkPacket d p o 3 (.form (plainCid r.cid) r.n digest rank r.flimit)) with deadline := noDeadline }) d) d

/-- The formation of a CID on this package ends: the groups that asked learn the status (R360). -/
def endFormation (d : Dev) (cid status : Nat) : Dev :=
  { d with formDone := modIf d.formDone (fun f => f.cid = cid && f.status.isNone) fun f => { f with status := some status } }

/-- The consists of a CID on this package are free. -/
def freeConsist (d : Dev) (cid : Nat) : Dev := { d with consists := d.consists.filter fun c => c.cid ≠ cid }

/-- The ports pinned for the members, or none where some member has no live route (R361). -/
def pinsOf (d : Dev) (ms : List (Nat × Nat)) : Option (List (Nat × Nat)) :=
  let pkgs := ((ms.map (·.1)).eraseDups).filter (· ≠ d.pkg)
  if pkgs.all fun p => !(liveListed d p).isEmpty then
    some (pkgs.map fun p => (p, (liveListed d p).headD 0))
  else none

/-- A FORM taken by the consists of its CID that are FORMING here (R361). -/
def takeForm (d : Dev) (cid rank : Nat) (digest : DWord) : Dev :=
  match d.consists.find? fun c => c.cid = cid && c.state = .forming with
  | none => d
  | some c =>
    if c.digest ≠ digest then endFormation (freeConsist d cid) cid 1
    else
      let forms := if c.forms.contains rank then c.forms else rank :: c.forms
      let put := fun (f : Consist → Consist) => { d with consists := modIf d.consists (fun c => c.cid = cid) f }
      if forms.length < c.members.length then put fun c => { c with forms := forms }
      else match pinsOf d c.members with
        | none => endFormation (freeConsist d cid) cid 5
        | some ps => endFormation (put fun c => { c with forms := forms, state := .ready, pins := ps, limit := 0 }) cid 0

/-- The FORM messages that were held for a CID are taken; one of another owner is discarded and recorded (R361). -/
def takeHeld (d : Dev) (cid owner : Nat) : Dev :=
  let mine := d.heldForms.filter fun h => match h.1.body with
    | .form c _ _ _ _ => cidKey d h.1.owner c = cid && decide (d.time ≤ h.2)
    | _ => false
  let d := { d with heldForms := d.heldForms.filter fun h => match h.1.body with
    | .form c _ _ _ _ => cidKey d h.1.owner c ≠ cid && decide (d.time ≤ h.2)
    | _ => false }
  mine.foldl (fun d h => match h.1.body with
    | .form _ _ g r _ => if h.1.owner = owner then takeForm d cid r g else postError d 9 (fnOf d h.1.owner) 0 1 h.1.dst
    | _ => d) d

/-- Every member of a consist but this package is sent GONE, of a rank (R361). -/
def sendGone (d : Dev) (k : Consist) (rank : Nat) : Dev :=
  (((k.members.map (·.1)).eraseDups).filter (· ≠ d.pkg)).foldl (fun d m =>
    sendPacket d { mkPacket d m k.owner 3 (.gone (plainCid k.cid) rank) with deadline := noDeadline }) d

/-- The consists of a record begin to form at every local Turntable (R361). -/
def beginForm (d : Dev) (o epoch : Nat) (r : ConsistRec) : Dev :=
  let g := formDigest (plainCid r.cid) r.n r.table
  let part := ((partOf d o).map (·.part)).getD 0
  let lim := if r.flimit = 0 then 0 else d.time + 1000 * r.flimit
  let mk := fun die => ({ die := die, cid := r.cid, owner := o, part := part, members := r.members, epoch := epoch, digest := g,
                          limit := lim } : Consist)
  let d := { freeConsist d r.cid with consists := (freeConsist d r.cid).consists ++ (localDies d r.members).map mk }
  takeHeld (sendForms d o r g) r.cid o

/-- A Turntable that the record needs already holds 64 consists, this CID apart (R360). -/
def turntableFull (d : Dev) (r : ConsistRec) : Bool :=
  (localDies d r.members).any fun die => decide (64 ≤ (d.consists.filter fun c => c.die = die && c.cid ≠ r.cid).length)

/-- What `coll.form` does: a status at once, or the formation that its group then awaits (R360, R361). -/
def formStatus (d : Dev) (o : Nat) (r : ConsistRec) : Dev × Option Nat :=
  if (localDies d r.members).isEmpty then (d, some 3)
  else if (heldHere d r.cid).isSome || turntableFull d r then (d, some 4)
  else (beginForm { d with colls := d.colls.filter fun c => c.cid ≠ r.cid } o 0 r, none)

/-- What `coll.reform` does (R360, R361). -/
def reformStatus (d : Dev) (o : Nat) (r : ConsistRec) : Dev × Option Nat :=
  match heldHere d r.cid with
  | none => (d, some 7)
  | some c =>
    if c.owner ≠ o || c.state = .forming then (d, some 4)
    else if r.n = 0 then (freeConsist { d with colls := d.colls.filter fun x => x.cid ≠ r.cid || x.ended } r.cid, some 6)
    else if (localDies d r.members).isEmpty then (d, some 3)
    else if turntableFull d r then (d, some 4)
    else (beginForm { d with colls := d.colls.filter fun x => x.cid ≠ r.cid || x.ended } o (c.epoch + 1) r, none)

/-- The result of the formation that the issuing slot awaits. -/
def State.formResult (s : State) : Option FormDone :=
  s.dev.formDone.find? fun f => f.block = s.blk.key && f.gidx = s.grp.idx && f.pslot = b2n s.k

/-- sD takes the status when the counted operation completes (R360). -/
def State.formEnds (s : State) (d : SReg) (st : Nat) : State :=
  (s.count false fun e => { e with skeys := [d.val], svals := [(d.val, dw st)] }).advance

/-- A formation instruction begins: its record, its action, then the wait (R360). -/
def State.beginFormation (s : State) (again : Bool) (d : SReg) (a : DWord) : State :=
  match s.readConsist again a with
  | .error t => t
  | .ok (s, r) =>
    let s := s.notRestartable
    let x := if again then reformStatus s.dev s.blk.shape.owner r else formStatus s.dev s.blk.shape.owner r
    match x.2 with
    | some st => ({ s with dev := x.1 } : State).formEnds d st
    | none =>
      let f : FormDone := ⟨s.blk.key, s.grp.idx, b2n s.k, r.cid, none⟩
      let dev := { s.dev with formDone := s.dev.formDone ++ [f] }
      let x := if again then reformStatus dev s.blk.shape.owner r else formStatus dev s.blk.shape.owner r
      (({ s with dev := x.1 } : State).onSlot fun y => { y with micro := 1 }).waitFor (.form r.cid)

/-- A formation instruction: it begins once, then waits for the formation to end (R360; log 13). -/
def State.formation (s : State) (again : Bool) (d r : SReg) : Res :=
  s.counted false 1 [.s r 1] [.s d 1] fun t =>
    match if t.slot.micro = 1 then t.formResult else none with
    | none => .next (t.beginFormation again d (t.rs r))
    | some f => match f.status with
      | some st => .next ((t.onDev fun x => { x with formDone := dropFirst x.formDone fun g => g = f }).formEnds d st)
      | none => .next (t.waitFor (.form f.cid))

/-- `coll.form sD, sR` (R360). -/
def execCollForm (d r : SReg) (s : State) : Res := s.formation false d r

/-- `coll.reform sD, sR` (R360). -/
def execCollReform (d r : SReg) (s : State) : Res := s.formation true d r

/-! ## Collective cards (R362) -/

/-- The consist that a card's CID names for the block: held here, by the same owner. -/
def State.cardConsist (s : State) (cid : Nat) : Option Consist :=
  s.dev.consists.find? fun c => c.cid = cidKey s.dev s.blk.shape.owner cid && c.owner = s.blk.shape.owner

/-- The fields of a card in address order, with whether each is legal (R362). -/
def collFields (k : Option Consist) (b : List Byte) : List (Nat × Bool) :=
  let op := recNat b 2 1
  let red := recNat b 3 1
  let n := (k.map (·.members.length)).getD 0
  let count := recNat b 0x10 8
  let len := if op = 1 || op = 2 then n * count else count
  [(0, k.any fun c => c.state != .forming), (2, decide (op ≤ 3)), (3, if op ≤ 1 then decide (1 ≤ red ∧ red ≤ 6) else red = 0),
   (4, decide (7 ≤ recNat b 4 1 ∧ recNat b 4 1 ≤ 14)),
   (5, decide (recNat b 5 1 ≤ 1) && !(recNat b 5 1 = 1 && decide (65536 < len))),
   (6, if op = 3 then decide (recNat b 6 2 < n) else recNat b 6 2 = 0),
   (0x10, count % 4 = 0 && decide (4 ≤ count) && decide (count ≤ 2 ^ 40)), (0x28, zeroBytes b 0x28 0x40)]

/-- A card whose fields are legal. -/
def parseColl (b : List Byte) : CollCard :=
  ⟨recNat b 0 2, recNat b 2 1, recNat b 3 1, recNat b 4 1, recNat b 5 1 = 1, recNat b 6 2, recNat b 8 4, recNat b 0xC 4,
   recNat b 0x10 8⟩

/-- The card at an address: its bytes, or the trap (R363). -/
def State.readColl (s : State) (a : DWord) : Except State (State × List Byte) :=
  if a.toNat % 64 ≠ 0 then .error (s.trapAll cMISALIGNED s.wordInfo a) else s.linesRead 1 a.toNat 64

/-! ## coll (R363) -/

/-- The lanes of T of which p holds. -/
def lanesWhere (T : Mask) (p : Nat → Bool) : Mask := maskOf fun L => inM T L && p L

/-- The die of a rank on this package. -/
def State.rankDie (s : State) (k : Consist) (rk : Nat) : Option Nat :=
  let m := memberAt k rk
  if rk < k.members.length && m.1 = s.dev.pkg then some m.2 else none

/-- A rank is already submitted for the collective. -/
def State.submitted (s : State) (k : Consist) (seq rk : Nat) : Bool :=
  (s.rankDie k rk).any fun die => (collAt s.dev die k.cid k.epoch seq).any fun c => c.subs.any fun x => x.rank = rk

/-- Lanes whose rank is wrong (R363). -/
def State.badRanks (s : State) (k : Consist) (seq : Nat) (T : Mask) (rk : Nat → Nat) : Mask :=
  lanesWhere T fun L => (s.rankDie k (rk L)).isNone || s.submitted k seq (rk L) ||
    (lanesOf T).any fun M => M != L && rk M = rk L

/-- The operation writes some byte from lo to hi - 1 of the buffer of a rank (R364). -/
def CollCard.writes (c : CollCard) (n rank lo hi : Nat) : Bool :=
  let seg := fun (s : Nat) => decide (s * c.count < hi) && decide (lo < (s + 1) * c.count)
  match c.op with
  | 0 => true
  | 1 => seg rank
  | 2 => (List.range n).any fun s => s != rank && seg s
  | _ => c.root != rank

/-- The first failure among the translations of k blocks of a buffer from offset off (R363): its address, kind of access
and outcome. -/
def State.bufferCheck (s : State) (c : CollCard) (n rank buf : Nat) : Nat → Nat → Option (Nat × Acc × Check)
  | 0, _ => none
  | k + 1, off =>
    let len := toBlockEnd (buf + off) (c.bufferLen n - off)
    let a : Acc := if c.writes n rank off (off + len) then .write else .read
    let va := (buf + off) % 2 ^ 64
    if len = 0 then none
    else match s.checkVa a va with
      | .ok _ _ => s.bufferCheck c n rank buf k (off + len)
      | x => some (va, a, x)

/-- The failure of a lane's buffer. -/
def State.laneBuffer (s : State) (c : CollCard) (n : Nat) (rk va : Nat → Nat) (L : Nat) : Option (Nat × Acc × Check) :=
  s.bufferCheck c n (rk L) (va L) (c.bufferLen n / 2 ^ 16 + 2) 0

/-- The translation check over the lanes of T, decided as R269 gives (R363). -/
def State.bufferChecks (s : State) (c : CollCard) (n : Nat) (T : Mask) (rk va : Nat → Nat) : Option State :=
  let out := s.laneBuffer c n rk va
  let hard := (s.trapLanes (lanesWhere T fun L => (out L).any fun x => x.2.2.isHard)).1
  let soft := lanesWhere T fun L => (out L).any fun x => x.2.2.isSoft
  let at' := fun L => ((out L).map (·.1)).getD 0
  let cause := fun L => ((out L).map (·.2.2.cause)).getD 0
  if hard != 0 then
    some (s.trapLane (cause (lowest hard)) (lanesWhere hard fun L => cause L = cause (lowest hard)) fun m =>
      (((out (lowest m)).map fun x => x.2.2.info x.1).getD 0, 0, 0))
  else if soft != 0 then match out (lowest soft) with
    | some x => some (s.parkCheck x.2.2 (lanesWhere soft fun L => (out L).any fun y => y.2.2.kind = x.2.2.kind) at' x.2.1)
    | none => none
  else none

/-- Submissions of a class at a Turntable that have not ended: at most 16 bulk and 1 priority; one that waits goes first (R363). -/
def turntableBusy (d : Dev) (die : Nat) (pri : Bool) : Bool :=
  let n := (d.colls.filter fun c => c.die = die && !c.ended && c.card.any fun x => x.pri = pri).length
  decide ((if pri then 1 else 16) ≤ n)

/-- One submission at its Turntable: it starts, or ends at once with the status already recorded or that broke the consist there
(R363, R370). -/
def submitTo (d : Dev) (cid epoch : Nat) (card : CollCard) (die : Nat) (x : Submit) : Dev :=
  let r := ensureColl d die cid epoch card.seq
  let d := modColl r.1 r.2 fun c => { c with card := some card, subs := c.subs ++ [x], started := d.time }
  match findColl d r.2 with
  | none => d
  | some c =>
    if c.ended then writeCard d cid epoch card.seq
    else match (consistAt d die cid).bind fun (k : Consist) => if k.state = .broken then k.brokenBy else none with
      | some st => endColl d r.2 .aborted st
      | none => collWork d r.2

/-- A submission ends at once at its Turntable, so that it needs no room there (R363, R370). -/
def endsAtOnce (d : Dev) (cid epoch seq die : Nat) : Bool :=
  (consistAt d die cid).any (fun (k : Consist) => k.state = .broken) || (collAt d die cid epoch seq).any Coll.ended

/-- A submission is accepted, or waits for the Turntable to have room, with the operation that it is to end (R363). -/
def submitOr (d : Dev) (w : WaitSub) : Dev :=
  if !endsAtOnce d w.cid w.epoch w.card.seq w.die &&
      (turntableBusy d w.die w.card.pri || d.waitSubs.any fun y => y.die = w.die && y.card.pri = w.card.pri) then
    { d with waitSubs := d.waitSubs ++ [w] }
  else submitTo d w.cid w.epoch w.card w.die w.sub

/-- The first waiting submission that its Turntable can take. -/
def nextSub (d : Dev) : Option WaitSub :=
  d.waitSubs.find? fun w => endsAtOnce d w.cid w.epoch w.card.seq w.die || (!turntableBusy d w.die w.card.pri &&
    (d.waitSubs.find? fun y => y.die = w.die && y.card.pri = w.card.pri) = some w)

/-- Waiting submissions accepted while there is room, at most n of them; the operation of each ends with its last (R363). -/
def acceptSubs : Nat → Dev → Dev
  | 0, d => d
  | n + 1, d => match nextSub d with
    | none => d
    | some w =>
      let d := submitTo { d with waitSubs := dropFirst d.waitSubs fun y => y = w } w.cid w.epoch w.card w.die w.sub
      let d := if d.waitSubs.any fun y => y.pend = w.pend then d
        else modBlock d w.block fun b => b.modGroup w.gidx fun g => g.acked w.pend
      acceptSubs n d

/-- What Turntables do as soon as one of their collectives has ended (R363, R366). -/
def settleColls (d : Dev) : Dev :=
  let d := acceptSubs d.waitSubs.length d
  (d.colls.filter fun c => c.state = .active && c.parked.isNone && !c.pieces.isEmpty && !suspended d c).foldl (fun d c => collWork d c.id) d

/-- `coll` after its card is read: its operands `rd` are consumed with the submission (R238, R363). -/
def State.submit (s : State) (a : DWord) (b : List Byte) (rd : List Opnd) (rk va : Nat → Nat) : State :=
  let k0 := s.cardConsist (recNat b 0 2)
  match firstBad (collFields k0 b), k0 with
  | some o, _ => s.badOperand (dw o)
  | none, none => s.badOperand 0
  | none, some k =>
    let c := parseColl b
    let n := k.members.length
    let T := s.part
    let bad := s.badRanks k c.seq T rk
    let mis := lanesWhere T fun L => va L % 4 != 0
    if bad != 0 then s.trapLane1 cILLEGAL_OPERAND bad 0
    else if mis != 0 then s.trapLane cMISALIGNED mis fun m => (dw (va (lowest m)), 0, 0)
    else match s.bufferChecks c n T rk va with
    | some t => t
    | none =>
      let dies := (lanesOf T).filterMap fun L => (s.rankDie k (rk L)).map fun die => (die, L)
      if s.accessBusy then s.waitFor .ops
      else
        let s := (s.consume T rd).notRestartable.release .sys
        let id := s.dev.nextId
        let s := s.count false fun e => e
        let d := dies.foldl (fun d e => submitOr d ⟨e.1, k.cid, k.epoch, c, ⟨rk e.2, dw (va e.2), s.blk.shape.owner, a, s.blk.launch⟩,
          s.blk.key, s.grp.idx, id⟩) s.dev
        let held := d.waitSubs.any fun w => w.pend = id
        (({ s with dev := d } : State).onGrp fun g =>
          { g with pend := g.pend.map fun e => if e.id = id then { e with ext := held } else e }).advance

/-- `coll vP, vA, sS` (R363). -/
def execColl (p a : VReg) (c : SReg) (s : State) : Res :=
  let rd := [Opnd.v p 1, Opnd.v a 2]
  if s.flagFull false then .next (s.waitFor .flagFull)
  else if s.part = 0 then .next s.notRestartable.advance
  else match (s.blocked 1 [.s c 1] []).orElse fun _ => s.blocked s.part rd [] with
  | some t => .next t
  | none => match s.readColl (s.rs c) with
    | .error u => .next u
    | .ok (u, b) => .next (u.submit (s.rs c) b rd (fun L => (s.rv L p).toNat) fun L => (s.rv2 L a).toNat)

/-! ## coll.wait and coll.abort (R367, R369) -/

/-- The status of a collective on this package, by the current consist or, of an earlier epoch, by its records, once its
card is written (R367, R436). -/
def collStatus (d : Dev) (cid epoch seq : Nat) : Option CollStatus :=
  if d.colls.any fun c => c.cid = cid && c.epoch = epoch && c.seq = seq && c.parked.isSome then none
  else if (heldHere d cid).any fun c => c.epoch = epoch then packageStatus d cid epoch seq
  else
    let cs := d.colls.filter fun c => c.cid = cid && c.epoch = epoch && c.seq = seq
    if cs.all Coll.ended then (cs.head?).bind (·.status) else none

/-- The wait of a collective: its status and time into sD and sD+1 once it has ended here (R367). -/
def State.awaitColl (s : State) (d : SReg) (cid epoch seq : Nat) : State :=
  match collStatus s.dev cid epoch seq with
  | none => s.waitFor (.coll cid epoch seq)
  | some st =>
    ((s.acquire .sys).count false fun e => { e with
      skeys := [d.val, d.val + 1], svals := [(d.val, statusWord st), (d.val + 1, dw st.stime)] }).advance

/-- `coll.wait sD, sC` (R367, R371). -/
def execCollWait (d c : SReg) (s : State) : Res :=
  s.counted false 1 [.s c 1] [.s d 2] fun t => match t.slot.wait with
    | .coll cid epoch seq => .next (t.awaitColl d cid epoch seq)
    | _ => match t.readColl (t.rs c) with
      | .error u => .next u
      | .ok (u, b) => match u.cardConsist (recNat b 0 2) with
        | none => .next (u.badOperand 0)
        | some k => .next (u.notRestartable.awaitColl d k.cid k.epoch (recNat b 8 4))

/-- A collective aborted by request: at the lowest local member that has not ended (R368, R369). -/
def abortColl (d : Dev) (k : Consist) (seq : Nat) : Dev :=
  let dies := localDies d k.members
  match dies.find? fun die => !((collAt d die k.cid k.epoch seq).any Coll.ended) with
  | none => d
  | some die =>
    let r := ensureColl d die k.cid k.epoch seq
    detectAbort r.1 r.2 5 (((dies.head?).bind fun x => rankOf k.members d.pkg x).getD 0)

/-- `coll.abort sC` (R369). -/
def execCollAbort (c : SReg) (s : State) : Res :=
  s.counted false 1 [.s c 1] [] fun t => match t.readColl (t.rs c) with
    | .error u => .next u
    | .ok (u, b) => match u.cardConsist (recNat b 0 2) with
      | none => .next (u.badOperand 0)
      | some k =>
        .next ((u.notRestartable.onDev fun d => abortColl d k (recNat b 8 4)).count false id).advance

end Sys2Proof.Machine
end

