-- ==== Sys2Proof/Machine/Place.lean ====
section
/-! DEFINITION. Placing a block on a core (01 R11; 08 R149, R153; 10 R218, R224, R227): the limits of a core, save areas of
the pool, and what a block holds when it starts. -/

namespace Sys2Proof.Machine

open Sys2Proof

/-! ## The limits of a core (R11) -/

/-- Groups of a block on partition i of its core (R11, R153). -/
def Shape.groupsOn (x : Shape) (i : Nat) : Nat := (x.groups + 3 - i) / 4

/-- The shapes of the blocks on a core. -/
def shapesOn (d : Dev) (core : Nat) : List Shape := (d.blocks.filter fun b => b.onCore && b.core = core).map (·.shape)

/-- The sum of f over a list of shapes. -/
def sumOf (l : List Shape) (f : Shape → Nat) : Nat := l.foldl (fun n x => n + f x) 0

/-- Every limit of R11 holds for the blocks of these shapes together. -/
def fits (l : List Shape) : Bool :=
  (List.range 4).all (fun i => decide (sumOf l (·.groupsOn i) ≤ 12)) && decide (l.length ≤ 16) &&
    decide (sumOf l (fun x => ceilDiv x.scrb 4096) ≤ 128) && decide (sumOf l (·.accs) ≤ 32)

/-- A core of the package can take one more block of a shape (R11). Tiles that it lends to a neighbour are taken (R130). -/
def roomFor (d : Dev) (core : Nat) (x : Shape) : Bool :=
  let l := shapesOn d core
  decide (core < Config.cores) && fits (x :: l) && decide (sumOf (x :: l) (·.accs) + Sparse.get 0 d.lent core ≤ 32)

/-- Cores of one instance of a domain (R16): 0 cluster, 1 quadrant, 2 die, 3 package, 4 pod. -/
def domainCores (domain : Nat) : Nat :=
  match domain with
  | 0 => 4
  | 1 => 24
  | 2 => 96
  | _ => 384

/-- Two cores lie in one instance of a domain. -/
def sameDomain (domain a b : Nat) : Bool := a / domainCores domain = b / domainCores domain

/-- The memory scope of a domain (R16). -/
def scopeOf (domain : Nat) : Scope :=
  match domain with
  | 0 => .clu
  | 1 | 2 => .die
  | 3 => .pkg
  | _ => .sys

/-- The cluster of a core is the partition's (R393). -/
def ownCluster (d : Dev) (o core : Nat) : Bool := (partOf d o).any fun p => p.clusters.getLsbD (core / 4)

/-! ## Save areas (R227) -/

/-- Bytes of a save area (R227). -/
def Shape.saveBytes (x : Shape) : Nat := 0x1000 + 0x5000 * x.groups + roundUp x.scrb 4096 + 0x4000 * x.accs + 5248 * 64

/-- The lowest address at which len bytes of the pool are free. -/
def Partition.freeSave (p : Partition) (len : Nat) : Option Nat :=
  let ok := fun a => decide (p.saveBase ≤ a ∧ a + len ≤ p.saveBase + p.saveLen) && !touches p.saves a len
  ((p.saveBase :: p.saves.map fun x => x.1 + x.2).filter ok).min?

/-- A save area taken from the pool of an owner's partition (R227), or none. -/
def takeSave (d : Dev) (o len : Nat) : Option (Dev × Nat) :=
  ((partOf d o).bind fun p => p.freeSave len).map fun a => (modPart d o fun p => { p with saves := p.saves ++ [(a, len)] }, a)

/-! ## The start of a block (R149, R150) -/

/-- Group j of a block as it starts (R149, R150). -/
def Shape.startGroup (x : Shape) (ages j : Nat) : Group :=
  { idx := j, slot0 := { pc := x.entry, act := BitVec.allOnes 32 }, live := BitVec.allOnes 32, age := ages + j }

/-- The groups of a block as they start. -/
def Shape.startGroups (x : Shape) (ages : Nat) : List Group := (List.range x.groups).map (x.startGroup ages)

/-- The block as it starts on a core: registers, scratchpad, barriers and sequencer as R149, R195 and R124 give. -/
def Block.startOn (b : Block) (d : Dev) (core : Nat) : Block :=
  { b with
    state := .resident, core := core, cluster := core / 4, loc := d.pkg, stime := d.time, placedAt := d.time
    groups := b.shape.startGroups d.ages }

/-- The package after a block started on a core (R11, R254). -/
def startBlock (d : Dev) (b : Block) (core : Nat) : Dev :=
  let d := startOnCore d core b.launch
  let x := b.startOn d core
  { d with blocks := putBlock (d.blocks.filter fun y => y.key ≠ b.key) x, ages := d.ages + b.shape.groups }

end Sys2Proof.Machine
end

