-- ==== Sys2Proof/Machine/ForkOps.lean ====
section
/-! DEFINITION. `fork`, `joinw` and `vattr` (15 R307-R309, R316-R323), the start of children (R309, R320) and the join (R312-R317). -/

namespace Sys2Proof.Machine

open Sys2Proof

/-! ## The fork record (R307) -/

/-- The confining domain of the focused block (R309). -/
def State.confined (s : State) : Nat :=
  match s.blk.child with
  | some c => ((forkOf s.dev c.parent).map (·.fr.domain)).getD 0
  | none => ((findLaunch s.dev s.blk.launch).bind fun l => l.lr.levels.getLast?.map (·.domain)).getD 0

/-- The fields of a fork record in address order, with whether each is legal (R307, R34). -/
def forkFields (confined : Nat) (b : List Byte) : List (Nat × Bool) :=
  let v := recNat b 0x21 1
  let t := recNat b 0x22 1
  [(0, recNat b 0 8 % 32 = 0), (0x10, recNat b 0x10 8 % 16 = 0), (0x18, decide (recNat b 0x18 4 ≤ 524288)),
   (0x1C, recNat b 0x10 8 != 0 || recNat b 0x1C 2 = 0), (0x1E, decide (1 ≤ recNat b 0x1E 1 ∧ recNat b 0x1E 1 ≤ 64)),
   (0x1F, decide (recNat b 0x1F 1 ≤ 4 ∧ recNat b 0x1F 1 ≤ confined)),
   (0x20, decide (1 ≤ recNat b 0x20 1 ∧ recNat b 0x20 1 ≤ 32)), (0x21, decide (8 ≤ v ∧ v ≤ 128 ∧ v % 8 = 0)),
   (0x22, decide (16 ≤ t ∧ t ≤ 64 ∧ t % 16 = 0)), (0x23, decide (recNat b 0x23 1 ≤ 32 ∧ recNat b 0x23 1 % 4 = 0)),
   (0x24, decide (recNat b 0x24 1 < 4)), (0x25, zeroBytes b 0x25 0x40)]

/-- A fork record whose fields are legal. -/
def parseFork (b : List Byte) : ForkRec :=
  { entry := dw (recNat b 0 8), args := dw (recNat b 8 8), log := dw (recNat b 0x10 8), scratch := recNat b 0x18 4
    logn := recNat b 0x1C 2, nch := recNat b 0x1E 1, domain := recNat b 0x1F 1, groups := recNat b 0x20 1
    vregs := recNat b 0x21 1, sregs := recNat b 0x22 1, accs := recNat b 0x23 1
    trapc := bitOf (recNat b 0x24 1) 0, trapx := bitOf (recNat b 0x24 1) 1 }

/-! ## fork (R308, R318) -/

/-- The fork opened by the focused block: every child unstarted and restartable (R308). -/
def State.openFork (s : State) (r : ForkRec) : State :=
  let f : Fork :=
    { block := s.blk.key, owner := s.blk.shape.owner, launch := s.blk.launch, fr := r
      children := (List.range r.nch).map fun i => { idx := i } }
  (s.release (scopeOf r.domain)).onDev fun d => { d with forks := d.forks ++ [f] }

/-- `fork sR` (R308): the record is read once, before the wait for the block's jobs. -/
def execFork (r : SReg) (s : State) : Res :=
  s.counted false 1 [.s r 1] [] fun t =>
    let a := t.rs r
    if t.forking then .next (t.badOperand 0x100)
    else if 8 ≤ (t.blk.child.map (·.depth)).getD 0 then .next (t.badOperand 0x101)
    else if a.toNat % 64 ≠ 0 then .next (t.trapAll cMISALIGNED t.wordInfo a)
    else match t.linesRead 1 a.toNat 64 with
    | .error u => .next u
    | .ok (u, b) => match firstBad (forkFields u.confined b) with
      | some o => .next (u.badOperand (dw o))
      | none =>
        if u.blockJobs then .next (u.waitFor .jobs)
        else if (parseFork b).domain = 4 && u.fabricBusy then .next (u.waitFor .ops)
        else .next ((u.openFork (parseFork b)).count false id).advance

/-! ## joinw (R316-R318) -/

/-- What `joinw` reports when its join traps (R316). -/
def LastJoin.trap (j : LastJoin) : Option (Cause × DWord × DWord × DWord) :=
  match bits j.status.toNat 3 0, j.trapc, j.trapx with
  | 2, true, _ =>
    let c := j.first.getD ⟨0, 0, 0, 0, 0⟩
    some (cVIEW_CONFLICT, dw c.addr, dw (c.lower + 2 ^ 8 * c.higher), j.log)
  | 3, _, true => some (cTWIN_POOL_EXHAUSTED, dw j.failb, 0, 0)
  | _, _, _ => none

/-- `joinw` once the fork is JOINED: sD takes the status when the operation completes; a trap leaves `joinw` complete. -/
def State.joined (s : State) (d : SReg) (j : LastJoin) : State :=
  let s := (s.acquire (scopeOf j.domain)).count false fun e => { e with skeys := [d.val], svals := [(d.val, j.status)] }
  match j.trap with
  | none => s.advance
  | some (c, i1, i2, i3) =>
    s.raise { cause := c, mask := s.slot.act, path := s.wholePath, info0 := j.status, info1 := i1, info2 := i2, info3 := i3,
              next := true }

/-- `joinw sD` (R316). -/
def execJoinw (d : SReg) (s : State) : Res :=
  s.counted false 1 [] [.s d 1] fun t =>
    if t.forking then .next (t.waitFor .join)
    else if t.dev.joins.any fun j => j.1 = t.blk.key then .next (t.joined d t.lastJoin)
    else .next (t.count false fun e => { e with skeys := [d.val], svals := [(d.val, 0)] }).advance

/-! ## vattr (R322) -/

/-- Dirty granules of a shadow. -/
def Shadow.dirty (x : Shadow) : Nat := x.dirt.length

/-- The code of a page kind (R384). -/
def PageKind.code : PageKind → Nat
  | .ordinary => 0 | .view => 1 | .dup => 2 | .remote => 3

/-- The block's own shadow of a page. -/
def State.ownShadow (s : State) (va : Nat) : Option Shadow :=
  match s.chain with
  | [] => none
  | (b, i) :: _ => shadowAt s.dev b i (va / 2 ^ 16)

/-- What `vattr` reports (R322). -/
def State.viewAttr (s : State) (l : Leaf) (va : Nat) : DWord :=
  let view := s.blk.child.isSome && l.kind = .view
  let own := if view then s.ownShadow va else none
  dw (l.kind.code + 2 ^ 2 * l.redop + 2 ^ 6 * b2n view + 2 ^ 7 * b2n own.isSome + 2 ^ 16 * (own.map (·.dirty)).getD 0)

/-- `vattr` with or without the allocations of a first write (R311, R322). -/
def State.vattr (s : State) (rsv : Bool) (d a : SReg) : Res :=
  s.withOperands 1 [.s a 1] [.s d 1] fun t =>
    let va := (t.rs a).toNat
    match t.onceXlat va 0 with
    | .error u => .next u
    | .ok (seen, pa) =>
      let l := seen.held
      let t := t.onDev fun x => keepLeaf x t.blk.shape.owner va l
      match if rsv then t.reserve [⟨0, va, l, pa⟩] else .ok t.dev with
      | .error u => .next u
      | .ok x =>
        let t : State := { t with dev := x }
        .next (t.ws d (t.viewAttr l va)).advance

/-- `vattr.q sD, sA` (R322). -/
def execVattrQ (d a : SReg) (s : State) : Res := s.vattr false d a

/-- `vattr.rsv sD, sA` (R322). -/
def execVattrRsv (d a : SReg) (s : State) : Res := s.vattr true d a

/-! ## CHILD_START (R309, R320) -/

/-- PKEEP and PSCR of a block's launch (R209). -/
def launchKeeps (d : Dev) (p : Block) : Nat × Nat :=
  ((findLaunch d p.launch).map fun l => (l.lr.pkeep, l.lr.pscr)).getD (p.shape.pkeep, p.shape.pscr)

/-- The shape of a child, of a forking block's shape and its launch's PKEEP and PSCR (R309). -/
def childShape (p : Shape) (keeps : Nat × Nat) (r : ForkRec) : Shape :=
  let scrb := roundUp r.scratch 4096
  { p with entry := r.entry, args := r.args, groups := r.groups, vregs := r.vregs, sregs := r.sregs, accs := r.accs, scrb := scrb,
           pkeep := min keeps.1 r.vregs, pscr := min keeps.2 scrb }

/-- The forking block of a fork, or what stands for it where it is on another package (R309). -/
def parentOf (d : Dev) (f : Fork) : Option Block := f.host.orElse fun _ => findBlock d f.block

/-- Child c may start for the first time (R320). -/
def Fork.mayStart (f : Fork) (c : Child) : Bool :=
  c.state = .unstarted && match f.state with
    | .running => true
    | .fallback => decide (c.idx < f.rerun)
    | .failing => decide (c.idx < f.failb)
    | .serial | .joined => false

/-- Child c may start alone (R320). -/
def Fork.mayRerun (f : Fork) (c : Child) : Bool :=
  c.idx = f.m && (c.state = .unstarted || c.state = .discarded) && match f.state with
    | .fallback => f.m = f.rerun
    | .serial => true
    | .running | .failing | .joined => false

/-- The fork with child i started; `alone` counts a run beyond the first (R320). -/
def Fork.started (f : Fork) (i : Nat) (alone : Bool) (st : ChildState) : Fork :=
  let f := f.modChild i fun c => { c with state := st, runs := c.runs + b2n alone, restartable := true, shadows := [] }
  if alone then { f with state := .serial, rcnt := f.rcnt + 1 } else f

/-- The block of child c of the fork of block p, with its save area (R227, R309). -/
def childBlock (d : Dev) (p : Block) (f : Fork) (c : Child) (alone : Bool) (save : Nat) : Block :=
  let sh := childShape p.shape (launchKeeps d p) f.fr
  { key := d.nextBlock, launch := p.launch, fn := p.fn, launchId := p.launchId, blin := p.blin, shape := sh, saveAddr := save
    saveLen := sh.saveBytes
    child := some { parent := p.key, idx := c.idx, depth := ((p.child.map (·.depth)).getD 0) + 1, nch := f.fr.nch
                    runs := c.runs + b2n alone } }

/-- What another package needs to run children of the fork of block p, as numbers (R309). -/
def childSpec (d : Dev) (p : Block) (f : Fork) : List Nat :=
  let k := launchKeeps d p
  [f.fr.entry.toNat, p.shape.handler.toNat, f.fr.args.toNat, f.fr.groups, f.fr.vregs, f.fr.sregs, f.fr.accs, f.fr.scratch, k.1, k.2,
   b2n p.shape.strict, p.shape.prio, p.shape.wdog, p.shape.quota, p.launchId.toNat, p.blin, (p.child.map (·.depth)).getD 0, f.fr.nch,
   p.launch]

/-- Child i of the fork of block p runs on another package. -/
def sendChild (d : Dev) (p : Block) (f : Fork) (c : Child) (alone : Bool) : Dev :=
  let pk := mkPacket d (f.pkgOf d c.idx) f.owner 1
    (.childRun p.key c.idx (c.runs + b2n alone) (childSpec d p f) p.shape.lidx p.shape.lext)
  modFork (sendPacket d pk) p.key fun f => f.started c.idx alone .away

/-- The launch of a block that came from another package: the part of it here, or one for single blocks (log 32). -/
def guestLaunch (d : Dev) (src key : Nat) (launchId : DWord) (x : Shape) : Dev × Nat :=
  match d.launches.find? fun l => l.away = some (src, key) && (l.state = .waiting || l.state = .bound) with
  | some l => (d, l.key)
  | none =>
    let lr : LaunchRec :=
      { entry := x.entry, handler := x.handler, args := x.args, deps := [], twinq := x.quota, wdog := x.wdog
        levels := x.lext.map fun n => ⟨n, 4, false⟩, groups := x.groups, vregs := x.vregs, sregs := x.sregs, accs := x.accs
        prio := x.prio, pkeep := x.pkeep, scratch := x.scrb, pscr := x.pscr, strict := x.strict, notify := false, owner := x.owner }
    let l : Launch :=
      { key := d.nextLaunch, fn := fnOf d x.owner, q := launchId.toNat / 2 ^ 32, idx := launchId.toNat % 2 ^ 32, lr := lr, record := 0
        done := 0, state := .bound, detached := true, away := some (src, key), stub := true }
    ({ d with launches := d.launches ++ [l], nextLaunch := d.nextLaunch + 1 }, d.nextLaunch)

/-- A child of another package's fork is to run here: a fork of the one child stands for that fork (R309; log 33). -/
def takeChild (d : Dev) (src o b i run : Nat) (spec lidx lext : List Nat) : Dev :=
  let n := fun k => nth 0 spec k
  let x : Shape :=
    { entry := dw (n 0), handler := dw (n 1), args := dw (n 2), groups := n 3, vregs := n 4, sregs := n 5, accs := n 6
      scrb := roundUp (n 7) 4096, pkeep := n 8, pscr := n 9, strict := n 10 = 1, owner := o, prio := n 11, wdog := n 12
      nlev := lext.length, lidx := lidx, lext := lext, quota := n 13 }
  let r := guestLaunch d src (n 18) (dw (n 14)) x
  let key := r.1.nextBlock
  let host : Block :=
    { key := key, launch := r.2, fn := fnOf d o, launchId := dw (n 14), blin := n 15, shape := x
      child := if n 16 = 0 then none else some { parent := key, idx := 0, depth := n 16, nch := 0, runs := 0 } }
  let fr : ForkRec :=
    { entry := dw (n 0), args := dw (n 2), log := 0, scratch := n 7, logn := 0, nch := n 17, domain := 4, groups := n 3, vregs := n 4
      sregs := n 5, accs := n 6, trapc := false, trapx := false }
  let f : Fork :=
    { block := key, owner := o, launch := r.2, fr := fr, children := [{ idx := i, runs := run }], home := some (src, b, run)
      host := some host }
  if (partOf d o).isNone then d else { r.1 with forks := r.1.forks ++ [f], nextBlock := key + 1 }

/-- What a forking block's child sees of a page that it has not written (R309, R310). -/
def unwritten (d : Dev) (b : Block) (redop vpn : Nat) : ViewSource :=
  match twinAt d b.key vpn with
  | some t => .page t
  | none => viewSource d redop vpn (chainOf d b.child)

/-- A child on another package asks for n bytes of a page as the forking block viewed it; one about to write the page takes the
page's twin here first and is told which sectors are poisoned. Code 3 tells it to try again (R309, R311, R320). -/
def serveView (d : Dev) (p : Packet) (id b idx va n : Nat) (twin : Bool) : Dev :=
  let say := fun (d : Dev) (code : Nat) (bytes : List Byte) => answer d p (.response id code bytes)
  match findBlock d b with
  | none => say d 1 []
  | some x => match xlatRaw d p.owner va .read with
    | .trap _ | .park _ _ _ => say d 1 []
    | .ok l pa =>
      let vpn := va / 2 ^ 16
      let off := va % 2 ^ 16
      let chain := chainOf d x.child
      match awayPage d l va ((b, idx) :: chain), awayFork d chain with
      | some pkg, some f =>
        let body : PacketBody := .viewAsk id ((f.home.map (·.2.1)).getD 0) ((chain.getLast?.map (·.2)).getD 0) va n twin
        sendPacket d { p with dst := pkg, body := body }
      | _, _ =>
        let key := keyOf d p.owner
        match if twin then ensureTwin d ⟨p.owner, x.launch, x.shape.quota, x.cluster, key, l.redop, vpn, pa - off⟩ b chain else some d with
        | none => say (exhaust d ((b, idx) :: chain)) 3 []
        | some d =>
          let tell := fun (bad : Nat → Bool) (bytes : List Byte) =>
            if twin then say d 0 (bytes ++ (List.range (n / 32)).map fun i => BitVec.ofNat 8 (b2n (bad i)))
            else say d (if bad 0 || bad ((off % 32 + n - 1) / 32) then 2 else 0) bytes
          match unwritten d x l.redop vpn with
          | .page t => tell (fun i => Sparse.get false t.bad (off / 32 + i)) ((List.range n).map fun i => t.read (off + i))
          | .identity => tell (fun _ => false) ((List.range n).map fun i => idByte l.redop (off + i))
          | .memory => tell (fun i => poisoned d (pa / 32 * 32 + 32 * i) 32) (homeBytes d key pa n)

/-- Child c starts on a core of the fork's domain instance, if R11 and the save pool allow. -/
def placeChild (d : Dev) (p : Block) (f : Fork) (c : Child) (alone : Bool) (core : Nat) : Option Dev :=
  let sh := childShape p.shape (launchKeeps d p) f.fr
  if sameDomain f.fr.domain core p.core && ownCluster d f.owner core && roomFor d core sh then
    (takeSave d f.owner sh.saveBytes).map fun r =>
      let b := childBlock r.1 p f c alone r.2
      modFork (startBlock { r.1 with nextBlock := r.1.nextBlock + 1 } b core) p.key fun f => f.started c.idx alone (.running b.key)
  else none

/-- CHILD_START: child i of the open fork of block b starts on a core, for the first time or alone (R309, R320). -/
def execChildStart (b i core : Nat) (s : State) : Res :=
  let s := s.unfocus
  match (forkOf s.dev b).bind fun f => (parentOf s.dev f).bind fun p => (f.child i).map fun c => (p, f, c) with
  | some (p, f, c) =>
    if !(f.mayStart c || f.mayRerun c) || orphansRun s.dev f then s.noEvent
    else if f.home.isNone && f.pkgOf s.dev i ≠ s.dev.pkg then .next (s.onDev fun d => sendChild d p f c (f.mayRerun c))
    else match placeChild s.dev p f c (f.mayRerun c) core with
      | none => s.noEvent
      | some d => .next { s with dev := d }
  | none => s.noEvent

/-! ## The parent's view V (R312, R314) -/

/-- Where a join writes: memory as the forking block's cluster sees it, or the forking child's shadow. -/
structure View where
  core : Nat
  cl : Nat
  key : Nat
  owner : Nat
  chain : List (Nat × Nat)
  deriving DecidableEq, Repr

/-- The view of the forking block. -/
def viewOf (d : Dev) (p : Block) : View := ⟨p.core, p.cluster, keyOf d p.shape.owner, p.shape.owner, chainOf d p.child⟩

/-- Byte `off` of page `vpn` in V. -/
def View.byte (v : View) (d : Dev) (sh : Shadow) (vpn off : Nat) : Byte :=
  match v.chain with
  | [] => homeByte d v.key (sh.pa + off)
  | (b, i) :: _ => ((shadowAt d b i vpn).map (·.read off)).getD 0

/-- n bytes of V. -/
def View.bytes (v : View) (d : Dev) (sh : Shadow) (vpn off n : Nat) : List Byte :=
  (List.range n).map fun i => v.byte d sh vpn (off + i)

/-- Bytes of one sector of a page written into V. -/
def View.put (v : View) (d : Dev) (sh : Shadow) (vpn off : Nat) (bytes : List Byte) : Dev :=
  match v.chain with
  | [] => homeStore d v.key (sh.pa + off) bytes
  | (b, i) :: _ => storeShadow d b i vpn off bytes

/-- A sector of V becomes poisoned (R265, R314). -/
def View.poison (v : View) (d : Dev) (sh : Shadow) (vpn sec : Nat) : Dev :=
  match v.chain with
  | [] => poisonBytes d (sh.pa + 32 * sec) 32
  | (b, i) :: _ => modFork d b fun f => f.modChild i fun c =>
      { c with shadows := modFirst c.shadows (fun e => e.1 = vpn) fun e => (e.1, { e.2 with bad := Sparse.put false e.2.bad sec true }) }

/-- The cluster's own copies of a page of memory go before the join writes it at home (R250). -/
def View.settle (v : View) (d : Dev) (sh : Shadow) : Dev :=
  if v.chain.isEmpty then (List.range 512).foldl (fun d i => dropLine d v.core v.cl (sh.pa / 128 + i)) d else d

/-! ## The byte merge (R312) and the operator fold (R313) -/

/-- Byte `off` of child k's shadow merged into V, `t` the twin's byte (R312). -/
def mergeByte (v : View) (b k vpn : Nat) (sh : Shadow) (t : Byte) (off : Nat) (d : Dev) : Dev :=
  let x := sh.read off
  let y := v.byte d sh vpn off
  let a := vpn * 2 ^ 16 + off
  if x = t then d
  else if y = t ∨ y = x ∨ sh.redop = 13 then
    if y = x then d
    else modFork (v.put d sh vpn off [x]) b fun f => { f with changed := Sparse.ins a k f.changed }
  else modFork d b fun f => { f with conflicts := f.conflicts ++ [⟨a, Sparse.get 0 f.changed a, k, y, x⟩] }

/-- The element at offset `off` folded into V; the identity changes nothing (R306, R313). -/
def mergeElem (v : View) (vpn : Nat) (sh : Shadow) (off : Nat) (d : Dev) : Dev :=
  let n := elemBytes sh.redop
  let x := natOf ((List.range n).map fun i => sh.read (off + i))
  if x = identity sh.redop then d
  else v.put d sh vpn off (bytesOf (viewOp sh.redop (natOf (v.bytes d sh vpn off n)) x) n)

/-- One dirty granule of child k's shadow of a page merged into V (R312, R313). -/
def mergeGranule (v : View) (b k vpn : Nat) (sh twin : Shadow) (d : Dev) (g : Nat) : Dev :=
  if isReduction sh.redop then
    let n := elemBytes sh.redop
    (List.range (128 / n)).foldl (fun d i => mergeElem v vpn sh (128 * g + n * i) d) d
  else (List.range 128).foldl (fun d i => mergeByte v b k vpn sh (twin.read (128 * g + i)) (128 * g + i) d) d

/-- Poisoned sectors of the shadow become poisoned in V (R314). -/
def mergePoison (v : View) (vpn : Nat) (sh : Shadow) (d : Dev) : Dev :=
  sh.bad.foldl (fun d e => if Sparse.get false sh.dirt (e.1 / 4) then v.poison d sh vpn e.1 else d) d

/-- One page of child k merged into V. -/
def mergePage (v : View) (b k : Nat) (d : Dev) (e : Nat × Shadow) : Dev :=
  let twin := (twinAt d b e.1).getD { redop := 0, pa := 0 }
  mergePoison v e.1 e.2 (e.2.dirt.foldl (fun d g => mergeGranule v b k e.1 e.2 twin d g.1) (v.settle d e.2))

/-- A dirty sector of the child's shadows is poisoned: the child counts as lost (R314). -/
def Child.poisoned (c : Child) : Bool := c.shadows.any fun e => e.2.bad.any fun x => Sparse.get false e.2.dirt (x.1 / 4)

/-- An ended child merged, its shadows freed and M advanced (R311, R312, R314). -/
def mergeChild (d : Dev) (p : Block) (f : Fork) (c : Child) : Dev :=
  let pages := sortBy (fun a b => decide (a.1 ≤ b.1)) c.shadows
  let d := pages.foldl (mergePage (viewOf d p) p.key c.idx) d
  let d := freePages d f.owner f.launch c.shadows
  modFork d p.key fun f =>
    { f.modChild c.idx (fun x => { x with state := if c.poisoned then .lost else .merged, shadows := [] }) with m := f.m + 1 }

/-! ## The end of the join (R315, R317, R320) -/

/-- Conflicts in the order of the log (R315). -/
def Fork.logOrder (f : Fork) : List Conflict :=
  sortBy (fun a b => decide (a.addr < b.addr) || (a.addr = b.addr && decide (a.higher ≤ b.higher))) f.conflicts

/-- The join status (R317). -/
def Fork.joinStatus (f : Fork) : DWord :=
  let lost := f.children.find? fun c => c.state = .lost
  let code := if f.state = .failing then 3 else if lost.isSome then 4 else if f.conflicts.isEmpty then 1 else 2
  let b := if f.state = .failing then f.failb else (lost.map (·.idx)).getD 0
  dw (code + 2 ^ 8 * b + 2 ^ 16 * min 65535 f.conflicts.length + 2 ^ 32 * min 65535 f.rcnt)

/-- M has reached its end: the twins are freed and the status is fixed (R311, R320). -/
def joinFork (d : Dev) (f : Fork) : Dev :=
  modFork (freePages d f.owner f.launch f.twins) f.block fun f => { f with state := .joined, status := f.joinStatus, twins := [] }

/-- A log entry (R315). -/
def Conflict.bytes (c : Conflict) : List Byte :=
  bytesOf c.addr 8 ++ bytesOf c.lower 1 ++ bytesOf c.higher 1 ++ [c.lowVal, c.highVal] ++ bytesOf 0 4

/-- The finished join as its block keeps it (R316, R323). -/
def Fork.lastJoin (f : Fork) : LastJoin :=
  { status := f.status, rcnt := bits f.status.toNat 47 32, domain := f.fr.domain, trapc := f.fr.trapc, trapx := f.fr.trapx
    failb := f.failb, log := f.fr.log, first := f.logOrder.head? }

/-- The join is over: its block keeps the status (R323). -/
def closeFork (d : Dev) (f : Fork) : Dev :=
  { d with
    forks := d.forks.filter fun x => x.block ≠ f.block
    joins := (f.block, f.lastJoin) :: d.joins.filter fun j => j.1 ≠ f.block }

/-- A store sent to another package, whose status nobody awaits (R315, R351; log 20). -/
def sendStore (d : Dev) (l : Leaf) (o pa : Nat) (bytes : List Byte) : Dev :=
  sendPacket { d with nextId := d.nextId + 1 } (mkPacket d l.peer o 0 (.request d.nextId .store pa bytes.length bytes))

/-- One log entry stored as the launch's owner stores it, in memory, on another package, or in the forking child's view (R315). -/
def logStore (d : Dev) (p : Block) (f : Fork) (va : Nat) (bytes : List Byte) : Except EngFault Dev :=
  let v := viewOf d p
  match xlat d f.owner va .write f.parked with
  | .trap c => .error (.trap c va)
  | .park k lvl e => .error (.park va k lvl e)
  | .ok l pa => if l.kind = .remote then .ok (sendStore d l f.owner pa bytes)
    else match if l.kind = .view then v.chain else [] with
    | [] => .ok (engineStore d v.core v.cl v.key pa bytes)
    | (b, i) :: _ => match allocChain d ⟨f.owner, f.launch, p.shape.quota, v.cl, v.key, l.redop, va / 2 ^ 16, l.pa⟩ v.chain with
      | none => .ok (exhaust d v.chain)
      | some d => .ok (storeShadow d b i (va / 2 ^ 16) (va % 2 ^ 16) bytes)

/-- The n log entries still to be stored: a replayable fault parks the engine, any other fault drops the entry (R315). A store that
exhausts a quota may have discarded the forking child and its fork with it (R320). -/
def writeLog : Nat → Dev → Block → Fork → Dev
  | 0, d, p, f => if (forkOf d p.key).isSome then closeFork d f else d
  | n + 1, d, p, f => if (forkOf d p.key).isNone then d else
    let va := (f.fr.log.toNat + 16 * f.logAt) % 2 ^ 64
    let next := fun (d : Dev) => writeLog n (modFork d p.key fun f => { f with logAt := f.logAt + 1, parked := none }) p
      { f with logAt := f.logAt + 1, parked := none }
    match logStore d p f va (((f.logOrder[f.logAt]?).map Conflict.bytes).getD []) with
    | .error (.park va kind lvl e) =>
      let r := parkFault d f.owner va kind lvl e .write ⟨p.launchId.toNat, 5, Config.junction va % 256, 0⟩
      modFork r.1 p.key fun f => { f with parked := some r.2 }
    | .error (.trap _ _) => next d
    | .ok d => next d

/-- Entries that the log takes (R315). -/
def Fork.logged (f : Fork) : Nat := if f.fr.log = 0 then 0 else min f.fr.logn f.conflicts.length

/-- The log written, and the fork closed after its last entry. -/
def finishJoin (d : Dev) (p : Block) (f : Fork) : Dev := writeLog (f.logged - f.logAt) d p f

/-! ## CHILD_MERGE (R314, R320) -/

/-- Engine jobs of child i of the fork of block b, or of its descendants, still run. -/
def childJobs (d : Dev) (b i : Nat) : Bool :=
  d.jobs.any fun j => !j.dropped && !j.performed && j.under b i

/-- A page that a child on another package wrote, as a shadow, with its poisoned sectors. -/
def awayShadow (d : Dev) (o : Nat) (bad : List (Nat × Nat)) (e : Nat × List (Nat × Byte)) : Option (Nat × Shadow) :=
  match engXlat d o (e.1 * 2 ^ 16) .read none with
  | .ok (l, pa) => some (e.1, e.2.foldl (fun x y => x.write (y.1 % 2 ^ 16) y.2)
      { redop := l.redop, pa := pa / 2 ^ 16 * 2 ^ 16, shared := true
        bad := (bad.filter fun x => x.1 = e.1).foldl (fun t x => Sparse.put false t x.2 true) [] })
  | .error _ => none

/-- The end of a child on another package, as it has arrived: its number in the inbox, the packet and the pages. -/
def awayEnd (d : Dev) (f : Fork) (c : Child) : Option (Nat × Packet × List (Nat × List (Nat × Byte)) × List (Nat × Nat)) :=
  (d.inbox.zipIdx.findSome? fun e => match e.1.body with
    | .childEnd b i run pages bad => if b = f.block ∧ i = c.idx ∧ run = c.runs then some (e.2, e.1, pages, bad) else none
    | _ => none)

/-- Twins of the pages that a child on another package wrote, where none was taken when it asked for the page: V as it stood at the
fork, or none where an allocation fails (R311). -/
def awayTwins (d : Dev) (p : Block) (f : Fork) (pages : List (Nat × Shadow)) : Option Dev :=
  let v := viewOf d p
  pages.foldl (fun o e => o.bind fun d =>
    ensureTwin d ⟨f.owner, f.launch, p.shape.quota, v.cl, v.key, e.2.redop, e.1, e.2.pa⟩ p.key v.chain) (some d)

/-- The child of another package that M names is merged, or is lost where its shadows were not read in time (R309, R314). -/
def mergeAway (d : Dev) (p : Block) (f : Fork) (c : Child) (x : Nat × Packet × List (Nat × List (Nat × Byte)) × List (Nat × Nat)) : Dev :=
  let d := dropInbox d x.1
  if x.2.1.deadline < d.time then
    modFork d p.key fun f => { f.modChild c.idx (fun y => { y with state := .lost }) with m := f.m + 1 }
  else
    let pages := x.2.2.1.filterMap (awayShadow d f.owner x.2.2.2)
    match awayTwins d p f (pages.filter fun e => !isReduction e.2.redop) with
    | none => exhaust d ((p.key, c.idx) :: (viewOf d p).chain)
    | some d => mergeChild d p f { c with shadows := pages }

/-- What the join of the fork of block p does next, or none where it waits. -/
def joinStep (d : Dev) (p : Block) (f : Fork) : Option Dev :=
  if f.state = .joined then
    if f.parked.any fun t => outstanding d t then none else some (finishJoin d p f)
  else if orphansRun d f then none
  else if f.bound ≤ f.m then
    let d := joinFork d f
    some (((forkOf d p.key).map (finishJoin d p)).getD d)
  else match f.child f.m with
    | none => none
    | some c => match c.state with
      | .lost => some (modFork d p.key fun f => { f with m := f.m + 1 })
      | .ended => if childJobs d p.key c.idx then none else some (mergeChild d p f c)
      | .away => (awayEnd d f c).map (mergeAway d p f c)
      | .unstarted | .running _ | .merged | .discarded => none

/-- The pages that a child of another package's fork wrote: the bytes of its dirty granules (R309, R311). -/
def Child.pages (c : Child) : List (Nat × List (Nat × Byte)) :=
  c.shadows.map fun e => (e.1, e.2.dirt.flatMap fun g => (List.range 128).map fun i => (128 * g.1 + i, e.2.read (128 * g.1 + i)))

/-- Its dirty sectors that are poisoned (R314). -/
def Child.badSectors (c : Child) : List (Nat × Nat) :=
  c.shadows.flatMap fun e => (e.2.bad.filter fun x => Sparse.get false e.2.dirt (x.1 / 4)).map fun x => (e.1, x.1)

/-- The child here of another package's fork has ended, with its jobs: its pages go to that fork (R309, R314). -/
def sendEnd (d : Dev) (f : Fork) : Option Dev :=
  match f.home, f.children with
  | some (src, b, run), c :: _ =>
    if c.state = .ended && !childJobs d f.block c.idx then
      some (freeFork (sendPacket d (mkPacket d src f.owner 0 (.childEnd b c.idx run c.pages c.badSectors))) f)
    else none
  | _, _ => none

/-- News of a child that runs on another package, or of one that runs here of a fork there (R309, R319, R320, R419). -/
def takeNews (d : Dev) (src b i run what : Nat) : Dev :=
  if what = 3 then match d.forks.find? fun f => f.home = some (src, b, run) && (f.child i).isSome with
    | none => d
    | some f =>
      let d := discardChildren d f.block i (i + 1)
      ((forkOf d f.block).map (freeFork d)).getD d
  else match (forkOf d b).bind fun f => (f.child i).map fun c => (f, c) with
    | none => d
    | some (f, c) =>
      if c.state ≠ .away ∨ c.runs ≠ run then d
      else match what with
        | 0 => modFork d b fun f => f.modChild i fun c => { c with state := .lost, shadows := [] }
        | 1 => exhaust d ((b, i) :: ((parentOf d f).map fun p => chainOf d p.child).getD [])
        | _ => endRestart d ((b, i) :: ((parentOf d f).map fun p => chainOf d p.child).getD [])

/-- CHILD_MERGE: the join of block b's fork takes its next step (R312-R317, R320); for a fork of another package, its child's pages
go there (R309). -/
def execChildMerge (b : Nat) (s : State) : Res :=
  let s := s.unfocus
  match (forkOf s.dev b).bind fun f => if f.home.isSome then sendEnd s.dev f else (findBlock s.dev b).bind fun p => joinStep s.dev p f with
  | none => s.noEvent
  | some d => .next { s with dev := d }

end Sys2Proof.Machine
end

