-- ==== Sys2Proof/Machine/Stream.lean ====
section
/-! DEFINITION. The matrix sequencer (07 R124-R131, R139, R141-R148): its focus and clause fetch, halts and parks, reservations,
k-registers, branches and barriers, and `mx.start`. -/

namespace Sys2Proof.Machine

open Sys2Proof

/-! ## The focused stream -/

/-- The state with f applied to the focused block's sequencer. -/
def State.onSeq (s : State) (f : Seq → Seq) : State := s.onBlk fun b => { b with seq := f b.seq }

/-- The sequencer of the focused block. -/
def State.seq (s : State) : Seq := s.blk.seq

/-- The matrix stream of a block comes into focus. -/
def State.focusStream (s : State) (b : Nat) : Option State := (s.focus b 0 false).map fun t => { t with onStream := true }

/-- Slot index of the stream's next instruction. -/
def Seq.idx (q : Seq) : Nat := q.pc.toNat / 4 % 8

/-- The clause that holds the stream's next instruction. -/
def Seq.clause (q : Seq) : DWord := q.pc &&& ~~~ 31#64

/-- The word of the stream's next instruction. -/
def Seq.word (q : Seq) : Word := (q.words.map fun l => nth 0 l q.idx).getD 0

/-- The last slot of the clause in execution; a stream clause has no working set (R25). -/
def Seq.last (q : Seq) : Nat := (q.words.map fun l => bits (nth 0 l 0).toNat 22 20).getD 7

/-- The tag on which the sequencer waits (R146). -/
def Seq.tag (q : Seq) : Option Nat :=
  match q.wait with
  | .fault t => some t
  | .none | .bar _ | .barArrive _ => none

/-- The stream goes on with the next slot, or with the next clause (R126). -/
def Seq.advance (q : Seq) : Seq :=
  if q.idx < q.last then { q with pc := q.pc + 4, wait := .none }
  else { q with pc := q.clause + 32, words := none, wait := .none }

/-- The stream goes on at another clause (R142). -/
def Seq.jump (q : Seq) (off : BitVec 16) : Seq :=
  { q with pc := q.clause + 32 * off.signExtend 64, words := none, wait := .none }

/-- The stream's next instruction. -/
def State.mxNext (s : State) : State := s.onSeq Seq.advance

/-! ## The effect of mxrel (R129), halts (R146) and parks -/

/-- The reservation is given up with every claimed name; tiles that a neighbour lent go back (R129). -/
def State.releaseEngine (s : State) : State :=
  (s.onDev fun d => returnLent d s.blk).onSeq fun q => { q with res := .none, tiles := [], rstw := false }

/-- The stream has stopped: RUN is 0, and barriers that waited for the sequencer alone complete (R127). -/
def State.stopStream (s : State) : State :=
  let s := s.releaseEngine.onSeq fun q => { q with run := false, words := none, wait := .none }
  s.onBlk fun b => b.testMBars s.liveAll

/-- The causes whose halt names an address (R146). -/
def hasAddress (c : Cause) : Bool := c = cMISALIGNED || c = cTRANSLATION || c = cPROTECTION || c = cPOISON_CONSUMED

/-- The report of a halt for each group (R146). -/
def haltReport (q : Seq) (c : Cause) (va : Nat) : Report :=
  { bit := 0, cause := c, slot := 0, flag := 15, info0 := q.pc, info1 := q.word.setWidth 64
    info2 := if hasAddress c then dw va else 0 }

/-- Some group of the focused block has not exited. -/
def State.anyLive (s : State) : Bool := s.grp.live != 0 || s.blk.groups.any fun g => g.live != 0

/-- The stream halts: the failing instruction has no effect, each group is to trap, and with none left the unit ends (R146). -/
def State.halt (s : State) (c : Cause) (va : Nat) : State :=
  let q := s.seq
  let r := haltReport q c va
  let t := s.stopStream.onSeq fun q => { q with cause := c, halt := true }
  let give := fun (g : Group) => if g.live = 0 then g else g.defer r
  if t.anyLive then { t with grp := give t.grp, blk := { t.blk with groups := t.blk.groups.map give } }
  else
    let b := t.blk
    let regs : TrapRegs := { cause := c, pc := q.pc, slot := BitVec.ofNat 3 q.idx, info0 := q.word.setWidth 64, time := dw s.dev.time }
    t.unfocus.onDev fun d => endUnit d b regs ⟨0, 1, b.core, false⟩

/-- What stops an instruction of the stream: a halt, or a replayable fault (R146). -/
inductive MxStop where
  | halt (c : Cause) (va : Nat)
  | park (va kind lvl e : Nat) (acc : Acc)
  deriving DecidableEq, Repr

/-- The stream stopped so: the instruction has had no effect. -/
def State.mxStop (s : State) (x : MxStop) : State :=
  match x with
  | .halt c va => s.halt c va
  | .park va kind lvl e acc =>
    let r := parkFault s.dev s.blk.shape.owner va kind lvl e acc ⟨s.blk.launchId.toNat, 1, s.blk.core, 0⟩
    ({ s with dev := r.1 } : State).onSeq fun q => { q with wait := .fault r.2 }

/-! ## Clause fetch of a stream (R25, R51, R126) -/

/-- What the sequencer waits on over a fetch of its clause: the tag of a fault that an access is to replay stays (R148). -/
def Seq.overFetch (q : Seq) : SeqWait :=
  match q.wait with
  | .fault t => .fault t
  | .none | .bar _ | .barArrive _ => .none

/-- The clause at the stream's address is fetched and its header checked (R25, R126). -/
def State.fetchStream (s : State) : State :=
  let q := s.seq
  match fetchClause s.dev s.blk q.clause q.tag with
  | .trap c => s.halt c q.clause.toNat
  | .park kind lvl e => s.mxStop (.park q.clause.toNat kind lvl e .fetch)
  | .ok d ws =>
    let s := { s with dev := d }
    let at0 := s.onSeq fun q => { q with words := some ws, pc := q.clause }
    if !streamHeaderLegal ws then at0.halt cILLEGAL_CLAUSE 0
    else if bits (nth 0 ws 0).toNat 22 20 < q.idx then s.onSeq fun q => { q with pc := q.clause + 32, words := none, wait := .none }
    else s.onSeq fun q => { q with words := some ws, wait := q.overFetch, pc := if q.idx = 0 then q.clause + 4 else q.pc }

/-! ## Reservations (R129-R131) -/

/-- The instruction needs a reservation (R147). -/
def State.reserved (s : State) (f : State → State) : Res :=
  .next (if s.seq.res = .none then s.halt cMATRIX_RESERVATION 0 else f s)

/-- kq[p] written (R124). -/
def Seq.setKq (q : Seq) (p : Nat) (b : Bool) : Seq :=
  { q with kq := if b then q.kq ||| BitVec.ofNat 4 (2 ^ p) else q.kq &&& ~~~ BitVec.ofNat 4 (2 ^ p) }

/-- The reservation taken, kq[p] set. -/
def State.grant (s : State) (p : Nat) (r : Reservation) : State :=
  (s.onSeq fun q => ({ q with res := r } : Seq).setKq p true).mxNext

/-- A neighbour's engine grants a reservation where it has room for the block's tiles (R129, R130). -/
def State.askNeighbour (s : State) (p e : Nat) : State :=
  let n := s.blk.shape.accs
  if n + sumOf (shapesOn s.dev e) (·.accs) + Sparse.get 0 s.dev.lent e ≤ 32 then
    (s.onDev fun d => { d with lent := Sparse.upd 0 d.lent e (· + n) }).grant p (.neighbour e)
  else (s.onSeq fun q => q.setKq p false).mxNext

/-- `mxacq kqP, home` or `mxacq kqP, E` (R129). -/
def execMxacq (p e : Fin 4) (h : Bool) (s : State) : Res :=
  .next (if s.seq.res != .none then s.halt cMATRIX_RESERVATION 0
    else if h || e.val = s.blk.core % 4 then s.grant p.val .home
    else s.askNeighbour p.val (4 * s.blk.cluster + e.val))

/-- `mxrel` (R129). -/
def execMxrel (s : State) : Res := .next s.releaseEngine.mxNext

/-! ## Tile slots (R132) -/

/-- The core whose engine serves a block's context. -/
def Block.server (b : Block) : Option Nat :=
  match b.seq.res with
  | .none => none
  | .home => some b.core
  | .neighbour e => some e

/-- Physical slots of a core's engine that other contexts hold; a context that waits for its restore holds none (R132, R148). -/
def slotsHeld (d : Dev) (core : Nat) : Nat :=
  (d.blocks.filter fun b => b.onCore && b.server = some core && !b.seq.rstw).foldl (fun n b => n + b.seq.tiles.length) 0

/-- A restore waits on a core's engine (R148). -/
def restoreWaits (d : Dev) (core : Nat) : Bool := d.blocks.any fun b => b.onCore && b.core = core && b.seq.rstw

/-- Name n is claimed. -/
def Seq.claimed (q : Seq) (n : Nat) : Bool := q.tiles.any fun t => t.1 = n

/-- The slot that a name stands for. -/
def Seq.tile (q : Seq) (n : Nat) : Option Tile := (q.tiles.find? fun t => t.1 = n).map (·.2)

/-- The slot of a name changed. -/
def Seq.setTile (q : Seq) (n : Nat) (x : Tile) : Seq :=
  { q with tiles := (q.tiles.filter fun t => t.1 < n) ++ [(n, x)] ++ (q.tiles.filter fun t => n < t.1) }

/-- The names from n on, c + 1 of them. -/
def names (n c : Nat) : List Nat := (List.range (c + 1)).map (n + ·)

/-- `tclm kqP, tN, n` (R132). -/
def execTclm (p : Fin 4) (n : TName) (c : Fin 64) (s : State) : Res :=
  s.reserved fun s =>
    let q := s.seq
    let core := s.blk.server.getD s.blk.core
    if (names n.val c.val).any q.claimed then s.halt cMATRIX_SLOT 0
    else if slotsHeld s.dev core + q.tiles.length + c.val + 1 ≤ 64 && !restoreWaits s.dev core then
      (s.onSeq fun q => ((names n.val c.val).foldl (fun q i => q.setTile i {}) q).setKq p.val true).mxNext
    else (s.onSeq fun q => q.setKq p.val false).mxNext

/-- `trel tN, n` (R132). -/
def execTrel (n : TName) (c : Fin 64) (s : State) : Res :=
  s.reserved fun s =>
    if (names n.val c.val).any fun i => !s.seq.claimed i then s.halt cMATRIX_SLOT 0
    else (s.onSeq fun q => { q with tiles := q.tiles.filter fun t => !(names n.val c.val).contains t.1 }).mxNext

/-! ## Format, registers, branches (R133, R141, R142) -/

/-- `mfmt ka, kb, ea, eb` (R133). -/
def execMfmt (eb ea : BitVec 7) (kb ka : Fin 16) (s : State) : Res :=
  .next (s.onSeq fun q => { q with ka := ka.val, kb := kb.val, ea := ea.toInt, eb := eb.toInt }).mxNext

/-- Register kN (R124). -/
def Seq.rk (q : Seq) (n : Nat) : DWord := Sparse.get 0 q.k n

/-- Register kN written. -/
def Seq.wk (q : Seq) (n : Nat) (x : DWord) : Seq := { q with k := Sparse.put 0 q.k n x }

/-- `kmovi` and `kmovi.hH` (R141). -/
def execKmovi (d : Fin 16) (h : Fin 4) (i : BitVec 16) (s : State) : Res :=
  let quarter : DWord := i.setWidth 64 <<< (16 * h.val)
  let hole : DWord := (0xFFFF : DWord) <<< (16 * h.val)
  .next (s.onSeq fun q => q.wk d.val (if h.val = 0 then i.setWidth 64 else (q.rk d.val &&& ~~~ hole) ||| quarter)).mxNext

/-- `kadd kD, kA, imm13` (R141). -/
def execKadd (d a : Fin 16) (i : BitVec 13) (s : State) : Res :=
  .next (s.onSeq fun q => q.wk d.val (q.rk a.val + i.signExtend 64)).mxNext

/-- `kadd kD, kA, kB` (R141). -/
def execKaddReg (d a b : Fin 16) (s : State) : Res :=
  .next (s.onSeq fun q => q.wk d.val (q.rk a.val + q.rk b.val)).mxNext

/-- A branch of the stream (R142). -/
def Seq.branch (q : Seq) (taken : Bool) (o : BitVec 16) : Seq := if taken then q.jump o else q.advance

/-- `kbra.kqP label` (R142). -/
def execKbraKq (p : Fin 4) (o : BitVec 16) (s : State) : Res :=
  .next (s.onSeq fun q => q.branch (q.kq.getLsbD p.val) o)

/-- `kbra.nkqP label` (R142). -/
def execKbraNkq (p : Fin 4) (o : BitVec 16) (s : State) : Res :=
  .next (s.onSeq fun q => q.branch (!q.kq.getLsbD p.val) o)

/-- `kbra label` (R142). -/
def execKbra (o : BitVec 16) (s : State) : Res := .next (s.onSeq fun q => q.branch true o)

/-- `kbra.dec kD, label` (R142). -/
def execKbraDec (d : Fin 16) (o : BitVec 16) (s : State) : Res :=
  .next (s.onSeq fun q => (q.wk d.val (q.rk d.val - 1)).branch (q.rk d.val - 1 != 0) o)

/-- `mend` (R143): stream instructions complete as they execute. -/
def execMend (s : State) : Res := .next s.stopStream

/-! ## Matrix barriers of the stream (R127) -/

/-- `mxbar.arr n` (R127). -/
def execMxbarArr (n : Fin 8) (s : State) : Res :=
  let x := s.blk.mbar n
  .next (if x.seqArr then s.onSeq fun q => { q with wait := .barArrive n.val }
    else
      let s := s.onSeq fun q => { q with barPhase := Sparse.put 0 q.barPhase n.val (x.phase.toNat + 1) }
      (s.onBlk fun b => b.onMBar s.liveAll n fun y => { y with seqArr := true }).mxNext)

/-- `mxbar.wait n` (R127). -/
def execMxbarWait (n : Fin 8) (s : State) : Res :=
  .next (if Sparse.get 0 s.seq.barPhase n.val = (s.blk.mbar n).phase.toNat + 1 then s.onSeq fun q => { q with wait := .bar n.val }
    else s.mxNext)

/-! ## Accumulators (R139) -/

/-- `accz aD, n` (R139). -/
def execAccz (d n : Fin 32) (s : State) : Res :=
  s.reserved fun s => (s.onSeq fun q => { q with acc := q.acc.filter fun e =>
    !(decide (4096 * d.val ≤ e.1) && decide (e.1 < 4096 * (d.val + n.val + 1))) }).mxNext

/-! ## mx.start (R125) -/

/-- The sequencer at the start of a stream (R125). -/
def Seq.start (q : Seq) (e x y : DWord) : Seq :=
  { q with pc := e, words := none, run := true, halt := false, cause := 0, k := Sparse.put 0 (Sparse.put 0 [] 0 x) 1 y, kq := 0,
           ka := 0, kb := 0, ea := 0, eb := 0, wait := .none }

/-- `mx.start sE, sX, sY`: a release at package scope for the slot (R125, R287, R296). -/
def execMxStart (e x y : SReg) (s : State) : Res :=
  s.counted false 1 [.s e 1, .s x 1, .s y 1] [] fun t =>
    if t.seq.run then .next (t.violation cMATRIX_RESERVATION)
    else if (t.rs e).toNat % 32 ≠ 0 then .next (t.trapAll cMISALIGNED t.wordInfo (t.rs e))
    else .next (((t.release .pkg).onSeq fun q => q.start (t.rs e) (t.rs x) (t.rs y)).count false id).advance

end Sys2Proof.Machine
end

