-- ==== Sys2Proof/Machine/Matrix.lean ====
section
/-! DEFINITION. Tiles and multiplies (07 R132-R138, R140; 04 R77-R78, R83): `tld`, `mma`, `mmas`, `dmap`, `accld`, `accst`. -/

namespace Sys2Proof.Machine

open Sys2Proof

/-! ## Memory accesses of a stream (R135, R146) -/

/-- The translation of one access of the stream, with the rules for view pages and READ objects (R146, R255, R310); of a remote
page an engine makes PROTECTION (log 20). -/
def State.mxXlat (s : State) (acc : Acc) (va : Nat) : Except MxStop (Leaf × Nat) :=
  match xlat s.dev s.blk.shape.owner va acc s.seq.tag with
  | .trap c => .error (.halt c va)
  | .park k lvl e => .error (.park va k lvl e acc)
  | .ok l pa =>
    if l.kind = .remote then .error (.halt cPROTECTION va)
    else if acc.writes && l.kind = .view && s.forking then .error (.halt cFORK_PARENT_WRITE va)
    else if acc.writes && s.inReadObject pa then .error (.halt cPROTECTION va)
    else .ok (l, pa)

/-- The translations of a list of accesses in order; the first failure in that order decides (log 38). -/
def State.mxLeaves (s : State) (acc : Acc) : List (Nat × Nat) → Except MxStop (List (Leaf × Nat × Nat × Nat))
  | [] => .ok []
  | (va, n) :: t => match s.mxXlat acc va with
    | .error e => .error e
    | .ok (l, pa) => match s.mxLeaves acc t with
      | .error e => .error e
      | .ok r => .ok ((l, va, pa, n) :: r)

/-- The translations are held, and the cluster's dirty bytes of the lines go to their homes, where the engine reads (R250, R382). -/
def State.mxSettle (s : State) (ls : List (Leaf × Nat × Nat × Nat)) : State :=
  let lines := (ls.map fun x => x.2.2.1 / 128).eraseDups
  s.onDev fun d =>
    let d := ls.foldl (fun d x => keepLeaf d s.blk.shape.owner x.2.1 x.1) d
    writeBackIf d fun x => x.cluster = s.blk.cluster && lines.contains (x.sector / 4)

/-- The number at n bytes as the engine reads it at its home or in the block's view (R250, R310). -/
def State.mxNat (s : State) (x : Leaf × Nat × Nat × Nat) : Except MxStop Nat :=
  match viewRead s.dev s.who x.1 x.2.1 x.2.2.2 with
  | some (b, bad) => if bad then .error (.halt cPOISON_CONSUMED x.2.1) else .ok (natOf b)
  | none =>
    if poisoned s.dev x.2.2.1 x.2.2.2 then .error (.halt cPOISON_CONSUMED x.2.1)
    else .ok (homeNat s.dev s.key x.2.2.1 x.2.2.2)

/-- The numbers at a list of addresses and lengths, or what stops the read; a stop leaves nothing behind. -/
def State.mxLoads (s : State) (l : List (Nat × Nat)) : Except MxStop (State × List Nat) :=
  match s.mxLeaves .read l with
  | .error e => .error e
  | .ok ls =>
    let s := s.mxSettle ls
    (ls.foldr (fun x (r : Except MxStop (List Nat)) => match s.mxNat x, r with
      | .error e, _ | .ok _, .error e => .error e
      | .ok v, .ok t => .ok (v :: t)) (.ok [])).map fun r => (s, r)

/-! ## Records of a stream (R135, R140) -/

/-- The origin of a tile from kC and kC+1 (R135). -/
def originOfPair (x y : DWord) : List Int :=
  [sext x.toNat 32, sext (x.toNat / 2 ^ 32) 32, sext y.toNat 21, sext (y.toNat / 2 ^ 21) 21, sext (y.toNat / 2 ^ 42) 21]

/-- A record read through the layout-record cache, with the origin; `ok` says which kinds are taken (R135, R147). -/
def State.mxRecord (s : State) (l c : Fin 16) (ok : Elem → Bool) : Except MxStop (State × Layout × List Int) :=
  let a := (s.seq.rk l.val).toNat
  if a % 64 ≠ 0 then .error (.halt cMISALIGNED a)
  else match s.mxXlat .read a with
  | .error e => .error e
  | .ok (lf, pa) =>
    let s := s.onDev fun d => keepLeaf d s.blk.shape.owner a lf
    let r := s.lineBytes .record lf a pa 64
    if r.2.2 then .error (.halt cPOISON_CONSUMED a)
    else match parseLayout r.2.1 with
    | .error _ => .error (.halt cILLEGAL_OPERAND 0)
    | .ok x =>
      let hi := s.seq.rk (c.val + 1)
      if x.scratch || !ok x.type || bitOf hi.toNat 63 then .error (.halt cILLEGAL_OPERAND 0)
      else .ok (r.1, x, originOfPair (s.seq.rk c.val) hi)

/-- A stream instruction that needs a reservation and may stop (R146, R147). -/
def State.mxDo (s : State) (f : State → Except MxStop State) : Res :=
  s.reserved fun s => match f s with
    | .error e => s.mxStop e
    | .ok t => t.mxNext

/-! ## Loading tiles (R135) -/

/-- The kinds that a slot can hold (R133). -/
def tileKind (t : Elem) : Bool :=
  match t with
  | .bf16 | .f16 | .f8a | .f8b | .i8 | .n8 | .dpw8 | .i4 | .n4 => true
  | .f32 | .i32 | .n32 | .f64 | .i16 | .n16 => false

/-- Kd, the elements of a line (R134). -/
def Elem.kd (t : Elem) : Nat := 512 / t.width

/-- The coordinates of position e of line l. -/
def posOf (o : List Int) (e l : Int) : List Int := modAt (modAt o 0 (· + e)) 1 (· + l)

/-- The address and length of an element of a record. -/
def Layout.spot (r : Layout) (c : List Int) : Nat × Nat := (vaOf (r.addr c), r.type.size)

/-- The scale entry that a run of a line has, as its address, where it has one (R76). -/
def Layout.scaleSpot (r : Layout) (c : List Int) : Option (Nat × Nat) :=
  if r.scale != 0 && r.inside c then some (vaOf (r.scale + r.scaleIndex c : Nat), 1) else none

/-- One thing that a line takes: where it goes, and its value or the place it is read from. -/
structure Take where
  key : Nat
  src : Nat ⊕ (Nat × Nat)
  deriving DecidableEq, Repr

/-- The takes with their places read, in order. -/
def fillTakes : List Take → List Nat → List (Nat × Nat)
  | [], _ => []
  | t :: ts, vs => match t.src, vs with
    | .inl x, vs => (t.key, x) :: fillTakes ts vs
    | .inr _, v :: vs => (t.key, v) :: fillTakes ts vs
    | .inr _, [] => fillTakes ts []

/-- The values of a list of takes. -/
def State.mxTake (s : State) (ts : List Take) : Except MxStop (State × List (Nat × Nat)) :=
  (s.mxLoads (ts.filterMap fun t => match t.src with
    | .inl _ => none
    | .inr a => some a)).map fun r => (r.1, fillTakes ts r.2)

/-- The elements of the 64 lines of a dense tile (R135). -/
def denseTakes (r : Layout) (o : List Int) : List Take :=
  (List.range 64).flatMap fun (l : Nat) => (List.range r.type.kd).map fun (e : Nat) =>
    let c := posOf o e l
    ⟨r.type.kd * l + e, if r.inside c then .inr (r.spot c) else .inl r.padBits⟩

/-- The runs that a line of a tile covers, n positions along K. -/
def runsOf (n : Nat) : Nat := ceilDiv n 64

/-- The run exponents of the 64 lines (R76, R135); pad positions of a run partly outside the extents take the run's (log 38). -/
def scaleTakes (r : Layout) (o : List Int) (lw : Nat) : List Take :=
  (List.range 64).flatMap fun (l : Nat) => (List.range (runsOf lw)).filterMap fun (i : Nat) =>
    (r.scaleSpot (posOf o (64 * i) l)).map fun a => ⟨2 * l + i, .inr a⟩

/-- Bytes of a dense slot from its elements (R68). -/
def packTile (t : Elem) (vs : List (Nat × Nat)) : Table Byte :=
  let es := if t.nibble then
      vs.foldl (fun (b : Table Nat) e => Sparse.upd 0 b (e.1 / 2) (· + (if e.1 % 2 = 1 then 16 * (e.2 % 16) else e.2 % 16))) []
    else vs.flatMap fun e => (bytesOf e.2 t.size).zipIdx.map fun x => (t.size * e.1 + x.2, x.1.toNat)
  es.foldl (fun b e => Sparse.put 0 b e.1 (BitVec.ofNat 8 e.2)) []

/-- Run exponents as a slot keeps them. -/
def scaleTable (vs : List (Nat × Nat)) : Table Int := vs.foldl (fun b e => Sparse.put 0 b e.1 (sext e.2 8)) []

/-- An element as read: a 4-bit kind takes its half of the byte (R68). -/
def nibblesRead (r : Layout) (o : List Int) (vs : List (Nat × Nat)) : List (Nat × Nat) :=
  if r.type.nibble then vs.map fun e =>
      let c := posOf o (e.1 % r.type.kd : Nat) (e.1 / r.type.kd : Nat)
      (e.1, if r.inside c && r.high c then e.2 / 16 else e.2 % 16)
  else vs

/-- A dense tile loaded (R135). -/
def State.loadDense (s : State) (n : Nat) (r : Layout) (o : List Int) : Except MxStop State :=
  match s.mxTake (denseTakes r o) with
  | .error e => .error e
  | .ok (s, vs) => match s.mxTake (scaleTakes r o r.type.kd) with
    | .error e => .error e
    | .ok (s, xs) =>
      let t : Tile := { bytes := packTile r.type (nibblesRead r o vs), exps := scaleTable xs, tag := some ⟨r.type, 0, r.scale != 0, false⟩ }
      .ok (s.onSeq fun q => q.setTile n t)

/-- `tld tN, kL, kC` (R135). -/
def execTld (n : TName) (l c : Fin 16) (s : State) : Res :=
  s.mxDo fun s =>
    if !s.seq.claimed n.val then .error (.halt cMATRIX_SLOT 0)
    else match s.mxRecord l c tileKind with
    | .error e => .error e
    | .ok (s, r, o) => if nth 0 o 0 % r.type.kd ≠ 0 then .error (.halt cILLEGAL_OPERAND 0) else s.loadDense n.val r o

/-! ## Compressed tiles (R77, R135) -/

/-- N of a record's compression; 0 where it names none (R328). -/
def Layout.keep (r : Layout) : Nat :=
  match r.spn % 4 with
  | 1 => 8 | 2 => 16 | 3 => 32 | _ => 0

/-- Where the record of the run at coordinates c stands (R77, R329; log 22). -/
def Layout.runAddr (r : Layout) (c : List Int) : Int :=
  let i1 := nth 0 c 1
  let row := (i1 % r.fac).toNat
  r.addr (modAt (modAt c 0 fun _ => 0) 1 fun _ => i1 - row) +
    Config.runOffset (nth 0 r.str 0) r.ilv r.keep r.type.width (nth 0 c 0 / 64).toNat row

/-- The bytes of one part of the runs of a tile that start within the extents, as they are stored (R135; log 38): `len` bytes from offset `off` of each run's record, placed by `key`. -/
def runTakes (r : Layout) (o : List Int) (off len : Nat) (key : Nat → Nat → Nat → Nat) : List Take :=
  (List.range 64).flatMap fun (l : Nat) => (List.range (runsOf (2 * r.type.kd))).flatMap fun (i : Nat) =>
    let c := posOf o (64 * i) l
    if r.inside c then (List.range len).map fun j => ⟨key l i j, .inr (vaOf (r.runAddr c + (off + j : Nat)), 1)⟩ else []

/-- Bytes by key. -/
def byteTable (vs : List (Nat × Nat)) : Table Byte := vs.foldl (fun b e => Sparse.put 0 b e.1 (BitVec.ofNat 8 e.2)) []

/-- A compressed tile loaded: masks, kept values, run exponents (R135). -/
def State.loadSparse (s : State) (n : Nat) (r : Layout) (o : List Int) : Except MxStop State :=
  let vlen := r.keep * r.type.size
  match s.mxTake (runTakes r o 0 8 fun l i j => 16 * l + 8 * i + j) with
  | .error e => .error e
  | .ok (s, ms) => match s.mxTake (runTakes r o 8 vlen fun l i j => 64 * l + vlen * i + j) with
    | .error e => .error e
    | .ok (s, vs) => match s.mxTake (scaleTakes r o (2 * r.type.kd)) with
      | .error e => .error e
      | .ok (s, xs) =>
        let t : Tile := { bytes := byteTable vs, exps := scaleTable xs, masks := byteTable ms, tag := some ⟨r.type, r.keep, r.scale != 0, false⟩ }
        .ok (s.onSeq fun q => q.setTile n t)

/-- `tld.sp tN, kL, kC` (R135). -/
def execTldSp (n : TName) (l c : Fin 16) (s : State) : Res :=
  s.mxDo fun s =>
    if !s.seq.claimed n.val then .error (.halt cMATRIX_SLOT 0)
    else match s.mxRecord l c tileKind with
    | .error e => .error e
    | .ok (s, r, o) =>
      if r.type.nibble || r.keep = 0 || nth 0 o 0 % (2 * r.type.kd : Nat) ≠ 0 then .error (.halt cILLEGAL_OPERAND 0)
      else s.loadSparse n.val r o

/-- `dmap tN, kA` (R138). -/
def execDmap (n : TName) (a : Fin 16) (s : State) : Res :=
  s.mxDo fun s => match s.seq.tile n.val with
    | none => .error (.halt cMATRIX_SLOT 0)
    | some t =>
      let va := (s.seq.rk a.val).toNat
      if va % 8 ≠ 0 then .error (.halt cMISALIGNED va)
      else match s.mxTake ((List.range 512).map fun i => ⟨i, .inr ((va + i) % 2 ^ 64, 1)⟩) with
      | .error e => .error e
      | .ok (s, vs) =>
        .ok (s.onSeq fun q => q.setTile n.val { t with map := byteTable vs, tag := t.tag.map fun g => { g with mapped := true } })

/-! ## Multiplies (R133-R138, R83) -/

/-- Element k of line m of a dense slot, as bits (R68). -/
def Tile.bits (t : Tile) (k : Elem) (m i : Nat) : Nat :=
  if k.nibble then
    let b := (Sparse.get 0 t.bytes (64 * m + i / 2)).toNat
    if i % 2 = 1 then b / 16 else b % 16
  else natOf ((List.range k.size).map fun j => Sparse.get 0 t.bytes (64 * m + k.size * i + j))

/-- The mask of run i of line m of a compressed slot (R77). -/
def Tile.mask (t : Tile) (m i : Nat) : Nat := natOf ((List.range 8).map fun j => Sparse.get 0 t.masks (16 * m + 8 * i + j))

/-- The element of a position of a compressed slot; none where no value is kept (R77). -/
def Tile.kept (t : Tile) (k : Elem) (n m p : Nat) : Option Nat :=
  let w := t.mask m (p / 64)
  let v := ((List.range (p % 64)).filter fun j => bitOf w j).length
  if bitOf w (p % 64) && v < n then some (t.bits k m (p / 64 * n + v)) else none

/-- The run exponent of position p of line m. -/
def Tile.exp (t : Tile) (m p : Nat) : Int := Sparse.get 0 t.exps (2 * m + p / 64)

/-- The positive zero. -/
def zeroVal : Val := .num false 0 0 false

/-- One operand of a multiply: for line m and position p the values whose products count, the second that of a set map
bit (R136, R138). -/
abbrev Operand := Nat → Nat → List Val

/-- A dense operand in one slot, with its map's HI slot, whose own run exponents scale it (log 38). -/
def denseOperand (k : Elem) (e : Int) (t : Tile) (hi : Option Tile) : Operand := fun m p =>
  scaleVal (k.val (t.bits k m p)) (e + t.exp m p) :: match hi with
    | some h => if (Sparse.get 0 t.map (8 * m + p / 8)).getLsbD (p % 8) then [scaleVal (k.val (h.bits k m p)) (e + h.exp m p)] else []
    | none => []

/-- A dense operand in two slots (R137). -/
def pairOperand (k : Elem) (e : Int) (t u : Tile) : Operand := fun m p =>
  if p < k.kd then denseOperand k e t none m p else denseOperand k e u none m (p - k.kd)

/-- A compressed operand (R137). -/
def keptOperand (k : Elem) (n : Nat) (e : Int) (t : Tile) : Operand := fun m p =>
  [match t.kept k n m p with
    | some x => scaleVal (k.val x) (e + t.exp m p)
    | none => zeroVal]

/-- Every product of the values of one position: of a mapped element each code separately (R122, R138; log 36). -/
def crossVals (a b : List Val) : List (Val × Bool) := a.flatMap fun x => b.map fun y => mulVal x y

/-- The exact sum of products with whether it is invalid (R83). -/
def sumVals : List (Val × Bool) → Val × Bool
  | [] => (zeroVal, false)
  | x :: t => t.foldl (fun a y =>
      let r := addVal a.1 y.1
      (r.1, a.2 || y.2 || r.2)) x

/-- One chunk added to an accumulator element, rounded once, with its flags (R83, R136). -/
def addChunk (c : Nat × FFlags) (ps : List (Val × Bool)) : Nat × FFlags :=
  let x := sumVals ps
  let y := addVal (f32.val c.1) x.1
  let r := roundFp f32 .rne false y.1 y.2
  (r.1, c.2 ||| r.2 ||| flagIf (x.2 || y.2) fIV)

/-- mma_element over K positions in chunks of W (R83). -/
def mmaElement (c : Nat) (a b : Nat → List Val) (k w : Nat) : Nat × FFlags :=
  (List.range (ceilDiv k w)).foldl (fun c j =>
    addChunk c ((List.range (min w (k - j * w))).flatMap fun i => crossVals (a (j * w + i)) (b (j * w + i)))) (c, 0)

/-- The integer of a finite value at exponent 0. -/
def valInt : Val → Int
  | .num neg m e _ => signedAt neg m e 0
  | .nan | .inf _ => 0

/-- An integer element: wrap32 of the old value and the exact sum (R136). -/
def dotElement (c : Nat) (a b : Nat → List Val) (k : Nat) : Nat :=
  let n := (List.range k).foldl (fun (n : Int) p => n + (crossVals (a p) (b p)).foldl (fun m x => m + valInt x.1) 0) 0
  (wrap32 (sext c 32 + n)).toNat

/-- The class of a pair of kinds: chunk width, or integer; none outside R134. -/
inductive Pair where
  | float (w : Nat)
  | int
  deriving DecidableEq, Repr

/-- The pairs of R134. -/
def pairOf (a b : Elem) : Option Pair :=
  let f8 := fun (t : Elem) => t = .f8a || t = .f8b
  let i8 := fun (t : Elem) => t = .i8 || t = .n8
  let i4 := fun (t : Elem) => t = .i4 || t = .n4
  if (a = .bf16 && b = .bf16) || (a = .f16 && b = .f16) then some (.float 8)
  else if f8 a && f8 b then some (.float 16)
  else if (a = .dpw8 && (f8 b || i8 b)) || (b = .dpw8 && (f8 a || i8 a)) then some (.float 32)
  else if (i8 a && i8 b) || (i4 a && i4 b) then some .int
  else none

/-- The sticky flags of MXSTAT (R145). -/
def Seq.raise (q : Seq) (f : FFlags) : Seq :=
  { q with iv := q.iv || f.getLsbD 0, of := q.of || f.getLsbD 2, uf := q.uf || f.getLsbD 3, nx := q.nx || f.getLsbD 4 }

/-- Element i of accumulator tile d. -/
def Seq.elem (q : Seq) (d i : Nat) : Nat := (Sparse.get 0 q.acc (4096 * d + i)).toNat

/-- An accumulator tile updated element by element. -/
def Seq.multiply (q : Seq) (d : Nat) (p : Pair) (a b : Operand) (k : Nat) : Seq :=
  (List.range 4096).foldl (fun (q : Seq) i =>
    let r : Nat × FFlags := match p with
      | .float w => mmaElement (q.elem d i) (a (i / 64)) (b (i % 64)) k w
      | .int => (dotElement (q.elem d i) (a (i / 64)) (b (i % 64)) k, 0)
    { q with acc := Sparse.put 0 q.acc (4096 * d + i) (BitVec.ofNat 32 r.1) }.raise r.2) q

/-- The tags of the slots fit MF and the pair (R136). -/
def fitsTags (q : Seq) (ka kb : Elem) (p : Pair) (ta tb : SlotTag) : Bool :=
  ta.kind = ka && tb.kind = kb && !(p = .int && (q.ea != 0 || q.eb != 0 || ta.scaled || tb.scaled))

/-- MF as kinds, where its pair is in R134. -/
def Seq.format (q : Seq) : Option (Elem × Elem × Pair) :=
  match Elem.ofCode q.ka, Elem.ofCode q.kb with
  | some a, some b => (pairOf a b).map fun p => (a, b, p)
  | _, _ => none

/-- The HI slot of a mapped slot (R138). -/
def Seq.hiSlot (q : Seq) (n : Nat) (g : SlotTag) : Except MxStop (Option Tile) :=
  if !g.mapped then .ok none
  else if g.kind ≠ .dpw8 then .error (.halt cILLEGAL_OPERAND 0)
  else match q.tile (n + 1) with
  | some t => .ok (some t)
  | none => .error (.halt cMATRIX_SLOT 0)

/-- Two claimed slots. -/
def Seq.twoTiles (q : Seq) (a b : Nat) : Except MxStop (Tile × Tile) :=
  match q.tile a, q.tile b with
  | some x, some y => .ok (x, y)
  | _, _ => .error (.halt cMATRIX_SLOT 0)

/-- `mma aD, tA, tB` (R136). -/
def execMma (d : Fin 32) (a b : TName) (s : State) : Res :=
  s.mxDo fun s =>
    let q := s.seq
    match q.twoTiles a.val b.val with
    | .error e => .error e
    | .ok (x, y) => match x.tag, y.tag, q.format with
      | some ta, some tb, some (ka, kb, p) =>
        if !fitsTags q ka kb p ta tb || ta.nz != 0 || tb.nz != 0 then .error (.halt cILLEGAL_OPERAND 0)
        else match q.hiSlot a.val ta, q.hiSlot b.val tb with
        | .error e, _ | .ok _, .error e => .error e
        | .ok hx, .ok hy =>
          .ok (s.onSeq fun q => q.multiply d.val p (denseOperand ka q.ea x hx) (denseOperand kb q.eb y hy) ka.kd)
      | _, _, _ => .error (.halt cILLEGAL_OPERAND 0)

/-- `mmas aD, tA, tB` (R137). -/
def execMmas (d : Fin 32) (a b : TName) (s : State) : Res :=
  s.mxDo fun s =>
    let q := s.seq
    match q.twoTiles a.val b.val, q.tile (b.val + 1) with
    | .error e, _ => .error e
    | .ok _, none => .error (.halt cMATRIX_SLOT 0)
    | .ok (x, y), some z => match x.tag, y.tag, z.tag, q.format with
      | some ta, some tb, some tc, some (ka, kb, p) =>
        if !fitsTags q ka kb p ta tb || !fitsTags q ka kb p ta tc || ta.nz = 0 || tb.nz != 0 || tc.nz != 0 || ta.mapped ||
            tb.mapped || tc.mapped || ka.nibble then .error (.halt cILLEGAL_OPERAND 0)
        else .ok (s.onSeq fun q => q.multiply d.val p (keptOperand ka ta.nz q.ea x) (pairOperand kb q.eb y z) (2 * ka.kd))
      | _, _, _, _ => .error (.halt cILLEGAL_OPERAND 0)

/-! ## Accumulator moves (R140) -/

/-- The record kinds of `accst` and `accld` (R140). -/
def accKind (t : Elem) : Bool :=
  match t with
  | .f32 | .i32 | .n32 | .bf16 | .f16 => true
  | .f8a | .f8b | .i8 | .n8 | .dpw8 | .i4 | .n4 | .f64 | .i16 | .n16 => false

/-- The bits that `accst` writes for an element, with the flags of its conversion (R140). -/
def accOut (t : Elem) (x : Nat) : Nat × FFlags :=
  match t with
  | .bf16 => roundFp bf16 .rne false (f32.val x)
  | .f16 => roundFp f16 .rne false (f32.val x)
  | _ => (x, 0)

/-- The bits that `accld` loads for an element (R140). -/
def accIn (t : Elem) (x : Nat) : Nat :=
  match t with
  | .bf16 => exactF f32 (bf16.val x)
  | .f16 => exactF f32 (f16.val x)
  | _ => x

/-- The elements of a tile that lie within the extents: index and coordinates, in increasing m and then n. -/
def accSpots (r : Layout) (o : List Int) : List (Nat × List Int) :=
  (List.range 4096).filterMap fun i =>
    let c := posOf o (i % 64 : Nat) (i / 64 : Nat)
    if r.inside c then some (i, c) else none

/-- A tile whose elements are those loaded; the others are all-zero bits (R140). -/
def Seq.loadTile (q : Seq) (d : Nat) (t : Elem) (vs : List (Nat × Nat)) : Seq :=
  let rest := q.acc.filter fun e => e.1 / 4096 != d
  { q with acc := vs.foldl (fun a e => Sparse.put 0 a (4096 * d + e.1) (BitVec.ofNat 32 (accIn t e.2))) rest }

/-- `accld aD, kL, kC` (R140). -/
def execAccld (d : Fin 32) (l c : Fin 16) (s : State) : Res :=
  s.mxDo fun s => match s.mxRecord l c accKind with
    | .error e => .error e
    | .ok (s, r, o) => match s.mxTake ((accSpots r o).map fun x => ⟨x.1, .inr (r.spot x.2)⟩) with
      | .error e => .error e
      | .ok (s, vs) =>
        .ok (s.onSeq fun q => q.loadTile d.val r.type vs)

/-- One element written at its home or into the block's own shadow (R250, R310). -/
def State.mxPut (s : State) (l : Leaf) (va pa : Nat) (bytes : List Byte) : State :=
  match inShadow s.who l with
  | some c => s.onDev fun d => storeShadow d c.1 c.2 (va / 2 ^ 16) (va % 2 ^ 16) bytes
  | none => s.onDev fun d => engineStore d s.blk.core s.blk.cluster s.key pa bytes

/-- Every element of a tile written, with the flags (R140). -/
def State.storeTile (s : State) (d : Nat) (t : Elem) (es : List (Nat × Leaf × Nat × Nat × Nat)) : State :=
  es.foldl (fun (s : State) e =>
    let x := accOut t (s.seq.elem d e.1)
    (s.mxPut e.2.1 e.2.2.1 e.2.2.2.1 (bytesOf x.1 e.2.2.2.2)).onSeq fun q => q.raise x.2) s

/-- `accst aD, kL, kC`: every element is translated before one is written (R140). -/
def execAccst (d : Fin 32) (l c : Fin 16) (s : State) : Res :=
  s.reserved fun s0 => match s0.mxRecord l c accKind with
    | .error e => s0.mxStop e
    | .ok (s, r, o) =>
      let ps := accSpots r o
      match s.mxLeaves .write (ps.map fun x => r.spot x.2) with
      | .error e => s0.mxStop e
      | .ok ls =>
        let xs : List LaneAcc := ls.map fun x => ⟨0, x.2.1, x.1, x.2.2.1⟩
        if (s.pageToFetch xs).isSome then s0.mxStop (.halt cPROTECTION 0) else
        match s.makeRoom xs with
        | none => s.exhausted
        | some dev =>
          ((({ s with dev := dev } : State).noteAccess .write xs).storeTile d.val r.type ((ps.map (·.1)).zip ls)).mxNext

end Sys2Proof.Machine
end

