-- ==== Sys2Proof/Machine/GroupEvents.lean ====
section
/-! DEFINITION. Events of a group and its block: the issue of a clause (02 R22-R30), urgency (08 R162), completions (02 R26),
trap entry (23 R408), the end of a group and a block (09 R199, 07 R126), and the restore of tile slots (07 R148). -/

namespace Sys2Proof.Machine

open Sys2Proof

/-! ## The issuing slot -/

/-- The issuing slot is live, in a group that runs on a core. -/
def State.running (s : State) : Bool :=
  s.focused && !s.onStream && s.blk.onCore && !s.blk.stopped && !s.grp.ended && !s.grp.yielded && s.grp.trapReq.isNone && s.slot.act != 0

/-- The clause at the issuing slot's address has issued (R22). -/
def State.latched (s : State) : Bool := s.slot.clause.any fun c => c.addr = s.clauseAddr

/-- The issuing slot is parked on a fault whose tag has no reply yet (R386, R388). -/
def State.faultHeld (s : State) : Bool := s.slot.wait.tag.any fun t => outstanding s.dev t

/-- CLAUSE_ISSUE: the clause at the issuing slot's address is fetched, checked and issued (R22-R30). -/
def execClauseIssue (s : State) : Res :=
  if s.running && !s.latched && !s.faultHeld then .next s.issueClause else s.noEvent

/-- CANDIDATE_URGENT: a candidate ready and denied in three consecutive clocks (R162). -/
def execCandidateUrgent (s : State) : Res :=
  if s.running && decide (3 ≤ s.slot.denied) then .next (s.onSlot fun x => { x with urgent := true, urgentAt := s.rota })
  else s.noEvent

/-! ## Completions (R26) -/

/-- The counted operation at place k of the focused group's list completes, if it is of this kind and ends here. -/
def State.completeAt (s : State) (setA : Bool) (k : Nat) : Option State :=
  match s.grp.pend[k]? with
  | some e => if s.focused && e.setA = setA && e.endsHere s.dev then some (s.onGrp fun g => g.complete e.id) else none
  | none => none

/-- COUNTED_OP_COMPLETE: an operation counted by SETA writes its destination, and its flag falls. -/
def execCountedOpComplete (k : Nat) (s : State) : Res :=
  match s.completeAt true k with
  | some t => .next t
  | none => s.noEvent

/-- MEMORY_ACK: an operation counted by SETB is acknowledged, and its flag falls. -/
def execMemoryAck (k : Nat) (s : State) : Res :=
  match s.completeAt false k with
  | some t => .next t
  | none => s.noEvent

/-! ## TRAP_ENTRY (R408) -/

/-- TRAP_ENTRY: the pending trap of the focused group is taken once its counted operations have completed. -/
def execTrapEntry (s : State) : Res :=
  match s.grp.trapReq with
  | some q => if s.focused && s.grp.pend = [] then .next (s.takeTrap q) else s.noEvent
  | none => s.noEvent

/-! ## GROUP_END (R197, R199, R211, R234) -/

/-- The focused group ends: its accesses are visible at system scope, its name is RETIRED, barriers stop counting it, and
it counts as triggered. -/
def State.endGroup (s : State) : State :=
  let s := s.release .sys
  let g := s.grp
  let s : State := { s with
    grp := { g with ended := true, pname := 0, holds := [], preempt := none }
    blk := { s.blk with exitm := setLane s.blk.exitm g.idx true }
    dev := retireName s.dev s.blk.shape.owner g.pname }
  (s.onBlk fun b => b.leaveBars g.idx s.liveAll).settleTrigger

/-- GROUP_END: the last lane has exited and every operation the group issued has completed. -/
def execGroupEnd (s : State) : Res :=
  if s.focused && !s.onStream && !s.grp.ended && s.grp.live = 0 && s.grp.pend = [] && s.grp.trapReq.isNone then .next s.endGroup
  else s.noEvent

/-! ## BLOCK_RETIRE (R126, R214, R224) -/

/-- The job reads or writes scratchpads. -/
def Job.touchesScratch (j : Job) : Bool := j.kind = .multicast || (j.reads ++ j.writes).any fun r => r.1

/-- A job of the block that touches its scratchpad is still to be performed (R226). -/
def scratchBusy (d : Dev) (b : Nat) : Bool :=
  d.jobs.any fun j => j.block = b && j.touchesScratch && !j.performed && !j.dropped && !j.orphan

/-- Every group of the block has ended and its stream is stopped (R126). -/
def Block.done (b : Block) : Bool := b.groups.all (·.ended) && !b.seq.run

/-- The bind records whose blocks have all retired are free again (R214). -/
def freeBinds (d : Dev) : Dev :=
  { d with binds := d.binds.filter fun (e : Nat × Bind) => e.2.state = 0 || decide (e.2.retired < e.2.count) }

/-- The block retires: its child record, or its launch and bind record, or the package it came from count it. -/
def retireBlock (d : Dev) (b : Block) : Dev :=
  let d := match b.child with
    | some c => modFork d c.parent fun f => f.modChild c.idx fun x => { x with state := .ended }
    | none => match b.cameFrom with
      | some h => sendPacket d (mkPacket d h.1 b.shape.owner 0 (.blockEnd h.1 h.2 b.blin true))
      | none =>
        let d := onBind d b fun r => { r with retired := r.retired + 1 }
        freeBinds (modLaunch d b.launch fun l => { l with retired := l.retired + 1 })
  dropBlock d b.key (orphan := false)

/-- BLOCK_RETIRE: every group of block b has ended, RUN is 0, and its scratchpad is not in use by its jobs. -/
def execBlockRetire (b : Nat) (s : State) : Res :=
  let s := s.unfocus
  match findBlock s.dev b with
  | none => s.noEvent
  | some x =>
    if x.onCore && x.done && !scratchBusy s.dev b then .next (s.onDev fun d => retireBlock d x)
    else s.noEvent

/-! ## MATRIX_RESTORE_SLOTS (R148) -/

/-- MATRIX_RESTORE_SLOTS: a resumed context's claimed slots are restored once its home engine has that many free. -/
def execMatrixRestoreSlots (b : Nat) (s : State) : Res :=
  let s := s.unfocus
  match findBlock s.dev b with
  | none => s.noEvent
  | some x =>
    if x.onCore && x.seq.rstw && decide (slotsHeld s.dev x.core + x.seq.tiles.length ≤ 64) then
      .next (s.onDev fun d => modBlock d b fun y => { y with seq := { y.seq with rstw := false } })
    else s.noEvent

end Sys2Proof.Machine
end

