-- ==== Sys2Proof/Machine/Queues.lean ====
section
/-! DEFINITION. Launch queues (10 R201-R206), launch records (10 R209), acceptance and refusal (10 R207-R208, R217, R222, R227,
R389), dependences (10 R210), and the completion word (10 R208). -/

namespace Sys2Proof.Machine

open Sys2Proof

/-! ## What the part itself reads -/

/-- n bytes that the part itself reads at their home; of a poisoned sector the spec states no bytes (log 9). -/
def systemRead (d : Dev) (key pa n : Nat) : Dev × List Byte :=
  if poisoned d pa n then ({ d with fresh := d.fresh + n }, (List.range n).map fun i => Config.freeByte (d.fresh + i))
  else (d, homeBytes d key pa n)

/-- The key of the management owner of function fn (R389). -/
def fnKey (d : Dev) (fn : Nat) : Nat := keyOf d (((partOfFn d fn).map (·.ownBase)).getD 0)

/-- The n device bytes at pa lie within the memory of the function's partition (R394). -/
def inPartition (d : Dev) (fn pa n : Nat) : Bool := (partOfFn d fn).any fun p => within p.mems pa n && populated pa n

/-- An address that an entry of R204 may hold: 40 bits, aligned, in the host window or the partition's memory. -/
def entryAddrOk (d : Dev) (fn a n : Nat) : Bool := decide (a < 2 ^ 40) && a % n = 0 && (isHost a || inPartition d fn a n)

/-! ## QCFG (R201, R202) -/

/-- There is a queue of this number at this function. -/
def isQueue (fn q : Nat) : Bool := decide (fn < 16) && decide (q < 64)

/-- Launches of a queue that are counted there no longer once it is enabled anew (R202). -/
def detachQueue (d : Dev) (fn q : Nat) : Dev :=
  { d with launches := modIf d.launches (fun l => l.fn = fn && l.q = q) fun l => { l with detached := true } }

/-- EN := 1 in state 00: the size, then the base are checked (R201, R202). -/
def enableQueue (d : Dev) (fn q : Nat) : Dev :=
  let x := queueOf d fn q
  if x.log2n < 4 then modQueue d fn q fun x => { x with cause := 3 }
  else if 2 ^ 39 ≤ x.base.toNat || (!x.host && !inPartition d fn x.base.toNat (32 * 2 ^ x.log2n)) then
    modQueue d fn q fun x => { x with cause := 6 }
  else modQueue (detachQueue d fn q) fn q fun x =>
    { x with enabled := true, widx := 0, ridx := 0, state := 1, trigwm := 0, drain := false, trigd := [], skips := [] }

/-- EN := 0: state 00, and every accepted launch of which no block is known to have started is cancelled (R202, R208; log 25). -/
def disableQueue (d : Dev) (fn q : Nat) : Dev :=
  let d := modQueue d fn q fun x => { x with enabled := false, state := 0 }
  (d.launches.filter fun l => l.fn = fn && l.q = q && !l.detached && l.started = 0 && !l.begun &&
    (l.state = .waiting || l.state = .bound)).foldl (fun d l => endLaunch d l.key 6 0) d

/-- A write of QCFG (R202); in recovery mode a write of EN is ignored (R430). -/
def writeQcfg (d : Dev) (fn q : Nat) (w : DWord) : Dev :=
  let x := queueOf d fn q
  let d := if x.state = 0 then modQueue d fn q fun x =>
      { x with log2n := bits w.toNat 3 0, host := w.getLsbD 4, vec := bits w.toNat 15 5 }
    else d
  if d.recovery && w.getLsbD 16 then d
  else if w.getLsbD 16 && !x.enabled then enableQueue d fn q
  else if !w.getLsbD 16 && x.enabled then disableQueue d fn q
  else d

/-- QCFG_ENABLE: QCFG is written with EN = 1 (R202). -/
def execQcfgEnable (fn q : Nat) (w : DWord) (s : State) : Res :=
  if isQueue fn q && w.getLsbD 16 then .next (s.unfocus.onDev fun d => writeQcfg d fn q w) else s.noEvent

/-- QCFG_DISABLE: QCFG is written with EN = 0 (R202). -/
def execQcfgDisable (fn q : Nat) (w : DWord) (s : State) : Res :=
  if isQueue fn q && !w.getLsbD 16 then .next (s.unfocus.onDev fun d => writeQcfg d fn q w) else s.noEvent

/-! ## Kicks and restarts (R205, R206) -/

/-- A queue stops with a state, cause and stamp, and its vector is raised (R205). -/
def stopQueue (d : Dev) (fn q state cause seen : Nat) : Dev :=
  raiseVector (modQueue d fn q fun x => { x with state := state, cause := cause, seen := seen }) fn (queueOf d fn q).vec

/-- A kick in state 01 (R205). -/
def kickQueue (d : Dev) (fn q w : Nat) : Dev :=
  let x := queueOf d fn q
  if x.state ≠ 1 then d
  else if 2 ^ x.log2n < gap w x.ridx then stopQueue d fn q 2 2 x.seen
  else modQueue d fn q fun x => { x with widx := w }

/-- QKICK: the write index is set, or the queue stops on an overrun (R205). -/
def execQkick (fn q : Nat) (w : DWord) (s : State) : Res :=
  if isQueue fn q then .next (s.unfocus.onDev fun d => kickQueue d fn q (bits w.toNat 31 0)) else s.noEvent

/-- A restart in state 10 or 11 (R206). -/
def restartQueue (d : Dev) (fn q n : Nat) : Dev :=
  let x := queueOf d fn q
  if x.state < 2 then d
  else if 2 ^ 31 ≤ gap n x.ridx then raiseVector (modQueue d fn q fun x => { x with cause := 5 }) fn x.vec
  else modQueue d fn q fun x =>
    let skips := if n = x.ridx then x.skips else x.skips ++ [(x.ridx, gap n x.ridx)]
    ({ x with
      ridx := n, widx := if 2 ^ 31 ≤ gap x.widx n then n else x.widx, cause := 0, seen := 0, state := 1
      skips := skips } : Queue).settle

/-- QRESTART: a stopped queue resumes at an index not behind RIDX (R206). -/
def execQrestart (fn q : Nat) (w : DWord) (s : State) : Res :=
  if isQueue fn q then .next (s.unfocus.onDev fun d => tellShares (restartQueue d fn q (bits w.toNat 31 0))) else s.noEvent

/-! ## The launch record (R154, R156, R209) -/

/-- Level n of a record. -/
def recLevel (b : List Byte) (n : Nat) : Level :=
  ⟨recNat b (0x40 + 8 * n) 4, recNat b (0x44 + 8 * n) 1, bitOf (recNat b (0x46 + 8 * n) 1) 0⟩

/-- The scope code of a domain (R16). -/
def scopeCode (domain : Nat) : Nat :=
  match domain with
  | 0 => 2 | 1 | 2 => 3 | 3 => 4 | _ => 5

/-- Level n keeps its limits (R209). -/
def levelLegal (b : List Byte) (n : Nat) : Bool :=
  let x := recLevel b n
  decide (1 ≤ x.extent ∧ x.extent ≤ 65536) && decide (x.domain ≤ 4) && recNat b (0x45 + 8 * n) 1 = scopeCode x.domain &&
    decide (recNat b (0x46 + 8 * n) 1 ≤ 1) && recNat b (0x47 + 8 * n) 1 = 0

/-- Domains do not decrease outward (R154). -/
def risingDomains : List Level → Bool
  | x :: y :: t => decide (x.domain ≤ y.domain) && risingDomains (y :: t)
  | [_] | [] => true

/-- A launch record of 256 bytes. -/
def parseLaunch (b : List Byte) : LaunchRec :=
  let flags := recNat b 0x90 4
  { entry := dw (recNat b 0 8), handler := dw (recNat b 8 8), args := dw (recNat b 0x10 8)
    deps := (List.range (recNat b 0x86 1)).map fun i => dw (recNat b (0x18 + 8 * i) 8)
    twinq := recNat b 0x38 4, wdog := recNat b 0x3C 4, levels := (List.range (recNat b 0x80 1)).map (recLevel b)
    groups := recNat b 0x81 1, vregs := recNat b 0x82 1, sregs := recNat b 0x83 1, accs := recNat b 0x84 1
    prio := recNat b 0x85 1, pkeep := recNat b 0x87 1, scratch := recNat b 0x88 4, pscr := recNat b 0x8C 4
    strict := bitOf flags 0, notify := bitOf flags 1, owner := recNat b 0x94 2 }

/-- Every field keeps the limits of R154, R156, R209 and R324, and dependences are launch ids (R207). -/
def recordLegal (b : List Byte) : Bool :=
  let r := parseLaunch b
  let nlev := recNat b 0x80 1
  let ndeps := recNat b 0x86 1
  r.entry.toNat % 32 = 0 && r.handler.toNat % 32 = 0 && decide (ndeps ≤ 4) && zeroBytes b (0x18 + 8 * ndeps) 0x38 &&
    r.deps.all (fun x => decide (x.toNat < 2 ^ 38)) && decide (r.twinq ≤ 1572864) && decide (5 ≤ r.wdog ∧ r.wdog ≤ 1000) &&
    decide (1 ≤ nlev ∧ nlev ≤ 8) && (List.range nlev).all (levelLegal b) && zeroBytes b (0x40 + 8 * nlev) 0x80 &&
    risingDomains r.levels && decide (product r.extents ≤ 2 ^ 32) && decide (1 ≤ r.groups ∧ r.groups ≤ 32) &&
    decide (8 ≤ r.vregs ∧ r.vregs ≤ 128 ∧ r.vregs % 8 = 0) && decide (16 ≤ r.sregs ∧ r.sregs ≤ 64 ∧ r.sregs % 16 = 0) &&
    decide (r.accs ≤ 32 ∧ r.accs % 4 = 0) && decide (r.prio ≤ 7) && decide (r.pkeep % 8 = 0 ∧ r.pkeep ≤ r.vregs) &&
    decide (r.scratch ≤ 524288) && decide (r.pscr % 4096 = 0 ∧ r.pscr ≤ roundUp r.scratch 4096) &&
    decide (recNat b 0x90 4 < 4) && decide (r.owner ≤ 1023) && zeroBytes b 0x96 0x100

/-- Blocks of one instance of level n (R154). -/
def LaunchRec.instSize (r : LaunchRec) (n : Nat) : Nat := product (r.extents.take (n + 1))

/-- The shape of the block with index blin (R155, R156). -/
def LaunchRec.shape (r : LaunchRec) (blin : Nat) : Shape :=
  { entry := r.entry, handler := r.handler, args := r.args, groups := r.groups, vregs := r.vregs, sregs := r.sregs
    accs := r.accs, scrb := roundUp r.scratch 4096, pkeep := r.pkeep, pscr := r.pscr, strict := r.strict, owner := r.owner
    prio := r.prio, wdog := r.wdog, nlev := r.levels.length
    lidx := r.extents.zipIdx.map fun e => blin / product (r.extents.take e.2) % e.1
    lext := r.extents, quota := r.twinq }

/-! ## Co-resident units (R154, R222) -/

/-- Levels of the part of a launch that one package places: those inside the innermost pod level (R217). -/
def LaunchRec.localLevels (r : LaunchRec) : List Level := r.levels.take (r.podLevel.getD r.levels.length)

/-- The local levels that are resident together, outermost first: up to the widest co-resident level. -/
def LaunchRec.corLevels (r : LaunchRec) : Option (List Level) :=
  match ((r.levels.zipIdx.filter fun e => e.1.cor).getLast?).map (·.2) with
  | none => none
  | some c => some (r.localLevels.take (c + 1)).reverse

/-- Blocks of a co-resident unit on this package. -/
def LaunchRec.corSize (r : LaunchRec) : Option Nat := r.corLevels.map fun l => product (l.map (·.extent))

/-- The cores of each domain instance that a list of cores touches. -/
def instancesOf (domain : Nat) (cores : List Nat) : List (List Nat) :=
  ((cores.map (· / domainCores domain)).eraseDups).map fun i => cores.filter fun c => c / domainCores domain = i

/-- A core with the blocks already chosen for it still takes one more of a shape. -/
def roomMore (d : Dev) (x : Shape) (chosen : List (Nat × Nat)) (core : Nat) : Bool :=
  let mine := (chosen.filter fun e => e.2 = core).map fun _ => x
  fits (x :: mine ++ shapesOn d core) &&
    decide (sumOf (x :: mine ++ shapesOn d core) (·.accs) + Sparse.get 0 d.lent core ≤ 32)

/-- Cores for the blocks from `blin` on of an instance of the levels given, outermost first, beside those chosen already. -/
def assignInst (d : Dev) (x : Shape) : List Level → Nat → List Nat → List (Nat × Nat) → Option (List (Nat × Nat))
  | [], blin, cores, chosen => (cores.find? (roomMore d x chosen)).map fun c => chosen ++ [(blin, c)]
  | l :: t, blin, cores, chosen =>
    let size := product (t.map (·.extent))
    (instancesOf l.domain cores).findSome? fun g =>
      (List.range l.extent).foldl (fun o i => o.bind fun chosen => assignInst d x t (blin + i * size) g chosen) (some chosen)

/-- The cores of a set of clusters. -/
def coresOf (cl : BitVec 96) : List Nat := (List.range Config.cores).filter fun c => cl.getLsbD (c / 4)

/-- A co-resident unit could be placed on an empty partition (R222). -/
def corFits (d : Dev) (r : LaunchRec) : Bool :=
  match r.corLevels, partOf d r.owner with
  | some l, some p => (assignInst { d with blocks := [], lent := [] } (r.shape 0) l 0 (coresOf p.clusters) []).isSome
  | none, _ => true
  | _, none => false

/-! ## Acceptance (R205, R208, R389) -/

/-- The status that refuses a launch, if any: record, shape, co-residency, save pool (R208, R217, R222, R227, R389); of several
reasons the first in this order (log 35). -/
def refusal (d : Dev) (fn : Nat) (b : List Byte) : Option Nat :=
  let r := parseLaunch b
  match partOfFn d fn with
  | none => some 2
  | some p =>
    let own := decide (p.ownBase < r.owner ∧ r.owner < p.ownBase + p.ownCnt) && (Sparse.get {} d.owners r.owner).created
    let outer := match r.podLevel with
      | some n => product (r.extents.drop n)
      | none => 0
    if !recordLegal b || !own then some 2
    else if !fits [r.shape 0] || p.pod.length < outer then some 3
    else if !corFits d r then some 4
    else if p.saveLen < (r.shape 0).saveBytes * r.corSize.getD 1 then some 7
    else none

/-- The completion word: the time, then the status as a release at system scope, then the vector (R208). -/
def writeDone (d : Dev) (l : Launch) (status : Nat) (cause : BitVec 8) : Dev :=
  let d := writeBackIf d fun x => x.key = keyOf d l.lr.owner
  let key := fnKey d l.fn
  let d := systemStore d key (l.done + 8) (bytesOf d.time 8)
  let d := systemStore d key l.done (bytesOf (status + if status = 5 then 2 ^ 8 * cause.toNat else 0) 8)
  if l.lr.notify then raiseVector d l.fn (queueOf d l.fn l.q).vec else d

/-- The end of a launch is told: by its completion word, or to the package that accepted it (R208; log 25). -/
def tellEnd (d : Dev) (l : Launch) (status : Nat) (cause : BitVec 8) : Dev :=
  match l.away with
  | none => writeDone d l status cause
  | some h =>
    let d := writeBackIf d fun x => x.key = keyOf d l.lr.owner
    if l.stub then d else sendShare d l h.1 (.launchEnd h.1 h.2 status cause)

/-- A launch ends with its completion word, and triggers if it has not (R208, R210). -/
def closeLaunch (d : Dev) (l : Launch) (status : Nat) (cause : BitVec 8) : Dev :=
  let d := modLaunch (tellEnd d l status cause) l.key fun x => { x with state := .ended, status := status, cause := cause }
  triggerLaunch d l.key

/-- The other packages on which the pod level of a launch places child instances (R217). -/
def sharesOf (d : Dev) (r : LaunchRec) : List Share :=
  match r.podLevel, partOf d r.owner with
  | some p, some x => ((x.pod.take (product (r.extents.drop p))).filter (· ≠ d.pkg)).map fun k => { pkg := k }
  | _, _ => []

/-- A LAUNCH entry is accepted or refused (R205, R208, R209). -/
def acceptLaunch (d : Dev) (fn q idx record done : Nat) : Dev :=
  let x := systemRead d (fnKey d fn) record 256
  let d := x.1
  let lr := parseLaunch x.2
  let l : Launch := { key := d.nextLaunch, fn := fn, q := q, idx := idx, lr := lr, record := record, done := done }
  let st := refusal d fn x.2
  let d := { d with launches := d.launches ++ [l], nextLaunch := d.nextLaunch + 1 }
  match st with
  | some c => closeLaunch d l c 0
  | none => tellShares (modLaunch d l.key fun y => { y with shares := sharesOf d lr, image := x.2 })

/-- RIDX passes an entry. -/
def passEntry (d : Dev) (fn q : Nat) (f : Queue → Queue) : Dev :=
  modQueue d fn q fun x => (f { x with ridx := (x.ridx + 1) % 2 ^ 32 }).settle

/-- The entry at RIDX read, checked and accepted (R204, R205). -/
def readEntry (d : Dev) (fn q : Nat) : Dev :=
  let x := queueOf d fn q
  let at' := (if x.host then 2 ^ 39 else 0) + x.base.toNat + 32 * (x.ridx % 2 ^ x.log2n)
  let r := systemRead d (fnKey d fn) at' 32
  let d := r.1
  let b := r.2
  let record := recNat b 8 8
  let done := recNat b 16 8
  if recNat b 0 2 ≠ x.ridx % 2 ^ 16 then stopQueue d fn q 2 1 (recNat b 0 2)
  else match recNat b 2 1 with
    | 1 =>
      if entryAddrOk d fn record 256 && entryAddrOk d fn done 16 then
        acceptLaunch (passEntry d fn q id) fn q x.ridx record done
      else stopQueue d fn q 3 6 x.seen
    | 2 => tellShares (passEntry d fn q fun y => { y with drain := true, trigd := Sparse.put false y.trigd x.ridx true })
    | _ => stopQueue d fn q 3 4 x.seen

/-- QUEUE_ENTRY_READ: a running queue reads its next entry (R205). -/
def execQueueEntryRead (fn q : Nat) (s : State) : Res :=
  let s := s.unfocus
  let x := queueOf s.dev fn q
  if isQueue fn q && x.state = 1 && x.ridx != x.widx && !x.drain then .next (s.onDev fun d => readEntry d fn q)
  else s.noEvent

/-- QUEUE_DRAIN_RESUME: every earlier launch of the queue has completed (R204). -/
def execQueueDrainResume (fn q : Nat) (s : State) : Res :=
  let s := s.unfocus
  if isQueue fn q && (queueOf s.dev fn q).drain &&
      s.dev.launches.all (fun l => !(l.fn = fn && l.q = q && !l.detached) || l.state = .ended) then
    .next (s.onDev fun d => modQueue d fn q fun x => { x with drain := false })
  else s.noEvent

/-! ## LAUNCH_COMPLETE (R208, R223, R417) -/

/-- Jobs and transfers of a launch that have not ended. -/
def launchBusy (d : Dev) (l : Nat) : Bool :=
  d.jobs.any (fun j => j.launch = l) ||
    d.outstanding.any fun o => o.purpose = .transfer && (findBlock d o.block).any fun b => b.launch = l

/-- LAUNCH_COMPLETE: every block has retired, or the launch was ended; its jobs have ended; the completion word is written. -/
def execLaunchComplete (l : Nat) (s : State) : Res :=
  let s := s.unfocus
  let d := s.dev
  match findLaunch d l with
  | none => s.noEvent
  | some x =>
    if launchBusy d l || d.blocks.any (fun b => b.launch = l) || !x.shares.all (·.ended) || (x.stub && x.state != .ending) then
      s.noEvent
    else match x.state with
      | .ending => .next { s with dev := closeLaunch d x x.status x.cause }
      | .waiting | .bound =>
        if x.retired = blocksHere d x && depsMet d x then .next { s with dev := closeLaunch d x 1 0 }
        else s.noEvent
      | .ended => s.noEvent

end Sys2Proof.Machine
end

