-- ==== Sys2Proof/Machine/Binding.lean ====
section
/-! DEFINITION. Bind records and the slot table (10 R213-R217), claims, placement and donation (10 R218-R222), and aging of
priorities (10 R216). -/

namespace Sys2Proof.Machine

open Sys2Proof

/-! ## Where a block of a launch may stand (R154) -/

/-- The block is claimed and has not started. -/
def Block.claimed (b : Block) : Bool := b.child.isNone && (b.state = .unstarted || b.state = .inTransit)

/-- Block `blin` may stand on a core as far as the other blocks of its level instances go: those that have a place, and
those claimed, the blocks `moved` apart (R154). -/
def Launch.allows (d : Dev) (l : Launch) (moved : List Nat) (blin core : Nat) : Bool :=
  l.lr.levels.zipIdx.all fun e =>
    let inst := blin / l.lr.instSize e.2
    let place := core / domainCores e.1.domain
    decide (3 ≤ e.1.domain) ||
      (l.homes.all (fun h => h.1 != e.2 || h.2.1 != inst || h.2.2 == place) &&
        d.blocks.all fun b => !(b.launch = l.key && b.claimed && !moved.contains b.key && b.blin / l.lr.instSize e.2 = inst) ||
          4 * b.cluster / domainCores e.1.domain == place)

/-- The level instances of a block from level `lev` on stand where a core does. -/
def Launch.settleHome (l : Launch) (lev blin core : Nat) : Launch :=
  { l with homes := (l.lr.levels.zipIdx.filter fun e => decide (lev ≤ e.2) && decide (e.1.domain ≤ 2)).foldl (fun hs e =>
      let h := (e.2, blin / l.lr.instSize e.2, core / domainCores e.1.domain)
      if hs.contains h then hs else hs ++ [h]) l.homes }

/-! ## The slot table (R213-R216) -/

/-- Bind record e. -/
def bindAt (d : Dev) (e : Nat) : Bind := Sparse.get {} d.binds e

/-- The package with f applied to bind record e. -/
def modBind (d : Dev) (e : Nat) (f : Bind → Bind) : Dev := { d with binds := Sparse.upd {} d.binds e f }

/-- Blocks of the record not yet claimed. -/
def Bind.open (x : Bind) : Bool := (x.state = 1 || x.state = 2) && decide (x.next < x.first + x.count)

/-- The block belongs to bind record e. -/
def Block.ofBind (b : Block) (x : Bind) (e : Nat) : Bool := b.child.isNone && b.slotEntry = e && b.launch = x.launch

/-- The record holds a block ready to place, unstarted or resumable (R216). -/
def bindReady (d : Dev) (e : Nat) : Bool :=
  let x := bindAt d e
  x.state != 0 && (x.open || d.blocks.any fun b => b.ofBind x e && (b.claimed || b.state = .saved))

/-- A record that comes to hold a ready block starts to wait (R216). -/
def startWait (d : Dev) (e : Nat) : Dev := if bindReady d e then d else modBind d e fun x => { x with since := d.time }

/-- A record that places a block: its wait ends (R216). -/
def placedOne (d : Dev) (b : Block) : Dev :=
  if b.child.isSome then d else onBind d b fun x => { x with since := d.time, eprio := x.prio }

/-- Effective priority by the time waited (R216). -/
def aged (d : Dev) (x : Bind) : Nat := min 7 (x.prio + (d.time - x.since) / 10000000)

/-- The effective priority of bind record e as it stands (R216); the field EPRIO takes it at EPRIO_AGING. -/
def effPrio (d : Dev) (e : Nat) : Nat := if bindReady d e then aged d (bindAt d e) else (bindAt d e).prio

/-- Record e is served before record f: effective priority, acceptance, FIRST (R216). -/
def bindAhead (d : Dev) (e f : Nat) : Bool :=
  let x := bindAt d e
  let y := bindAt d f
  decide (effPrio d f < effPrio d e) || (effPrio d e == effPrio d f && (decide (x.order < y.order) ||
    (x.order == y.order && decide (x.first < y.first))))

/-- EPRIO_AGING: 10 ms of waiting raise the effective priority of bind record e (R216). -/
def execEprioAging (e : Nat) (s : State) : Res :=
  let s := s.unfocus
  let x := bindAt s.dev e
  if bindReady s.dev e && decide (x.eprio < aged s.dev x) then .next (s.onDev fun d => modBind d e fun x => { x with eprio := aged d x })
  else s.noEvent

/-! ## LAUNCH_BIND (R213, R214, R217) -/

/-- First BLIN of the launch's blocks on this package (R217). -/
def firstHere (d : Dev) (l : Launch) : Nat :=
  match l.lr.podLevel with
  | none => 0
  | some _ => ((partOf d l.lr.owner).bind fun p => p.pod.findIdx? (· = d.pkg)).getD 0 * l.lr.childSize

/-- The range is one instance of level `lev` that is placed on this package; under a pod level 0 it is one block (R214, R217). -/
def bindRange (d : Dev) (l : Launch) (lev first count : Nat) : Bool :=
  let size := if l.lr.podLevel = some 0 then 1 else l.lr.instSize lev
  (if l.lr.podLevel = some 0 then lev = 0 else decide (lev < l.lr.localLevels.length)) &&
    count = size && first % size = 0 && decide (firstHere d l ≤ first) && decide (first + count ≤ firstHere d l + blocksHere d l) &&
    count % l.lr.corSize.getD 1 = 0 && !touches l.bound first count

/-- The clusters are the partition's and lie in one instance of the level's domain, where the launch may stand (R214, R394). -/
def bindClusters (d : Dev) (l : Launch) (lev first : Nat) (clusters : BitVec 96) : Bool :=
  let cs := coresOf clusters
  let dom := (nth ⟨0, 0, false⟩ l.lr.levels lev).domain
  (partOf d l.lr.owner).any (fun p => clusters &&& ~~~ p.clusters == 0) && !cs.isEmpty &&
    cs.all fun c => (decide (3 ≤ dom) || sameDomain dom c (cs.headD 0)) && l.allows d [] first c

/-- The launch without a range that was bound for level `lev`: its level instances that no other range reaches have no place. -/
def Launch.unbind (l : Launch) (lev first count : Nat) : Launch :=
  let rest := dropFirst l.bound fun r => r = (first, count)
  { l with
    bound := rest
    homes := l.homes.filter fun h => !(decide (lev ≤ h.1) && h.2.1 == first / l.lr.instSize h.1 &&
      !(rest.any fun r => r.1 / l.lr.instSize h.1 == h.2.1)) }

/-- An entry in STATE 1, of which nothing is claimed, is given up for another (R215). -/
def unbindEntry (d : Dev) (e : Nat) : Dev :=
  let x := bindAt d e
  if x.state = 1 then { modLaunch d x.launch fun l => l.unbind x.level x.first x.count with binds := Sparse.erase d.binds e } else d

/-- LAUNCH_BIND: an instance of level `lev` of a launch whose dependences have triggered is bound in slot-table entry e, with the
address of the part's copy of its record; an entry in STATE 2 or 3 ignores the write (R213-R215). -/
def execLaunchBind (l e lev record : Nat) (blins : BlinRange) (clusters : BitVec 96) (s : State) : Res :=
  let s := s.unfocus
  let first := blins.first
  let count := blins.count
  if 256 ≤ e then s.noEvent
  else if 2 ≤ (bindAt s.dev e).state then .next s
  else
    let d := unbindEntry s.dev e
    match findLaunch d l with
    | none => s.noEvent
    | some x =>
      if (x.state = .waiting || x.state = .bound) && !x.stub && depsMet d x && bindRange d x lev first count &&
          bindClusters d x lev first clusters then
        let r : Bind :=
          { launch := l, fn := x.fn, record := record, first := first, count := count, clusters := clusters, prio := x.lr.prio
            eprio := x.lr.prio, level := lev, cor := x.lr.corLevels.isSome, state := 1, next := first, since := d.time, order := l }
        let d := modLaunch d l fun x => ({ x with state := .bound, bound := x.bound ++ [(first, count)] } : Launch).settleHome lev
          first ((coresOf clusters).headD 0)
        .next { s with dev := modBind d e fun _ => r }
      else s.noEvent

/-! ## CLUSTER_CLAIM (R218, R222, R227) -/

/-- A claimed block with its control record and save area (R218, R219). -/
def claimBlock (d : Dev) (l : Launch) (e cl blin save : Nat) : Block :=
  let sh := l.lr.shape blin
  { key := d.nextBlock, launch := l.key, fn := l.fn, launchId := dw l.id, blin := blin, state := .unstarted
    cor := l.lr.corLevels.isSome, slotEntry := e, cluster := cl, loc := d.pkg, saveAddr := save, saveLen := sh.saveBytes, stime := d.time
    record := (bindAt d e).record, shape := sh }

/-- The block at NEXT of a record claimed by a cluster, or none where no save area is free or the block may not stand there. -/
def claimOne (d : Dev) (l : Launch) (e cl : Nat) : Option (Dev × Block) :=
  let x := bindAt d e
  if l.allows d [] x.next (4 * cl) then
    (takeSave d l.lr.owner (l.lr.shape x.next).saveBytes).map fun r =>
      let b := claimBlock r.1 l e cl x.next r.2
      (modBind { r.1 with blocks := putBlock r.1.blocks b, nextBlock := r.1.nextBlock + 1 } e fun x =>
        { x with next := x.next + 1, state := if x.next + 1 < x.first + x.count then 2 else 3 }, b)
  else none

/-- n blocks claimed in order. -/
def claimMany (l : Launch) (e cl : Nat) : Nat → Dev → Option Dev
  | 0, d => some d
  | n + 1, d => (claimOne d l e cl).bind fun r => claimMany l e cl n r.1

/-- n more blocks of a launch have started; the first of a part of another package's launch is reported there (R208; log 25). -/
def countStarted (d : Dev) (l n : Nat) : Dev :=
  let d := match findLaunch d l with
    | none => d
    | some x => match x.away with
      | some h => if x.started = 0 then sendShare d x h.1 (.launchBegun h.1 h.2) else d
      | none => d
  modLaunch d l fun l => { l with started := l.started + n }

/-- A block of a launch stands on a core for the first time (R218, R224). -/
def placeFirst (d : Dev) (b : Block) (core : Nat) : Dev :=
  modLaunch (placedOne (startBlock d b core) b) b.launch fun l => l.settleHome 0 b.blin core

/-- A block of a launch starts on a core for the first time (R218, R224). -/
def startFirst (d : Dev) (b : Block) (core : Nat) : Dev := countStarted (placeFirst d b core) b.launch 1

/-- Cores for the next co-resident unit of a record, where every block may stand (R154, R222). -/
def unitPlaces (d : Dev) (l : Launch) (e : Nat) (levels : List Level) : Option (List (Nat × Nat)) :=
  let x := bindAt d e
  (assignInst d (l.lr.shape x.next) levels x.next (coresOf x.clusters) []).filter fun ps =>
    ps.all fun p => l.allows d [] p.1 p.2

/-! ### An instance that spans packages (R222; log 25) -/

/-- Packages of one co-resident instance of the launch, when it spans packages (R217, R222). -/
def LaunchRec.corSpan (r : LaunchRec) : Option Nat :=
  match r.podLevel, ((r.levels.zipIdx.filter fun e => e.1.cor).getLast?).map (·.2) with
  | some p, some c => if p ≤ c then some (product ((r.extents.take (c + 1)).drop p)) else none
  | _, _ => none

/-- The unit of a launch that waits here with its cores starts. -/
def startReserved (d : Dev) (l : Nat) : Dev :=
  let mine := d.blocks.filter fun b => b.launch = l && b.reserved
  let d := { d with blocks := modIf d.blocks (fun b => b.launch = l && b.reserved) fun b =>
    { b with reserved := false, stopped := false, placedAt := d.time, stime := d.time } }
  countStarted (modLaunch d l fun x => { x with ready := false }) l mine.length

/-- Whether the part of a launch on a package has its cores. -/
def Launch.readyAt (l : Launch) (d : Dev) (pkg : Nat) : Bool :=
  if pkg = d.pkg then l.ready else l.shares.any fun x => x.pkg = pkg && x.ready

/-- The packages of the instance to which a package's part belongs, by their places in the pod member table. -/
def instancePkgs (d : Dev) (l : Launch) (pkg : Nat) : List Nat :=
  match l.lr.corSpan, partOf d l.lr.owner with
  | some n, some p => match p.pod.findIdx? (· = pkg) with
    | some j => (p.pod.drop (j / n * n)).take n
    | none => []
  | _, _ => []

/-- A part of a launch accepted here has its cores: with every other part of its instance, the instance starts (R222). -/
def tryInstance (d : Dev) (l pkg : Nat) : Dev :=
  match findLaunch d l with
  | none => d
  | some x =>
    let ps := instancePkgs d x pkg
    if ps.isEmpty || !ps.all (x.readyAt d) then d
    else
      let d := modLaunch d l fun x => { x with shares := x.shares.map fun y => { y with ready := y.ready && !ps.contains y.pkg } }
      let d := (ps.filter (· ≠ d.pkg)).foldl (fun d k => sendShare d x k (.launchGo d.pkg l)) d
      if ps.contains d.pkg then startReserved d l else d

/-- The unit of a launch here has its cores: the package that accepted the launch is told. -/
def unitReady (d : Dev) (l : Launch) : Dev :=
  let d := modLaunch d l.key fun x => { x with ready := true }
  match l.away with
  | some h => sendShare d l h.1 (.launchReady h.1 h.2)
  | none => tryInstance d l.key d.pkg

/-- A co-resident unit claimed and placed whole; one of an instance that spans packages then waits for the others (R222). -/
def claimUnit (d : Dev) (l : Launch) (e : Nat) (levels : List Level) : Option Dev :=
  let spans := l.lr.corSpan.isSome
  (unitPlaces d l e levels).bind fun places =>
    let placed := places.foldl (fun o p => o.bind fun d => (claimOne d l e (p.2 / 4)).map fun r =>
      if spans then modBlock (placeFirst r.1 r.2 p.2) r.2.key fun b => { b with reserved := true, stopped := true }
      else startFirst r.1 r.2 p.2) (some d)
    if spans then placed.map fun d => unitReady d l else placed

/-- Another record that the cluster serves first has a block to claim (R216). -/
def claimsAhead (d : Dev) (cl e : Nat) : Bool :=
  d.binds.any fun y => y.1 != e && y.2.open && y.2.clusters.getLsbD cl && bindAhead d y.1 e &&
    (findLaunch d y.2.launch).any fun l => match l.lr.corLevels with
      | some levels => (unitPlaces d l y.1 levels).isSome
      | none => (claimOne d l y.1 cl).isSome

/-- What a cluster claims from a record: n blocks, at most 8, or a whole co-resident unit of n blocks (R218, R222). -/
def claimFrom (d : Dev) (l : Launch) (e cl n : Nat) : Option Dev :=
  let x := bindAt d e
  match l.lr.corLevels with
  | some levels => if n = l.lr.corSize.getD 1 then claimUnit d l e levels else none
  | none => if 1 ≤ n ∧ n ≤ 8 ∧ x.next + n ≤ x.first + x.count then claimMany l e cl n d else none

/-- CLUSTER_CLAIM: cluster cl claims n blocks of bind record e, at most 8, or a whole co-resident unit. -/
def execClusterClaim (cl e n : Nat) (s : State) : Res :=
  let s := s.unfocus
  let d := s.dev
  let x := bindAt d e
  if x.open && x.clusters.getLsbD cl && !claimsAhead d cl e then
    match (findLaunch d x.launch).bind fun l => (claimFrom d l e cl n).map fun d => (l, d) with
    | some (l, d) => .next { s with dev := modLaunch d l.key fun y => { y with poolSince := none } }
    | none => s.noEvent
  else s.noEvent

/-! ## BLOCK_PLACE (R216, R218, R309) -/

/-- The cores on which a saved block may resume: within its bound domain instance, or its fork's (R229, R309). -/
def resumeCore (d : Dev) (b : Block) (core : Nat) : Bool :=
  ownCluster d b.shape.owner core && match b.child with
    | some c => (forkOf d c.parent).any fun f => decide (3 ≤ f.fr.domain) || sameDomain f.fr.domain core b.core
    | none => (findLaunch d b.launch).any fun l => l.allows d [b.key] b.blin core

/-- The other blocks of a block's co-resident unit. -/
def unitPeers (d : Dev) (b : Block) : List Block :=
  let size := ((findLaunch d b.launch).bind fun l => l.lr.corSize).getD 1
  d.blocks.filter fun y => y.key != b.key && y.cor && y.child.isNone && y.launch = b.launch && y.blin / size = b.blin / size

/-- Cores for the saved blocks of a block's co-resident unit, which resumes whole (R229): the block on the core given, each other
on the first core that takes it. -/
def unitCores (d : Dev) (b : Block) (core : Nat) : Option (List (Nat × Nat)) :=
  if (unitPeers d b).any (fun y => y.state = .preempting || y.state = .evicted) || !resumeCore d b core || !roomFor d core b.shape then none
  else ((unitPeers d b).filter (·.state = .saved)).foldl (fun o y => o.bind fun l =>
    ((List.range Config.cores).find? fun c => resumeCore d y c && roomMore d y.shape l c).map fun c => l ++ [(y.key, c)])
    (some [(b.key, core)])

/-- Block b stands ready for a core that has room for it (R216, R218). -/
def readyOn (d : Dev) (core : Nat) (b : Block) : Bool :=
  roomFor d core b.shape && match b.state with
    | .unstarted => b.cluster = core / 4 && (findLaunch d b.launch).any fun l => l.allows d [b.key] b.blin core
    | .saved => b.loc = d.pkg && if b.cor then (unitCores d b core).isSome else resumeCore d b core
    | _ => false

/-- Block x is served before block y: by their records, then resumable blocks first, then BLIN (R216, R218). -/
def blockAhead (d : Dev) (x y : Block) : Bool :=
  if x.slotEntry = y.slotEntry then
    (x.state = .saved && y.state != .saved) || (x.state = y.state && decide (x.blin < y.blin))
  else bindAhead d x.slotEntry y.slotEntry

/-- A child of a fork could start on the core: it goes first (R309). -/
def childFirst (d : Dev) (core : Nat) : Bool :=
  d.forks.any fun f => !orphansRun d f && (parentOf d f).any fun p => f.children.any fun c =>
    (f.mayStart c || f.mayRerun c) && (f.home.isSome || f.pkgOf d c.idx = d.pkg) && (placeChild d p f c (f.mayRerun c) core).isSome

/-- Nothing goes before block b on the core. -/
def nextOn (d : Dev) (core : Nat) (b : Block) : Bool :=
  readyOn d core b && !childFirst d core && (b.child.isSome || !d.blocks.any fun y =>
    y.key != b.key && y.child.isNone && readyOn d core y && blockAhead d y b)

/-- BLOCK_PLACE: a claimed block starts on a core of its cluster (R218). -/
def execBlockPlace (b core : Nat) (s : State) : Res :=
  let s := s.unfocus
  match findBlock s.dev b with
  | none => s.noEvent
  | some x =>
    if x.state = .unstarted && nextOn s.dev core x then .next (s.onDev fun d => startFirst d x core) else s.noEvent

/-! ## Donation (R220) -/

/-- A cluster has nothing to place: no claimed block and none to claim. -/
def idleCluster (d : Dev) (cl : Nat) : Bool :=
  !(d.blocks.any fun b => b.state = .unstarted && b.cluster = cl) && !(d.binds.any fun y => y.2.open && y.2.clusters.getLsbD cl)

/-- The claimed unstarted blocks of a cluster, of records that it shares with another, highest BLIN first; none of a co-resident
instance (R220). -/
def donable (d : Dev) (victim thief : Nat) : List Block :=
  sortBy (fun a b => decide (b.blin ≤ a.blin)) (d.blocks.filter fun b =>
    b.state = .unstarted && b.cluster = victim && b.child.isNone && !b.cor && (bindAt d b.slotEntry).clusters.getLsbD thief)

/-- Blocks shipped from one cluster to another (R220). -/
def shipBlocks (d : Dev) (keys : List Nat) (thief victim : Nat) : Dev :=
  { d with blocks := modIf d.blocks (fun b => keys.contains b.key) fun b =>
    { b with state := .inTransit, cluster := thief, donor := victim, stime := d.time } }

/-- WORK_DONATION: half of a busy cluster's unstarted blocks, rounded up, go to an idle one that shares record e with it (R220). -/
def execWorkDonation (thief victim e : Nat) (s : State) : Res :=
  let s := s.unfocus
  let d := s.dev
  let x := bindAt d e
  let bs := donable d victim thief
  let go := (bs.take ((bs.length + 1) / 2)).map (·.key)
  let ok := (bs.take ((bs.length + 1) / 2)).all fun b => (findLaunch d b.launch).any fun l => l.allows d go b.blin (4 * thief)
  if thief != victim && x.state != 0 && !x.cor && x.clusters.getLsbD thief && x.clusters.getLsbD victim && !bs.isEmpty &&
      idleCluster d thief && ok then
    .next (s.onDev fun d => shipBlocks d go thief victim)
  else s.noEvent

/-- DONATED_BLOCK_ARRIVAL: a block in transit arrives, or returns to the victim (R220). -/
def execDonatedBlockArrival (b : Nat) (ok : Bool) (s : State) : Res :=
  let s := s.unfocus
  match findBlock s.dev b with
  | none => s.noEvent
  | some x =>
    if x.state = .inTransit then
      .next (s.onDev fun d => modBlock d b fun y =>
        { y with state := .unstarted, cluster := if ok then y.cluster else y.donor, stime := d.time })
    else s.noEvent

end Sys2Proof.Machine
end

