-- ==== Sys2Proof/Machine/Preempt.lean ====
section
/-! DEFINITION. Parking (10 R221), pre-emption, saves and resumptions (10 R224-R229, 07 R148), parking eviction and the save pool
(10 R223), and migration (11 R234). -/

namespace Sys2Proof.Machine

open Sys2Proof

/-! ## Parked waits (R173, R221) -/

/-- No report held for raising releases a wait (R271, R340). -/
def Group.quietFor (g : Group) (p : Report → Bool) : Bool := g.ctx.inh || !g.reports.any p

/-- A wait that parks still stands: nothing has released it (R173, R221). -/
def waitStands (d : Dev) (b : Block) (g : Group) (k : Bool) (w : Wait) : Bool :=
  match w with
  | .held x => (g.holdOf x).any fun h => h.held && !h.complete && h.conf = 0
  | .bar n => g.awaitsBar (b.bar n) n && !(b.bar n).broken && g.quietFor (jobReport n)
  | .mbar n => Sparse.get 0 g.mbarPhase n == (b.mbar n).phase.toNat + 1 && g.quietFor fun r => r.bit = 0
  | .join => (forkOf d b.key).isSome
  | .counter c => !(b.counter c).released
  | .coll cid epoch seq => (collStatus d cid epoch seq).isNone
  | .form cid => d.formDone.any fun f => f.block = b.key && f.gidx = g.idx && f.pslot = b2n k && f.cid = cid && f.status.isNone
  | .none | .flags | .flagFull | .register | .barArrive _ | .broken | .mbarArrive _ | .fault _ | .scoreboard | .jobs | .ops | .delivery
  | .accept | .remote _ | .denied _ | .trap => false

/-- Every live slot of the group stands in a parked wait (R221). -/
def Group.parked (g : Group) (d : Dev) (b : Block) : Bool :=
  let ok := fun (k : Bool) => (g.slot k).act = 0 || waitStands d b g k (g.slot k).wait
  !(g.slot0.act = 0 && g.slot1.act = 0) && g.trapReq.isNone && !g.yielded && ok false && ok true

/-- The stream is stopped, or waits at a barrier whose phase has not completed (R221). -/
def Block.streamParked (b : Block) : Bool :=
  !b.seq.run || match b.seq.wait with
    | .bar n => Sparse.get 0 b.seq.barPhase n == (b.mbar n).phase.toNat + 1
    | .none | .barArrive _ | .fault _ => false

/-- A job targets the block's scratchpad (R221). -/
def targeted (d : Dev) (b : Nat) : Bool :=
  d.jobs.any fun j => !j.performed && !j.dropped && ((j.block = b && j.kind != .multicast && !j.orphan && j.writes.any fun r => r.1) ||
    (j.kind = .multicast && d.channels.any fun c => c.id = j.chan && c.members.contains b))

/-- The block is parked (R221). -/
def parked (d : Dev) (b : Block) : Bool :=
  b.groups.any (fun g => !g.ended) && b.groups.all (fun g => g.ended || g.parked d b) && b.streamParked && !targeted d b.key

/-- A wait that something outside the block's groups can post (R223). -/
def postable (d : Dev) (b : Block) : Bool :=
  b.groups.any fun g => !g.ended && [false, true].any fun k => (g.slot k).act != 0 && waitStands d b g k (g.slot k).wait &&
    match (g.slot k).wait with
    | .mbar _ => false
    | _ => true

/-! ## Pre-emption requests (R213, R225) -/

/-- The effective priority that a block runs with (R216). -/
def ownPrio (d : Dev) (b : Block) : Nat :=
  let x := bindAt d b.slotEntry
  if b.child.isNone && x.state != 0 && x.launch = b.launch then effPrio d b.slotEntry else b.shape.prio

/-- A record whose effective priority p accepts holds a block ready for the cluster of the block. -/
def waitsFor (d : Dev) (b : Block) (p : Nat → Bool) : Bool :=
  d.binds.any fun e => bindReady d e.1 && p (effPrio d e.1) && e.2.clusters.getLsbD (b.core / 4)

/-- The time slice of the block has passed and another waits for its cores (R213). -/
def sliceOver (d : Dev) (b : Block) : Bool :=
  decide (b.placedAt + d.timeSlice < d.time) && waitsFor d b fun p => decide (ownPrio d b ≤ p)

/-- A group told to take PREEMPT; inside a handler it waits for `rft` (R225, R411). -/
def Group.request (g : Group) (reason deadline : Nat) : Group :=
  if g.ended || g.live = 0 then g
  else { g with preempt := some (reason, deadline), ctx := if g.ctx.inh then { g.ctx with preq := true } else g.ctx }

/-- A pre-emption request for a block; in PREEMPTING, SAVED or EVICTED it has no further effect (R224-R226). -/
def preemptBlock (d : Dev) (b : Block) (reason : Nat) : Dev :=
  if (b.state = .resident || b.state = .parked) && !b.reserved then
    let dl := d.time + 1000 * b.shape.wdog
    modBlock d b.key fun b =>
      { b with
        state := .preempting, stime := d.time, preempt := some (reason, dl), stopped := b.shape.handler = 0
        handlerPending := b.shape.handler != 0
        groups := if b.shape.handler = 0 then b.groups else b.groups.map fun g => g.request reason dl }
  else d

/-- The block has started and not retired. -/
def Block.begun (b : Block) : Bool := b.onCore || b.state = .saved || b.state = .evicted || b.state = .moving

/-- The firmware may ask for this reason (R213). -/
def reasonOk (d : Dev) (b : Block) (reason : Nat) : Bool :=
  match reason with
  | 1 => waitsFor d b fun p => decide (ownPrio d b < p)
  | 2 => sliceOver d b
  | 3 | 4 | 5 => true
  | _ => false

/-- PREEMPT_REQUEST: the block is to be pre-empted for a reason (R225). -/
def execPreemptRequest (b : Nat) (reason : Fin 8) (s : State) : Res :=
  let s := s.unfocus
  match findBlock s.dev b with
  | none => s.noEvent
  | some x =>
    if x.begun && reasonOk s.dev x reason.val then .next (s.onDev fun d => preemptBlock d x reason.val)
    else s.noEvent

/-- TIME_SLICE_EXPIRY: a block resident beyond the time slice is pre-empted (R213). -/
def execTimeSliceExpiry (b : Nat) (s : State) : Res :=
  let s := s.unfocus
  match findBlock s.dev b with
  | none => s.noEvent
  | some x =>
    if x.onCore && sliceOver s.dev x then .next (s.onDev fun d => preemptBlock d x 2) else s.noEvent

/-- Every group of the block has yielded or ended (R226). -/
def Block.allYielded (b : Block) : Bool := b.groups.all fun g => g.ended || g.yielded

/-- WATCHDOG_EXPIRY: every group still running stops, and the block is to be saved whole (R226). -/
def execWatchdogExpiry (b : Nat) (s : State) : Res :=
  let s := s.unfocus
  match findBlock s.dev b with
  | none => s.noEvent
  | some x =>
    if x.state = .preempting && !x.stopped && !x.allYielded && x.preempt.any fun p => decide (p.2 ≤ s.dev.time) then
      .next (s.onDev fun d => modBlock d b fun y => { y with stopped := true })
    else s.noEvent

/-! ## Saves (R226-R228, R148, R234, R245) -/

/-- A wait in a save area: a record asked of another package is asked again. -/
def Wait.saved : Wait → Wait
  | .remote _ | .denied _ => .none
  | w => w

/-- A group's context in a save area: a clause in execution is fetched again, and a request is served (R226, R228). -/
def Group.saved (g : Group) : Group :=
  let slot := fun (x : Slot) => { x with clause := none, denied := 0, urgent := false, read := [], wait := x.wait.saved }
  { g with
    slot0 := slot g.slot0, slot1 := slot g.slot1, yielded := false
    preempt := if g.ctx.inh then g.preempt else none }

/-- What a handler-path save keeps of a group: v0 to v(PKEEP - 1) and every register with a hold entry (R226, R245). -/
def Group.keep (g : Group) (pkeep : Nat) : Group :=
  let ok := fun (key : Nat) => decide (key / 32 < pkeep) || (g.holdOf (key / 32)).isSome
  { g with v := g.v.filter fun e => ok e.1, tags := g.tags.filter fun e => ok e.1 }

/-- The sequencer in a save area: a neighbour's grant ends, and the reservation will be restored at home (R148). -/
def Seq.saved (q : Seq) : Seq := { q with words := none, rstw := false, res := if q.res = .none then .none else .home }

/-- The block as its save area holds it (R226-R228). -/
def Block.saved (b : Block) (now : Nat) (evict : Bool) : Block :=
  let whole := b.stopped || evict
  { b with
    state := if evict then .evicted else .saved
    waitEvt := evict, stime := now, preempt := none, stopped := false, handlerPending := false, partialSave := !whole
    seq := b.seq.saved
    groups := b.groups.map fun g => (if whole then g else g.keep b.shape.pkeep).saved
    scratch := if whole then b.scratch else b.scratch.filter fun e => decide (e.1 < b.shape.pscr)
    scratchBad := if whole then b.scratchBad else b.scratchBad.filter fun e => decide (4 * e.1 < b.shape.pscr) }

/-- The block leaves its core: its stores reach their homes, objects and neighbour tiles are given back, its names are SAVED. -/
def saveBlock (d : Dev) (b : Block) (evict : Bool) : Dev :=
  let d := if b.child.isSome then d else startWait d b.slotEntry
  let d := releaseObjs (releaseAt d b.cluster .sys) b.key
  let d := onNames (returnLent d b) b 2 b.core b.saveAddr
  let d := if b.child.isSome then d else onBind d b fun x => { x with saved := x.saved + 1 }
  let x := b.saved d.time evict
  clearArea (modBlock d b.key fun _ => x) x

/-- A transfer packet for a group of the block waits to be applied (R356). -/
def inbound (d : Dev) (b : Block) : Bool :=
  d.inbox.any fun p => match p.body with
    | .xdata _ n _ _ _ _ => b.groups.any fun g => g.pname = n
    | _ => false

/-- Nothing of the block is in flight that a save waits for (R29, R226, R356). -/
def saveReady (d : Dev) (b : Block) : Bool :=
  b.groups.all (fun g => g.pend = [] && g.trapReq.isNone) && !scratchBusy d b.key && !inbound d b

/-- BLOCK_SAVE: every group has yielded or exited, or the block is saved whole (R226). -/
def execBlockSave (b : Nat) (s : State) : Res :=
  let s := s.unfocus
  match findBlock s.dev b with
  | none => s.noEvent
  | some x =>
    if x.state = .preempting && !x.done && (x.stopped || x.allYielded) && saveReady s.dev x then
      .next (s.onDev fun d => saveBlock d x false)
    else s.noEvent

/-! ## Resumption (R229, R148, R420) -/

/-- The block on its new core (R229): age stamps afresh, the reservation at home, the tile slots to be restored. -/
def Block.resumed (b : Block) (d : Dev) (core : Nat) : Block :=
  { b with
    state := .resident, core := core, cluster := core / 4, nres := b.nres + 1, stime := d.time, placedAt := d.time
    waitEvt := false, groups := b.groups.map fun g => { g with age := d.ages + g.idx }
    seq := { b.seq with rstw := !b.seq.tiles.isEmpty } }

/-- A saved block goes on on a core; a poisoned save area ends its unit (R229, R420). -/
def resumeBlock (d : Dev) (b : Block) (core : Nat) : Dev :=
  if saveBad d b then
    endUnit d b { cause := cPOISON_CONSUMED, time := dw d.time } ⟨(b.groups.head?.map (·.idx)).getD 0, 0, core, false⟩
  else
    let d := startOnCore (leaveArea d b) core b.launch
    let x := b.resumed d core
    let d := { d with ranges := modIf d.ranges (fun r => r.block = b.key) fun r => { r with core := core } }
    let d := { d with blocks := putBlock (d.blocks.filter fun y => y.key ≠ b.key) x, ages := d.ages + b.shape.groups }
    let d := onNames d x 1 core 0
    if b.child.isSome then d else onBind (placedOne d x) x fun r => { r with saved := r.saved - 1 }

/-- A release of one of an evicted block's waits has been posted (R223). -/
def posted (d : Dev) (b : Block) : Bool := b.state = .evicted && !b.groups.all fun g => g.ended || g.parked d b

/-- Evicted blocks for which a release has been posted are resumable: their records start to wait (R216, R223, R224). -/
def postReleases (d : Dev) : Dev :=
  let bs := d.blocks.filter (posted d)
  let d := bs.foldl (fun d b => if b.child.isSome then d else startWait d b.slotEntry) d
  let keys := bs.map (·.key)
  { d with blocks := modIf d.blocks (fun b => keys.contains b.key) fun b => { b with state := .saved, stime := d.time } }

/-- A co-resident unit resumes whole (R229). -/
def resumeUnit (d : Dev) (b : Block) (core : Nat) : Option Dev :=
  (unitCores d b core).map fun l => l.foldl (fun d e => match findBlock d e.1 with
    | some y => resumeBlock d y e.2
    | none => d) d

/-- BLOCK_RESUME: a saved block is restored on a core within its domain instance (R229). -/
def execBlockResume (b core : Nat) (s : State) : Res :=
  let s := s.unfocus
  let d := postReleases s.dev
  match findBlock d b with
  | none => s.noEvent
  | some x =>
    if x.state ≠ .saved || !nextOn d core x then s.noEvent
    else if x.cor then match resumeUnit d x core with
      | some d => .next { s with dev := d }
      | none => s.noEvent
    else .next { s with dev := resumeBlock d x core }

/-! ## Parking eviction (R223) -/

/-- Some core allowed to the launch can take an unstarted block of it, or some cores a whole co-resident unit (R222, R223). -/
def canStart (d : Dev) (l : Launch) : Bool :=
  (d.blocks.any fun b => b.launch = l.key && b.claimed && (List.range 4).any fun i =>
    roomFor d (4 * b.cluster + i) b.shape && l.allows d [b.key] b.blin (4 * b.cluster)) ||
  d.binds.any fun e => e.2.open && e.2.launch = l.key && match l.lr.corLevels with
    | some levels => (unitPlaces d l e.1 levels).isSome
    | none => (coresOf e.2.clusters).any fun c => roomFor d c (l.lr.shape e.2.next) && l.allows d [] e.2.next c

/-- The blocks that go when block b is evicted: itself, or its whole co-resident unit (R223). -/
def evictees (d : Dev) (b : Block) : List Block := if b.cor then b :: (unitPeers d b).filter (·.onCore) else [b]

/-- Eviction of block b lets an unstarted block of its launch fit, and a post can release it (R223). -/
def evictable (d : Dev) (l : Launch) (b : Block) : Bool :=
  let keys := (evictees d b).map (·.key)
  b.onCore && b.state != .preempting && postable d b && (evictees d b).all (saveReady d) &&
    canStart { d with blocks := modIf d.blocks (fun y => keys.contains y.key) fun y => { y with state := .evicted } } l

/-- Every resident block of the launch is parked, it has unstarted blocks, and no core takes one (R223). -/
def evictsFor (d : Dev) (l : Launch) : Bool :=
  (d.blocks.filter fun b => b.launch = l.key && b.onCore).all (fun b => b.state != .preempting && parked d b) &&
    decide (l.started < blocksHere d l) && !canStart d l

/-- PARKING_EVICTION: the parked block of highest BLIN that makes room is saved whole (R223). -/
def execParkingEviction (b : Nat) (s : State) : Res :=
  let s := s.unfocus
  let d := s.dev
  match (findBlock d b).bind fun x => (findLaunch d x.launch).map fun l => (x, l) with
  | none => s.noEvent
  | some (x, l) =>
    if x.child.isNone && evictsFor d l && evictable d l x &&
        !(d.blocks.any fun y => y.launch = l.key && y.child.isNone && decide (x.blin < y.blin) && evictable d l y) then
      .next { s with dev := (evictees d x).foldl (fun d y => saveBlock d y true) d }
    else s.noEvent

/-! ## SAVEPOOL_TIMEOUT (R223) -/

/-- No save area can be allocated for an unstarted block of the launch, and every resident block of its partition is parked. -/
def poolStuck (d : Dev) (l : Launch) : Bool :=
  (d.binds.any fun e => e.2.open && e.2.launch = l.key &&
    (takeSave d l.lr.owner (l.lr.shape e.2.next).saveBytes).isNone) &&
  (d.blocks.filter fun b => b.fn = l.fn && b.onCore).all (parked d)

/-- Since when each launch has found no save area (R223). -/
def notePools (d : Dev) : Dev :=
  { d with launches := d.launches.map fun l =>
      { l with poolSince := if poolStuck d l then some (l.poolSince.getD d.time) else none } }

/-- SAVEPOOL_TIMEOUT: after 1 ms without a save area the launch ends SAVEPOOL_EXHAUSTED (R223). -/
def execSavepoolTimeout (l : Nat) (s : State) : Res :=
  let s := s.unfocus
  match findLaunch s.dev l with
  | none => s.noEvent
  | some x =>
    if poolStuck s.dev x && x.poolSince.any fun t => decide (t + 1000000 ≤ s.dev.time) then .next (s.onDev fun d => endLaunch d l 8 0)
    else s.noEvent

/-! ## Migration (R154, R213, R234) -/

/-- Transfer claims stand on names of the block (R356). -/
def claimsStand (d : Dev) (b : Block) : Bool :=
  b.groups.any fun g => g.pname != 0 && nameHome g.pname = d.pkg && !(Sparse.get {} d.names (nameIndex g.pname)).claims.isEmpty

/-- The block may move to another package: it shares no level instance that one package holds (R154), and no claim stands on a
name of it (R356). The model moves no child, and no block with an open fork, jobs, requests, a formation or registrations here
(log 32). -/
def mayMigrate (d : Dev) (b : Block) (pkg : Nat) : Bool :=
  b.state = .saved && b.child.isNone && (forkOf d b.key).isNone && b.loc = d.pkg && pkg != d.pkg && !claimsStand d b &&
    (partOf d b.shape.owner).any (fun p => inPod p pkg) && !d.jobs.any (fun j => j.block = b.key) &&
    !d.outstanding.any (fun o => o.block = b.key) && !d.formDone.any (fun f => f.block = b.key) &&
    !d.channels.any (fun c => c.members.contains b.key) &&
    (findLaunch d b.launch).any fun l => l.lr.levels.zipIdx.all fun e => e.1.domain = 4 || l.lr.instSize e.2 = 1

/-- MIGRATION_BEGIN: a SAVED block begins to move, and its names are MOVING (R234). -/
def execMigrationBegin (b pkg : Nat) (s : State) : Res :=
  let s := s.unfocus
  match findBlock s.dev b with
  | none => s.noEvent
  | some x =>
    if mayMigrate s.dev x pkg then
      .next (s.onDev fun d =>
        let d := modBlock d b fun y => { y with state := .moving, moveTo := pkg, stime := d.time }
        let d := x.groups.foldl (fun d g =>
          if g.pname = 0 then d
          else if nameHome g.pname = d.pkg then modName d g.pname fun e => e.after 3 d.pkg 0 0
          else tellHome d x.shape.owner g.pname 3 0 0) d
        sendPacket d (mkPacket d pkg x.shape.owner 1 (.migrate b)))
    else s.noEvent

/-- Forwarded packets to a block that has just come here are numbered anew (R244). -/
def freshForwards (d : Dev) (b : Block) : Dev :=
  { d with applied := d.applied.filter fun e => !(b.groups.any fun g => e.1 = (nameHome g.pname, 0, g.pname)) }

/-- A move has ended: the block and its names are SAVED at a place, then deferred deliveries are forwarded; the homes of its other
names are told by the package that has the block (R234). -/
def endMove (d : Dev) (b : Block) (loc save : Nat) : Dev :=
  let d := modBlock (freshForwards d b) b.key fun y => { y with state := .saved, loc := loc, saveAddr := save, stime := d.time }
  b.groups.foldl (fun d g =>
    if g.pname = 0 then d
    else if nameHome g.pname = d.pkg then settleName d g.pname loc save
    else if loc = d.pkg then tellHome d b.shape.owner g.pname 2 b.core save else d) d

/-- The save area for the block: taken where it arrives, given back where it leaves. -/
def moveArea (d : Dev) (b : Block) (save : Nat) : Option Dev :=
  let d := if b.loc = d.pkg then freeSave (leaveArea d b) b else d
  if b.moveTo ≠ d.pkg then some d
  else (takeSave d b.shape.owner b.saveLen).bind fun r => if r.2 = save then some r.1 else none

/-- MIGRATION_COMPLETE: the save area is in place on the new package (R234). -/
def execMigrationComplete (b save : Nat) (s : State) : Res :=
  let s := s.unfocus
  match (findBlock s.dev b).bind fun x => if x.state = .moving then (moveArea s.dev x save).map fun d => (x, d) else none with
  | some (x, d) => .next { s with dev := endMove d x x.moveTo save }
  | none => s.noEvent

/-- A saved block arrives from another package, of the launch of a key there: it is MOVING until its save area is in place
(R234; log 32). A block that comes back takes the place kept for it. -/
def moveIn (d : Dev) (b : Block) (src key : Nat) : Dev :=
  if src = d.pkg || !((partOf d b.shape.owner).any fun p => inPod p src) then d
  else
    let come := { b with state := .moving, loc := src, moveTo := d.pkg, child := none, stopped := false, reserved := false, preempt := none
                         saveAddr := 0, stime := d.time }
    let kept := match b.cameFrom with
      | some h => if h.1 = d.pkg then
          d.blocks.find? fun (g : Block) => g.launch = h.2 && g.blin = b.blin && g.loc != d.pkg && g.child.isNone
        else none
      | none => none
    match kept with
    | some g => modBlock d g.key fun g =>
        { come with key := g.key, launch := g.launch, fn := g.fn, slotEntry := g.slotEntry, record := g.record, cameFrom := g.cameFrom
                    trigd := g.trigd }
    | none =>
      let r := guestLaunch d src key b.launchId b.shape
      let x := { come with key := r.1.nextBlock, launch := r.2, fn := fnOf r.1 b.shape.owner, slotEntry := 256, cameFrom := some (src, key) }
      { r.1 with blocks := putBlock r.1.blocks x, nextBlock := r.1.nextBlock + 1 }

/-- MIGRATION_ABANDON: the block stays where it was (R234). -/
def execMigrationAbandon (b : Nat) (s : State) : Res :=
  let s := s.unfocus
  match findBlock s.dev b with
  | none => s.noEvent
  | some x =>
    if x.state = .moving && x.moveTo != s.dev.pkg then .next (s.onDev fun d => endMove d x x.loc x.saveAddr) else s.noEvent

end Sys2Proof.Machine
end

