-- ==== Sys2Proof/Machine/FabricEvents.lean ====
section
/-! DEFINITION. Events of the fabric: remote requests at the target and their responses (17 R351-R354, 21 R401, 13 R271), packets
and links (17 R347-R349, 24 R429), and the write-back of old dirty sectors (14 R291). -/

namespace Sys2Proof.Machine

open Sys2Proof

/-! ## The range table (R352, R401) -/

/-- One entry of 16 bytes as a number: its address and fields, none where it is not valid or not well formed. -/
def rangeOfEntry (part src x : Nat) : Option RangeEntry :=
  if bitOf x 0 && bits x 15 4 = 0 && bits x 63 40 = 0 && bits x 127 98 = 0 then
    some ⟨part, src, bitOf x 1, bitOf x 2, bitOf x 3, bits x 39 16, bits x 87 64, bits x 97 88⟩
  else none

/-- A valid entry with a nonzero must-be-zero field (R401). -/
def badRange (x : Nat) : Bool := bitOf x 0 && (bits x 15 4 != 0 || bits x 63 40 != 0 || bits x 127 98 != 0)

/-- The 64 entries of a source package read under the management key; malformed ones post error records (R401, R439). -/
def readRanges (d : Dev) (p : Partition) (src : Nat) : Dev × List RangeEntry :=
  (List.range 64).foldl (fun (r : Dev × List RangeEntry) i =>
    let a := p.rtBase + 1024 * src + 16 * i
    let x := homeNat r.1 (keyOf r.1 p.ownBase) a 16
    if poisoned r.1 a 16 then r
    else if badRange x then (postError r.1 8 p.part 0 1 a, r.2)
    else (r.1, r.2 ++ (rangeOfEntry p.part src x).toList)) (d, [])

/-- The entries of a source package, kept in the part once read (R400, R401). -/
def rangesFor (d : Dev) (p : Partition) (src : Nat) : Dev × List RangeEntry :=
  match d.rangeCache.find? fun c => c.part = p.part && c.src = src with
  | some c => (d, c.entries)
  | none =>
    let r := readRanges d p src
    ({ r.1 with rangeCache := r.1.rangeCache ++ [⟨p.part, src, r.2⟩] }, r.2)

/-- The entry grants the kind of a request (R352). -/
def RangeEntry.grants (e : RangeEntry) (op : RemoteOp) : Bool :=
  match op with
  | .load => e.rd
  | .store => e.wr
  | .atomic _ => e.atomic

/-- One entry covers every byte of a request, grants its kind and names its owner (R401). -/
def RangeEntry.passes (e : RangeEntry) (op : RemoteOp) (owner pa n : Nat) : Bool :=
  e.grants op && e.owner = owner && decide (e.base ≤ pa / 2 ^ 16) && decide ((pa + n - 1) / 2 ^ 16 ≤ e.last)

/-! ## REMOTE_REQUEST_ARRIVE (R352, R354, R420) -/

/-- A request performed at its home under the target's key of the owner: the response code and data. -/
def performRemote (d : Dev) (owner : Nat) (op : RemoteOp) (pa n : Nat) (data : List Byte) : Dev × Nat × List Byte :=
  let key := keyOf d owner
  match op with
  | .load => if poisoned d pa n then (d, 2, []) else (d, 0, homeBytes d key pa n)
  | .store => (homeStore d key pa (data.take n), 0, [])
  | .atomic a =>
    if poisoned d pa n then (d, 2, [])
    else
      let old := homeNat d key pa n
      (homeStore d key pa (bytesOf (atomNew a n old (natOf (data.take n)) (natOf (data.drop n))) n), 0, bytesOf old n)

/-- A request checked and performed, or denied (R352). -/
def serveRequest (d : Dev) (p : Packet) (id : Nat) (op : RemoteOp) (pa n : Nat) (data : List Byte) : Dev :=
  match partOf d p.owner with
  | none => answer d p (.response id 1 [])
  | some q =>
    let r := rangesFor d q p.src
    if r.2.any (fun e => e.passes op p.owner pa n) && (Sparse.get {} r.1.owners p.owner).created && populated pa n then
      let x := performRemote r.1 p.owner op pa n data
      answer x.1 p (.response id x.2.1 x.2.2)
    else answer r.1 p (.response id 1 [])

/-- An earlier packet of the inbox is a request of the same package to the same line, which is served first (R294, R295). -/
def overtakes (d : Dev) (k : Nat) (p : Packet) (pa : Nat) : Bool :=
  (d.inbox.take k).any fun q => q.src = p.src && match q.body with
    | .request _ _ pa' _ _ => pa' / 128 = pa / 128
    | _ => false

/-- REMOTE_REQUEST_ARRIVE: packet k of the inbox is a remote access; past its deadline it is discarded unperformed. -/
def execRemoteRequestArrive (k : Nat) (s : State) : Res :=
  let s := s.unfocus
  match inboxAt s.dev k with
  | some p => match p.body with
    | .request id op pa n data =>
      let d := dropInbox s.dev k
      if overtakes s.dev k p pa then s.noEvent
      else .next { s with dev := if p.deadline < d.time then d else serveRequest d p id op pa n data }
    | _ => s.noEvent
  | none => s.noEvent

/-! ## Responses and deadlines (R271, R354) -/

/-- The words that a load of fewer than 4 bytes, or of whole words, gives. -/
def responseWords (o : Outstanding) (data : List Byte) : List Word :=
  if o.bytes < 4 then [if o.signed then wrap32 (sext (natOf data) (8 * o.bytes)) else BitVec.ofNat 32 (natOf data)]
  else wordsFrom data

/-- The counted operation takes the data of a response. -/
def Pend.take (e : Pend) (o : Outstanding) (data : List Byte) : Pend :=
  match o.keys with
  | [] => e
  | k :: _ =>
    if 2 ^ 20 ≤ k then { e with svals := e.svals ++ [(k - 2 ^ 20, dw (natOf data))] }
    else { e with vals := e.vals ++ o.keys.zip (responseWords o data) }

/-- The counted operation takes poison tags for the destination of a failed request (R271). -/
def Pend.fail (e : Pend) (o : Outstanding) (t : Tag) : Pend :=
  match o.keys with
  | [] => e
  | k :: _ =>
    if 2 ^ 20 ≤ k then { e with stags := e.stags ++ [(k - 2 ^ 20, t)] }
    else { e with tags := e.tags ++ o.keys.map fun k => (k, t) }

/-- The group with f applied to the counted operation that awaits a request; it may complete when it awaits no other. -/
def Group.answered (g : Group) (o : Outstanding) (more : Bool) (f : Pend → Pend) : Group :=
  { g with pend := g.pend.map fun e => if e.id = o.pend then { f e with ext := more } else e }

/-- A request ends (R354): f on the counted operation, g on the group. -/
def endRequest (d : Dev) (o : Outstanding) (f : Pend → Pend) (g : Group → Group) : Dev :=
  let d := dropOut d o.id
  modBlock d o.block fun b => b.modGroup o.gidx fun x => g (x.answered o (awaiting d o.block o.gidx o.pend) f)

/-- The flag that counts the operation of a request; 15 where there is none. -/
def Group.flagOfPend (g : Group) (id : Nat) : Nat := ((g.pend.find? fun e => e.id = id).map (·.flag)).getD 15

/-- The read of a record has ended: the slot that waits for it takes the bytes, or is to trap (R354; log 20). -/
def endRecord (d : Dev) (o : Outstanding) (t : Option Tag) (data : List Byte) : Dev :=
  modBlock (dropOut d o.id) o.block fun b => b.modGroup o.gidx fun g => g.onSlot (o.pslot = 1) fun x =>
    if x.wait ≠ .remote o.id then x
    else match t with
      | some t => { x with wait := .denied t }
      | none => { x with wait := .none, read := x.read ++ [(o.addr.toNat, data)] }

/-- A piece of a page for a child of another package's fork has come, or will not: with the last piece the page is the twin here, and
the slot that waits goes on; code 3 has it ask again, a failure makes it trap (R309, R354; log 33). -/
def endPage (d : Dev) (o : Outstanding) (t : Option Tag) (code : Nat) (data : List Byte) : Dev :=
  let vpn := o.addr.toNat / 2 ^ 16
  let off := o.addr.toNat % 2 ^ 16
  let wake := fun (d : Dev) (w : Wait) => modBlock d o.block fun b => b.modGroup o.gidx fun g => g.onSlot (o.pslot = 1) fun x =>
    if x.wait = .remote o.pend then { x with wait := w } else x
  match (findBlock d o.block).bind fun b => awayFork d (chainOf d b.child) with
  | none => dropOut d o.id
  | some f =>
    if t.isSome || code = 3 then
      let d := { d with outstanding := d.outstanding.filter fun x => x.pend ≠ o.pend || x.purpose ≠ .page }
      let d := modFork d f.block fun f => { f with coming := f.coming.filter fun e => e.1 ≠ vpn }
      wake d ((t.map Wait.denied).getD .none)
    else
      let d := modFork (dropOut d o.id) f.block fun f => { f with coming := f.coming.map fun e =>
        if e.1 ≠ vpn then e
        else (vpn, { e.2 with
          bytes := (data.take 4096).zipIdx.foldl (fun m x => Sparse.put 0 m (off + x.2) x.1) e.2.bytes
          bad := (data.drop 4096).zipIdx.foldl (fun m x => Sparse.put false m (off / 32 + x.2) (x.1 = 1)) e.2.bad }) }
      if d.outstanding.any fun x => x.pend = o.pend && x.purpose = .page then d
      else wake (modFork d f.block fun f => { f with
        twins := f.twins ++ f.coming.filter (fun e => e.1 = vpn && (pageAt f.twins vpn).isNone)
        coming := f.coming.filter fun e => e.1 ≠ vpn }) .none

/-- A request fails with a cause: tags where it returns a value, else a deferred report (R271, R354, R420). -/
def failRequest (d : Dev) (o : Outstanding) (c : Cause) (bit target : Nat) : Dev :=
  if o.purpose = .record then endRecord d o (some ⟨c, o.addr, target, d.time⟩) []
  else if o.purpose = .page then endPage d o (some ⟨c, o.addr, target, d.time⟩) 0 []
  else if o.returns then endRequest d o (fun e => e.fail o ⟨c, o.addr, target, d.time⟩) id
  else endRequest d o id fun g => g.defer
    { bit := bit, cause := c, slot := o.pslot, flag := g.flagOfPend o.pend, info1 := o.addr, info2 := dw target, info3 := dw d.time }

/-- A response in time (R354): the data, a denial, or poison; an acquire follows an answered acquiring access (R275). -/
def takeResponse (d : Dev) (o : Outstanding) (code : Nat) (data : List Byte) : Dev :=
  if o.purpose = .page && code ≠ 1 then endPage d o none code data
  else match code with
  | 0 =>
    if o.purpose = .record then endRecord d o none data
    else
    let d := endRequest d o (fun e => e.take o data) id
    match o.acq, findBlock d o.block with
    | some sc, some b => acquireAt d b.core b.cluster sc
    | _, _ => d
  | 1 => failRequest d o cREMOTE_DENIED 3 o.target
  | _ => failRequest d o cPOISON_CONSUMED 4 0

/-- The request ends as timed out (R354). -/
def timeoutRequest (d : Dev) (o : Outstanding) : Dev := failRequest d o cFABRIC_TIMEOUT 2 o.target

/-- The answer to a `nameq` of another package: its register takes the code; one that comes too late is not used (R235). -/
def endNameq (d : Dev) (o : Outstanding) (code : Nat) : Dev :=
  modBlock (dropOut d o.id) o.block fun b => b.modGroup o.gidx fun g =>
    { g with pend := g.pend.map fun e => if e.id = o.pend then
        { e with ext := false, svals := o.keys.map fun k => (k - 2 ^ 20, dw code) } else e }

/-- A `nameq` that no home has answered in time takes a code the spec leaves open (R235; log 9). -/
def loseNameq (d : Dev) (o : Outstanding) : Dev :=
  endNameq { d with fresh := d.fresh + 1 } o (Config.peerName d.fresh o.name % 5)

/-- REMOTE_RESPONSE_ARRIVE: a response is taken, or discarded where it comes after the deadline (R354). -/
def execRemoteResponseArrive (k : Nat) (s : State) : Res :=
  let s := s.unfocus
  match inboxAt s.dev k with
  | some p => match p.body with
    | .response id code data =>
      let d := dropInbox s.dev k
      .next { s with dev := match findOut d id with
        | none => d
        | some o => if o.deadline < d.time then timeoutRequest d o else takeResponse d o code data }
    | _ => s.noEvent
  | none => s.noEvent

/-- REMOTE_DEADLINE_EXPIRY: a request passes its deadline unanswered (R354). -/
def execRemoteDeadlineExpiry (id : Nat) (s : State) : Res :=
  let s := s.unfocus
  match findOut s.dev id with
  | some o =>
    if s.dev.time ≤ o.deadline then s.noEvent
    else match o.purpose with
      | .access | .record | .page => .next { s with dev := timeoutRequest s.dev o }
      | .nameq => .next { s with dev := loseNameq s.dev o }
      | .rstv | .transfer => s.noEvent
  | none => s.noEvent

/-! ## Packets (R349) -/

/-- The CID of a packet of a collective, which follows a pinned route; notices do not (R349, R368). -/
def PacketBody.pinnedCid (b : PacketBody) : Option Nat :=
  match b with
  | .piece _ cid _ _ _ _ _ _ _ _ | .result _ cid _ _ _ _ _ _ _ _ | .probe cid _ _ _ _ | .credit _ cid _ _ _ _ _
  | .pieces cid _ _ _ _ _ _ => some cid
  | _ => none

/-- A packet of a collective, which follows a pinned route. -/
def PacketBody.pinned (b : PacketBody) : Bool := (PacketBody.pinnedCid b).isSome

/-- The first live port that the entry for a destination lists (R349, R361). -/
def firstLive (d : Dev) (dst : Nat) : Option Nat := (liveListed d dst).head?

/-- The pins of this package with that of a CID's way from a source to a destination (R361). -/
def pinVia (d : Dev) (o cid src dst port : Nat) : Dev :=
  { d with vias := ⟨o, cid, src, dst, port⟩ :: d.vias.filter fun v => !(v.owner = o && v.cid = cid && v.src = src && v.dst = dst) }

/-- The way of a packet through this package. -/
inductive Way where
  | port (n : Nat)
  /-- Its pinned port is dead: it goes back to its source (R349). -/
  | back
  | none
  deriving DecidableEq, Repr

/-- The port by which a packet goes on: FORM by the first live listed port, which it pins; a collective packet by the port pinned
for its CID; any other by queue occupancy (R349, R361). -/
def wayOf (d : Dev) (p : Packet) : Dev × Way :=
  if p.dead then (d, ((choosePort d p p.src).map Way.port).getD .none)
  else match p.body, PacketBody.pinnedCid p.body with
    | .form cid _ _ _ _, _ => match firstLive d p.dst with
      | some i => (pinVia d p.owner cid p.src p.dst i, .port i)
      | none => (d, .none)
    | _, some cid => match d.vias.find? fun v => v.owner = p.owner && v.cid = cid && v.src = p.src && v.dst = p.dst with
      | some v => (d, if (Sparse.get {} d.ports v.port).live then .port v.port else .back)
      | none => (d, ((firstLive d p.dst).map Way.port).getD .none)
    | _, none => (d, ((choosePort d p p.dst).map Way.port).getD .none)

/-- A packet for another package goes on upon the next hop channel with one link less to cross, or is discarded with an error record,
or, pinned to a dead port, goes back to its source as LINK_DEAD (R349). -/
def forwardPacket (d : Dev) (p : Packet) (budget hop : Nat) : Dev :=
  let d := checkRoute d (if p.dead then p.src else p.dst)
  let lost := fun (d : Dev) => postError d 9 (fnOf d p.owner) 0 1 p.dst
  if budget = 0 then lost d
  else match wayOf d p with
    | (d, .port i) => usePort d ⟨p, budget - 1, hop + 1⟩ i
    | (d, .back) => match choosePort d p p.src with
      | some i => usePort d ⟨{ p with dead := true }, hopBudget (Sparse.get {} d.routes p.src) - 1, 0⟩ i
      | none => lost d
    | (d, .none) => lost d

/-- The launch that a message about parts of launches names here, one that goes on before one that has ended (log 25). -/
def sharedLaunch (d : Dev) (home key : Nat) : Option Launch :=
  let is := fun (l : Launch) => if home = d.pkg then decide (l.key = key) else decide (l.away = some (home, key))
  (d.launches.find? fun l => is l && (l.state = .waiting || l.state = .bound)).orElse fun _ => d.launches.find? is

/-- A block of a launch here that moved to another package has triggered or retired there (R211, R234; log 25). -/
def guestEnds (d : Dev) (key blin : Nat) (retired : Bool) : Dev :=
  match d.blocks.find? fun b => b.launch = key && b.blin = blin && b.loc ≠ d.pkg && b.child.isNone with
  | none => d
  | some b => if retired then retireBlock d b else triggerBlock (modBlock d b.key fun b => { b with trigd := true }) b

/-- A block event at LOC reaches the name's home (R234). -/
def homeEvent (d : Dev) (p : Packet) (n : DWord) (event core save : Nat) : Dev :=
  match event with
  | 2 => settleName d n p.src save
  | 4 => retireName d p.owner n
  | _ => modName d n fun e => e.after event p.src core save

/-- What the names of a package make of messages between packages (R234, R235). -/
def takeName (d : Dev) (p : Packet) : Option Dev :=
  match p.body with
  | .nameEvent n event core save => some (homeEvent d p n event core save)
  | .nameAsk id n => some (if p.deadline < d.time then d else answer d p (.nameSays id (nameCode d n)))
  | .nameSays id code => some (match findOut d id with
    | none => d
    | some o => if o.deadline < d.time then loseNameq d o else endNameq d o code)
  | .migrate _ => some d
  | _ => none

/-- A message about a launch placed on several packages (R217, R211, R208, R417; log 25). -/
def takeLaunch (d : Dev) (p : Packet) : Option Dev :=
  match p.body with
  | .launchShare home key q idx record =>
    let l : Launch := { key := d.nextLaunch, fn := fnOf d p.owner, q := q, idx := idx, lr := parseLaunch record, record := 0
                        done := 0, detached := true, away := some (home, key) }
    some { d with launches := d.launches ++ [l], nextLaunch := d.nextLaunch + 1 }
  | .launchTrig home key => some (match sharedLaunch d home key with
    | some l => checkTrigger (modLaunch d l.key fun x => { x with
        shares := modFirst x.shares (fun y => y.pkg = p.src) fun y => { y with trig := true } }) l.key
    | none => d)
  | .launchStop home key status cause => some (match sharedLaunch d home key with
    | some l => if l.state = .waiting || l.state = .bound then endLaunch d l.key status cause else d
    | none => d)
  | .launchEnd home key _ _ => some (match sharedLaunch d home key with
    | some l => modLaunch d l.key fun x => { x with
        shares := modFirst x.shares (fun y => y.pkg = p.src) fun y => { y with trig := true, ended := true } }
    | none => d)
  | .launchBegun home key => some (match sharedLaunch d home key with
    | some l => modLaunch d l.key fun x => { x with begun := true }
    | none => d)
  | .launchReady home key => some (match sharedLaunch d home key with
    | some l => tryInstance (modLaunch d l.key fun x => { x with
        shares := modFirst x.shares (fun y => y.pkg = p.src) fun y => { y with ready := true } }) l.key p.src
    | none => d)
  | .launchGo home key => some (match sharedLaunch d home key with
    | some l => startReserved d l.key
    | none => d)
  | .blockEnd _ key blin retired => some (guestEnds d key blin retired)
  | _ => none

/-- Messages between the packages of a fork that spans packages (R309). -/
def takeFork (d : Dev) (p : Packet) : Option Dev :=
  match p.body with
  | .childRun b i run spec lidx lext => some (takeChild d p.src p.owner b i run spec lidx lext)
  | .childNews b i run what => some (takeNews d p.src b i run what)
  | .viewAsk id b idx va n twin => some (if p.deadline < d.time then d else serveView d p id b idx va n twin)
  | _ => none

/-- What the part makes at once of a packet for this package, or none where an event row takes it from the inbox. -/
def takeNow (d : Dev) (p : Packet) : Option Dev := (takeLaunch d p).orElse fun _ => (takeName d p).orElse fun _ => takeFork d p

/-- FABRIC_PACKET_ARRIVE: a packet that came on channel `hop` with this budget left is accepted, forwarded or discarded (R349). -/
def execFabricPacketArrive (p : Packet) (budget hop : Nat) (s : State) : Res :=
  let s := s.unfocus
  if hop + budget ≤ 5 && p.src != s.dev.pkg && decide (p.dst < 1024) then
    .next (s.onDev fun d =>
      if p.dst = d.pkg && !p.dead then (takeNow d p).getD { d with inbox := d.inbox ++ [p] }
      else forwardPacket d p budget hop)
  else s.noEvent

/-! ## Links (R347, R429) -/

/-- The package with f applied to a port. -/
def modPort (d : Dev) (p : Nat) (f : Port → Port) : Dev := { d with ports := Sparse.upd {} d.ports p f }

/-- A port. -/
def portAt (d : Dev) (p : Nat) : Port := Sparse.get {} d.ports p

/-- LINK_REPLAY: a flit is sent again; the failed replays of 10 µs are consecutive (R347). -/
def execLinkReplay (port : Fin 16) (s : State) : Res :=
  let s := s.unfocus
  let x := portAt s.dev port.val
  if x.live && !x.retraining then
    .next (s.onDev fun d => modPort d port.val fun x =>
      if x.fails = 0 || x.firstFail + 10000 < d.time then { x with fails := 1, firstFail := d.time } else { x with fails := x.fails + 1 })
  else s.noEvent

/-- LINK_RETRAIN: after 8 consecutive failed replays the link retrains; packets on its wire are lost (R347, R428). -/
def execLinkRetrain (port : Fin 16) (s : State) : Res :=
  let s := s.unfocus
  let x := portAt s.dev port.val
  if x.live && !x.retraining && decide (8 ≤ x.fails) then
    .next (s.onDev fun d => postError (modPort d port.val fun x => { x with retraining := true, since := d.time, wire := [] }) 3 0xFF port.val x.fails 0)
  else s.noEvent

/-- Unacknowledged pinned packets of a collective whose first port is a given one: the destination ranks (R368). -/
def lostRanks (d : Dev) (c : Coll) (port : Nat) : List Nat :=
  (d.sent.filter fun x => x.coll = c.id).filterMap fun x =>
    let r := match x.packet.body with
      | .piece _ _ _ _ _ dest _ _ _ _ => some dest
      | .result _ _ _ _ _ dest _ _ _ _ => some dest
      | _ => none
    if (consistAt d c.die c.cid).any fun k => k.pins.any fun y => y.1 = x.packet.dst && y.2 = port then r else none

/-- The collectives that lose packets with a port abort with ABORT_LINK (R368). -/
def abortOnPort (d : Dev) (port : Nat) : Dev :=
  d.colls.foldl (fun e c => match (lostRanks d c port).min? with
    | some r => detectAbort e c.id 2 r
    | none => e) d

/-- LINK_DEATH: a link that has not retrained 10 µs after its first failed replay is dead (R347). -/
def execLinkDeath (port : Fin 16) (s : State) : Res :=
  let s := s.unfocus
  let x := portAt s.dev port.val
  if x.live && x.retraining && decide (x.firstFail + 10000 ≤ s.dev.time) then
    .next (s.onDev fun d =>
      let d := modPort d port.val fun x => { x with live := false, retraining := false, fails := 0, queued := [], wire := [], waits := [0, 0, 0] }
      abortOnPort (postError d 4 0xFF port.val 1 0) port.val)
  else s.noEvent

/-- LINKEN: the management interface retrains a dead link; recovery mode accepts no such command (R429, R430). -/
def execLinken (port : Fin 16) (s : State) : Res :=
  let s := s.unfocus
  if s.dev.recovery || (portAt s.dev port.val).live || (portAt s.dev port.val).retraining then .next s
  else .next (s.onDev fun d => modPort d port.val fun x => { x with retraining := true, since := d.time })

/-- A link trained again: LIVE, and its queued packets go on; a dead one posts KIND 5 (R347, R429). -/
def trainPort (d : Dev) (port : Nat) : Dev :=
  let x := portAt d port
  let d := modPort d port fun x => { x with live := true, retraining := false, fails := 0 }
  if x.live then d else postError d 5 0xFF port 1 0

/-- The last time at which a retraining may succeed: 2 µs after it began on a live link, and 10 µs after the first failed replay;
10 µs after the command on a dead one (R347, R429). -/
def Port.trainBy (x : Port) : Nat := if x.live then min (x.since + 2000) (x.firstFail + 10000) else x.since + 10000

/-- LINK_RETRAIN_COMPLETE: the training of a link ends; one that fails leaves a live link retraining until LINK_DEATH, and a
dead link dead (R347, R429). -/
def execLinkRetrainComplete (port : Fin 16) (ok : Bool) (s : State) : Res :=
  let s := s.unfocus
  let x := portAt s.dev port.val
  if !x.retraining then s.noEvent
  else if ok && decide (s.dev.time ≤ x.trainBy) then
    .next (s.onDev fun d => trainPort d port.val)
  else if ok then s.noEvent
  else .next (s.onDev fun d => modPort d port.val fun x => { x with retraining := x.live, since := d.time })

/-! ## DIRTY_SECTOR_TIMEOUT (R291) -/

/-- The sector lies in a PRIVATE object of its cluster (R255). -/
def Dirty.kept (x : Dirty) (d : Dev) : Bool := d.objs.any fun o => o.cluster = x.cluster && o.priv && inObj o (x.sector / 4) x.key

/-- The sector has been dirty for 50 µs, outside PRIVATE objects (R255, R291). -/
def Dirty.old (x : Dirty) (d : Dev) : Bool := decide (x.since + 50000 ≤ d.time) && !x.kept d

/-- DIRTY_SECTOR_TIMEOUT: a sector that a cluster holds dirty for 50 µs is written back to its home (R291), and the other dirty
sectors of the line with it, so that a party's stores to the line arrive in issue order (R295). -/
def execDirtySectorTimeout (cl sector : Nat) (s : State) : Res :=
  let s := s.unfocus
  if s.dev.dirty.any fun x => x.cluster = cl && x.sector = sector && x.old s.dev then
    .next (s.onDev fun d => writeBackIf d fun x => x.cluster = cl && x.sector / 4 = sector / 4 && !x.kept d)
  else s.noEvent

end Sys2Proof.Machine
end

