-- ==== Sys2Proof/Machine/CollEvents.lean ====
section
/-! DEFINITION. Events of consists and collectives (17 R349, R361, R365, R368, R370): packets that arrive at a Turntable of this
package, retransmission, probes, limits and notices. -/

namespace Sys2Proof.Machine

open Sys2Proof

/-! ## Which packet a Turntable takes -/

/-- What a packet finds at the Turntables of this package (R361, R370). -/
inductive CollGate where
  | take (k : Consist)
  /-- Of an older epoch, of a CID not held, or past its deadline. -/
  | discard
  /-- Of another owner: discarded and recorded. -/
  | record
  deriving DecidableEq, Repr

/-- The check of a collective packet's deadline, CID, owner and epoch (R353, R361). -/
def collGate (d : Dev) (p : Packet) (cid epoch : Nat) : CollGate :=
  if p.deadline < d.time then .discard
  else match heldHere d (cidKey d p.owner cid) with
    | none => .discard
    | some k => if k.owner ≠ p.owner then .record else if k.epoch ≠ epoch then .discard else .take k

/-- The gate applied to a packet. -/
def gated (d : Dev) (p : Packet) (cid epoch : Nat) (f : Consist → Dev) : Dev :=
  match collGate d p cid epoch with
  | .take k => f k
  | .discard => d
  | .record => postError d 9 (fnOf d p.owner) 0 1 p.dst

/-- The consist at the die of the member of a rank, where that member lies on this package. -/
def consistOfRank (d : Dev) (k : Consist) (rank : Nat) : Option Consist :=
  let m := memberAt k rank
  if rank < k.members.length ∧ m.1 = d.pkg then consistAt d m.2 k.cid else none

/-- A piece taken once: added by f to the collective of its Turntable, or a copy; each is acknowledged (R365, R370). On a
BROKEN consist only a collective that has ended still acknowledges (R361). -/
def takePiece (d : Dev) (p : Packet) (k : Consist) (rank epoch seq id : Nat) (f : Coll → Coll) : Dev :=
  match consistOfRank d k rank with
  | none => d
  | some m =>
    let ended := (collAt d m.die m.cid epoch seq).any Coll.ended
    if ended then answer d p (.ack id)
    else if m.state = .broken then d
    else
      let r := ensureColl d m.die m.cid epoch seq
      collWork (modColl (answer r.1 p (.ack id)) r.2 fun c => f { c with heard := d.time }) r.2

/-- A contribution piece not yet held or formed (R365). -/
def Coll.addPiece (c : Coll) (x : Piece) : Coll :=
  if c.formed.contains (x.chunk, x.idx) || c.pieces.any (fun y => y.rank = x.rank && y.chunk = x.chunk && y.idx = x.idx) then c
  else { c with pieces := c.pieces ++ [x] }

/-- A result piece not yet held or written (R365). -/
def Coll.addResult (c : Coll) (x : Piece) : Coll :=
  if c.written.any (fun y => y.2 = x.chunk) || c.results.any (fun y => y.chunk = x.chunk && y.idx = x.idx) then c
  else { c with results := c.results ++ [x] }

/-! ## COLL_PIECE_ARRIVE and COLL_RESULT_ARRIVE (R365) -/

/-- A further credit for the same chunk of this package's members waits in the inbox: they are used together (R365). -/
def moreCredits (d : Dev) (p : Packet) (cid epoch seq rank chunk : Nat) : Bool :=
  d.inbox.any fun q => q.owner = p.owner && match q.body with
    | .credit _ c e x r _ k => c = cid && e = epoch && x = seq && r = rank && k = chunk
    | _ => false

/-- A credit taken: it is kept and acknowledged, and used with those that have come beside it (R365). -/
def takeCredit (d : Dev) (p : Packet) (k : Consist) (dest id cid epoch seq rank chunk : Nat) : Dev :=
  match consistOfRank d k dest with
  | none => d
  | some m =>
    if (collAt d m.die m.cid epoch seq).any Coll.ended then answer d p (.ack id)
    else if m.state = .broken then d
    else
      let r := ensureColl d m.die m.cid epoch seq
      let d := modColl (answer r.1 p (.ack id)) r.2 fun c =>
        { c with heard := d.time, credits := if c.credits.contains (rank, chunk) then c.credits else c.credits ++ [(rank, chunk)] }
      if moreCredits d p cid epoch seq rank chunk then d else collWork d r.2

/-- A probe at the member probed: GONE where its Turntable holds no such consist, else whether it has submitted (R365, R368). -/
def serveProbe (d : Dev) (p : Packet) (cid epoch seq dest : Nat) : Dev :=
  if p.deadline < d.time then d
  else match heldHere d (cidKey d p.owner cid) with
    | none => answer d p (.gone cid dest)
    | some _ => gated d p cid epoch fun k => match consistOfRank d k dest with
      | none => d
      | some m =>
        let there := (collAt d m.die m.cid epoch seq).any fun c => !c.subs.isEmpty
        answer d p (.answer cid epoch seq dest there)

/-- A probe of this collective towards a rank. -/
def Sent.isProbe (x : Sent) (cid epoch seq rank : Nat) : Bool :=
  match x.packet.body with
  | .probe c e q _ dest => c = cid && e = epoch && q = seq && dest = rank
  | _ => false

/-- A packet of contribution or control served (R365). -/
def servePiece (d : Dev) (p : Packet) : Dev :=
  match p.body with
  | .piece id cid epoch seq rank dest chunk idx bytes poison => gated d p cid epoch fun k =>
      takePiece d p k dest epoch seq id fun c => c.addPiece ⟨rank, dest, chunk, idx, bytes, poison⟩
  | .pieces cid epoch seq dest chunk idx rows => gated d p cid epoch fun k => rows.foldl (fun d r =>
      takePiece d p k dest epoch seq r.1 fun c => c.addPiece ⟨r.2.1, dest, chunk, idx, r.2.2.1, r.2.2.2⟩) d
  | .credit id cid epoch seq rank dest chunk => gated d p cid epoch fun k => takeCredit d p k dest id cid epoch seq rank chunk
  | .ack id =>
    match d.sent.find? fun x => x.id = id with
    | none => d
    | some x => modColl { d with sent := d.sent.filter fun x => x.id ≠ id } x.coll fun c => { c with heard := d.time }
  | .probe cid epoch seq _ dest => serveProbe d p cid epoch seq dest
  | .answer cid epoch seq rank _ =>
    { d with
      sent := d.sent.filter (fun x => !x.isProbe cid epoch seq rank)
      colls := modIf d.colls (fun c => c.cid = cidKey d p.owner cid && c.epoch = epoch && c.seq = seq) fun c => { c with heard := d.time } }
  | _ => d

/-- Packets that COLL_PIECE_ARRIVE serves. -/
def PacketBody.isPiece (b : PacketBody) : Bool :=
  match b with
  | .piece _ _ _ _ _ _ _ _ _ _ | .pieces _ _ _ _ _ _ _ | .credit _ _ _ _ _ _ _ | .ack _ | .probe _ _ _ _ _ | .answer _ _ _ _ _ => true
  | _ => false

/-- COLL_PIECE_ARRIVE: contribution pieces, a credit, an acknowledgement, a probe or its answer. -/
def execCollPieceArrive (k : Nat) (s : State) : Res :=
  let s := s.unfocus
  match inboxAt s.dev k with
  | some p =>
    if PacketBody.isPiece p.body then .next { s with dev := servePiece (dropInbox s.dev k) p }
    else s.noEvent
  | none => s.noEvent

/-- COLL_RESULT_ARRIVE: a result piece; a chunk that is whole is written into the member's buffer. -/
def execCollResultArrive (k : Nat) (s : State) : Res :=
  let s := s.unfocus
  match inboxAt s.dev k with
  | some p => match p.body with
    | .result id cid epoch seq rank dest chunk idx bytes poison =>
      let d := dropInbox s.dev k
      let e := gated d p cid epoch fun m =>
        takePiece d p m dest epoch seq id fun c => c.addResult ⟨rank, dest, chunk, idx, bytes, poison⟩
      .next { s with dev := e }
    | _ => s.noEvent
  | none => s.noEvent

/-! ## Retransmission and returned packets (R349, R365, R368) -/

/-- The rank for which a pinned packet is meant. -/
def PacketBody.destRank (b : PacketBody) : Option Nat :=
  match b with
  | .piece _ _ _ _ _ dest _ _ _ _ | .result _ _ _ _ _ dest _ _ _ _ | .probe _ _ _ _ dest | .pieces _ _ _ dest _ _ _
  | .credit _ _ _ _ _ dest _ => some dest
  | _ => none

/-- A packet sent again on its pinned route; none where the pinned first port is dead. -/
def resendPinned (d : Dev) (c : Consist) (p : Packet) : Option Dev :=
  if p.dst = d.pkg then some { d with inbox := d.inbox ++ [p] }
  else match c.pins.find? fun x => x.1 = p.dst with
    | some x => if (portAt d x.2).live then some (usePort d (sourceWire d p) x.2) else none
    | none => none

/-- The next time at which a kept packet is sent again: DL/4 of FDL3 later. -/
def laterResend (d : Dev) (x : Sent) : Dev :=
  { d with sent := modIf d.sent (fun y => y.id = x.id) fun y => { y with resend := y.resend + deadlineOf d x.packet.owner 3 / 4 } }

/-- A piece sent again, or the abort with ABORT_LINK (R365, R368). -/
def resendPiece (d : Dev) (x : Sent) (rank : Nat) : Dev :=
  match findColl d x.coll with
  | none => d
  | some c => match consistAt d c.die c.cid with
    | none => d
    | some k => match resendPinned d k x.packet with
      | some e => laterResend e x
      | none => detectAbort { d with sent := d.sent.filter fun y => y.id ≠ x.id } c.id 2 rank

/-- COLL_RETRANSMIT: a piece, result or credit unacknowledged for DL/4 since it was last sent goes again. -/
def execCollRetransmit (id : Nat) (s : State) : Res :=
  let s := s.unfocus
  match s.dev.sent.find? fun x => x.id = id with
  | some x => match x.packet.body with
    | .piece _ _ _ _ _ dest _ _ _ _ | .result _ _ _ _ _ dest _ _ _ _ | .credit _ _ _ _ _ dest _ =>
      if decide (x.resend ≤ s.dev.time) && decide (s.dev.time ≤ x.deadline) then
        .next { s with dev := resendPiece s.dev x dest }
      else s.noEvent
    | _ => s.noEvent
  | none => s.noEvent

/-- The kept record of a packet of this package that came back, of the first piece of a packet with several. -/
def sentAs (d : Dev) (p : Packet) : Option Sent :=
  match p.body with
  | .pieces _ _ _ _ _ _ rows => d.sent.find? fun x => rows.any fun r => r.1 = x.id
  | _ => d.sent.find? fun x => x.packet = { p with dead := false }

/-- PINNED_PACKET_RETURNED: a pinned packet of this package comes back as LINK_DEAD; its collective aborts with ABORT_LINK
while the packet is unacknowledged (R349, R368). -/
def execPinnedPacketReturned (p : Packet) (s : State) : Res :=
  let s := s.unfocus
  if p.src = s.dev.pkg && p.dst != s.dev.pkg && p.dead && PacketBody.pinned p.body then
    .next (s.onDev fun d => match sentAs d p, PacketBody.destRank p.body with
      | some x, some r => detectAbort { d with sent := d.sent.filter fun y => y.id ≠ x.id } x.coll 2 r
      | _, _ => d)
  else s.noEvent

/-! ## Probes, limits and deadlines (R365, R368) -/

/-- The root from which a result chunk key comes (R364). -/
def CollCard.rootOf (c : CollCard) (n key : Nat) : Nat :=
  match c.op with
  | 0 => key % n
  | 1 | 2 => key / c.chunks
  | _ => c.root

/-- Ranks with credit whose contributions to a chunk that this member forms have not come. -/
def Coll.awaitedPieces (c : Coll) (card : CollCard) (key : Nat) : List Nat :=
  (card.keyPieces key).flatMap fun i =>
    if c.formed.contains (key, i) then []
    else (List.range (c.nextGrant key)).filter fun r => !(c.pieces.any fun x => x.rank = r && x.chunk = key && x.idx = i)

/-- Ranks from which a member awaits a packet, acknowledgements included, itself apart (R368). -/
def awaitedRanks (d : Dev) (c : Coll) (k : Consist) : List Nat :=
  match c.card with
  | none => []
  | some card =>
    let n := k.members.length
    let rank := localRank d k
    let results := (card.expected n rank).filter fun key =>
      !(c.written.contains (rank, key)) && (card.keyPieces key).any fun i => !(c.results.any fun x => x.chunk = key && x.idx = i)
    let acks := (d.sent.filter fun x => x.coll = c.id).filterMap fun x => PacketBody.destRank x.packet.body
    let unpaid := (card.sends n rank).filterMap fun x =>
      if x.2.1 || c.paid.contains (x.1, card.key x.2.2.1 x.2.2.2) then none else some x.1
    (results.map (card.rootOf n) ++ (card.roots n rank).flatMap (c.awaitedPieces card) ++ unpaid ++ acks).filter (· ≠ rank)

/-- One probe sent to a rank on its pinned route; a dead first port aborts (R365, R368). -/
def sendProbe (d : Dev) (id : Nat) (k : Consist) (rank dest : Nat) : Dev :=
  match findColl d id with
  | none => d
  | some c =>
    if c.ended then d
    else match sendPinned d k id dest fun _ => .probe (plainCid c.cid) c.epoch c.seq rank dest with
      | some e => e
      | none => detectAbort d id 2 dest

/-- COLL_PROBE: an active member that has waited a whole DL of FDL3 for any packet probes each member it awaits (R365). -/
def execCollProbe (id : Nat) (s : State) : Res :=
  let s := s.unfocus
  match findColl s.dev id with
  | some c => match consistAt s.dev c.die c.cid with
    | some k =>
      if c.state = .active && decide (c.heard + deadlineOf s.dev k.owner 3 ≤ s.dev.time) then
        let d := modColl s.dev id fun c => { c with heard := s.dev.time }
        .next { s with dev := ((awaitedRanks d c k).eraseDups).foldl (fun d r => sendProbe d id k (localRank d k) r) d }
      else s.noEvent
    | none => s.noEvent
  | none => s.noEvent

/-- The lowest rank of a consist on this package. -/
def lowestLocal (d : Dev) (k : Consist) : Nat :=
  (((localDies d k.members).filterMap fun die => rankOf k.members d.pkg die).min?).getD 0

/-- COLL_LIMIT_EXPIRY: LIMIT µs after the local submission the collective aborts with ABORT_TIMEOUT (R368). -/
def execCollLimitExpiry (id : Nat) (s : State) : Res :=
  let s := s.unfocus
  match findColl s.dev id with
  | some c => match c.card, consistAt s.dev c.die c.cid with
    | some card, some k =>
      if !c.ended && card.limit != 0 && decide (c.started + 1000 * card.limit ≤ s.dev.time) then
        let r := ((awaitedRanks s.dev c k).min?).getD (lowestLocal s.dev k)
        .next { s with dev := detectAbort s.dev id 3 r }
      else s.noEvent
    | _, _ => s.noEvent
  | none => s.noEvent

/-- A piece, result or probe of a collective to a rank is past its deadline. -/
def Sent.late (x : Sent) (d : Dev) (coll rank : Nat) : Bool :=
  x.coll = coll && PacketBody.destRank x.packet.body = some rank && decide (x.deadline < d.time)

/-- COLL_PIECE_DEADLINE: a piece passes its deadline unacknowledged, or a probe fails; the member aborts with ABORT_TIMEOUT
(R368). -/
def execCollPieceDeadline (id rank : Nat) (s : State) : Res :=
  let s := s.unfocus
  if s.dev.sent.any fun x => x.late s.dev id rank then
    .next (s.onDev fun d => detectAbort { d with sent := d.sent.filter fun x => !x.late d id rank } id 3 rank)
  else s.noEvent

/-! ## Notices (R368, R370) -/

/-- A notice taken: acknowledged, the collective ended by its status where it has not ended, the consist BROKEN (R368). -/
def takeNotice (d : Dev) (p : Packet) (k : Consist) (rank id seq : Nat) (st : CollStatus) : Dev :=
  match consistOfRank d k rank with
  | none => d
  | some m =>
    let r := ensureColl (answer d p (.ack id)) m.die m.cid m.epoch seq
    breakConsist (endColl r.1 r.2 .aborted st) m.die m.cid st

/-- COLL_NOTICE_ARRIVE: an abort notice. -/
def execCollNoticeArrive (k : Nat) (s : State) : Res :=
  let s := s.unfocus
  match inboxAt s.dev k with
  | some p => match p.body with
    | .notice id cid epoch seq code fail det stime dest =>
      let d := dropInbox s.dev k
      .next { s with dev := gated d p cid epoch fun m => takeNotice d p m dest id seq ⟨code, fail, det, 0, stime⟩ }
    | _ => s.noEvent
  | none => s.noEvent

/-- NOTICE_RESEND: an unacknowledged notice goes again every DL/4 of FDL3, and is given up past its deadline (R368). -/
def execNoticeResend (id : Nat) (s : State) : Res :=
  let s := s.unfocus
  match s.dev.sent.find? fun x => x.id = id with
  | some x => match x.packet.body with
    | .notice _ _ _ _ _ _ _ _ _ =>
      if x.deadline < s.dev.time then .next (s.onDev fun d => { d with sent := d.sent.filter fun y => y.id ≠ id })
      else if x.resend ≤ s.dev.time then .next (s.onDev fun d => laterResend (sendPacket d x.packet) x)
      else s.noEvent
    | _ => s.noEvent
  | none => s.noEvent

/-! ## Formation (R361) -/

/-- A FORM at this package: taken by a consist that forms, held for the CID's own formation until the sender's FLIMIT, or
discarded and recorded where the CID is another owner's (R361). -/
def arriveForm (d : Dev) (p : Packet) (cid rank flimit : Nat) (digest : DWord) : Dev :=
  let hold : Dev := { d with heldForms := d.heldForms ++ [(p, if flimit = 0 then noDeadline else p.stamp + 1000 * flimit)] }
  match heldHere d (cidKey d p.owner cid) with
  | none => hold
  | some k =>
    if k.owner ≠ p.owner then postError d 9 (fnOf d p.owner) 0 1 p.dst
    else if k.state = .forming then takeForm d k.cid rank digest
    else hold

/-- FORM_ARRIVE: a FORM message. -/
def execFormArrive (k : Nat) (s : State) : Res :=
  let s := s.unfocus
  match inboxAt s.dev k with
  | some p => match p.body with
    | .form cid _ digest rank flimit => .next { s with dev := arriveForm (dropInbox s.dev k) p cid rank flimit digest }
    | _ => s.noEvent
  | none => s.noEvent

/-- FORMATION_LIMIT_EXPIRY: FLIMIT passes at a Turntable for the consist kept under a number (cidKey), and the formation ends
with LIMIT (R360, R361). -/
def execFormationLimitExpiry (die cid : Nat) (s : State) : Res :=
  let s := s.unfocus
  match consistAt s.dev die cid with
  | some k =>
    if k.state = .forming && k.limit != 0 && decide (k.limit ≤ s.dev.time) then
      .next (s.onDev fun d => endFormation (freeConsist d cid) cid 2)
    else s.noEvent
  | none => s.noEvent

/-- A member is gone: the collectives of the CID abort with ABORT_MEMBER_GONE, which breaks the consist; a formation ends (R361,
R368). -/
def memberGone (d : Dev) (cid epoch rank : Nat) : Dev :=
  let mine := d.colls.filter fun c => c.cid = cid && c.epoch = epoch && !c.ended && !c.subs.isEmpty
  let d := mine.foldl (fun d c => detectAbort d c.id 4 rank) d
  if (heldHere d cid).any fun k => k.state = .forming then endFormation (freeConsist d cid) cid 5 else d

/-- Signal Box has removed the Turntable of a package and die: the collectives of every consist with that member abort, each of its
members is sent GONE, and the consist is free (R361, R368). -/
def turntableRemoved (d : Dev) (pkg die : Nat) : Dev :=
  let cids := ((d.consists.filter fun k => k.members.contains (pkg, die)).map (·.cid)).eraseDups
  cids.foldl (fun d cid => match heldHere d cid with
    | none => d
    | some k =>
      let rank := (rankOf k.members pkg die).getD 0
      freeConsist (sendGone (memberGone d cid k.epoch rank) k rank) cid) d

/-- CONSIST_GONE: a GONE message. -/
def execConsistGone (k : Nat) (s : State) : Res :=
  let s := s.unfocus
  match inboxAt s.dev k with
  | some p => match p.body with
    | .gone cid rank =>
      let d := dropInbox s.dev k
      .next { s with dev := match heldHere d (cidKey d p.owner cid) with
        | none => d
        | some c => if c.owner ≠ p.owner then postError d 9 (fnOf d p.owner) 0 1 p.dst else memberGone d c.cid c.epoch rank }
    | _ => s.noEvent
  | none => s.noEvent

end Sys2Proof.Machine
end

