-- ==== Sys2Proof/Machine/Integer.lean ====
section
/-! DEFINITION. Integer, logical and predicate lane instructions and immediate moves (05 R85-R95). -/

namespace Sys2Proof.Machine

open Sys2Proof

/-! ## Arithmetic (R86) -/

/-- Clamped to the range of a signed word. -/
def satI32 (n : Int) : Word := wrap32 (min (max n (-2147483648)) 2147483647)
/-- Clamped to the range of an unsigned word. -/
def satN32 (n : Nat) : Word := BitVec.ofNat 32 (min n 4294967295)

def iaddsW (a b : Word) : Word := satI32 (a.toInt + b.toInt)
def iaddsnW (a b : Word) : Word := satN32 (a.toNat + b.toNat)
def imulhW (a b : Word) : Word := wrap32 (a.toInt * b.toInt / 4294967296)
def imulhnW (a b : Word) : Word := BitVec.ofNat 32 (a.toNat * b.toNat / 4294967296)
def iminW (a b : Word) : Word := if b.toInt < a.toInt then b else a
def imaxW (a b : Word) : Word := if a.toInt < b.toInt then b else a
def iminnW (a b : Word) : Word := if b.toNat < a.toNat then b else a
def imaxnW (a b : Word) : Word := if a.toNat < b.toNat then b else a
def iabsdW (a b : Word) : Word := wrap32 ((a.toInt - b.toInt).natAbs)
def andnW (a b : Word) : Word := a &&& ~~~ b

/-! ## Shifts (R87): the count is the whole of B -/

def shlW (a b : Word) : Word := if 32 ≤ b.toNat then 0 else a <<< b.toNat
def shrW (a b : Word) : Word := if 32 ≤ b.toNat then 0 else a >>> b.toNat
def sarW (a b : Word) : Word := a.sshiftRight (min b.toNat 31)
def rotlW (a b : Word) : Word := a.rotateLeft (b.toNat % 32)

/-! ## Single operands (R88) -/

/-- The number of 1 bits among the low n. -/
def popN (n : Nat) (x : Nat) : Nat := ((List.range n).filter fun i => bitOf x i).length

/-- The number of 0 bits above the highest 1 bit among the low n. -/
def clzN (n : Nat) (x : Nat) : Nat := (firstFrom 0 n fun i => bitOf x (n - 1 - i)).getD n

def popcW (a : Word) : Word := BitVec.ofNat 32 (popN 32 a.toNat)
def clzW (a : Word) : Word := BitVec.ofNat 32 (clzN 32 a.toNat)
/-- The number of bits below bit 31, from bit 30 down, that equal bit 31. -/
def clzSgnW (a : Word) : Word :=
  BitVec.ofNat 32 ((firstFrom 0 31 fun i => bitOf a.toNat (30 - i) != bitOf a.toNat 31).getD 31)
def brevW (a : Word) : Word := maskOf fun i => bitOf a.toNat (31 - i)

/-! ## Bitfields (R90) -/

/-- Position and length of a field, from the low half of B. -/
def fieldPos (b : Word) : Nat := bits b.toNat 7 0
def fieldLen (b : Word) : Nat := min (bits b.toNat 15 8) 32

/-- Bit i of the source of a field: past bit 31 it is `fill`. -/
def srcBit (a : Word) (fill : Bool) (i : Nat) : Bool := if i ≤ 31 then bitOf a.toNat i else fill

def bfenW (a b : Word) : Word := maskOf fun i => i < fieldLen b && srcBit a false (fieldPos b + i)

def bfeW (a b : Word) : Word :=
  if fieldLen b = 0 then 0
  else
    let x := maskOf fun i => i < fieldLen b && srcBit a (bitOf a.toNat 31) (fieldPos b + i)
    wrap32 (sext x.toNat (fieldLen b))

/-- The low bits of a placed into d at the field; bits past bit 31 are dropped. -/
def bfiW (a b d : Word) : Word := maskOf fun i =>
  if fieldPos b ≤ i && i < fieldPos b + fieldLen b then bitOf a.toNat (i - fieldPos b) else bitOf d.toNat i

/-! ## Comparison (R37, R91) -/

/-- An integer condition between two words (R37). -/
def condI (c : Cond) (a b : Word) : Bool :=
  match c with
  | .eq => a = b
  | .ne => a ≠ b
  | .lt => a.toInt < b.toInt
  | .le => a.toInt ≤ b.toInt
  | .gt => b.toInt < a.toInt
  | .ge => b.toInt ≤ a.toInt
  | .lo => a.toNat < b.toNat
  | .ls => a.toNat ≤ b.toNat
  | .hi => b.toNat < a.toNat
  | .hs => b.toNat ≤ a.toNat

/-! ## The instructions -/

/-- `iadd vD, vA, B` (R86). -/
def execIadd (d a : VReg) (b : BOp) (s : State) : Res := s.lane2 d a b fun x y => x + y

/-- `iadd vD, vA, imm`, the immediate sign-extended (R86). -/
def execIaddImm (d a : VReg) (i : BitVec 8) (s : State) : Res := s.lane1 d a fun x => x + sx8 i

/-- `isub vD, vA, B` (R86). -/
def execIsub (d a : VReg) (b : BOp) (s : State) : Res := s.lane2 d a b fun x y => x - y

/-- `isub vD, vA, imm`, the immediate sign-extended (R86). -/
def execIsubImm (d a : VReg) (i : BitVec 8) (s : State) : Res := s.lane1 d a fun x => x - sx8 i

/-- `iadds vD, vA, B` (R86). -/
def execIadds (d a : VReg) (b : BOp) (s : State) : Res := s.lane2 d a b fun x y => iaddsW x y

/-- `iadds vD, vA, imm`, the immediate sign-extended (R86). -/
def execIaddsImm (d a : VReg) (i : BitVec 8) (s : State) : Res := s.lane1 d a fun x => iaddsW x (sx8 i)

/-- `iaddsn vD, vA, B` (R86). -/
def execIaddsn (d a : VReg) (b : BOp) (s : State) : Res := s.lane2 d a b fun x y => iaddsnW x y

/-- `iaddsn vD, vA, imm`, the immediate zero-extended (R86). -/
def execIaddsnImm (d a : VReg) (i : BitVec 8) (s : State) : Res := s.lane1 d a fun x => iaddsnW x (zx8 i)

/-- `imul vD, vA, B` (R86). -/
def execImul (d a : VReg) (b : BOp) (s : State) : Res := s.lane2 d a b fun x y => x * y

/-- `imul vD, vA, imm`, the immediate sign-extended (R86). -/
def execImulImm (d a : VReg) (i : BitVec 8) (s : State) : Res := s.lane1 d a fun x => x * sx8 i

/-- `imulh vD, vA, B` (R86). -/
def execImulh (d a : VReg) (b : BOp) (s : State) : Res := s.lane2 d a b fun x y => imulhW x y

/-- `imulhn vD, vA, B` (R86). -/
def execImulhn (d a : VReg) (b : BOp) (s : State) : Res := s.lane2 d a b fun x y => imulhnW x y

/-- `imin vD, vA, B` (R86). -/
def execImin (d a : VReg) (b : BOp) (s : State) : Res := s.lane2 d a b fun x y => iminW x y

/-- `imin vD, vA, imm`, the immediate sign-extended (R86). -/
def execIminImm (d a : VReg) (i : BitVec 8) (s : State) : Res := s.lane1 d a fun x => iminW x (sx8 i)

/-- `imax vD, vA, B` (R86). -/
def execImax (d a : VReg) (b : BOp) (s : State) : Res := s.lane2 d a b fun x y => imaxW x y

/-- `imax vD, vA, imm`, the immediate sign-extended (R86). -/
def execImaxImm (d a : VReg) (i : BitVec 8) (s : State) : Res := s.lane1 d a fun x => imaxW x (sx8 i)

/-- `iminn vD, vA, B` (R86). -/
def execIminn (d a : VReg) (b : BOp) (s : State) : Res := s.lane2 d a b fun x y => iminnW x y

/-- `iminn vD, vA, imm`, the immediate zero-extended (R86). -/
def execIminnImm (d a : VReg) (i : BitVec 8) (s : State) : Res := s.lane1 d a fun x => iminnW x (zx8 i)

/-- `imaxn vD, vA, B` (R86). -/
def execImaxn (d a : VReg) (b : BOp) (s : State) : Res := s.lane2 d a b fun x y => imaxnW x y

/-- `imaxn vD, vA, imm`, the immediate zero-extended (R86). -/
def execImaxnImm (d a : VReg) (i : BitVec 8) (s : State) : Res := s.lane1 d a fun x => imaxnW x (zx8 i)

/-- `iabsd vD, vA, B` (R86). -/
def execIabsd (d a : VReg) (b : BOp) (s : State) : Res := s.lane2 d a b fun x y => iabsdW x y

/-- `and vD, vA, B` (R86). -/
def execAnd (d a : VReg) (b : BOp) (s : State) : Res := s.lane2 d a b fun x y => x &&& y

/-- `and vD, vA, imm`, the immediate zero-extended (R86). -/
def execAndImm (d a : VReg) (i : BitVec 8) (s : State) : Res := s.lane1 d a fun x => x &&& zx8 i

/-- `or vD, vA, B` (R86). -/
def execOr (d a : VReg) (b : BOp) (s : State) : Res := s.lane2 d a b fun x y => x ||| y

/-- `or vD, vA, imm`, the immediate zero-extended (R86). -/
def execOrImm (d a : VReg) (i : BitVec 8) (s : State) : Res := s.lane1 d a fun x => x ||| zx8 i

/-- `xor vD, vA, B` (R86). -/
def execXor (d a : VReg) (b : BOp) (s : State) : Res := s.lane2 d a b fun x y => x ^^^ y

/-- `xor vD, vA, imm`, the immediate zero-extended (R86). -/
def execXorImm (d a : VReg) (i : BitVec 8) (s : State) : Res := s.lane1 d a fun x => x ^^^ zx8 i

/-- `andn vD, vA, B` (R86). -/
def execAndn (d a : VReg) (b : BOp) (s : State) : Res := s.lane2 d a b fun x y => andnW x y

/-- `andn vD, vA, imm`, the immediate zero-extended (R86). -/
def execAndnImm (d a : VReg) (i : BitVec 8) (s : State) : Res := s.lane1 d a fun x => andnW x (zx8 i)

/-- `shl vD, vA, B` (R87). -/
def execShl (d a : VReg) (b : BOp) (s : State) : Res := s.lane2 d a b fun x y => shlW x y

/-- `shl vD, vA, imm`, the immediate zero-extended (R87). -/
def execShlImm (d a : VReg) (i : BitVec 8) (s : State) : Res := s.lane1 d a fun x => shlW x (zx8 i)

/-- `shr vD, vA, B` (R87). -/
def execShr (d a : VReg) (b : BOp) (s : State) : Res := s.lane2 d a b fun x y => shrW x y

/-- `shr vD, vA, imm`, the immediate zero-extended (R87). -/
def execShrImm (d a : VReg) (i : BitVec 8) (s : State) : Res := s.lane1 d a fun x => shrW x (zx8 i)

/-- `sar vD, vA, B` (R87). -/
def execSar (d a : VReg) (b : BOp) (s : State) : Res := s.lane2 d a b fun x y => sarW x y

/-- `sar vD, vA, imm`, the immediate zero-extended (R87). -/
def execSarImm (d a : VReg) (i : BitVec 8) (s : State) : Res := s.lane1 d a fun x => sarW x (zx8 i)

/-- `rotl vD, vA, B` (R87). -/
def execRotl (d a : VReg) (b : BOp) (s : State) : Res := s.lane2 d a b fun x y => rotlW x y

/-- `rotl vD, vA, imm`, the immediate zero-extended (R87). -/
def execRotlImm (d a : VReg) (i : BitVec 8) (s : State) : Res := s.lane1 d a fun x => rotlW x (zx8 i)

/-- `popc vD, vA` (R88). -/
def execPopc (d a : VReg) (s : State) : Res := s.lane1 d a popcW

/-- `clz vD, vA` (R88). -/
def execClz (d a : VReg) (s : State) : Res := s.lane1 d a clzW

/-- `clz.sgn vD, vA` (R88). -/
def execClzSgn (d a : VReg) (s : State) : Res := s.lane1 d a clzSgnW

/-- `brev vD, vA` (R88). -/
def execBrev (d a : VReg) (s : State) : Res := s.lane1 d a brevW

/-- `mov vD, vA` (R88). -/
def execMov (d a : VReg) (s : State) : Res := s.lane1 d a fun x => x

/-- `mov.b64` copies a pair (R88). -/
def execMovB64 (d a : VReg) (s : State) : Res := 
  s.laneOp [.v a 2] [.v d 2] fun t => t.wv2 t.part d fun L => t.rv2 L a

/-- `movs vD, sB` (R89). -/
def execMovs (d : VReg) (b : SReg) (s : State) : Res := 
  s.laneOp [.s b 1] [.v d 1] fun t => t.wv t.part d fun _ => (t.rs b).setWidth 32

/-- `bfe vD, vA, B` (R90). -/
def execBfe (d a : VReg) (b : BOp) (s : State) : Res := s.lane2 d a b bfeW

/-- `bfen vD, vA, B` (R90). -/
def execBfen (d a : VReg) (b : BOp) (s : State) : Res := s.lane2 d a b bfenW

/-- `bfi vD, vA, B` reads D (R90). -/
def execBfi (d a : VReg) (b : BOp) (s : State) : Res := s.lane3 d a b bfiW

/-- `icmp.cond pN, vA, B` (R91). -/
def execIcmp (c : Cond) (p : PReg) (a : VReg) (b : BOp) (s : State) : Res := 
  s.laneOp [.v a 1, opndB 1 b] [.p p] fun t => t.wp t.part p fun L => condI c (t.rv L a) (t.rb L b)

/-- `icmp.cond pN, vA, imm`, the immediate sign-extended (R91). -/
def execIcmpImm (c : Cond) (p : PReg) (a : VReg) (i : BitVec 8) (s : State) : Res := 
  s.laneOp [.v a 1] [.p p] fun t => t.wp t.part p fun L => condI c (t.rv L a) (sx8 i)

/-- `imuladd vD, vA, vB, vC` (R92). -/
def execImuladd (d a b : VReg) (c : Fin 32) (s : State) : Res := 
  s.laneABC d a b (cReg c) fun x y z => x * y + z

/-- `itadd vD, vA, vB, vC` (R92). -/
def execItadd (d a b : VReg) (c : Fin 32) (s : State) : Res := 
  s.laneABC d a b (cReg c) fun x y z => x + y + z

/-- `vsel vD, vA, vB, [!]pN` (R92). -/
def execVsel (d a b : VReg) (n : Bool) (p : PReg) (s : State) : Res := 
  s.laneOp [.v a 1, .v b 1, .p p] [.v d 1] fun t =>
    t.wv t.part d fun L => if t.rp L p != n then t.rv L a else t.rv L b

/-- `movi.hH vD, imm16` clears the other half (R93). -/
def execMovi (d : VReg) (h : Bool) (i : BitVec 16) (s : State) : Res := 
  s.laneOp [] [.v d 1] fun t => t.wv t.part d fun _ => i.setWidth 32 <<< (16 * b2n h)

/-- `movk.hH vD, imm16` keeps the other half (R93). -/
def execMovk (d : VReg) (h : Bool) (i : BitVec 16) (s : State) : Res := 
  s.laneOp [.v d 1] [.v d 1] fun t => t.wv t.part d fun L =>
    if h then i ++ (t.rv L d).extractLsb' 0 16 else (t.rv L d).extractLsb' 16 16 ++ i

/-- `movsx vD, imm16` (R93). -/
def execMovsx (d : VReg) (i : BitVec 16) (s : State) : Res := s.laneOp [] [.v d 1] fun t => t.wv t.part d fun _ => sx16 i

/-- The `f32` encoding of an `f16` immediate (R93). -/
def halfImm (i : BitVec 16) : Word := BitVec.ofNat 32 (exactF f32 (f16.val i.toNat))

/-- `movh vD, fimm`: exact, no DAZ, no flags (R93). -/
def execMovh (d : VReg) (i : BitVec 16) (s : State) : Res := 
  s.laneOp [] [.v d 1] fun t => t.wv t.part d fun _ => halfImm i

/-- The function of `plop` and `qlop`: and, or, xor, mov (R94, R101). -/
def predOp (o : Nat) (x y : Bool) : Bool :=
  match o with
  | 0 => x && y
  | 1 => x || y
  | 2 => x != y
  | _ => x

/-- `plop.op pD, [!]pA, [!]pB` (R94). -/
def execPlop (d : PReg) (o : Fin 8) (x : Bool) (a : PReg) (y : Bool) (b : PReg) (s : State) : Res := 
  s.laneOp [.p a, .p b] [.p d] fun t => t.wp t.part d fun L => predOp o (t.rp L a != x) (t.rp L b != y)

/-- `p2v vD`: p0 to p7 in bits 0 to 7 (R95). -/
def execP2v (d : VReg) (s : State) : Res := 
  s.laneOp ((List.range 8).map fun i => .p i) [.v d 1] fun t => t.wv t.part d fun L =>
    maskOf fun i => decide (i < 8) && t.rp L i

/-- `v2p pN, vA, bit` (R95). -/
def execV2p (p : PReg) (a : VReg) (b : Fin 32) (s : State) : Res := 
  s.laneOp [.v a 1] [.p p] fun t => t.wp t.part p fun L => bitOf (t.rv L a).toNat b

end Sys2Proof.Machine
end

