-- ==== Sys2Proof/Machine/Floating.lean ====
section
/-! DEFINITION. Floating-point lane instructions that are not counted (06 R103-R112). -/

namespace Sys2Proof.Machine

open Sys2Proof

/-! ## Shapes -/

/-- The flags that the lanes of T raise, together (R103). -/
def orLanes (T : Mask) (f : Nat → FFlags) : FFlags := (lanesOf T).foldl (fun m L => m ||| f L) 0

/-- A word result from its encoding. -/
def wordOf (r : Nat × FFlags) : Word := BitVec.ofNat 32 r.1
/-- A double-word result from its encoding. -/
def dwordOf (r : Nat × FFlags) : DWord := BitVec.ofNat 64 r.1

/-- DAZ as FMT holds it (R67). -/
def State.daz (s : State) (w : Word) : Nat := daz32 (fmtDAZ s.slot.fmt) w.toNat

/-- The kind of a packed half (R79). -/
def State.hk (s : State) : Fmt := halfKind (fmtHK s.slot.fmt)

/-- Each lane's result and flags written and ORed (R103). -/
def State.wf (s : State) (d : Nat) (r : Nat → Nat × FFlags) : State :=
  (s.wv s.part d fun L => wordOf (r L)).raiseFlags (orLanes s.part fun L => (r L).2)

/-- The same for pairs. -/
def State.wf2 (s : State) (d : Nat) (r : Nat → Nat × FFlags) : State :=
  (s.wv2 s.part d fun L => dwordOf (r L)).raiseFlags (orLanes s.part fun L => (r L).2)

/-- A binary `f32` instruction: A and B read after DAZ (R106). -/
def State.float2 (s : State) (d a : VReg) (b : BOp) (f : Nat → Nat → Nat × FFlags) : Res :=
  s.laneOp [.v a 1, opndB 1 b] [.v d 1] fun t => t.wf d fun L => f (t.daz (t.rv L a)) (t.daz (t.rb L b))

/-- A binary packed-half instruction: no DAZ (R111). -/
def State.half2 (s : State) (d a : VReg) (b : BOp) (f : Fmt → Nat → Nat → Nat × FFlags) : Res :=
  s.laneOp [.v a 1, opndB 1 b] [.v d 1] fun t => t.wf d fun L => halves t.hk f (t.rv L a).toNat (t.rb L b).toNat

/-- A binary `f64` instruction on pairs (R112). -/
def State.double2 (s : State) (d a : VReg) (b : BOp) (f : Nat → Nat → Nat × FFlags) : Res :=
  s.laneOp [.v a 2, opndB 2 b] [.v d 2] fun t => t.wf2 d fun L => f (t.rv2 L a).toNat (t.rb2 L b).toNat

/-- An instruction that reads RM: a reserved value traps, whether or not a lane takes part (R103). -/
def State.withRM (s : State) (f : Rnd → Res) : Res :=
  match fmtRM s.slot.fmt with
  | some m => f m
  | none => .next (s.badOperand 0)

/-- A pair with f applied to its high word. -/
def onHigh (f : Word → Word) (x : DWord) : DWord := f ((x >>> 32).setWidth 32) ++ (x.setWidth 32 : Word)

/-- Half k results of `hfmad2` together. -/
def fmaHalves (F : Fmt) (a b c : Nat) : Nat × FFlags :=
  let lo := fmaF F (a % 65536) (b % 65536) (c % 65536)
  let hi := fmaF F (a / 65536 % 65536) (b / 65536 % 65536) (c / 65536 % 65536)
  (hi.1 * 65536 + lo.1, lo.2 ||| hi.2)

/-! ## The instructions -/

/-- `fadd vD, vA, B` (R106). -/
def execFadd (d a : VReg) (b : BOp) (s : State) : Res := s.float2 d a b (addF f32)

/-- `fsub vD, vA, B` (R106). -/
def execFsub (d a : VReg) (b : BOp) (s : State) : Res := s.float2 d a b (subF f32)

/-- `fmul vD, vA, B` (R106). -/
def execFmul (d a : VReg) (b : BOp) (s : State) : Res := s.float2 d a b (mulF f32)

/-- `fmin vD, vA, B` (R107). -/
def execFmin (d a : VReg) (b : BOp) (s : State) : Res := s.float2 d a b fun x y => (minF f32 x y, 0)

/-- `fmax vD, vA, B` (R107). -/
def execFmax (d a : VReg) (b : BOp) (s : State) : Res := s.float2 d a b fun x y => (maxF f32 x y, 0)

/-- `fcmp.cond pN, vA, B` (R109). -/
def execFcmp (c : FCond) (p : PReg) (a : VReg) (b : BOp) (s : State) : Res := 
  s.laneOp [.v a 1, opndB 1 b] [.p p] fun t => t.wp t.part p fun L => condF f32 c (t.daz (t.rv L a)) (t.daz (t.rb L b))

/-- `fabs vD, vA`, on bits alone (R110). -/
def execFabs (d a : VReg) (s : State) : Res := s.lane1 d a fun x => x &&& 0x7FFFFFFF

/-- `fabs.h2 vD, vA`, on bits alone (R110). -/
def execFabsH2 (d a : VReg) (s : State) : Res := s.lane1 d a fun x => x &&& 0x7FFF7FFF

/-- `fneg vD, vA`, on bits alone (R110). -/
def execFneg (d a : VReg) (s : State) : Res := s.lane1 d a fun x => x ^^^ 0x80000000

/-- `fneg.h2 vD, vA`, on bits alone (R110). -/
def execFnegH2 (d a : VReg) (s : State) : Res := s.lane1 d a fun x => x ^^^ 0x80008000

/-- `fabs.d` on a pair (R110). -/
def execFabsD (d a : VReg) (s : State) : Res := 
  s.laneOp [.v a 2] [.v d 2] fun t => t.wv2 t.part d fun L => onHigh (fun x => x &&& 0x7FFFFFFF) (t.rv2 L a)

/-- `fneg.d` on a pair (R110). -/
def execFnegD (d a : VReg) (s : State) : Res := 
  s.laneOp [.v a 2] [.v d 2] fun t => t.wv2 t.part d fun L => onHigh (fun x => x ^^^ 0x80000000) (t.rv2 L a)

/-- `frnd vD, vA` in the mode of FMT.RM (R110). -/
def execFrnd (d a : VReg) (s : State) : Res := 
  s.withRM fun m => s.laneOp [.v a 1] [.v d 1] fun t =>
    t.wv t.part d fun L => BitVec.ofNat 32 (rndF f32 m (t.daz (t.rv L a)))

/-- `frnd.d` on a pair (R110). -/
def execFrndD (d a : VReg) (s : State) : Res := 
  s.withRM fun m => s.laneOp [.v a 2] [.v d 2] fun t =>
    t.wv2 t.part d fun L => BitVec.ofNat 64 (rndF f64 m (t.rv2 L a).toNat)

/-- `ffmad vD, vA, B` reads D (R108). -/
def execFfmad (d a : VReg) (b : BOp) (s : State) : Res := 
  s.laneOp [.v a 1, opndB 1 b, .v d 1] [.v d 1] fun t =>
    t.wf d fun L => fmaF f32 (t.daz (t.rv L a)) (t.daz (t.rb L b)) (t.daz (t.rv L d))

/-- `ffmadc vD, vA, vB, vC` (R108). -/
def execFfmadc (d a b : VReg) (c : Fin 32) (s : State) : Res := 
  s.laneOp [.v a 1, .v b 1, .v (cReg c) 1] [.v d 1] fun t =>
    t.wf d fun L => fmaF f32 (t.daz (t.rv L a)) (t.daz (t.rv L b)) (t.daz (t.rv L (cReg c)))

/-- `fscl vD, vA, B`: B is an integer that DAZ never touches (R106). -/
def execFscl (d a : VReg) (b : BOp) (s : State) : Res := 
  s.laneOp [.v a 1, opndB 1 b] [.v d 1] fun t => t.wf d fun L => sclF (t.daz (t.rv L a)) (t.rb L b).toInt

/-- `hadd2` (R111). -/
def execHadd2 (d a : VReg) (b : BOp) (s : State) : Res := s.half2 d a b addF

/-- `hmul2` (R111). -/
def execHmul2 (d a : VReg) (b : BOp) (s : State) : Res := s.half2 d a b mulF

/-- `hmin2` (R111). -/
def execHmin2 (d a : VReg) (b : BOp) (s : State) : Res := s.half2 d a b fun F x y => (minF F x y, 0)

/-- `hmax2` (R111). -/
def execHmax2 (d a : VReg) (b : BOp) (s : State) : Res := s.half2 d a b fun F x y => (maxF F x y, 0)

/-- `hfmad2` reads D (R111). -/
def execHfmad2 (d a : VReg) (b : BOp) (s : State) : Res := 
  s.laneOp [.v a 1, opndB 1 b, .v d 1] [.v d 1] fun t =>
    t.wf d fun L => fmaHalves t.hk (t.rv L a).toNat (t.rb L b).toNat (t.rv L d).toNat

/-- `dadd` (R112). -/
def execDadd (d a : VReg) (b : BOp) (s : State) : Res := s.double2 d a b (addF f64)

/-- `dmul` (R112). -/
def execDmul (d a : VReg) (b : BOp) (s : State) : Res := s.double2 d a b (mulF f64)

/-- `dfmad` reads D (R112). -/
def execDfmad (d a : VReg) (b : BOp) (s : State) : Res := 
  s.laneOp [.v a 2, opndB 2 b, .v d 2] [.v d 2] fun t =>
    t.wf2 d fun L => fmaF f64 (t.rv2 L a).toNat (t.rb2 L b).toNat (t.rv2 L d).toNat

/-- `dcmp.cond pN, vA, B` (R112). -/
def execDcmp (c : FCond) (p : PReg) (a : VReg) (b : BOp) (s : State) : Res := 
  s.laneOp [.v a 2, opndB 2 b] [.p p] fun t =>
    t.wp t.part p fun L => condF f64 c (t.rv2 L a).toNat (t.rb2 L b).toNat

end Sys2Proof.Machine
end

