-- ==== Sys2Proof/Machine/Convert.lean ====
section
/-! DEFINITION. Special functions, division and conversions, counted by SETA (06 R113-R121). -/

namespace Sys2Proof.Machine

open Sys2Proof

/-! ## Results written at completion (R26, R28) -/

/-- The register words that lanes of T write through n registers from d. -/
def State.destKeys (s : State) (T : Mask) (d n : Nat) : List Nat :=
  (lanesOf T).flatMap fun L => (List.range n).map fun i => s.vkey L (d + i)

/-- A counted operation whose lanes write n registers from d when it completes; with no lane it completes at once. -/
def State.issueV (s : State) (T : Mask) (d n : Nat) (f : Nat → Nat → Word) : State :=
  if T = 0 then s else s.count true fun e =>
    { e with
      vkeys := s.destKeys T d n
      vals := (lanesOf T).flatMap fun L => (List.range n).map fun i => (s.vkey L (d + i), f L i) }

/-- Word i of a 64-bit result. -/
def halfOf (x : DWord) (i : Nat) : Word := if i = 0 then x.setWidth 32 else (x >>> 32).setWidth 32

/-- A counted conversion: n destination registers, results as a double word, flags of each lane (R103). -/
def State.convert (s : State) (rd : List Opnd) (d n : Nat) (r : State → Nat → DWord × FFlags) : Res :=
  s.counted true s.part rd [.v d n] fun t =>
    .next ((t.issueV t.part d n fun L i => halfOf (r t L).1 i).raiseFlags (orLanes t.part fun L => (r t L).2)).advance

/-- An encoding and its flags as a conversion result. -/
def res32 (r : Nat × FFlags) : DWord × FFlags := (dw r.1, r.2)

/-- A special function (R113). -/
def State.special (s : State) (f : SpecialFn) (d a : VReg) : Res :=
  s.convert [.v a 1] d 1 fun t L => res32 (specialF f (t.daz (t.rv L a)))

/-- Integer results of n bits as a register value: sign- or zero-extended by the type (R117). -/
def intRes (r : Int × FFlags) : DWord × FFlags := (wrap64 r.1, r.2)

/-- The exact `f32` value in a register, after DAZ (R116). -/
def State.val32 (s : State) (L r : Nat) : Val := f32.val (s.daz (s.rv L r))

/-- An integer of type code t read from a register or pair (R117). -/
def State.intAt (s : State) (L r t : Nat) : Int :=
  cvtInt t (if cvtWidth t = 64 then (s.rv2 L r).toNat else (s.rv L r).toNat)

/-- Registers that a type code takes. -/
def cvtRegs (t : Nat) : Nat := if cvtWidth t = 64 then 2 else 1

/-- n results of w bits packed, lowest first, with the flags of each (R119). -/
def packed (w n : Nat) (f : Nat → Nat × FFlags) : DWord × FFlags :=
  ((List.range n).foldl (fun m k => m ||| dw ((f k).1 * 2 ^ (w * k))) 0, (List.range n).foldl (fun m k => m ||| (f k).2) 0)

/-! ## The instructions -/

/-- `rcp vD, vA`, correctly rounded (R113). -/
def execRcp (d a : VReg) (s : State) : Res := s.special .rcp d a

/-- `rsq vD, vA`, correctly rounded (R113). -/
def execRsq (d a : VReg) (s : State) : Res := s.special .rsq d a

/-- `sqrt vD, vA`, correctly rounded (R113). -/
def execSqrt (d a : VReg) (s : State) : Res := s.special .sqrt d a

/-- `ex2 vD, vA`, correctly rounded (R113). -/
def execEx2 (d a : VReg) (s : State) : Res := s.special .ex2 d a

/-- `lg2 vD, vA`, correctly rounded (R113). -/
def execLg2 (d a : VReg) (s : State) : Res := s.special .lg2 d a

/-- `sin vD, vA`, correctly rounded (R113). -/
def execSin (d a : VReg) (s : State) : Res := s.special .sin d a

/-- `cos vD, vA`, correctly rounded (R113). -/
def execCos (d a : VReg) (s : State) : Res := s.special .cos d a

/-- `tanh vD, vA`, correctly rounded (R113). -/
def execTanh (d a : VReg) (s : State) : Res := s.special .tanh d a

/-- `fdiv vD, vA, vB` (R114). -/
def execFdiv (d a b : VReg) (s : State) : Res := 
  s.convert [.v a 1, .v b 1] d 1 fun t L => res32 (divF (t.daz (t.rv L a)) (t.daz (t.rv L b)))

/-- `cvtf.T vD, vA` (R117). -/
def execCvtf (d a : VReg) (t : Fin 8) (s : State) : Res := 
  s.withRM fun m => s.convert [.v a (cvtRegs t)] d 1 fun x L => res32 (roundFp f32 m false (intVal (x.intAt L a t)))

/-- `cvti.T vD, vA`, saturating (R117). -/
def execCvti (d a : VReg) (t : Fin 8) (s : State) : Res := 
  s.withRM fun m => s.convert [.v a 1] d (cvtRegs t) fun x L =>
    intRes (roundInt (intLo (cvtSigned t) (cvtWidth t)) (intHi (cvtSigned t) (cvtWidth t)) m (x.val32 L a))

/-- `cvtd.f32 vD, vA` (R118). -/
def execCvtdF32 (d a : VReg) (s : State) : Res := 
  s.withRM fun m => s.convert [.v a 2] d 1 fun x L => res32 (roundFp f32 m false (f64.val (x.rv2 L a).toNat))

/-- `cvtd.f64 vD, vA`, exact (R118). -/
def execCvtdF64 (d a : VReg) (s : State) : Res := 
  s.convert [.v a 1] d 2 fun x L => (dw (exactF f64 (x.val32 L a)), 0)

/-- `cvtdf.i.T vD, vA`, saturating (R118). -/
def execCvtdfI (d a : VReg) (t : Fin 4) (s : State) : Res := 
  s.withRM fun m => s.convert [.v a 2] d (cvtRegs t) fun x L =>
    intRes (roundInt (intLo (cvtSigned t) (cvtWidth t)) (intHi (cvtSigned t) (cvtWidth t)) m (f64.val (x.rv2 L a).toNat))

/-- `cvtdf.f.T vD, vA` (R118). -/
def execCvtdfF (d a : VReg) (t : Fin 4) (s : State) : Res := 
  s.withRM fun m => s.convert [.v a (cvtRegs t)] d 2 fun x L => res32 (roundFp f64 m false (intVal (x.intAt L a t)))

/-- `cvth2 vD, vA, vB` (R119). -/
def execCvth2 (d a b : VReg) (s : State) : Res := 
  s.withRM fun m => s.convert [.v a 1, .v b 1] d 1 fun x L =>
    packed 16 2 fun k => roundFp x.hk m false (x.val32 L (if k = 0 then a else b))

/-- `cvtb4 vD, vA` (R119). -/
def execCvtb4 (d a : VReg) (s : State) : Res := 
  s.withRM fun m => s.convert (eachV a 4) d 1 fun x L => packed 8 4 fun k =>
    toNarrow (fmtNF x.slot.fmt) m (fmtSAT x.slot.fmt) (fmtSEXP x.slot.fmt) (x.val32 L (a + k))

/-- `cvtb4.q vD, vA` (R119). -/
def execCvtb4Q (d a : VReg) (s : State) : Res := 
  s.withRM fun m => s.convert (eachV a 8) d 1 fun x L => packed 4 8 fun k =>
    toNibble (fmtI4S x.slot.fmt) m (fmtSEXP x.slot.fmt) (x.val32 L (a + k))

/-- Element e of a packed word in the kind that code k names (R120). -/
def unpackVal (fmt : BitVec 16) (k e x : Nat) : Val :=
  match k with
  | 0 => (halfKind (fmtHK fmt)).val (bits x (16 * e + 15) (16 * e))
  | 1 => scaleVal (narrowVal (fmtNF fmt) (bits x (8 * e + 7) (8 * e))) (fmtSEXP fmt)
  | _ => scaleVal (nibbleVal (fmtI4S fmt) (bits x (4 * e + 3) (4 * e))) (fmtSEXP fmt)

/-- `unpk vD, vA, e`, exact, no flag (R120). -/
def execUnpk (d a : VReg) (k : Fin 16) (e : Fin 8) (s : State) : Res := 
  s.convert [.v a 1] d 1 fun x L => (dw (exactF f32 (unpackVal x.slot.fmt k e (x.rv L a).toNat)), 0)

/-- `qnt vD, vA` (R121). -/
def execQnt (d a : VReg) (s : State) : Res := 
  s.withRM fun m => s.convert [.v a 1] d 1 fun x L => res32 (quantise m (fmtSEXP x.slot.fmt) (x.val32 L a))

end Sys2Proof.Machine
end

