-- ==== Sys2Proof/Machine/GroupOps.lean ====
section
/-! DEFINITION. Group-wide operations (09 R189-R194): lane exchanges, polls, peer searches, reductions, scans, lane
values. -/

namespace Sys2Proof.Machine

open Sys2Proof

/-! ## The common rules (R189, R190) -/

/-- What a group-wide operation writes when it completes: vector results, results in a predicate, VALID (R189). -/
def State.issueG (s : State) (T : Mask) (d : Option Nat) (f : Nat → Word) (p : Option Nat) (b : Nat → Bool)
    (valid : Nat → Bool) : State :=
  let lane := fun (k L : Nat) (x : Bool) => (k, BitVec.ofNat 32 (2 ^ L), if x then BitVec.ofNat 32 (2 ^ L) else 0#32)
  s.count true fun e =>
    { e with
      vkeys := match d with | some d => s.destKeys T d 1 | none => []
      vals := match d with | some d => (lanesOf T).map fun L => (s.vkey L d, f L) | none => []
      pkeys := 7 :: (match p with | some p => (lanesOf T).map fun L => s.pname L p | none => [])
      preds := (match p with | some p => (lanesOf T).map fun L => lane (s.pname L p) L (b L) | none => []) ++
        (lanesOf T).map fun L => lane 7 L (valid L) }

/-- The lanes that break the check of MM (R190): members that have exited, or taking part outside MM. -/
def State.strangers (s : State) (T : Mask) : Mask := (s.grp.mm &&& ~~~ s.grp.live) ||| (T &&& ~~~ s.grp.mm)

/-- A group-wide operation that checks MM (R190); with no lane taking part it completes at once (R189). -/
def State.groupOp (s : State) (rd wr : List Opnd) (f : State → State) : Res :=
  if s.part != 0 && s.strangers s.part != 0 then
    .next (s.trapMask cMEMBER_MASK s.part (Mask.dw s.grp.mm) (Mask.dw (s.strangers s.part)) 0 0)
  else s.counted true s.part rd (.p 7 :: wr) fun t => .next (if t.part = 0 then t else f t).advance

/-- A group-wide operation on one vector operand, each lane's result from all operands; VALID is 1. -/
def State.groupV (s : State) (d a : VReg) (f : State → Nat → Word) : Res :=
  s.groupOp [.v a 1] [.v d 1] fun t => t.issueG t.part (some d) (f t) none (fun _ => false) fun _ => true

/-! ## Lane exchanges (R191) -/

/-- The value that lane L receives from source lane n, and whether it is a lane of T. -/
def State.fromLane (s : State) (a : VReg) (L : Nat) (n : Int) : Word × Bool :=
  if 0 ≤ n ∧ n ≤ 31 then
    if inM s.part n.toNat then (s.rv n.toNat a, true) else (s.rv L a, false)
  else (s.rv L a, false)

/-- An exchange whose source lane is f of the lane and its operand (R191). -/
def State.exchange (s : State) (d a b : VReg) (f : Nat → Nat → Int) : Res :=
  s.groupOp [.v a 1, .v b 1] [.v d 1] fun t =>
    let r := fun L => t.fromLane a L (f L (t.rv L b).toNat)
    t.issueG t.part (some d) (fun L => (r L).1) none (fun _ => false) fun L => (r L).2

/-! ## Polls (R192) -/

/-- The lanes of T whose source predicate, inverted or not, is 1. -/
def State.polled (s : State) (x : Bool) (a : PReg) : Mask := maskOf fun L => inM s.part L && (s.rp L a != x)

/-- A poll into a predicate. -/
def State.poll (s : State) (n : PReg) (x : Bool) (a : PReg) (f : Mask → Mask → Bool) : Res :=
  s.groupOp [.p a] [.p n] fun t =>
    t.issueG t.part none (fun _ => 0) (some n) (fun _ => f t.part (t.polled x a)) fun _ => true

/-- The lanes of T whose operand has the bits x. -/
def State.peers (s : State) (a : VReg) (x : Word) : Mask := maskOf fun L => inM s.part L && s.rv L a = x

/-- Every operand of T is equal (R192). -/
def State.uniform (s : State) (a : VReg) : Bool := s.peers a (s.rv (lowest s.part) a) = s.part

/-! ## Reductions and scans (R193) -/

/-- The operands of the lanes of T in lane order. -/
def State.operands (s : State) (a : VReg) : List Word := (lanesOf s.part).map fun L => s.rv L a

/-- The operands of all 32 lanes for a floating sum: -0.0 outside T, DAZ inside (R83, R193). -/
def State.addends (s : State) (a : VReg) : List Nat :=
  (List.range 32).map fun L => if inM s.part L then s.daz (s.rv L a) else 0x80000000

/-- A NaN as the canonical one. -/
def canonNaN (x : Nat) : Nat := if f32.val x = .nan then f32.nan else x

/-- The least or greatest of a list that is not empty. -/
def extreme (f : Nat → Nat → Nat) (l : List Nat) : Nat :=
  match l with
  | [] => 0
  | x :: t => t.foldl f x

/-- `gred.min` or `gred.max` by kind: signed, unsigned, `f32` (R107, R193). -/
def State.extremeOf (s : State) (max : Bool) (k : Nat) (a : VReg) : Word :=
  let l := (s.operands a).map (·.toNat)
  BitVec.ofNat 32 (match k with
    | 0 => extreme (if max then maxS 32 else minS 32) l
    | 1 => extreme (if max then maxU else minU) l
    | _ => canonNaN (extreme (if max then maxF f32 else minF f32) ((s.operands a).map s.daz)))

/-- Sums of increasing prefixes, each addition rounded: the first element, then one more at each step (R83). -/
def prefixSums (acc : Nat × FFlags) : List Nat → List (Nat × FFlags)
  | [] => [acc]
  | x :: t => acc :: prefixSums (addTrack acc (x, 0)) t

/-- The lane-order sums of a scan, by lane (R83). -/
def scanSums (l : List Nat) : List (Nat × FFlags) :=
  match l with
  | [] => []
  | x :: t => prefixSums (canonNaN x, 0) t

/-- `gscan.fadd` in its two forms (R193): the exclusive form forms only the sums that some lane receives. -/
def State.floatScan (s : State) (d a : VReg) (excl : Bool) : Res :=
  s.groupOp [.v a 1] [.v d 1] fun t =>
    let sums := scanSums ((t.addends a).take (if excl then 31 else 32))
    let r := if excl then (0x80000000, 0) :: sums else sums
    (t.issueG t.part (some d) (fun L => wordOf (nth (0, 0) r L)) none (fun _ => false) fun _ => true).raiseFlags
      ((sums.getLast?.map (·.2)).getD 0)

/-- The wrapping sum of the lanes of T below a bound (R193). -/
def State.sumBelow (s : State) (a : VReg) (n : Nat) : Word :=
  (lanesOf s.part).foldl (fun m L => if L < n then m + s.rv L a else m) 0

/-! ## Lane values and masks (R194) -/

/-- The lanes of path A and path B of the slot's region; outside one, all and none. -/
def State.pathA (s : State) : Mask := if s.inRegion then s.slot.act &&& ~~~ s.grp.meld.bmask else s.slot.act
def State.pathB (s : State) : Mask := if s.inRegion then s.grp.meld.bmask else 0

/-- The codes of `sysv`. -/
def State.laneCode (s : State) (code L : Nat) : Word :=
  match code with
  | 0 => BitVec.ofNat 32 L
  | 1 => BitVec.ofNat 32 (2 ^ L - 1)
  | 2 => BitVec.ofNat 32 (2 ^ (L + 1) - 1)
  | 3 => ~~~ BitVec.ofNat 32 (2 ^ (L + 1) - 1)
  | 4 => ~~~ BitVec.ofNat 32 (2 ^ L - 1)
  | _ => if s.inRegion then if inM s.grp.meld.bmask L then 2 else 1 else 0

/-- The codes of `vmask`. -/
def State.maskCode (s : State) (code : Nat) : Word :=
  match code with
  | 0 => s.part
  | 1 => s.slot.act
  | 2 => s.grp.live
  | 3 => s.pathA
  | 4 => s.pathB
  | _ => s.grp.mm

/-- `sysv` and `vmask`: no check of MM (R190). -/
def State.readLanes (s : State) (d : Fin 128) (f : State → Nat → Word) : Res :=
  s.counted true s.part [] [.p 7, .v d 1] fun t =>
    .next (if t.part = 0 then t else
      t.issueG t.part (some d) (f t) none (fun _ => false) fun _ => true).advance

/-! ## The instructions -/

/-- `lxg.at vD, vA, vB` (R191). -/
def execLxgAt (d a b : VReg) (s : State) : Res := s.exchange d a b fun _ n => n

/-- `lxg.back vD, vA, vB` (R191). -/
def execLxgBack (d a b : VReg) (s : State) : Res := s.exchange d a b fun L n => (L : Int) - n

/-- `lxg.fwd vD, vA, vB` (R191). -/
def execLxgFwd (d a b : VReg) (s : State) : Res := s.exchange d a b fun L n => (L : Int) + n

/-- `lxg.flip vD, vA, vB` (R191). -/
def execLxgFlip (d a b : VReg) (s : State) : Res := s.exchange d a b fun L n => (L ^^^ n : Nat)

/-- `gpred.any pN, [!]pA` (R192). -/
def execGpredAny (n : PReg) (x : Bool) (a : PReg) (s : State) : Res := s.poll n x a fun _ m => m != 0

/-- `gpred.all pN, [!]pA` (R192). -/
def execGpredAll (n : PReg) (x : Bool) (a : PReg) (s : State) : Res := s.poll n x a fun T m => m = T

/-- `gpred.mask vD, [!]pA` (R192). -/
def execGpredMask (d : VReg) (x : Bool) (a : PReg) (s : State) : Res := 
  s.groupOp [.p a] [.v d 1] fun t =>
    t.issueG t.part (some d) (fun _ => t.polled x a) none (fun _ => false) fun _ => true

/-- `gpeer.eq vD, vA` (R192). -/
def execGpeerEq (d a : VReg) (s : State) : Res := s.groupV d a fun t L => t.peers a (t.rv L a)

/-- `gpeer.uni vD, vA` (R192). -/
def execGpeerUni (d a : VReg) (s : State) : Res := 
  s.groupOp [.v a 1] [.v d 1] fun t => t.issueG t.part (some d)
    (fun _ => if t.uniform a then t.part else 0) none (fun _ => false) fun _ => t.uniform a

/-- `gred.add vD, vA`, wrapping (R193). -/
def execGredAdd (d a : VReg) (s : State) : Res := s.groupV d a fun t _ => t.sumBelow a 32

/-- `gred.fadd vD, vA`: the tree of R83 (R193). -/
def execGredFadd (d a : VReg) (s : State) : Res := 
  s.groupOp [.v a 1] [.v d 1] fun t =>
    let r := treeSum (t.addends a)
    (t.issueG t.part (some d) (fun _ => wordOf r) none (fun _ => false) fun _ => true).raiseFlags r.2

/-- `gred.min` by kind (R193). -/
def execGredMin (d a : VReg) (k : Fin 4) (s : State) : Res := s.groupV d a fun t _ => t.extremeOf false k a

/-- `gred.max` by kind (R193). -/
def execGredMax (d a : VReg) (k : Fin 4) (s : State) : Res := s.groupV d a fun t _ => t.extremeOf true k a

/-- `gred.and vD, vA` (R193). -/
def execGredAnd (d a : VReg) (s : State) : Res := s.groupV d a fun t _ => (t.operands a).foldl (· &&& ·) (BitVec.allOnes 32)

/-- `gred.or vD, vA` (R193). -/
def execGredOr (d a : VReg) (s : State) : Res := s.groupV d a fun t _ => (t.operands a).foldl (· ||| ·) 0

/-- `gscan.add vD, vA` (R193). -/
def execGscanAdd (d a : VReg) (s : State) : Res := s.groupV d a fun t L => t.sumBelow a (L + 1)

/-- `gscan.add.excl vD, vA` (R193). -/
def execGscanAddExcl (d a : VReg) (s : State) : Res := s.groupV d a fun t L => t.sumBelow a L

/-- `gscan.fadd vD, vA` (R193). -/
def execGscanFadd (d a : VReg) (s : State) : Res := s.floatScan d a false

/-- `gscan.fadd.excl vD, vA` (R193). -/
def execGscanFaddExcl (d a : VReg) (s : State) : Res := s.floatScan d a true

/-- `sysv vD, code` (R194). -/
def execSysv (d b : Fin 128) (s : State) : Res := s.readLanes d fun t L => t.laneCode b L

/-- `vmask vD, code` (R194). -/
def execVmask (d b : Fin 128) (s : State) : Res := s.readLanes d fun t _ => t.maskCode b

end Sys2Proof.Machine
end

