-- ==== Sys2Proof/Machine/Control.lean ====
section
/-! DEFINITION. Control flow, melding, exit and the trap instructions (09 R175-R200, 23 R414-R416), holds (11 R237), the
format register (04 R81-R82), yield and triggers (10 R212, R226, R230). -/

namespace Sys2Proof.Machine

open Sys2Proof

/-! ## Uniform branches (R175, R176) -/

/-- The target of a branch of n clauses from the clause in execution. -/
def State.target (s : State) (n : Int) : DWord := s.clauseAddr + 32 * wrap64 n

/-- A guarded branch: where the guard fails it writes nothing. -/
def State.branch (s : State) (g : QGuard) (rd wr : List Opnd) (f : State → State) : Res :=
  if s.holds g then s.withOperands 1 rd wr fun t => .next (f t) else .next s.advance

/-- An indirect branch: bits [4:0] of the target must be zero (R176). -/
def State.jump (s : State) (x : DWord) : State :=
  if bits x.toNat 4 0 != 0 then s.trapAll cMISALIGNED s.wordInfo x else s.leave x

/-- `bra label` (R175). -/
def execBra (g : QGuard) (o : BitVec 20) (s : State) : Res := s.branch g [] [] fun t => t.leave (t.target o.toInt)

/-- `call label`: s63 takes the next clause (R175). -/
def execCall (g : QGuard) (o : BitVec 20) (s : State) : Res :=
  s.branch g [] [.s 63 1] fun t => (t.ws 63 (t.clauseAddr + 32)).leave (t.target o.toInt)

/-- `ret` (R175). -/
def execRet (g : QGuard) (s : State) : Res := s.branch g [.s 63 1] [] fun t => t.jump (t.rs 63)

/-- `brx sX` (R175). -/
def execBrx (g : QGuard) (x : SReg) (s : State) : Res := s.branch g [.s x 1] [] fun t => t.jump (t.rs x)

/-- `loop sC, label`: the counter wraps (R175, R176). -/
def execLoop (g : QGuard) (c : SReg) (o : BitVec 14) (s : State) : Res :=
  s.branch g [.s c 1] [.s c 1] fun t =>
    let n := t.rs c - 1
    if n != 0 then (t.ws c n).leave (t.target o.toInt) else (t.ws c n).advance

/-! ## The split stack (R151, R177-R182) -/

/-- The other slot takes the path if it is empty, else the path is pushed; `none` where the stack is full (R151). -/
def Group.place (g : Group) (k : Bool) (p : Path) : Option Group :=
  if (g.slot (!k)).act = 0 then some (g.onSlot (!k) fun _ => p.toSlot)
  else if 64 ≤ g.stack.length then none
  else some { g with stack := g.stack ++ [p] }

/-- The lanes of T that take a predicated action (R179, R200). -/
def State.choosing (s : State) (p : PReg) (n : Bool) : Mask := maskOf fun L => inM s.part L && (s.rp L p != n)

/-- The split of a slot by its branching lanes (R179). -/
def State.splitAt (s : State) (br : Mask) (target : DWord) : State :=
  let ft := s.slot.act &&& ~~~ br
  if br = 0 then s.leave (s.clauseAddr + 32)
  else if ft = 0 then s.leave target
  else
    let p : Path := { pcw := target, rjpc := s.slot.rjpc, act := br, rjm := s.slot.rjm, fmt := s.slot.fmt,
                      fpstat := s.slot.fpstat }
    match s.grp.place s.k p with
    | none => s.violation cSPLIT_STACK_OVERFLOW
    | some g => ((({ s with grp := g }).onSlot fun x => { x with act := ft })).leave (s.clauseAddr + 32)

/-- `br.div [!]pP, label` (R179); inside a region it is a violation (R184). -/
def execBrDiv (p : PReg) (n : Bool) (o : BitVec 20) (s : State) : Res :=
  if s.inRegion then .next (s.violation cMELD_VIOLATION)
  else s.withOperands s.part [.p p] [] fun t => .next (t.splitAt (t.choosing p n) (t.target o.toInt))

/-- `rejoin.set label`: a frame for the slot's whole active mask, which starts with the slot's FPSTAT (R178, log 34). -/
def execRejoinSet (o : BitVec 20) (s : State) : Res :=
  if s.inRegion then .next (s.violation cMELD_VIOLATION)
  else if 64 ≤ s.grp.stack.length then .next (s.violation cSPLIT_STACK_OVERFLOW)
  else
    let x := s.slot
    let frame : Path := { pcw := s.target o.toInt, rjpc := x.rjpc, act := 0, rjm := x.act, fmt := x.fmt,
                          fpstat := x.fpstat, waiting := true }
    .next ((s.onGrp fun g => { g with stack := g.stack ++ [frame] }).onSlot fun y =>
      { y with rjpc := s.target o.toInt, rjm := x.act }).advance

/-- The index of the topmost entry that p selects. -/
def topmost (l : List Path) (p : Path → Bool) : Option Nat :=
  (l.zipIdx.filter fun e => p e.1).getLast?.map (·.2)

/-- RJM of the topmost frame whose lanes contain m, else 0 (R180). -/
def enclosing (l : List Path) (m : Mask) : Mask :=
  ((l.filter fun p => p.waiting && m &&& ~~~ p.rjm = 0).getLast?.map (·.rjm)).getD 0

/-- The frame at which a path of lanes A in clause Lc arrives (R180). -/
def arrivalFrame (l : List Path) (lc : DWord) (a : Mask) : Option Nat :=
  topmost l fun p => p.waiting && p.pcw = lc && a &&& ~~~ p.rjm = 0

/-- An arrival would leave no path that can advance (R182). -/
def Group.stuck (g : Group) (k : Bool) : Bool := (g.slot (!k)).act = 0 && (g.stack.drop g.stackBase).all (·.waiting)

/-- TRAPINFO1 of REJOIN_DEADLOCK: the waiting frames with arrivals, from the bottom (R182). -/
def waitingFrames (l : List Path) : DWord :=
  dw (l.zipIdx.foldl (fun m e => if e.1.waiting && e.1.act != 0 then m + 2 ^ e.2 else m) 0)

/-- The issuing slot empties and fills from the stack (R151). -/
def State.emptySlot (s : State) : State :=
  let t := (s.onSlot fun x => { x with act := 0 }).leave s.slot.pc
  { t with grp := (t.grp.onSlot t.k fun _ => {}).fill t.k }

/-- `rejoin`: the slot's whole active mask arrives at its frame, which completes, waits, or deadlocks (R180, R182). -/
def State.arrive (s : State) (i : Nat) (f : Path) : State :=
  let a := f.act ||| s.slot.act
  let fp := f.fpstat ||| s.slot.fpstat
  if a = f.rjm then
    let rest := dropAt s.grp.stack i
    ((s.onGrp fun g => { g with stack := rest }).onSlot fun x =>
      { x with act := f.rjm, fmt := f.fmt, fpstat := fp, rjpc := f.rjpc, rjm := enclosing rest f.rjm }).advance
  else if s.grp.stuck s.k then
    s.raise { cause := cREJOIN_DEADLOCK, mask := s.slot.act, path := 0, info0 := s.wordInfo,
              info1 := waitingFrames s.grp.stack, info2 := f.pcw, info3 := f.rjm ++ f.act }
  else
    (s.onGrp fun g => { g with stack := modAt g.stack i fun p =>
      { p with act := a, fpstat := fp, rslot := BitVec.ofNat 3 s.slotIdx } }).emptySlot

/-- `rejoin` (R180). -/
def execRejoin (s : State) : Res :=
  if s.inRegion then .next (s.violation cMELD_VIOLATION)
  else match arrivalFrame s.grp.stack s.clauseAddr s.slot.act with
    | none => .next s.advance
    | some i => .next (s.arrive i (nth {} s.grp.stack i))

/-! ## Melding (R183-R187) -/

/-- `bmeld [!]pP`: the region begins with the next clause; until then a second `bmeld` replaces it (R183, log 34). -/
def execBmeld (p : PReg) (n : Bool) (s : State) : Res :=
  if s.grp.meld.active then .next (s.violation cMELD_VIOLATION)
  else s.withOperands s.part [.p p] [] fun t =>
    let b := t.slot.act &&& ~~~ t.choosing p n
    .next (t.onSlot fun x => { x with due := { x.due with opens := some b } }).advance

/-- `emeld`: the region closes at the end of the clause (R183). -/
def execEmeld (s : State) : Res :=
  if !s.inRegion || 2 ≤ s.meldField then .next (s.violation cMELD_VIOLATION)
  else .next (s.onSlot fun x => { x with due := { x.due with closes := true } }).advance

/-- The 16-bit entry j of an `mmap` operand. -/
def mapEntry (x : DWord) (j : Nat) : Nat := bits x.toNat (16 * j + 15) (16 * j)

/-- An entry that `mmap` refuses (R186). -/
def badEntry (vregs e : Nat) : Bool :=
  if !bitOf e 15 then e != 0
  else if bitOf e 14 then bits e 13 10 != 0 || bits e 6 3 != 0 || bits e 9 7 = 7 || bits e 2 0 = 7
  else vregs ≤ bits e 13 7 || vregs ≤ bits e 6 0

/-- The changes that an `mmap` operand asks of a table, in increasing j (R186). -/
def mapChanges (b : Bool) (x : DWord) : List TableChange :=
  (List.range 4).filterMap fun j =>
    let e := mapEntry x j
    if !bitOf e 15 then none
    else if bitOf e 14 then some (.install b true (bits e 9 7) (bits e 2 0))
    else some (.install b false (bits e 13 7) (bits e 6 0))

/-- `mmap.a` and `mmap.b sS` (R186). -/
def execMmap (r : SReg) (p : Bool) (s : State) : Res :=
  s.withOperands 1 [.s r 1] [] fun t =>
    if (List.range 4).any fun j => badEntry t.blk.shape.vregs (mapEntry (t.rs r) j) then .next (t.badOperand 0)
    else .next (t.onSlot fun x =>
      { x with due := { x.due with tables := x.due.tables ++ mapChanges p (t.rs r) } }).advance

/-- `mclr` resets the selected tables from the next clause (R186). -/
def execMclr (x : Fin 4) (s : State) : Res :=
  .next (s.onSlot fun y => { y with due := { y.due with
    tables := y.due.tables ++ [.clear (bitOf x 0) (bitOf x 1)] } }).advance

/-- `setmm sS` (R190). -/
def execSetmm (r : SReg) (s : State) : Res :=
  s.withOperands 1 [.s r 1] [] fun t =>
    if bits (t.rs r).toNat 63 32 != 0 then .next (t.badOperand 0)
    else .next (t.onGrp fun g => { g with mm := (t.rs r).setWidth 32 }).advance

/-! ## The format register (R81, R82) -/

/-- FMT of the issuing slot written. -/
def State.setFmt (s : State) (x : BitVec 16) : State := s.onSlot fun y => { y with fmt := x }

/-- `fmtset imm16` (R81). -/
def execFmtset (i : BitVec 16) (s : State) : Res :=
  if s.pathOnly then .next (s.violation cMELD_VIOLATION) else .next (s.setFmt i).advance

/-- `fmtsetr sS` (R82). -/
def execFmtsetr (r : SReg) (s : State) : Res :=
  if s.pathOnly then .next (s.violation cMELD_VIOLATION)
  else s.withOperands 1 [.s r 1] [] fun t =>
    if bits (t.rs r).toNat 63 16 != 0 then .next (t.badOperand 0)
    else .next (t.setFmt ((t.rs r).setWidth 16)).advance

/-! ## Traps by instruction (R200, R414, R415) -/

/-- `trap code`, whatever the clause guard holds (R414). -/
def execTrap (c : BitVec 16) (s : State) : Res :=
  .next (s.raise { cause := cUSER_TRAP, mask := s.slot.act, path := s.wholePath, info0 := c.setWidth 64, next := true })

/-- A trap that lanes take by instruction: the faulting lanes of path A first, then, when the instruction executes again,
those of path B; after the last of them `rft` goes on behind it (R188, R200, R415; logs 13, 34). -/
def State.trapChosen (s : State) (c : Cause) (m : Mask) (i0 i1 : DWord) : State :=
  let m := if s.slot.micro = 1 then m &&& s.grp.meld.bmask else m
  if m = 0 then s.advance
  else
    let x := s.trapLanes m
    let more := m &&& ~~~ x.1 != 0
    (s.onSlot fun y => { y with micro := b2n more }).raise
      { cause := c, mask := x.1, path := x.2, info0 := i0, info1 := i1, next := !more }

/-- `trap.p [!]pP, code` for the lanes that choose it (R200). -/
def execTrapP (p : PReg) (n : Bool) (c : BitVec 16) (s : State) : Res :=
  s.withOperands s.part [.p p] [] fun t => .next (t.trapChosen cUSER_TRAP (t.choosing p n) (c.setWidth 64) 1)

/-- `bpt code` for the lanes taking part (R415). -/
def execBpt (c : BitVec 16) (s : State) : Res := .next (s.trapChosen cBREAKPOINT s.part (c.setWidth 64) 0)

/-- `rft`: after the handler's counted operations; outside a handler it is illegal (R416). -/
def execRft (s : State) : Res :=
  if !s.grp.ctx.inh then .next (s.violation cILLEGAL_INSTRUCTION)
  else if s.grp.pend ≠ [] then .next (s.waitFor .ops)
  else .next (s.onGrp Group.returned)

/-- `yld.done` ends the handler's part in a pre-emption; in a handler whose block has been saved whole and resumed since,
nothing is left to wait for (R226). -/
def execYldDone (s : State) : Res :=
  if s.grp.ctx.inh && s.grp.trap.cause = cPREEMPT then
    .next (s.advance.onGrp fun g => { g with yielded := s.blk.state = .preempting })
  else .next (s.violation cILLEGAL_INSTRUCTION)

/-- `yield`: the youngest age stamp (R230). -/
def execYield (s : State) : Res :=
  .next { s with
    grp := { s.grp with age := s.dev.ages }
    dev := { s.dev with ages := s.dev.ages + 1 } : State }.advance

/-! ## hold (R237) -/

/-- A conflict that `hold` meets on register x. -/
def State.holdConflict (s : State) (sub x : Nat) (m : Mask) : State :=
  let c := s.trapLanes s.part
  s.raise { cause := cREMOTE_CONFLICT, mask := c.1, path := c.2, info0 := dw sub, info1 := dw x, info2 := Mask.dw m }

/-- A hold of lanes H placed on register x (R237). -/
def State.placeHold (s : State) (x : Nat) : State :=
  let put := fun (t : State) =>
    if 8 ≤ t.grp.holds.length then s.holdConflict 3 x 0
    else (t.onGrp fun g => { g with holds := g.holds ++ [⟨x, true, s.part, 0, 0, 0⟩] }).advance
  match s.grp.holdOf x with
  | none => put s
  | some e =>
    if e.complete then put (s.onGrp fun g => g.endHold x)
    else if e.held then s.holdConflict 2 x e.hmask
    else (s.onGrp fun g => { g with holds := modFirst g.holds (fun h => h.reg = x) fun h =>
      { h with held := true, hmask := s.part } }).advance

/-- `hold vV` (R237). -/
def execHold (v : VReg) (s : State) : Res :=
  if s.part = 0 then .next s.advance
  else match s.physV s.part v with
    | [e] => .next (s.placeHold e.2)
    | e :: f :: _ => if e.2 = f.2 then .next (s.placeHold e.2) else .next (s.violation cMELD_VIOLATION)
    | [] => .next s.advance

/-! ## exit (R181, R199, R325, R411) -/

/-- A stack entry without the lanes of T; RJM of a path is that of the frame around it (R177, R181, R411). -/
def Path.without (p : Path) (T : Mask) : Path := { p with act := p.act &&& ~~~ T, rjm := p.rjm &&& ~~~ T }

/-- An entry after lanes have exited: a frame that all its lanes have reached becomes a path at the slot after the last
`rejoin`, and entries without lanes go (R181). -/
def settleEntry (l : List Path) (p : Path) : Option Path :=
  if p.waiting then
    if p.act != p.rjm then some p
    else if p.act = 0 then none
    else some { p with waiting := false, pcw := p.pcw + 4 * (p.rslot.setWidth 64 + 1), rslot := 0,
                       rjm := enclosing (l.filter fun q => q.act != q.rjm) p.rjm }
  else if p.act = 0 then none else some p

/-- The trap context without lanes that exit in the handler (R411). -/
def TrapCtx.without (c : TrapCtx) (T : Mask) : TrapCtx :=
  if c.inh then { c with
    slot0 := c.slot0.without T
    slot1 := c.slot1.without T
    meld := { c.meld with bmask := c.meld.bmask &&& ~~~ T }
    mm := c.mm &&& ~~~ T }
  else c

/-- The group after the lanes of T exit from slot k. -/
def Group.exitLanes (g : Group) (k : Bool) (T : Mask) : Group :=
  let stack := g.stack.map fun p => p.without T
  let other := g.onSlot (!k) fun x => { x with rjm := x.rjm &&& ~~~ T }
  { other.onSlot k fun x => { x with act := x.act &&& ~~~ T, rjm := x.rjm &&& ~~~ T } with
    live := g.live &&& ~~~ T
    meld := { g.meld with bmask := g.meld.bmask &&& ~~~ T }
    stack := stack.filterMap (settleEntry stack)
    ctx := g.ctx.without T }

/-- The name of a group whose last lane has exited is RETIRED, and its hold entries are discarded (R234). -/
def State.retireExited (s : State) : State :=
  if s.grp.live = 0 then
    { s with grp := { s.grp with pname := 0, holds := [] }, dev := retireName s.dev s.blk.shape.owner s.grp.pname }
  else s

/-- The lanes of T end; the slot goes on with those left, or fills from the stack (R151, R199). A region ends with the
last lane of its slot. -/
def State.exitLanes (s : State) (T : Mask) : State :=
  let t := s.onGrp fun g => g.exitLanes s.k T
  let t := if t.slot.act = 0 && t.inRegion then t.onGrp fun g => { g with meld := {} } else t
  let t := if t.slot.act = 0 then t.emptySlot else t.advance
  (t.onGrp fun g => g.fill (!s.k)).retireExited

/-- These are the last lanes of the last group of a block whose fork is open (R325). -/
def State.lastOfFork (s : State) (T : Mask) : Bool :=
  s.grp.live &&& ~~~ T = 0 && s.blk.groups.all (·.live = 0) && (forkOf s.dev s.blk.key).isSome

/-- `exit`: pending reports are raised first, then the lanes end (R146, R199, R271, R340). -/
def execExit (s : State) : Res :=
  if s.part = 0 then .next s.advance
  else s.reporting (fun r => decide (r.bit < 2) || s.ownAccess r) fun t =>
    if t.lastOfFork t.part then .next (t.waitFor .join) else .next (t.exitLanes t.part)

end Sys2Proof.Machine
end

