-- ==== Sys2Proof/Machine/FaultEvents.lean ====
section
/-! DEFINITION. Events of the fault queues (21 R387-R388, 23 R418): records posted, replies, timeouts, and a queue's
configuration. -/

namespace Sys2Proof.Machine

open Sys2Proof

/-- The fault queue of a function. -/
def faultQ (d : Dev) (fn : Nat) : FaultQ := (Sparse.get {} d.funcs fn).fq

/-- The package with f applied to a function's fault queue. -/
def modFaultQ (d : Dev) (fn : Nat) (f : FaultQ → FaultQ) : Dev := modFn d fn fun x => { x with fq := f x.fq }

/-! ## Posting (R387, R388, R418) -/

/-- A slot of the ring is free: fewer than 2^LOG2N records are not consumed. -/
def FaultQ.room (q : FaultQ) : Bool := decide (gap q.widx q.ridx < 2 ^ q.log2n)

/-- Where record k of a ring stands. -/
def FaultQ.slotAddr (q : FaultQ) (k : Nat) : Nat := (if q.host then 2 ^ 39 else 0) + q.base.toNat + 64 * (k % 2 ^ q.log2n)

/-- A record with its STAMP at bytes 48 and 49. -/
def stampRecord (b : List Byte) (k : Nat) : List Byte := b.take 48 ++ bytesOf (k % 2 ^ 16) 2 ++ b.drop 50

/-- The record at the head is written under the management key, FQWIDX advances, the vector is raised (R388). -/
def postRecord (d : Dev) (fn : Nat) (r : RingRec) : Dev :=
  let q := faultQ d fn
  let d := systemStore d (fnKey d fn) (q.slotAddr q.widx) (stampRecord r.bytes q.widx)
  let d := modFaultQ d fn fun q => { q with widx := (q.widx + 1) % 2 ^ 32, waiting := q.waiting.drop 1 }
  let d := if r.term then d else
    { d with tagsOut := modIf d.tagsOut (fun t => t.tag = r.tag) fun t => { t with posted := some d.time } }
  raiseVector d fn q.vec

/-- The head of a function's waiting records goes out when it is of the kind asked for and finds a slot. -/
def postHead (term : Bool) (fn : Nat) (s : State) : Res :=
  let s := s.unfocus
  let q := faultQ s.dev fn
  match q.waiting.head? with
  | some r =>
    if r.term = term && q.enabled && q.room then .next (s.onDev fun d => postRecord d fn r) else s.noEvent
  | none => s.noEvent

/-- FAULT_RECORD_POST: a fault record is written into the ring (R388). -/
def execFaultRecordPost (fn : Nat) (s : State) : Res := postHead false fn s

/-- TERMINATION_RECORD: a termination record is written into the ring (R418). -/
def execTerminationRecord (fn : Nat) (s : State) : Res := postHead true fn s

/-! ## Replies (R388) -/

/-- A tag is answered: it is outstanding no longer, and a record of it still waiting is dropped. -/
def endTag (d : Dev) (fn tag : Nat) : Dev :=
  modFaultQ { d with tagsOut := d.tagsOut.filter fun t => t.tag ≠ tag } fn fun q =>
    { q with waiting := q.waiting.filter fun r => r.term || r.tag ≠ tag }

/-- The collectives parked on a tag go on; every other party replays by itself when it next runs (R436). -/
def wakeColls (d : Dev) (tag : Nat) : Dev :=
  (d.colls.filter fun c => c.parked = some tag).foldl (fun d c => collWork d c.id) d

/-- A tag of a function answered RETRY: its parties retranslate and replay. -/
def retryTag (d : Dev) (fn tag : Nat) : Dev :=
  if d.tagsOut.any fun t => t.tag = tag && t.fn = fn then wakeColls (endTag d fn tag) tag else d

/-- A tag of a function answered FAIL: its parties take the non-replayable cause. -/
def failTag (d : Dev) (fn tag : Nat) : Dev :=
  match d.tagsOut.find? fun t => t.tag = tag && t.fn = fn with
  | none => d
  | some t =>
    let d := endTag d fn tag
    wakeColls { d with failed := d.failed ++ [⟨t.owner, t.block64, t.cause, tag⟩] } tag

/-- FQREPLY_RETRY: FQREPLY is written with ACT 01. -/
def execFqreplyRetry (fn tag : Nat) (s : State) : Res := .next (s.unfocus.onDev fun d => retryTag d fn tag)

/-- FQREPLY_FAIL: FQREPLY is written with ACT 10. -/
def execFqreplyFail (fn tag : Nat) (s : State) : Res := .next (s.unfocus.onDev fun d => failTag d fn tag)

/-! ## Timeouts (R388, R418) -/

/-- A waiting record is dropped: a termination record leaves an error record (R418, R428). -/
def dropRecord (d : Dev) (fn : Nat) (r : RingRec) : Dev :=
  if r.term then postError d 10 r.part (recNat r.bytes 34 2) 1 (recNat r.bytes 16 8) else failTag d fn r.tag

/-- FQTO in ns. -/
def FaultQ.limit (q : FaultQ) : Nat := 1000 * q.timeout

/-- FAULT_TIMEOUT: FQTO passes for a tag whose record waits for a slot or a reply, or, with tag 0, for the oldest waiting
termination record (R388, R418). -/
def execFaultTimeout (fn tag : Nat) (s : State) : Res :=
  let s := s.unfocus
  let q := faultQ s.dev fn
  let late := fun (t : Nat) => decide (t + q.limit ≤ s.dev.time)
  if tag = 0 then match q.waiting.find? fun r => r.term with
    | some r =>
      if late r.since then
        .next (s.onDev fun d => dropRecord (modFaultQ d fn fun q => { q with waiting := dropFirst q.waiting fun x => x = r }) fn r)
      else s.noEvent
    | none => s.noEvent
  else
    let waits := q.waiting.any fun r => !r.term && r.tag = tag && late r.since
    let asked := s.dev.tagsOut.any fun t => t.tag = tag && t.fn = fn && t.posted.any late
    if waits || asked then .next (s.onDev fun d => failTag d fn tag) else s.noEvent

/-! ## FQCFG (R388) -/

/-- The queue may be enabled: its size and base are within their limits. -/
def faultQOk (d : Dev) (fn : Nat) (q : FaultQ) : Bool :=
  decide (4 ≤ q.log2n) && decide (q.base.toNat < 2 ^ 39) && (q.host || inPartition d fn q.base.toNat (64 * 2 ^ q.log2n))

/-- EN := 0: waiting fault records FAIL, waiting termination records are dropped. -/
def disableFaultQ (d : Dev) (fn : Nat) : Dev :=
  let w := (faultQ d fn).waiting
  let d := modFaultQ d fn fun q => { q with enabled := false, waiting := [] }
  w.foldl (fun d r => dropRecord d fn r) d

/-- A write of FQCFG. -/
def writeFqcfg (d : Dev) (fn : Nat) (w : DWord) : Dev :=
  let d := modFaultQ d fn fun q => { q with log2n := bits w.toNat 3 0, host := w.getLsbD 4, vec := bits w.toNat 15 5 }
  if w.getLsbD 16 && faultQOk d fn (faultQ d fn) then
    modFaultQ d fn fun q => { q with enabled := true, widx := 0, ridx := 0 }
  else disableFaultQ d fn

/-- FQCFG_ENABLE: FQCFG is written with EN = 1; limits broken leave the queue disabled. -/
def execFqcfgEnable (fn : Nat) (w : DWord) (s : State) : Res :=
  if decide (fn < 16) && w.getLsbD 16 then .next (s.unfocus.onDev fun d => writeFqcfg d fn w) else s.noEvent

/-- FQCFG_DISABLE: FQCFG is written with EN = 0. -/
def execFqcfgDisable (fn : Nat) (w : DWord) (s : State) : Res :=
  if decide (fn < 16) && !w.getLsbD 16 then .next (s.unfocus.onDev fun d => writeFqcfg d fn w) else s.noEvent

end Sys2Proof.Machine
end

