-- ==== Sys2Proof/Machine/HostEvents.lean ====
section
/-! DEFINITION. What the host does at a function of the host link (21 R385, R389-R403, R438): owner commands, handover,
attestation, the BAR2 window, the MSI-X table, and register writes. -/

namespace Sys2Proof.Machine

open Sys2Proof

/-- One of the sixteen functions. -/
def isFn (fn : Nat) : Bool := decide (fn < 16)

/-- A function's registers. -/
def fnAt (d : Dev) (fn : Nat) : Func := Sparse.get {} d.funcs fn

/-- The owner is one of the function's owners (R389). -/
def fnOwns (d : Dev) (fn o : Nat) : Bool := (partOfFn d fn).any fun p => decide (p.ownBase ≤ o) && decide (o < p.ownBase + p.ownCnt)

/-- The owner is created. -/
def created (d : Dev) (o : Nat) : Bool := (Sparse.get {} d.owners o).created

/-! ## Owners (R385, R389, R391) -/

/-- Owner o is created with a root and REPLAY; its nonce is drawn (R390, R391). -/
def createOwner (d : Dev) (o root : Nat) (replay : Bool) : Dev :=
  { d with
    nonces := d.nonces + 1
    owners := Sparse.put {} d.owners o { created := true, root := root, replay := replay, nonce := d.nonces + 1 } }

/-- Translations of an owner that cover a byte from va to va + len - 1 are dropped; every one where len is 0 (R385, R391). -/
def invalTlb (d : Dev) (o va len : Nat) : Dev :=
  { d with tlb := d.tlb.filter fun t => t.owner != o || (len != 0 && !(decide (t.va < va + len) && decide (va < t.va + t.leaf.size))) }

/-- Lines held under a key go without being written back (R391). -/
def dropKey (d : Dev) (key : Nat) : Dev :=
  let keep := fun (c : CLine) => c.key ≠ key
  { d with
    l1 := d.l1.filter keep, cc := d.cc.filter keep, constant := d.constant.filter keep, icache := d.icache.filter keep
    records := d.records.filter keep, rdc := d.rdc.filter keep, l2host := d.l2host.filter keep
    dirty := d.dirty.filter fun x => x.key ≠ key }

/-- An owner is destroyed: its cached lines, translations and nonce go (R391). -/
def destroyOwner (d : Dev) (o : Nat) : Dev :=
  let d := invalTlb (dropKey d (keyOf d o)) o 0 0
  { d with owners := Sparse.put {} d.owners o {} }

/-- A launch of the owner is accepted and not ended (R391). -/
def ownerBusy (d : Dev) (o : Nat) : Bool := d.launches.any fun l => l.lr.owner = o && l.state != .ended

/-- CREATE's limits (R391). -/
def createOk (d : Dev) (fn root : Nat) : Bool := root % 4096 = 0 && decide (root < 2 ^ 39) && inPartition d fn root 4096

/-- INVAL's limits (R391). -/
def invalOk (va len : Nat) : Bool := va % 2 ^ 16 = 0 && decide (va < 2 ^ 57) && len % 2 ^ 16 = 0

/-- The cause of an owner command, 0 where it may be done (R391). -/
def ownerCause (d : Dev) (fn op o w : Nat) (oc : OwnerCmd) : Nat :=
  let mgmt := (partOfFn d fn).any fun p => p.ownBase = o
  if bits w 63 13 ≠ 0 then 4
  else if !fnOwns d fn o then 1
  else match op with
    | 1 => if mgmt || created d o then 5 else if createOk d fn oc.arg0.toNat then 0 else 4
    | 2 => if mgmt then 5 else if !created d o then 6 else if ownerBusy d o then 3 else 0
    | _ => if !created d o then 6 else if invalOk oc.arg0.toNat oc.arg1.toNat then 0 else 4

/-- The effect of an owner command without cause (R391). -/
def ownerEffect (d : Dev) (op o w : Nat) (oc : OwnerCmd) : Dev :=
  match op with
  | 1 => createOwner d o oc.arg0.toNat (bitOf w 12)
  | 2 => destroyOwner d o
  | _ => invalTlb d o oc.arg0.toNat oc.arg1.toNat

/-- A write of OCMD (R391): the command is in progress until OWNER_COMMAND_END; one written while busy is ignored. -/
def writeOcmd (d : Dev) (fn w : Nat) : Dev :=
  let oc := (fnAt d fn).oc
  let op := bits w 11 10
  let o := bits w 9 0
  if op = 0 then d
  else if oc.stat = 1 then modFn d fn fun x => { x with oc := { x.oc with cause := 2 } }
  else
    let c := ownerCause d fn op o w oc
    let d := if c = 0 then ownerEffect d op o w oc else d
    modFn d fn fun x => { x with oc := { x.oc with stat := 1, cause := 0, cmd := some (op, o), result := c } }

/-- An owner command of one kind. -/
def ocmdEvent (op fn : Nat) (w : DWord) (s : State) : Res :=
  if isFn fn && bits w.toNat 11 10 = op then .next (s.unfocus.onDev fun d => writeOcmd d fn w.toNat) else s.noEvent

/-- OCMD_CREATE (R391). -/
def execOcmdCreate (fn : Nat) (w : DWord) (s : State) : Res := ocmdEvent 1 fn w s

/-- OCMD_DESTROY (R391). -/
def execOcmdDestroy (fn : Nat) (w : DWord) (s : State) : Res := ocmdEvent 2 fn w s

/-- OCMD_INVAL (R385, R391). -/
def execOcmdInval (fn : Nat) (w : DWord) (s : State) : Res := ocmdEvent 3 fn w s

/-- OWNER_COMMAND_END: OSTAT takes done, or error with the cause (R391). -/
def execOwnerCommandEnd (fn : Nat) (s : State) : Res :=
  let s := s.unfocus
  let oc := (fnAt s.dev fn).oc
  if oc.stat = 1 then
    .next (s.onDev fun d => modFn d fn fun x => { x with oc :=
      { x.oc with stat := if x.oc.result = 0 then 2 else 3, cause := x.oc.result, cmd := none } })
  else s.noEvent

/-! ## Handover (R397) -/

/-- A virtual address translated under an owner as a read with no replay; an engine reaches no remote page (log 20). -/
def handoverXlat (d : Dev) (o va : Nat) : Option Nat :=
  match xlatRaw d o va .read with
  | .ok l pa => if l.kind = .remote then none else some pa
  | _ => none

/-- H2D or D2H on one line (R397). -/
def handoverLine (d : Dev) (d2h : Bool) (line : Nat) : Dev :=
  let d := flushLine d line
  let host := isHost (128 * line)
  if d2h then if host then hostWriteBack d fun c => c.line = line else d
  else
    { d with
      l1 := d.l1.filter fun c => c.line ≠ line
      cc := d.cc.filter fun c => c.line ≠ line
      rdc := d.rdc.filter fun c => c.line ≠ line
      l2host := if host then d.l2host.filter fun c => c.line ≠ line else d.l2host }

/-- The lines of a range in order, up to the first that does not translate; the code (R397). -/
def handoverLines (o : Nat) (d2h : Bool) : Nat → Dev → Nat → Dev × Nat
  | 0, d, _ => (d, 1)
  | n + 1, d, va => match handoverXlat d o va with
    | none => (d, 2)
    | some pa => handoverLines o d2h n (handoverLine d d2h (pa / 128)) (va + 128)

/-- The command's owner and fields are legal (R397). -/
def handoverOk (d : Dev) (fn o : Nat) (h : Handover) : Bool :=
  fnOwns d fn o && created d o && h.hova.toNat % 128 = 0 && h.holen.toNat % 128 = 0 &&
    decide (128 ≤ h.holen.toNat ∧ h.holen.toNat ≤ 2 ^ 40) && h.hosw.toNat % 8 = 0

/-- A write of HOCTL (R397): its lines are done at once, and HANDOVER_END writes the status word. -/
def writeHoctl (d : Dev) (fn w : Nat) : Dev :=
  let h := (fnAt d fn).ho
  let o := bits w 9 0
  if h.busy then modFn d fn fun x => { x with ho := { x.ho with lost := true } }
  else
    let r := if handoverOk d fn o h then handoverLines o (bitOf w 10) (h.holen.toNat / 128) d h.hova.toNat else (d, 2)
    modFn r.1 fn fun x => { x with ho := { x.ho with busy := true, owner := o, d2h := bitOf w 10, code := r.2 } }

/-- HOCTL_H2D: HOCTL is written with DIR 0 (R397). -/
def execHoctlH2d (fn : Nat) (w : DWord) (s : State) : Res :=
  if isFn fn && !w.getLsbD 10 then .next (s.unfocus.onDev fun d => writeHoctl d fn w.toNat) else s.noEvent

/-- HOCTL_D2H: HOCTL is written with DIR 1 (R397). -/
def execHoctlD2h (fn : Nat) (w : DWord) (s : State) : Res :=
  if isFn fn && w.getLsbD 10 then .next (s.unfocus.onDev fun d => writeHoctl d fn w.toNat) else s.noEvent

/-- The status word of a handover under the management key; one that cannot be reached is not written (R389, R397). -/
def writeHosw (d : Dev) (fn : Nat) : Dev :=
  let h := (fnAt d fn).ho
  if fnOwns d fn h.owner && created d h.owner && h.hosw.toNat % 8 = 0 then
    match handoverXlat d h.owner h.hosw.toNat with
    | some pa => systemStore d (fnKey d fn) pa (bytesOf (h.code + 2 ^ 16 * (d.time % 2 ^ 48)) 8)
    | none => d
  else d

/-- HANDOVER_END: the status word is written as a system release, and the function takes its next command (R397). -/
def execHandoverEnd (fn : Nat) (s : State) : Res :=
  let s := s.unfocus
  if (fnAt s.dev fn).ho.busy then
    .next (s.onDev fun d => modFn (writeHosw d fn) fn fun x => { x with ho := { x.ho with busy := false } })
  else s.noEvent

/-! ## Attestation (R402, R403) -/

/-- The first 0x200 bytes of a report (R403). -/
def reportBody (d : Dev) (p : Partition) (nonce : List Byte) : List Byte :=
  let img := fun (i : Nat) => bytesOf (nth 0 d.booted i).toNat 64
  bytesOf 1 4 ++ bytesOf d.pkg 2 ++ bytesOf p.part 1 ++ bytesOf 0 1 ++ bytesOf d.time 8 ++ nonce ++
    bytesOf Config.identityDigest.toNat 64 ++ img 0 ++ img 1 ++ img 2 ++ p.digestOf ++ bytesOf 0 0x90

/-- A signed report of 2 KiB (R403). -/
def signReport (b : List Byte) : List Byte :=
  let n := min (Config.signatureLen b) 0x5F8
  b ++ bytesOf n 2 ++ bytesOf 0 6 ++ (List.range n).map (Config.signature b) ++ bytesOf 0 (0x5F8 - n)

/-- The certificate as it is written (R403); it fits the buffer. -/
def certificateBytes : List Byte :=
  let n := min Config.certificateLen 0x7F8
  bytesOf n 2 ++ bytesOf 0 6 ++ (List.range n).map Config.certificate

/-- ASTAT of a function. -/
def setAstat (d : Dev) (fn v : Nat) : Dev := modFn d fn fun x => { x with astat := v }

/-- The bytes that a request of a kind writes at its buffer, once it is read (R403). -/
def attest (d : Dev) (p : Partition) (kind va : Nat) : Option Dev :=
  match engRead d p.ownBase va 0x30 none with
  | .error _ => none
  | .ok (b, _) =>
    let out := if kind = 1 then signReport (reportBody d p (b.drop 0x10)) else certificateBytes
    match engWrite d p.ownBase va out none with
    | .ok e => some e
    | .error _ => none

/-- A write of AREQ (R403). -/
def writeAreq (d : Dev) (fn w : Nat) : Dev :=
  let kind := bits w 63 60
  let va := bits w 56 0
  match partOfFn d fn with
  | none => setAstat d fn 3
  | some p =>
    if bits w 59 57 ≠ 0 || va % 2048 ≠ 0 || !(kind = 1 || kind = 2) then setAstat d fn 3
    else match attest d p kind va with
      | some e => setAstat e fn 2
      | none => setAstat d fn 3

/-- AREQ_REPORT: AREQ is written with KIND 1 (R403). -/
def execAreqReport (fn : Nat) (w : DWord) (s : State) : Res :=
  if isFn fn && bits w.toNat 63 60 = 1 then .next (s.unfocus.onDev fun d => writeAreq d fn w.toNat) else s.noEvent

/-- AREQ_CERTIFICATE: AREQ is written with KIND 2 (R403). -/
def execAreqCertificate (fn : Nat) (w : DWord) (s : State) : Res :=
  if isFn fn && bits w.toNat 63 60 = 2 then .next (s.unfocus.onDev fun d => writeAreq d fn w.toNat)
  else s.noEvent

/-! ## Range entries (R400) -/

/-- A write of RTINV: cached range entries of a source package, or of all, are dropped (R400, R401). -/
def writeRtinv (d : Dev) (fn w : Nat) : Dev :=
  { d with rangeCache := d.rangeCache.filter fun c => c.part != fn || !(bitOf w 10 || c.src = bits w 9 0) }

/-- RTINV (R400). -/
def execRtinv (fn : Nat) (w : DWord) (s : State) : Res :=
  if isFn fn then .next (s.unfocus.onDev fun d => writeRtinv d fn w.toNat) else s.noEvent

/-! ## The BAR2 window (R396) -/

/-- Byte o of the concatenation of the memory ranges (R396). -/
def windowByte : List (Nat × Nat) → Nat → Option Nat
  | [], _ => none
  | r :: t, o => if o < r.2 then some (r.1 + o) else windowByte t (o - r.2)

/-- The physical addresses of n bytes at an offset, when each exists and the key may be used (R396). -/
def windowBytes (d : Dev) (fn off n : Nat) : Option (List Nat) :=
  match partOfFn d fn with
  | none => none
  | some p =>
    let o := (fnAt d fn).hkey
    let l := (List.range n).filterMap fun i => windowByte p.mems (off + i)
    if fnOwns d fn o && created d o && l.length = n && l.all fun a => populated a 1 then some l else none

/-- A byte of device memory as BAR2 reads it: what a save area holds is the part's own copy, under its owner's key (R227, R396). -/
def windowRead (d : Dev) (key a : Nat) : Dev × List Byte :=
  match if poisoned d a 1 then none else savedByte d a with
  | some x =>
    if x.1 = key then (d, [x.2]) else (d, [Config.foreign x.1 key (a / 32) [x.2] (a % 32)])
  | none => systemRead d key a 1

/-- BAR2_READ: n bytes through the window under HKEY, or an Unsupported Request (R396). -/
def execBar2Read (fn off n : Nat) (s : State) : Res :=
  if isFn fn then .next (s.unfocus.onDev fun d =>
    let key := keyOf d (fnAt d fn).hkey
    let r := (windowBytes d fn off n).map fun l => l.foldl (fun (x : Dev × List Byte) a =>
      let y := windowRead x.1 key a
      (y.1, x.2 ++ y.2)) (d, [])
    match r with
    | some x => { x.1 with bar2Out := some x.2 :: x.1.bar2Out }
    | none => { d with bar2Out := none :: d.bar2Out })
  else s.noEvent

/-- BAR2_WRITE: bytes through the window under HKEY; beyond the window or without a key it touches nothing (R396). -/
def execBar2Write (fn off : Nat) (bytes : List Byte) (s : State) : Res :=
  if isFn fn then .next (s.unfocus.onDev fun d => match windowBytes d fn off bytes.length with
    | none => d
    | some l =>
      let key := keyOf d (fnAt d fn).hkey
      let es := l.zip bytes
      ((l.map (· / 32)).eraseDups).foldl (fun d x =>
        homeSector d key x ((es.filter fun e => e.1 / 32 = x).map fun e => (e.1 % 32, e.2))) d)
  else s.noEvent

/-! ## The MSI-X table (R438) -/

/-- The package with f applied to a table entry. -/
def modVector (d : Dev) (fn v : Nat) (f : Vector → Vector) : Dev :=
  modFn d fn fun x => { x with vectors := Sparse.upd {} x.vectors v f }

/-- A pending vector that nothing masks sends its message (R438). -/
def sendPending (d : Dev) (fn v : Nat) : Dev :=
  let x := Sparse.get {} (fnAt d fn).vectors v
  if x.pending && !x.masked && !(fnAt d fn).fmask then
    modVector { d with interrupts := d.interrupts ++ [(x.addr, x.data)] } fn v fun x => { x with pending := false }
  else d

/-- The mask bit of a vector is written (R438). -/
def maskVector (d : Dev) (fn v : Nat) (m : Bool) : Dev := sendPending (modVector d fn v fun x => { x with masked := m }) fn v

/-- The function mask is written (R438). -/
def maskFunction (d : Dev) (fn : Nat) (m : Bool) : Dev :=
  let d := modFn d fn fun x => { x with fmask := m }
  (fnAt d fn).vectors.foldl (fun d e => sendPending d fn e.1) d

/-- The entries of the table that are live (R395). -/
def liveVector (d : Dev) (fn v : Nat) : Bool := (partOfFn d fn).any fun p => decide (v < p.vecCnt)

/-- MSIX_UNMASK: vector v is unmasked, or with v = 2048 the function mask is cleared (R438; log 24). -/
def execMsixUnmask (fn v : Nat) (s : State) : Res :=
  if !isFn fn then s.noEvent
  else if v = 2048 then .next (s.unfocus.onDev fun d => maskFunction d fn false)
  else if liveVector s.dev fn v then .next (s.unfocus.onDev fun d => maskVector d fn v false)
  else s.noEvent

/-- A write of 8 bytes of the MSI-X table (R395, R438): an entry's address, or its data and control words. -/
def writeMsix (d : Dev) (fn off : Nat) (w : DWord) : Dev :=
  let v := off / 16
  if !liveVector d fn v then d
  else if off % 16 = 0 then modVector d fn v fun x => { x with addr := w }
  else maskVector (modVector d fn v fun x => { x with data := w.setWidth 32 }) fn v (w.getLsbD 32)

end Sys2Proof.Machine
end

