-- ==== Sys2Proof/Machine/PartEvents.lean ====
section
/-! DEFINITION. Partitions set up and torn down (21 R393-R394, R400), and writes to the registers of BAR0 (21 R388, R391, R395,
R397, R400, R403, 10 R201, 17 R348, R353, 01 R6). -/

namespace Sys2Proof.Machine

open Sys2Proof

/-! ## The partition record (R393) -/

/-- The 16-bit numbers that bytes hold, in order. -/
def halfWords : List Byte → List Nat
  | a :: b :: t => natOf [a, b] :: halfWords t
  | _ => []

/-- The packages of a pod member table image, when it is well formed: valid entries from entry 0 on, no package twice, the
own package among them (R400). -/
def podTable (d : Dev) (b : List Byte) : Option (List Nat) :=
  let es := halfWords b
  let valid := es.takeWhile fun e => bitOf e 15
  let ps := valid.map fun e => bits e 9 0
  if (es.drop valid.length).all (fun e => !bitOf e 15) && valid.all (fun e => bits e 14 10 = 0) && ps.eraseDups.length = ps.length &&
      ps.contains d.pkg then some ps else none

/-- The memory ranges of a record that are used. -/
def recMems (b : List Byte) : List (Nat × Nat) :=
  ((List.range 4).map fun i => (recNat b (0x28 + 16 * i) 8, recNat b (0x30 + 16 * i) 8)).filter fun r => r.2 ≠ 0

/-- A partition as its record and pod member table give it. -/
def parsePartition (b : List Byte) (pod : List Nat) : Partition :=
  { part := recNat b 0 1, ownBase := recNat b 2 2, ownCnt := recNat b 4 2, vecBase := recNat b 6 2, vecCnt := recNat b 8 2
    sidings := recNat b 0xA 1, clusters := BitVec.ofNat 96 (recNat b 0xC 12), saveBase := recNat b 0x18 8
    saveLen := recNat b 0x20 8, mems := recMems b, rtBase := recNat b 0x70 8, pod := pod
    digestOf := bytesOf (Config.shake256 b).toNat 64 }

/-- The fields keep their limits; the save pool and the range table lie within the memory, on populated offsets (R247,
R393, R394; log 28). -/
def partitionLegal (b : List Byte) (p : Partition) : Bool :=
  decide (p.part ≤ 15) && decide (2 ≤ p.ownCnt) && decide (p.ownBase + p.ownCnt ≤ 1024) && decide (p.vecBase + p.vecCnt ≤ 2048) &&
    decide (1 ≤ p.sidings ∧ p.sidings ≤ 24) && p.saveBase % 2 ^ 16 = 0 && p.saveLen % 2 ^ 16 = 0 &&
    p.mems.all (fun r => r.1 % 2 ^ 16 = 0 && r.2 % 2 ^ 16 = 0 && decide (r.1 + r.2 ≤ 2 ^ 39)) &&
    within p.mems p.saveBase p.saveLen && populated p.saveBase p.saveLen && p.rtBase % 2 ^ 20 = 0 &&
    within p.mems p.rtBase (2 ^ 20) && populated p.rtBase (2 ^ 20) && zeroBytes b 0x78 0x100

/-- Two ranges of numbers, by first and count, meet. -/
def meet (a n b m : Nat) : Bool := decide (a < b + m) && decide (b < a + n)

/-- A cluster, byte, owner or vector of one partition is the other's too (R394). -/
def partsOverlap (p q : Partition) : Bool :=
  p.clusters &&& q.clusters != 0 || p.mems.any (fun r => touches q.mems r.1 r.2) ||
    meet p.ownBase p.ownCnt q.ownBase q.ownCnt || meet p.vecBase p.vecCnt q.vecBase q.vecCnt

/-- Each die's memory of the partition holds its quarter of Sidings (R14, R393). -/
def sidingsFit (p : Partition) : Bool :=
  (List.range 4).all fun die => decide (p.sidings * 2 ^ 30 ≤ ((onDie p.mems die).map (·.2)).foldl (· + ·) 0)

/-- A partition record as read: the partition, or the cause that refuses it (R394). -/
def checkPartition (d : Dev) (b : List Byte) : Except Nat Partition :=
  match podTable d (homeBytes d (fnKey d 0) (recNat b 0x68 8) 2048) with
  | none => .error 2
  | some pod =>
    let p := parsePartition b pod
    if !partitionLegal b p || !populated (recNat b 0x68 8) 2048 then .error 2
    else if d.parts.any fun q => q.part = p.part then .error 3
    else if d.parts.any fun q => partsOverlap p q then .error 1
    else if !sidingsFit p then .error 4
    else .ok p

/-- A partition is running: its management owner is created and HKEY names it (R389, R394, R396). -/
def openPartition (d : Dev) (p : Partition) : Dev :=
  let d := createOwner { d with parts := d.parts ++ [p] } p.ownBase 0 false
  modFn d p.part fun x => { x with hkey := p.ownBase }

/-- A partition command is in progress until PARTITION_COMMAND_END. -/
def beginPcmd (d : Dev) (tear : Bool) (arg stat cause : Nat) : Dev :=
  { d with pstat := 1, pcause := 0, pcmd := some (tear, arg, stat, cause) }

/-- A write of PSETUP (R394): the record, read under the key of the physical function's management owner (R389), is accepted or
refused. While a command is in progress it has no effect. -/
def writePsetup (d : Dev) (a : Nat) : Dev :=
  if d.pstat = 1 then d
  else if a % 256 ≠ 0 || !populated a 256 then beginPcmd d false a 3 2
  else match checkPartition d (homeBytes d (fnKey d 0) a 256) with
    | .ok p => beginPcmd (openPartition d p) false a 2 0
    | .error c => beginPcmd d false a 3 c

/-- PSETUP is written (R394). -/
def execPsetup (w : DWord) (s : State) : Res := .next (s.unfocus.onDev fun d => writePsetup d w.toNat)

/-! ## Teardown (R394, R423) -/

/-- A launch of a partition ends CANCELLED at once; one whose end is decided keeps its status (R394). -/
def cancelLaunch (d : Dev) (l : Launch) : Dev :=
  let d := match l.state with
    | .waiting | .bound => endLaunch d l.key 6 0
    | .ending | .ended => d
  let d := { d with jobs := d.jobs.filter fun j => j.launch ≠ l.key }
  match findLaunch d l.key with
  | none => d
  | some x => if x.state = .ended then d else closeLaunch d x x.status x.cause

/-- Names of a partition's owners become RETIRED (R234). -/
def retireOwned (d : Dev) (p : Partition) : Dev :=
  (d.names.filter fun e => decide (p.ownBase ≤ e.2.owner) && decide (e.2.owner < p.ownBase + p.ownCnt)).foldl (fun d e =>
    retireName d e.2.owner (mkName d.pkg e.1 e.2.gen)) d

/-- A partition's consists end (R361, R394). -/
def endConsists (d : Dev) (p : Partition) : Dev :=
  let mine := d.consists.filter fun k => k.part = p.part
  let d := mine.foldl (fun d k => sendGone d k (localRank d k)) d
  { d with
    consists := d.consists.filter fun k => k.part ≠ p.part
    colls := d.colls.filter fun c => c.cid / 2 ^ 16 ≠ p.part + 1
    heldForms := d.heldForms.filter (fun h => !(decide (p.ownBase ≤ h.1.owner) && decide (h.1.owner < p.ownBase + p.ownCnt)))
    waitSubs := d.waitSubs.filter fun w => w.cid / 2 ^ 16 ≠ p.part + 1
    vias := d.vias.filter fun v => !(decide (p.ownBase ≤ v.owner) && decide (v.owner < p.ownBase + p.ownCnt)) }

/-- A function's outstanding faults and waiting records end with its partition. -/
def endFaults (d : Dev) (fn : Nat) : Dev :=
  let w := (faultQ d fn).waiting.filter (·.term)
  let d := modFaultQ { d with tagsOut := d.tagsOut.filter fun t => t.fn ≠ fn } fn fun q => { q with waiting := [] }
  w.foldl (fun d r => dropRecord d fn r) d

/-- A partition is torn down: launches, names, consists, owners, the management owner last (R394). -/
def tearDown (d : Dev) (p : Partition) : Dev :=
  let d := (d.launches.filter fun l => l.fn = p.part).foldl cancelLaunch d
  let d := endFaults (endConsists (retireOwned d p) p) p.part
  let d := (List.range (p.ownCnt - 1)).foldl (fun d i => destroyOwner d (p.ownBase + 1 + i)) d
  let d := destroyOwner d p.ownBase
  { d with
    parts := d.parts.filter fun q => q.part ≠ p.part
    rangeCache := d.rangeCache.filter fun c => c.part ≠ p.part
    failed := d.failed.filter fun f => !(decide (p.ownBase ≤ f.owner) && decide (f.owner < p.ownBase + p.ownCnt)) }

/-- The partition of a number torn down, where it runs. -/
def tearPart (d : Dev) (n : Nat) : Dev :=
  match partOfFn d n with
  | some p => tearDown d p
  | none => d

/-- A write of PTEAR (R394). -/
def writePtear (d : Dev) (w : Nat) : Dev :=
  if d.pstat = 1 then d else beginPcmd (tearPart d (bits w 3 0)) true (bits w 3 0) 2 0

/-- PTEAR is written (R394). -/
def execPtear (w : DWord) (s : State) : Res := .next (s.unfocus.onDev fun d => writePtear d w.toNat)

/-- PARTITION_COMMAND_END: PSTAT moves from busy to done or refused, with its cause (R394). -/
def execPartitionCommandEnd (s : State) : Res :=
  let s := s.unfocus
  match s.dev.pcmd with
  | some c => .next (s.onDev fun d => { d with pstat := c.2.2.1, pcause := c.2.2.2, pcmd := none })
  | none => s.noEvent

/-! ## REGISTER_WRITE (R6, R395) -/

/-- A register of a queue's window (R201). -/
def writeQueueReg (d : Dev) (fn off : Nat) (w : DWord) : Dev :=
  let q := off / 64
  let x := bits w.toNat 31 0
  match off % 64 with
  | 0x00 => modQueue d fn q fun y => if y.state = 0 then { y with base := dw (w.toNat / 4096 * 4096) } else y
  | 0x08 => writeQcfg d fn q w
  | 0x10 => kickQueue d fn q x
  | 0x28 => tellShares (restartQueue d fn q x)
  | _ => d

/-- A register of the fault queue (R388). -/
def writeFaultReg (d : Dev) (fn off : Nat) (w : DWord) : Dev :=
  match off with
  | 0x00 => modFaultQ d fn fun q => { q with base := dw (w.toNat / 4096 * 4096) }
  | 0x08 => writeFqcfg d fn w
  | 0x18 => modFaultQ d fn fun q => { q with ridx := bits w.toNat 31 0 }
  | 0x20 => match bits w.toNat 33 32 with
    | 1 => retryTag d fn (bits w.toNat 31 0)
    | 2 => failTag d fn (bits w.toNat 31 0)
    | _ => d
  | 0x28 =>
    let t := bits w.toNat 23 0
    if 1000 ≤ t ∧ t ≤ 10000000 then modFaultQ d fn fun q => { q with timeout := t } else d
  | _ => d

/-- A handover register or HKEY (R396, R397). -/
def writeHandoverReg (d : Dev) (fn off : Nat) (w : DWord) : Dev :=
  let mod := fun (f : Handover → Handover) => modFn d fn fun x => { x with ho := f x.ho }
  match off with
  | 0x00 => mod fun h => { h with hova := w }
  | 0x08 => mod fun h => { h with holen := w }
  | 0x10 => mod fun h => { h with hosw := w }
  | 0x18 => writeHoctl d fn w.toNat
  | 0x20 => mod fun h => { h with lost := h.lost && !w.getLsbD 1 }
  | 0x38 => modFn d fn fun x => { x with hkey := bits w.toNat 9 0 }
  | _ => d

/-- An owner-command register (R391). -/
def writeOwnerReg (d : Dev) (fn off : Nat) (w : DWord) : Dev :=
  match off with
  | 0x00 => writeOcmd d fn w.toNat
  | 0x08 => modFn d fn fun x => { x with oc := { x.oc with arg0 := w } }
  | 0x10 => modFn d fn fun x => { x with oc := { x.oc with arg1 := w } }
  | _ => d

/-- A partition register, of the physical function alone (R394). -/
def writePartReg (d : Dev) (fn off : Nat) (w : DWord) : Dev :=
  if fn ≠ 0 then d
  else match off with
    | 0x00 => writePsetup d w.toNat
    | 0x08 => writePtear d w.toNat
    | _ => d

/-- A register of the fabric configuration page (R353, R400). -/
def writeFabricReg (d : Dev) (fn off : Nat) (w : DWord) : Dev :=
  let t := bits w.toNat 29 0
  let mod := fun (f : Func → Func) => if 1000 ≤ t ∧ t ≤ 1000000000 then modFn d fn f else d
  match off with
  | 0x000 => mod fun x => { x with fdl0 := t }
  | 0x008 => mod fun x => { x with fdl1 := t }
  | 0x010 => mod fun x => { x with fdl2 := t }
  | 0x018 => mod fun x => { x with fdl3 := t }
  | 0x028 => writeRtinv d fn w.toNat
  | _ => d

/-- A write of 8 bytes to BAR0 (R395); read-only and unassigned offsets ignore it. -/
def writeBar0 (d : Dev) (fn off : Nat) (w : DWord) : Dev :=
  if off % 8 ≠ 0 then d
  else if off < 0x1000 then writeQueueReg d fn off w
  else if off < 0x1040 then writeFaultReg d fn (off - 0x1000) w
  else if off < 0x1080 then writeHandoverReg d fn (off - 0x1040) w
  else if off < 0x10C0 then writeOwnerReg d fn (off - 0x1080) w
  else if off < 0x1100 then d
  else if off < 0x1140 then writePartReg d fn (off - 0x1100) w
  else if off = 0x1140 then writeAreq d fn w.toNat
  else if off < 0x2000 then d
  else if off < 0x3000 then writeFabricReg d fn (off - 0x2000) w
  else if off < 0x8000 then d
  else if off < 0x10000 then writeMsix d fn (off - 0x8000) w
  else if off = 0x10000 then maskFunction d fn (w.getLsbD 0)
  else d

/-- A route-table entry from its 64 bits (R348). -/
def routeOf (w : Nat) : Route :=
  { ports := [bits w 3 0, bits w 7 4, bits w 11 8, bits w 15 12], nport := bits w 18 16, hops := bits w 21 19, own := bitOf w 22 }

/-- A write to management space (R348; log 24): the route-table entry of package off / 8. The own package's entry tells the
package its number. -/
def writeManagement (d : Dev) (off : Nat) (w : DWord) : Dev :=
  if d.recovery || off % 8 ≠ 0 || 8192 ≤ off then d
  else
    let r := routeOf w.toNat
    { d with routes := Sparse.put {} d.routes (off / 8) r, pkg := if r.own then off / 8 else d.pkg }

/-- REGISTER_WRITE: 8 bytes written to a register of a function, or, with function 16, to management space (R6, R395; log 24). -/
def execRegisterWrite (fn off : Nat) (w : DWord) (s : State) : Res :=
  let s := s.unfocus
  if isFn fn then .next (s.onDev fun d => writeBar0 d fn off w)
  else if fn = 16 then .next (s.onDev fun d => writeManagement d off w)
  else s.noEvent

end Sys2Proof.Machine
end

