-- ==== Sys2Proof/Machine/HealthEvents.lean ====
section
/-! DEFINITION. Monitors, islands, corrected errors, reset levels and images (24 R425-R430, 23 R423-R424). -/

namespace Sys2Proof.Machine

open Sys2Proof

/-! ## Monitors (R425) -/

/-- One of the 128 monitor units. -/
def isMonitor (u : Nat) : Bool := decide (u < 128)

/-- The package with f applied to a monitor. -/
def modMonitor (d : Dev) (u : Nat) (f : Monitor → Monitor) : Dev := { d with monitors := Sparse.upd {} d.monitors u f }

/-- The fields SRC, INST, BASE and SHIFT as written. -/
def Monitor.setFields (m : Monitor) (w : Nat) : Monitor :=
  { m with src := bits w 7 0, inst := bits w 19 8, base := bits w 39 20, shift := bits w 44 40 }

/-- RUN := 1: the capture is cleared and starts; MIN starts at its highest value (log 7). -/
def Monitor.start (m : Monitor) (time : Nat) : Monitor :=
  { m with run := true, min := 2 ^ 32 - 1, max := 0, count := 0, sum := 0, t0 := time, t1 := 0, hist := [] }

/-- RUN := 0: the capture stops. -/
def Monitor.stop (m : Monitor) (time : Nat) : Monitor := if m.run then { m with run := false, t1 := time } else m

/-- MONITOR_START: a monitor's registers are written with RUN = 1. Recovery mode accepts no such write (R430). -/
def execMonitorStart (u : Nat) (w : DWord) (s : State) : Res :=
  let s := s.unfocus
  if !isMonitor u || !w.getLsbD 45 then s.noEvent
  else if s.dev.recovery then .next s
  else .next (s.onDev fun d => modMonitor d u fun m => (m.setFields w.toNat).start d.time)

/-- MONITOR_STOP: a monitor's registers are written with RUN = 0. -/
def execMonitorStop (u : Nat) (w : DWord) (s : State) : Res :=
  let s := s.unfocus
  if !isMonitor u || w.getLsbD 45 then s.noEvent
  else if s.dev.recovery then .next s
  else .next (s.onDev fun d => modMonitor d u fun m => (m.stop d.time).setFields w.toNat)

/-- The bin of a sample (R425). -/
def Monitor.bin (m : Monitor) (x : Nat) : Nat := if x < m.base then 0 else Nat.min 15 (1 + (x - m.base) / 2 ^ m.shift)

/-- A capture after a sample (R425). -/
def Monitor.sample (m : Monitor) (x : Nat) : Monitor :=
  { m with
    min := Nat.min m.min x, max := Nat.max m.max x, count := Nat.min (m.count + 1) (2 ^ 64 - 1)
    sum := Nat.min (m.sum + x) (2 ^ 64 - 1)
    hist := Sparse.upd 0 m.hist (m.bin x) fun n => Nat.min (n + 1) (2 ^ 32 - 1) }

/-- MONITOR_SAMPLE: a running monitor with a source takes a sample. -/
def execMonitorSample (u x : Nat) (s : State) : Res :=
  let s := s.unfocus
  let m := Sparse.get {} s.dev.monitors u
  if isMonitor u && m.run && decide (1 ≤ m.src ∧ m.src ≤ 7) && decide (x < 2 ^ 32) then
    .next (s.onDev fun d => modMonitor d u fun m => m.sample x)
  else s.noEvent

/-! ## Boot (R430) -/

/-- An image of a kind is accepted: its signature verifies and its version is not below the minimum (R430). -/
def imageOk (f : Flash) (img : Nat) (x : Image) : Bool :=
  decide (Sparse.get 0 f.minVersion img ≤ x.version) && Config.verified img x.version x.digest x.sig

/-- A slot of an image. -/
def slotImage (f : Flash) (img slot : Nat) : Image := Sparse.get {} f.images (2 * img + slot)

/-- An image is refused (R428, R430). -/
def refuseImage (d : Dev) (img : Nat) : Dev := postError d 12 0xFF img 1 0

/-- The image that boots, slot 0 before slot 1, with a record for each slot refused (R430). -/
def bootImage (d : Dev) (img : Nat) : Dev × Option Image :=
  if imageOk d.flash img (slotImage d.flash img 0) then (d, some (slotImage d.flash img 0))
  else
    let d := refuseImage d img
    if imageOk d.flash img (slotImage d.flash img 1) then (d, some (slotImage d.flash img 1)) else (refuseImage d img, none)

/-- The time slice of a configuration image, 20 ms where its field lies outside 1 ms to 1 s (R213; log 29). -/
def sliceOfImage (x : Image) : Nat := if 1000000 ≤ x.slice ∧ x.slice ≤ 1000000000 then x.slice else 20000000

/-- The three images in order; the package stays in recovery mode when both slots of one are refused (R430). -/
def boot (d : Dev) : Dev :=
  match bootImage d 0 with
  | (d, none) => { d with recovery := true }
  | (d, some a) => match bootImage d 1 with
    | (d, none) => { d with recovery := true }
    | (d, some b) => match bootImage d 2 with
      | (d, none) => { d with recovery := true }
      | (d, some c) =>
        { d with
          recovery := false, booted := [a.digest, b.digest, c.digest], timeSlice := sliceOfImage c, sidings := c.sidings }

/-! ## Reset levels (R423, R424) -/

/-- Host memory: what stands behind the window, which no reset of the package touches. -/
def hostCells (m : Memory) : Memory := m.filter fun c => isHost c.1

/-- A link that must train before it carries packets (R423). -/
def deadPort (time : Nat) : Port := { live := false, retraining := true, since := time }

/-- What any package reset leaves: flash, host memory, what has left the package, the time base of the pod, and the counters of
values drawn (R423, R424). -/
def resetBase (d : Dev) : Dev :=
  { time := d.time, mem := hostCells d.mem, pkg := d.pkg, flash := d.flash, outbox := d.outbox, interrupts := d.interrupts
    bar2Out := d.bar2Out, nonces := d.nonces, fresh := d.fresh, nextId := d.nextId, nextTag := d.nextTag
    ports := (List.range 16).map fun i => (i, deadPort d.time) }

/-- Package warm reset: HBM cells survive, under nonces that are lost (R390, R423). -/
def warmReset (d : Dev) : Dev := boot { resetBase d with mem := d.mem, keys := d.keys, bad := d.bad }

/-- Cold reset: everything but flash ends (R423). -/
def coldReset (d : Dev) : Dev := boot (resetBase d)

/-- WARM_RESET (R423). -/
def execWarmReset (s : State) : Res := .next (s.unfocus.onDev warmReset)

/-- COLD_RESET (R423). -/
def execColdReset (s : State) : Res := .next (s.unfocus.onDev coldReset)

/-- PF_FLR: every partition is torn down in increasing PART, and every BAR0 register returns to its reset value (R423). -/
def execPfFlr (s : State) : Res :=
  .next (s.unfocus.onDev fun d =>
    let d := (List.range 16).foldl tearPart d
    { d with funcs := [], pstat := 0, pcause := 0, pcmd := none })

/-- VF_FLR: the partition of a virtual function is torn down (R423). -/
def execVfFlr (f : Nat) (s : State) : Res :=
  if 1 ≤ f ∧ f ≤ 15 then .next (s.unfocus.onDev fun d => tearPart d f) else s.noEvent

/-- IMAGE_WRITE: a management write places an image into a flash slot (R430). -/
def execImageWrite (img : Fin 3) (slot : Bool) (version : Nat) (digest : BitVec 512) (sig : Nat) (sets : Settings) (s : State) : Res :=
  .next (s.unfocus.onDev fun d =>
    { d with flash := { d.flash with
        images := Sparse.put {} d.flash.images (2 * img.val + b2n slot) ⟨version, digest, sig, sets.slice, sets.sidings⟩ } })

/-! ## Islands (R426) -/

/-- The step of an island. -/
def stepOf (d : Dev) (i : Nat) : Nat := Sparse.get 0 d.steps i

/-- An island goes up one step, with a KIND 6 record (R426, R428). -/
def stepUp (d : Dev) (i : Nat) : Dev :=
  if 9 ≤ stepOf d i then d
  else postError { d with steps := Sparse.put 0 d.steps i (stepOf d i + 1) } 6 0xFF i (stepOf d i + 1) 0

/-- The first position of the greatest number of a list. -/
def argMax (l : List Nat) : Nat := l.findIdx fun x => l.all fun y => decide (y ≤ x)

/-- The island with the highest step goes down one step, the lowest index among equals (R426). -/
def stepDown (d : Dev) : Dev :=
  let i := argMax ((List.range 112).map (stepOf d))
  { d with steps := Sparse.put 0 d.steps i (stepOf d i - 1) }

/-- Every island to step 9, with a KIND 7 record of the hot island (R426, R428). -/
def thermalTrip (d : Dev) (hot temp : Nat) : Dev :=
  postError { d with steps := (List.range 112).map fun i => (i, 9) } 7 0xFF hot temp 0

/-- One evaluation (R426): temperatures in units of 0.125 °C, as the monitors measure them. -/
def evaluate (d : Dev) (hotPower cold : Bool) (powers temps : List Nat) (supply : Bool) : Dev :=
  let above := fun (t : Nat) => (List.range 112).filter fun i => decide (8 * t < nth 0 temps i)
  if supply || !(above 115).isEmpty then warmReset d
  else match above 105 with
    | i :: _ => thermalTrip d i (nth 0 temps i)
    | [] =>
      let up := if hotPower then argMax powers :: (above 95).filter (· ≠ argMax powers) else above 95
      if !up.isEmpty then up.foldl stepUp d
      else if cold && temps.all fun t => decide (t < 8 * 90) then stepDown d
      else d

/-- ISLAND_EVALUATION: the health hart's evaluation: package power over 1 ms above 2,600 W, or below 2,470 W with every island
below 90 °C for 1 ms, the islands' powers and temperatures, and a supply out of its range (R426). -/
def execIslandEvaluation (hotPower cold : Bool) (powers temps : List Nat) (supply : Bool) (s : State) : Res :=
  if powers.length = 112 && temps.length = 112 && !(hotPower && cold) then
    .next (s.unfocus.onDev fun d => evaluate d hotPower cold powers temps supply)
  else s.noEvent

/-! ## CORRECTED_ERROR_REPORT (R428) -/

/-- CORRECTED_ERROR_REPORT: the n corrected errors of a unit in an interval of 1 ms are posted as one record. -/
def execCorrectedErrorReport (u n : Nat) (s : State) : Res :=
  let s := s.unfocus
  let last := Sparse.get 0 s.dev.corrected u
  if n ≠ 0 && (last = 0 || decide (last + 1000000 ≤ s.dev.time + 1)) then
    .next (s.onDev fun d => postError { d with corrected := Sparse.put 0 d.corrected u (d.time + 1) } 1 0xFF u n 0)
  else s.noEvent

/-! ## Uncorrectable errors (R265, R420) -/

/-- The record of an uncorrectable error: a slice, or a core for what a core holds, and the physical address (R428). -/
def postUpset (d : Dev) (unit addr : Nat) : Dev := postError d 2 0xFF unit 1 addr

/-- A register word becomes tagged, so that its reader traps (R265, R271). -/
def upsetGroup (d : Dev) (b g : Nat) (f : Group → Group) : Dev :=
  match findBlock d b with
  | some x => if x.onCore then postUpset (modBlock d b fun y => y.modGroup g f) x.core 0 else d
  | none => d

/-- The tag of a register word that its protection code gives up. -/
def upsetTag (d : Dev) : Tag := ⟨cPOISON_CONSUMED, 0, 0, d.time⟩

/-- A sector at its home: poisoned, unless L2 holds a host-window line clean, which goes (R265). -/
def upsetHome (d : Dev) (sec : Nat) : Dev :=
  if isHost (32 * sec) then
    match d.l2host.find? fun c => c.line = sec / 4 with
    | none => d
    | some c =>
      let d := postUpset d (homeSlice (32 * sec)) (32 * sec)
      if c.owed.any fun o => o / 32 = sec % 4 then { d with bad := Sparse.put false d.bad sec true }
      else { d with l2host := d.l2host.filter fun x => x != c }
  else if populated (32 * sec) 32 then
    postUpset { d with bad := Sparse.put false d.bad sec true } (homeSlice (32 * sec)) (32 * sec)
  else d

/-- A sector of a cluster cache: poisoned where it is dirty; a clean line goes (R265). -/
def upsetCluster (d : Dev) (cl sec key : Nat) : Dev :=
  let d := postUpset d (4 * cl) (32 * sec)
  match dirtyAt d cl sec key with
  | some _ => { d with dirty := modFirst d.dirty (fun x => x.cluster = cl && x.sector = sec && x.key = key) fun x =>
      { x with bad := true } }
  | none => { d with cc := withoutLine d.cc cl (sec / 4) }

/-- An uncorrectable error (R265, R420): the sector or word is poisoned, or the clean copy goes; each posts a record. -/
def upset (d : Dev) (p : Upset) : Dev :=
  match p with
  | .home sec => upsetHome d sec
  | .cluster cl sec key => upsetCluster d cl sec key
  | .remote die line => postUpset { d with rdc := withoutLine d.rdc die line } (homeSlice (128 * line)) (128 * line)
  | .core cache core line =>
    if cache = 0 || cache = 2 || cache = 3 then postUpset (evictLine d cache core line) core (128 * line) else d
  | .scratch b w => match findBlock d b with
    | some x => if x.onCore then
        postUpset (modBlock d b fun y => { y with scratchBad := Sparse.put false y.scratchBad w true }) x.core 0 else d
    | none => d
  | .vec b g key => upsetGroup d b g fun y => { y with tags := Sparse.ins key (upsetTag d) y.tags }
  | .uni b g r => upsetGroup d b g fun y => { y with stags := Sparse.ins r (upsetTag d) y.stags }
  | .name i => postUpset { d with names := Sparse.upd {} d.names i fun e => { e with poisoned := true } } 0 0

end Sys2Proof.Machine
end

