-- ==== Sys2Proof/Machine/Uniform.lean ====
section
/-! DEFINITION. Uniform integer, predicate and immediate instructions (05 R96-R102). -/

namespace Sys2Proof.Machine

open Sys2Proof

/-! ## Functions (R97-R99) -/

def smulhD (a b : DWord) : DWord := wrap64 (a.toInt * b.toInt / 18446744073709551616)
def sminD (a b : DWord) : DWord := if b.toInt < a.toInt then b else a
def smaxD (a b : DWord) : DWord := if a.toInt < b.toInt then b else a
def sminnD (a b : DWord) : DWord := if b.toNat < a.toNat then b else a
def smaxnD (a b : DWord) : DWord := if a.toNat < b.toNat then b else a
def sshlD (a b : DWord) : DWord := if 64 ≤ b.toNat then 0 else a <<< b.toNat
def sshrD (a b : DWord) : DWord := if 64 ≤ b.toNat then 0 else a >>> b.toNat
def ssarD (a b : DWord) : DWord := a.sshiftRight (min b.toNat 63)
/-- The sum of the low words, wrapped and sign-extended. -/
def saddwD (a b : DWord) : DWord := (a.setWidth 32 + b.setWidth 32).signExtend 64

/-- A condition of `ssetp` between two double words (R38). -/
def condS (c : SCond) (a b : DWord) : Bool :=
  match c with
  | .eq => a = b
  | .ne => a ≠ b
  | .lt => a.toInt < b.toInt
  | .le => a.toInt ≤ b.toInt
  | .gt => b.toInt < a.toInt
  | .ge => b.toInt ≤ a.toInt
  | .lo => a.toNat < b.toNat
  | .hs => b.toNat ≤ a.toNat

/-! ## The instructions -/

/-- `sadd sD, sA, sB` under its guard (R97). -/
def execSadd (d a b : SReg) (g : QGuard) (s : State) : Res := s.uni2 d a b g fun x y => x + y

/-- `sadd sD, sA, imm`, the immediate sign-extended (R97). -/
def execSaddImm (d a : SReg) (i : BitVec 10) (s : State) : Res := s.uniI d a (sx10 i) fun x y => x + y

/-- `ssub sD, sA, sB` under its guard (R97). -/
def execSsub (d a b : SReg) (g : QGuard) (s : State) : Res := s.uni2 d a b g fun x y => x - y

/-- `ssub sD, sA, imm`, the immediate sign-extended (R97). -/
def execSsubImm (d a : SReg) (i : BitVec 10) (s : State) : Res := s.uniI d a (sx10 i) fun x y => x - y

/-- `smul sD, sA, sB` under its guard (R97). -/
def execSmul (d a b : SReg) (g : QGuard) (s : State) : Res := s.uni2 d a b g fun x y => x * y

/-- `smul sD, sA, imm`, the immediate sign-extended (R97). -/
def execSmulImm (d a : SReg) (i : BitVec 10) (s : State) : Res := s.uniI d a (sx10 i) fun x y => x * y

/-- `smulh sD, sA, sB` under its guard (R97). -/
def execSmulh (d a b : SReg) (g : QGuard) (s : State) : Res := s.uni2 d a b g fun x y => smulhD x y

/-- `smin sD, sA, sB` under its guard (R97). -/
def execSmin (d a b : SReg) (g : QGuard) (s : State) : Res := s.uni2 d a b g fun x y => sminD x y

/-- `smin sD, sA, imm`, the immediate sign-extended (R97). -/
def execSminImm (d a : SReg) (i : BitVec 10) (s : State) : Res := s.uniI d a (sx10 i) fun x y => sminD x y

/-- `smax sD, sA, sB` under its guard (R97). -/
def execSmax (d a b : SReg) (g : QGuard) (s : State) : Res := s.uni2 d a b g fun x y => smaxD x y

/-- `smax sD, sA, imm`, the immediate sign-extended (R97). -/
def execSmaxImm (d a : SReg) (i : BitVec 10) (s : State) : Res := s.uniI d a (sx10 i) fun x y => smaxD x y

/-- `sminn sD, sA, sB` under its guard (R97). -/
def execSminn (d a b : SReg) (g : QGuard) (s : State) : Res := s.uni2 d a b g fun x y => sminnD x y

/-- `sminn sD, sA, imm`, the immediate zero-extended (R97). -/
def execSminnImm (d a : SReg) (i : BitVec 10) (s : State) : Res := s.uniI d a (zx10 i) fun x y => sminnD x y

/-- `smaxn sD, sA, sB` under its guard (R97). -/
def execSmaxn (d a b : SReg) (g : QGuard) (s : State) : Res := s.uni2 d a b g fun x y => smaxnD x y

/-- `smaxn sD, sA, imm`, the immediate zero-extended (R97). -/
def execSmaxnImm (d a : SReg) (i : BitVec 10) (s : State) : Res := s.uniI d a (zx10 i) fun x y => smaxnD x y

/-- `sand sD, sA, sB` under its guard (R97). -/
def execSand (d a b : SReg) (g : QGuard) (s : State) : Res := s.uni2 d a b g fun x y => x &&& y

/-- `sand sD, sA, imm`, the immediate zero-extended (R97). -/
def execSandImm (d a : SReg) (i : BitVec 10) (s : State) : Res := s.uniI d a (zx10 i) fun x y => x &&& y

/-- `sor sD, sA, sB` under its guard (R97). -/
def execSor (d a b : SReg) (g : QGuard) (s : State) : Res := s.uni2 d a b g fun x y => x ||| y

/-- `sor sD, sA, imm`, the immediate zero-extended (R97). -/
def execSorImm (d a : SReg) (i : BitVec 10) (s : State) : Res := s.uniI d a (zx10 i) fun x y => x ||| y

/-- `sxor sD, sA, sB` under its guard (R97). -/
def execSxor (d a b : SReg) (g : QGuard) (s : State) : Res := s.uni2 d a b g fun x y => x ^^^ y

/-- `sxor sD, sA, imm`, the immediate zero-extended (R97). -/
def execSxorImm (d a : SReg) (i : BitVec 10) (s : State) : Res := s.uniI d a (zx10 i) fun x y => x ^^^ y

/-- `sshl sD, sA, sB` under its guard (R97). -/
def execSshl (d a b : SReg) (g : QGuard) (s : State) : Res := s.uni2 d a b g fun x y => sshlD x y

/-- `sshl sD, sA, imm`, the immediate zero-extended (R97). -/
def execSshlImm (d a : SReg) (i : BitVec 10) (s : State) : Res := s.uniI d a (zx10 i) fun x y => sshlD x y

/-- `sshr sD, sA, sB` under its guard (R97). -/
def execSshr (d a b : SReg) (g : QGuard) (s : State) : Res := s.uni2 d a b g fun x y => sshrD x y

/-- `sshr sD, sA, imm`, the immediate zero-extended (R97). -/
def execSshrImm (d a : SReg) (i : BitVec 10) (s : State) : Res := s.uniI d a (zx10 i) fun x y => sshrD x y

/-- `ssar sD, sA, sB` under its guard (R97). -/
def execSsar (d a b : SReg) (g : QGuard) (s : State) : Res := s.uni2 d a b g fun x y => ssarD x y

/-- `ssar sD, sA, imm`, the immediate zero-extended (R97). -/
def execSsarImm (d a : SReg) (i : BitVec 10) (s : State) : Res := s.uniI d a (zx10 i) fun x y => ssarD x y

/-- `saddw sD, sA, sB` under its guard (R97). -/
def execSaddw (d a b : SReg) (g : QGuard) (s : State) : Res := s.uni2 d a b g fun x y => saddwD x y

/-- `saddw sD, sA, imm`, the immediate sign-extended (R97). -/
def execSaddwImm (d a : SReg) (i : BitVec 10) (s : State) : Res := s.uniI d a (sx10 i) fun x y => saddwD x y

/-- `ssetp.cond qM, sA, sB` under its guard (R98). -/
def execSsetp (c : SCond) (q : QReg) (a b : SReg) (g : QGuard) (s : State) : Res := 
  s.guardedOp g [.s a 1, .s b 1] [] fun t => t.wq q (condS c (t.rs a) (t.rs b))

/-- `ssetp.cond qM, sA, imm` (R98). -/
def execSsetpImm (c : SCond) (q : QReg) (a : SReg) (i : BitVec 10) (s : State) : Res := 
  s.uniOp [.s a 1] [] fun t => t.wq q (condS c (t.rs a) (sx10 i))

/-- `ssel sD, [!]qN, sA, sB`, never guarded (R98). -/
def execSsel (d a b : SReg) (q : QReg) (x : Bool) (s : State) : Res := 
  s.uniOp [.s a 1, .s b 1] [.s d 1] fun t => t.ws d (if t.rq q != x then t.rs a else t.rs b)

/-- `smov sD, sA` (R99). -/
def execSmov (d a : SReg) (g : QGuard) (s : State) : Res := s.uni1 d a g fun x => x

/-- `spopc sD, sA` (R99). -/
def execSpopc (d a : SReg) (g : QGuard) (s : State) : Res := s.uni1 d a g fun x => dw (popN 64 x.toNat)

/-- `sclz sD, sA` (R99). -/
def execSclz (d a : SReg) (g : QGuard) (s : State) : Res := s.uni1 d a g fun x => dw (clzN 64 x.toNat)

/-- `sgetv sD, vX`: the lowest lane of the slot, or of the path that the clause names (R100). -/
def execSgetv (d a : SReg) (x : Bool) (g : QGuard) (s : State) : Res := 
  if s.holds g then
    if s.onPath = 0 then s.uniOp [] [.s d 1] fun t => t.ws d 0
    else
      let L := lowest s.onPath
      let r := a.val + 64 * b2n x
      s.withOperands (BitVec.ofNat 32 (2 ^ L)) [.v r 1] [.s d 1] fun t =>
        .next (t.ws d ((t.rv L r).setWidth 64)).advance
  else .next s.advance

/-- `qlop.op qD, [!]qA, [!]qB` (R101). -/
def execQlop (d : QReg) (o : Fin 4) (x : Bool) (a : QReg) (y : Bool) (b : QReg) (g : QGuard) (s : State) : Res := 
  s.guardedOp g [] [] fun t => t.wq d (predOp o (t.rq a != x) (t.rq b != y))

/-- `q2s sD` (R101). -/
def execQ2s (d : SReg) (g : QGuard) (s : State) : Res := s.guardedOp g [] [.s d 1] fun t => t.ws d (t.grp.q.setWidth 64)

/-- `s2q sA` (R101). -/
def execS2q (a : SReg) (g : QGuard) (s : State) : Res := 
  s.guardedOp g [.s a 1] [] fun t => t.onGrp fun x => { x with q := (t.rs a).setWidth 8 }

/-- `smovi.hH sD, imm16` (R102). -/
def execSmovi (d : SReg) (h : Fin 4) (i : BitVec 16) (s : State) : Res := 
  s.uniOp [] [.s d 1] fun t => t.ws d (i.setWidth 64 <<< (16 * h.val))

/-- `smovk.hH sD, imm16` keeps the other quarters (R102). -/
def execSmovk (d : SReg) (h : Fin 4) (i : BitVec 16) (s : State) : Res := 
  s.uniOp [.s d 1] [.s d 1] fun t => t.ws d
    ((t.rs d &&& ~~~ (0xFFFF#64 <<< (16 * h.val))) ||| (i.setWidth 64 <<< (16 * h.val)))

/-- `smovsx sD, imm16` (R102). -/
def execSmovsx (d : SReg) (i : BitVec 16) (s : State) : Res := s.uniOp [] [.s d 1] fun t => t.ws d (sx16d i)

/-- `sadr sD, label`: relative to the clause that holds it (R102). -/
def execSadr (d : SReg) (i : BitVec 16) (s : State) : Res := 
  s.uniOp [] [.s d 1] fun t => t.ws d (t.clauseAddr + 32 * sx16d i)

end Sys2Proof.Machine
end

