-- ==== Sys2Proof/Machine/Dispatch.lean ====
section
/-! DEFINITION. What each instruction and each event of the part does: one arm per constructor of Instr, each one call
of its meaning. -/

namespace Sys2Proof.Machine

open Sys2Proof

def exec (i : Instr) (s : State) : Host.Outcome State Fault Refusal :=
  match i with
  | .iadd d a b => Sys2Proof.Machine.execIadd d a b s
  | .iaddImm d a imm => Sys2Proof.Machine.execIaddImm d a imm s
  | .isub d a b => Sys2Proof.Machine.execIsub d a b s
  | .isubImm d a imm => Sys2Proof.Machine.execIsubImm d a imm s
  | .iadds d a b => Sys2Proof.Machine.execIadds d a b s
  | .iaddsImm d a imm => Sys2Proof.Machine.execIaddsImm d a imm s
  | .iaddsn d a b => Sys2Proof.Machine.execIaddsn d a b s
  | .iaddsnImm d a imm => Sys2Proof.Machine.execIaddsnImm d a imm s
  | .imul d a b => Sys2Proof.Machine.execImul d a b s
  | .imulImm d a imm => Sys2Proof.Machine.execImulImm d a imm s
  | .imulh d a b => Sys2Proof.Machine.execImulh d a b s
  | .imulhn d a b => Sys2Proof.Machine.execImulhn d a b s
  | .imin d a b => Sys2Proof.Machine.execImin d a b s
  | .iminImm d a imm => Sys2Proof.Machine.execIminImm d a imm s
  | .imax d a b => Sys2Proof.Machine.execImax d a b s
  | .imaxImm d a imm => Sys2Proof.Machine.execImaxImm d a imm s
  | .iminn d a b => Sys2Proof.Machine.execIminn d a b s
  | .iminnImm d a imm => Sys2Proof.Machine.execIminnImm d a imm s
  | .imaxn d a b => Sys2Proof.Machine.execImaxn d a b s
  | .imaxnImm d a imm => Sys2Proof.Machine.execImaxnImm d a imm s
  | .iabsd d a b => Sys2Proof.Machine.execIabsd d a b s
  | .and d a b => Sys2Proof.Machine.execAnd d a b s
  | .andImm d a imm => Sys2Proof.Machine.execAndImm d a imm s
  | .or d a b => Sys2Proof.Machine.execOr d a b s
  | .orImm d a imm => Sys2Proof.Machine.execOrImm d a imm s
  | .xor d a b => Sys2Proof.Machine.execXor d a b s
  | .xorImm d a imm => Sys2Proof.Machine.execXorImm d a imm s
  | .andn d a b => Sys2Proof.Machine.execAndn d a b s
  | .andnImm d a imm => Sys2Proof.Machine.execAndnImm d a imm s
  | .shl d a b => Sys2Proof.Machine.execShl d a b s
  | .shlImm d a imm => Sys2Proof.Machine.execShlImm d a imm s
  | .shr d a b => Sys2Proof.Machine.execShr d a b s
  | .shrImm d a imm => Sys2Proof.Machine.execShrImm d a imm s
  | .sar d a b => Sys2Proof.Machine.execSar d a b s
  | .sarImm d a imm => Sys2Proof.Machine.execSarImm d a imm s
  | .rotl d a b => Sys2Proof.Machine.execRotl d a b s
  | .rotlImm d a imm => Sys2Proof.Machine.execRotlImm d a imm s
  | .popc d a => Sys2Proof.Machine.execPopc d a s
  | .clz d a => Sys2Proof.Machine.execClz d a s
  | .clzSgn d a => Sys2Proof.Machine.execClzSgn d a s
  | .brev d a => Sys2Proof.Machine.execBrev d a s
  | .bfe d a b => Sys2Proof.Machine.execBfe d a b s
  | .bfen d a b => Sys2Proof.Machine.execBfen d a b s
  | .bfi d a b => Sys2Proof.Machine.execBfi d a b s
  | .icmp c p a b => Sys2Proof.Machine.execIcmp c p a b s
  | .icmpImm c p a imm => Sys2Proof.Machine.execIcmpImm c p a imm s
  | .fadd d a b => Sys2Proof.Machine.execFadd d a b s
  | .fsub d a b => Sys2Proof.Machine.execFsub d a b s
  | .fmul d a b => Sys2Proof.Machine.execFmul d a b s
  | .fmin d a b => Sys2Proof.Machine.execFmin d a b s
  | .fmax d a b => Sys2Proof.Machine.execFmax d a b s
  | .fcmp c p a b => Sys2Proof.Machine.execFcmp c p a b s
  | .fabs d a => Sys2Proof.Machine.execFabs d a s
  | .fabsH2 d a => Sys2Proof.Machine.execFabsH2 d a s
  | .fabsD d a => Sys2Proof.Machine.execFabsD d a s
  | .fneg d a => Sys2Proof.Machine.execFneg d a s
  | .fnegH2 d a => Sys2Proof.Machine.execFnegH2 d a s
  | .fnegD d a => Sys2Proof.Machine.execFnegD d a s
  | .frnd d a => Sys2Proof.Machine.execFrnd d a s
  | .frndD d a => Sys2Proof.Machine.execFrndD d a s
  | .ffmad d a b => Sys2Proof.Machine.execFfmad d a b s
  | .fscl d a b => Sys2Proof.Machine.execFscl d a b s
  | .hadd2 d a b => Sys2Proof.Machine.execHadd2 d a b s
  | .hmul2 d a b => Sys2Proof.Machine.execHmul2 d a b s
  | .hfmad2 d a b => Sys2Proof.Machine.execHfmad2 d a b s
  | .hmin2 d a b => Sys2Proof.Machine.execHmin2 d a b s
  | .hmax2 d a b => Sys2Proof.Machine.execHmax2 d a b s
  | .dadd d a b => Sys2Proof.Machine.execDadd d a b s
  | .dmul d a b => Sys2Proof.Machine.execDmul d a b s
  | .dfmad d a b => Sys2Proof.Machine.execDfmad d a b s
  | .dcmp c p a b => Sys2Proof.Machine.execDcmp c p a b s
  | .mov d a => Sys2Proof.Machine.execMov d a s
  | .movB64 d a => Sys2Proof.Machine.execMovB64 d a s
  | .movs d b => Sys2Proof.Machine.execMovs d b s
  | .ffmadc d a b c => Sys2Proof.Machine.execFfmadc d a b c s
  | .imuladd d a b c => Sys2Proof.Machine.execImuladd d a b c s
  | .vsel d a b n p => Sys2Proof.Machine.execVsel d a b n p s
  | .itadd d a b c => Sys2Proof.Machine.execItadd d a b c s
  | .movi d h imm => Sys2Proof.Machine.execMovi d h imm s
  | .movk d h imm => Sys2Proof.Machine.execMovk d h imm s
  | .movsx d imm => Sys2Proof.Machine.execMovsx d imm s
  | .movh d imm => Sys2Proof.Machine.execMovh d imm s
  | .ld d a f z c => Sys2Proof.Machine.execLd d a f z c s
  | .st d a f z c => Sys2Proof.Machine.execSt d a f z c s
  | .ldAcq d a sr z => Sys2Proof.Machine.execLdAcq d a sr z s
  | .stRel d a sr z => Sys2Proof.Machine.execStRel d a sr z s
  | .lds d a f z c => Sys2Proof.Machine.execLds d a f z c s
  | .sts d a f z c => Sys2Proof.Machine.execSts d a f z c s
  | .ldc d a f z c => Sys2Proof.Machine.execLdc d a f z c s
  | .ldro d a f z c => Sys2Proof.Machine.execLdro d a f z c s
  | .atomAdd d a sr o z => Sys2Proof.Machine.execAtomAdd d a sr o z s
  | .atomMin d a sr o z => Sys2Proof.Machine.execAtomMin d a sr o z s
  | .atomMax d a sr o z => Sys2Proof.Machine.execAtomMax d a sr o z s
  | .atomMinn d a sr o z => Sys2Proof.Machine.execAtomMinn d a sr o z s
  | .atomMaxn d a sr o z => Sys2Proof.Machine.execAtomMaxn d a sr o z s
  | .atomAnd d a sr o z => Sys2Proof.Machine.execAtomAnd d a sr o z s
  | .atomOr d a sr o z => Sys2Proof.Machine.execAtomOr d a sr o z s
  | .atomXor d a sr o z => Sys2Proof.Machine.execAtomXor d a sr o z s
  | .atomExch d a sr o z => Sys2Proof.Machine.execAtomExch d a sr o z s
  | .atomCas d a sr o z => Sys2Proof.Machine.execAtomCas d a sr o z s
  | .atomFadd d a sr o => Sys2Proof.Machine.execAtomFadd d a sr o s
  | .redAdd d a sr o z => Sys2Proof.Machine.execRedAdd d a sr o z s
  | .redFadd d a sr o => Sys2Proof.Machine.execRedFadd d a sr o s
  | .redMin d a sr o z => Sys2Proof.Machine.execRedMin d a sr o z s
  | .redMax d a sr o z => Sys2Proof.Machine.execRedMax d a sr o z s
  | .redOr d a sr o z => Sys2Proof.Machine.execRedOr d a sr o z s
  | .atomsAdd d a sr o => Sys2Proof.Machine.execAtomsAdd d a sr o s
  | .atomsCas d a sr o => Sys2Proof.Machine.execAtomsCas d a sr o s
  | .atomsExch d a sr o => Sys2Proof.Machine.execAtomsExch d a sr o s
  | .atomsFadd d a sr o => Sys2Proof.Machine.execAtomsFadd d a sr o s
  | .pf a f z c => Sys2Proof.Machine.execPf a f z c s
  | .atomScAdd d a sr z => Sys2Proof.Machine.execAtomScAdd d a sr z s
  | .atomScExch d a sr z => Sys2Proof.Machine.execAtomScExch d a sr z s
  | .atomScCas d a sr z => Sys2Proof.Machine.execAtomScCas d a sr z s
  | .lxgAt d a b => Sys2Proof.Machine.execLxgAt d a b s
  | .lxgBack d a b => Sys2Proof.Machine.execLxgBack d a b s
  | .lxgFwd d a b => Sys2Proof.Machine.execLxgFwd d a b s
  | .lxgFlip d a b => Sys2Proof.Machine.execLxgFlip d a b s
  | .gpredAny n x a => Sys2Proof.Machine.execGpredAny n x a s
  | .gpredAll n x a => Sys2Proof.Machine.execGpredAll n x a s
  | .gpredMask d x a => Sys2Proof.Machine.execGpredMask d x a s
  | .gpeerEq d a => Sys2Proof.Machine.execGpeerEq d a s
  | .gpeerUni d a => Sys2Proof.Machine.execGpeerUni d a s
  | .gredAdd d a => Sys2Proof.Machine.execGredAdd d a s
  | .gredFadd d a => Sys2Proof.Machine.execGredFadd d a s
  | .gredMin d a k => Sys2Proof.Machine.execGredMin d a k s
  | .gredMax d a k => Sys2Proof.Machine.execGredMax d a k s
  | .gredAnd d a => Sys2Proof.Machine.execGredAnd d a s
  | .gredOr d a => Sys2Proof.Machine.execGredOr d a s
  | .gscanAdd d a => Sys2Proof.Machine.execGscanAdd d a s
  | .gscanAddExcl d a => Sys2Proof.Machine.execGscanAddExcl d a s
  | .gscanFadd d a => Sys2Proof.Machine.execGscanFadd d a s
  | .gscanFaddExcl d a => Sys2Proof.Machine.execGscanFaddExcl d a s
  | .rcp d a => Sys2Proof.Machine.execRcp d a s
  | .rsq d a => Sys2Proof.Machine.execRsq d a s
  | .sqrt d a => Sys2Proof.Machine.execSqrt d a s
  | .ex2 d a => Sys2Proof.Machine.execEx2 d a s
  | .lg2 d a => Sys2Proof.Machine.execLg2 d a s
  | .sin d a => Sys2Proof.Machine.execSin d a s
  | .cos d a => Sys2Proof.Machine.execCos d a s
  | .tanh d a => Sys2Proof.Machine.execTanh d a s
  | .fdiv d a b => Sys2Proof.Machine.execFdiv d a b s
  | .cvtf d a t => Sys2Proof.Machine.execCvtf d a t s
  | .cvti d a t => Sys2Proof.Machine.execCvti d a t s
  | .cvth2 d a b => Sys2Proof.Machine.execCvth2 d a b s
  | .cvtb4 d a => Sys2Proof.Machine.execCvtb4 d a s
  | .cvtb4Q d a => Sys2Proof.Machine.execCvtb4Q d a s
  | .unpk d a k e => Sys2Proof.Machine.execUnpk d a k e s
  | .cvtdF32 d a => Sys2Proof.Machine.execCvtdF32 d a s
  | .cvtdF64 d a => Sys2Proof.Machine.execCvtdF64 d a s
  | .cvtdfI d a t => Sys2Proof.Machine.execCvtdfI d a t s
  | .cvtdfF d a t => Sys2Proof.Machine.execCvtdfF d a t s
  | .qnt d a => Sys2Proof.Machine.execQnt d a s
  | .plop d o x a y b => Sys2Proof.Machine.execPlop d o x a y b s
  | .p2v d => Sys2Proof.Machine.execP2v d s
  | .v2p n a b => Sys2Proof.Machine.execV2p n a b s
  | .sysv d b => Sys2Proof.Machine.execSysv d b s
  | .vmask d b => Sys2Proof.Machine.execVmask d b s
  | .brDiv p n o => Sys2Proof.Machine.execBrDiv p n o s
  | .bmeld p n => Sys2Proof.Machine.execBmeld p n s
  | .emeld => Sys2Proof.Machine.execEmeld s
  | .rejoinSet o => Sys2Proof.Machine.execRejoinSet o s
  | .rejoin => Sys2Proof.Machine.execRejoin s
  | .exit => Sys2Proof.Machine.execExit s
  | .hold v => Sys2Proof.Machine.execHold v s
  | .trapP p n c => Sys2Proof.Machine.execTrapP p n c s
  | .bpt c => Sys2Proof.Machine.execBpt c s
  | .rstv d sr t => Sys2Proof.Machine.execRstv d sr t s
  | .coll p a sr => Sys2Proof.Machine.execColl p a sr s
  | .sadd d a b g => Sys2Proof.Machine.execSadd d a b g s
  | .saddImm d a imm => Sys2Proof.Machine.execSaddImm d a imm s
  | .ssub d a b g => Sys2Proof.Machine.execSsub d a b g s
  | .ssubImm d a imm => Sys2Proof.Machine.execSsubImm d a imm s
  | .smul d a b g => Sys2Proof.Machine.execSmul d a b g s
  | .smulImm d a imm => Sys2Proof.Machine.execSmulImm d a imm s
  | .smulh d a b g => Sys2Proof.Machine.execSmulh d a b g s
  | .smin d a b g => Sys2Proof.Machine.execSmin d a b g s
  | .sminImm d a imm => Sys2Proof.Machine.execSminImm d a imm s
  | .smax d a b g => Sys2Proof.Machine.execSmax d a b g s
  | .smaxImm d a imm => Sys2Proof.Machine.execSmaxImm d a imm s
  | .sminn d a b g => Sys2Proof.Machine.execSminn d a b g s
  | .sminnImm d a imm => Sys2Proof.Machine.execSminnImm d a imm s
  | .smaxn d a b g => Sys2Proof.Machine.execSmaxn d a b g s
  | .smaxnImm d a imm => Sys2Proof.Machine.execSmaxnImm d a imm s
  | .sand d a b g => Sys2Proof.Machine.execSand d a b g s
  | .sandImm d a imm => Sys2Proof.Machine.execSandImm d a imm s
  | .sor d a b g => Sys2Proof.Machine.execSor d a b g s
  | .sorImm d a imm => Sys2Proof.Machine.execSorImm d a imm s
  | .sxor d a b g => Sys2Proof.Machine.execSxor d a b g s
  | .sxorImm d a imm => Sys2Proof.Machine.execSxorImm d a imm s
  | .sshl d a b g => Sys2Proof.Machine.execSshl d a b g s
  | .sshlImm d a imm => Sys2Proof.Machine.execSshlImm d a imm s
  | .sshr d a b g => Sys2Proof.Machine.execSshr d a b g s
  | .sshrImm d a imm => Sys2Proof.Machine.execSshrImm d a imm s
  | .ssar d a b g => Sys2Proof.Machine.execSsar d a b g s
  | .ssarImm d a imm => Sys2Proof.Machine.execSsarImm d a imm s
  | .ssetp c q a b g => Sys2Proof.Machine.execSsetp c q a b g s
  | .ssetpImm c q a imm => Sys2Proof.Machine.execSsetpImm c q a imm s
  | .ssel d a b q x => Sys2Proof.Machine.execSsel d a b q x s
  | .smov d a g => Sys2Proof.Machine.execSmov d a g s
  | .spopc d a g => Sys2Proof.Machine.execSpopc d a g s
  | .sclz d a g => Sys2Proof.Machine.execSclz d a g s
  | .saddw d a b g => Sys2Proof.Machine.execSaddw d a b g s
  | .saddwImm d a imm => Sys2Proof.Machine.execSaddwImm d a imm s
  | .sgetv d a x g => Sys2Proof.Machine.execSgetv d a x g s
  | .qlop d o x a y b g => Sys2Proof.Machine.execQlop d o x a y b g s
  | .q2s d g => Sys2Proof.Machine.execQ2s d g s
  | .s2q a g => Sys2Proof.Machine.execS2q a g s
  | .smovi d h imm => Sys2Proof.Machine.execSmovi d h imm s
  | .smovk d h imm => Sys2Proof.Machine.execSmovk d h imm s
  | .smovsx d imm => Sys2Proof.Machine.execSmovsx d imm s
  | .sadr d imm => Sys2Proof.Machine.execSadr d imm s
  | .bra g o => Sys2Proof.Machine.execBra g o s
  | .call g o => Sys2Proof.Machine.execCall g o s
  | .ret g => Sys2Proof.Machine.execRet g s
  | .brx g x => Sys2Proof.Machine.execBrx g x s
  | .loop g c o => Sys2Proof.Machine.execLoop g c o s
  | .sldB64 d a o => Sys2Proof.Machine.execSldB64 d a o s
  | .sldB32 d a o => Sys2Proof.Machine.execSldB32 d a o s
  | .sstB64 d a o => Sys2Proof.Machine.execSstB64 d a o s
  | .sstB32 d a o => Sys2Proof.Machine.execSstB32 d a o s
  | .sldc d a o => Sys2Proof.Machine.execSldc d a o s
  | .slds d a o => Sys2Proof.Machine.execSlds d a o s
  | .ssts d a o => Sys2Proof.Machine.execSsts d a o s
  | .satomAdd d a => Sys2Proof.Machine.execSatomAdd d a s
  | .satomCas d a => Sys2Proof.Machine.execSatomCas d a s
  | .satomExch d a => Sys2Proof.Machine.execSatomExch d a s
  | .srd d n => Sys2Proof.Machine.execSrd d n s
  | .swr sr n => Sys2Proof.Machine.execSwr sr n s
  | .fenceAcq r sr => Sys2Proof.Machine.execFenceAcq r sr s
  | .fenceRel r sr => Sys2Proof.Machine.execFenceRel r sr s
  | .fenceAr r sr => Sys2Proof.Machine.execFenceAr r sr s
  | .fenceSc r sr => Sys2Proof.Machine.execFenceSc r sr s
  | .fenceLayout sr => Sys2Proof.Machine.execFenceLayout sr s
  | .icinv sr => Sys2Proof.Machine.execIcinv sr s
  | .fmtset imm => Sys2Proof.Machine.execFmtset imm s
  | .fmtsetr sr => Sys2Proof.Machine.execFmtsetr sr s
  | .trap c => Sys2Proof.Machine.execTrap c s
  | .rft => Sys2Proof.Machine.execRft s
  | .yldDone => Sys2Proof.Machine.execYldDone s
  | .yield => Sys2Proof.Machine.execYield s
  | .trig => Sys2Proof.Machine.execTrig s
  | .nameget d => Sys2Proof.Machine.execNameget d s
  | .nameput => Sys2Proof.Machine.execNameput s
  | .nameq x => Sys2Proof.Machine.execNameq x s
  | .mmap sr p => Sys2Proof.Machine.execMmap sr p s
  | .mclr x => Sys2Proof.Machine.execMclr x s
  | .setmm sr => Sys2Proof.Machine.execSetmm sr s
  | .objRead sr p => Sys2Proof.Machine.execObjRead sr p s
  | .objPriv sr p => Sys2Proof.Machine.execObjPriv sr p s
  | .objrel sr => Sys2Proof.Machine.execObjrel sr s
  | .barArr n => Sys2Proof.Machine.execBarArr n s
  | .barWait n => Sys2Proof.Machine.execBarWait n s
  | .barSync n => Sys2Proof.Machine.execBarSync n s
  | .barInit e n => Sys2Proof.Machine.execBarInit e n s
  | .barExpect b n => Sys2Proof.Machine.execBarExpect b n s
  | .cpySlice c x n => Sys2Proof.Machine.execCpySlice c x n s
  | .cpyxSlice c x n => Sys2Proof.Machine.execCpyxSlice c x n s
  | .mcst c h n => Sys2Proof.Machine.execMcst c h n s
  | .lbufReg h l n => Sys2Proof.Machine.execLbufReg h l n s
  | .lbufFree h => Sys2Proof.Machine.execLbufFree h s
  | .lbufDrop h => Sys2Proof.Machine.execLbufDrop h s
  | .fxfer n a x k => Sys2Proof.Machine.execFxfer n a x k s
  | .arrcSet v k => Sys2Proof.Machine.execArrcSet v k s
  | .arrcWait k => Sys2Proof.Machine.execArrcWait k s
  | .collForm d r => Sys2Proof.Machine.execCollForm d r s
  | .collWait d c => Sys2Proof.Machine.execCollWait d c s
  | .collAbort c => Sys2Proof.Machine.execCollAbort c s
  | .collReform d r => Sys2Proof.Machine.execCollReform d r s
  | .fork r => Sys2Proof.Machine.execFork r s
  | .joinw d => Sys2Proof.Machine.execJoinw d s
  | .vattrQ d a => Sys2Proof.Machine.execVattrQ d a s
  | .vattrRsv d a => Sys2Proof.Machine.execVattrRsv d a s
  | .mxStart e x y => Sys2Proof.Machine.execMxStart e x y s
  | .mbarArr n => Sys2Proof.Machine.execMbarArr n s
  | .mbarWait n => Sys2Proof.Machine.execMbarWait n s
  | .mxacq p e h => Sys2Proof.Machine.execMxacq p e h s
  | .mxrel => Sys2Proof.Machine.execMxrel s
  | .tclm p n c => Sys2Proof.Machine.execTclm p n c s
  | .trel n c => Sys2Proof.Machine.execTrel n c s
  | .tld n l c => Sys2Proof.Machine.execTld n l c s
  | .tldSp n l c => Sys2Proof.Machine.execTldSp n l c s
  | .mma d a b => Sys2Proof.Machine.execMma d a b s
  | .mmas d a b => Sys2Proof.Machine.execMmas d a b s
  | .accz d n => Sys2Proof.Machine.execAccz d n s
  | .accst d l c => Sys2Proof.Machine.execAccst d l c s
  | .accld d l c => Sys2Proof.Machine.execAccld d l c s
  | .mfmt e f b a => Sys2Proof.Machine.execMfmt e f b a s
  | .dmap n a => Sys2Proof.Machine.execDmap n a s
  | .mxbarArr n => Sys2Proof.Machine.execMxbarArr n s
  | .mxbarWait n => Sys2Proof.Machine.execMxbarWait n s
  | .kmovi d h imm => Sys2Proof.Machine.execKmovi d h imm s
  | .kadd d a imm => Sys2Proof.Machine.execKadd d a imm s
  | .kaddReg d a b => Sys2Proof.Machine.execKaddReg d a b s
  | .kbraKq p o => Sys2Proof.Machine.execKbraKq p o s
  | .kbraNkq p o => Sys2Proof.Machine.execKbraNkq p o s
  | .kbra o => Sys2Proof.Machine.execKbra o s
  | .kbraDec d o => Sys2Proof.Machine.execKbraDec d o s
  | .mend => Sys2Proof.Machine.execMend s
  | .clauseIssue => Sys2Proof.Machine.execClauseIssue s
  | .candidateUrgent => Sys2Proof.Machine.execCandidateUrgent s
  | .countedOpComplete k => Sys2Proof.Machine.execCountedOpComplete k s
  | .memoryAck k => Sys2Proof.Machine.execMemoryAck k s
  | .trapEntry => Sys2Proof.Machine.execTrapEntry s
  | .terminationRecord fn => Sys2Proof.Machine.execTerminationRecord fn s
  | .groupEnd => Sys2Proof.Machine.execGroupEnd s
  | .blockRetire b => Sys2Proof.Machine.execBlockRetire b s
  | .matrixRestoreSlots b => Sys2Proof.Machine.execMatrixRestoreSlots b s
  | .qkick fn q w => Sys2Proof.Machine.execQkick fn q w s
  | .queueEntryRead fn q => Sys2Proof.Machine.execQueueEntryRead fn q s
  | .queueDrainResume fn q => Sys2Proof.Machine.execQueueDrainResume fn q s
  | .qrestart fn q w => Sys2Proof.Machine.execQrestart fn q w s
  | .qcfgEnable fn q w => Sys2Proof.Machine.execQcfgEnable fn q w s
  | .qcfgDisable fn q w => Sys2Proof.Machine.execQcfgDisable fn q w s
  | .launchBind l e lev record blins clusters => Sys2Proof.Machine.execLaunchBind l e lev record blins clusters s
  | .clusterClaim cl e n => Sys2Proof.Machine.execClusterClaim cl e n s
  | .blockPlace b core => Sys2Proof.Machine.execBlockPlace b core s
  | .workDonation thief victim e => Sys2Proof.Machine.execWorkDonation thief victim e s
  | .donatedBlockArrival b ok => Sys2Proof.Machine.execDonatedBlockArrival b ok s
  | .launchComplete l => Sys2Proof.Machine.execLaunchComplete l s
  | .eprioAging e => Sys2Proof.Machine.execEprioAging e s
  | .timeSliceExpiry b => Sys2Proof.Machine.execTimeSliceExpiry b s
  | .preemptRequest b reason => Sys2Proof.Machine.execPreemptRequest b reason s
  | .watchdogExpiry b => Sys2Proof.Machine.execWatchdogExpiry b s
  | .blockSave b => Sys2Proof.Machine.execBlockSave b s
  | .blockResume b core => Sys2Proof.Machine.execBlockResume b core s
  | .parkingEviction b => Sys2Proof.Machine.execParkingEviction b s
  | .savepoolTimeout l => Sys2Proof.Machine.execSavepoolTimeout l s
  | .migrationComplete b save => Sys2Proof.Machine.execMigrationComplete b save s
  | .migrationAbandon b => Sys2Proof.Machine.execMigrationAbandon b s
  | .rstvHomeCheck k => Sys2Proof.Machine.execRstvHomeCheck k s
  | .rstvApply k => Sys2Proof.Machine.execRstvApply k s
  | .rstvStatus k => Sys2Proof.Machine.execRstvStatus k s
  | .rstvTimeout id => Sys2Proof.Machine.execRstvTimeout id s
  | .fxferClaim k => Sys2Proof.Machine.execFxferClaim k s
  | .fxferDataPacket k => Sys2Proof.Machine.execFxferDataPacket k s
  | .fxferStatus id => Sys2Proof.Machine.execFxferStatus id s
  | .remoteRequestArrive k => Sys2Proof.Machine.execRemoteRequestArrive k s
  | .remoteResponseArrive k => Sys2Proof.Machine.execRemoteResponseArrive k s
  | .remoteDeadlineExpiry id => Sys2Proof.Machine.execRemoteDeadlineExpiry id s
  | .fabricPacketArrive p budget hop => Sys2Proof.Machine.execFabricPacketArrive p budget hop s
  | .pinnedPacketReturned p => Sys2Proof.Machine.execPinnedPacketReturned p s
  | .linkReplay port => Sys2Proof.Machine.execLinkReplay port s
  | .linkRetrain port => Sys2Proof.Machine.execLinkRetrain port s
  | .linkDeath port => Sys2Proof.Machine.execLinkDeath port s
  | .linken port => Sys2Proof.Machine.execLinken port s
  | .dirtySectorTimeout cl sector => Sys2Proof.Machine.execDirtySectorTimeout cl sector s
  | .copyJobExecute j => Sys2Proof.Machine.execCopyJobExecute j s
  | .multicastSend j => Sys2Proof.Machine.execMulticastSend j s
  | .childStart b imm core => Sys2Proof.Machine.execChildStart b imm core s
  | .childMerge b => Sys2Proof.Machine.execChildMerge b s
  | .formArrive k => Sys2Proof.Machine.execFormArrive k s
  | .formationLimitExpiry die cid => Sys2Proof.Machine.execFormationLimitExpiry die cid s
  | .consistGone k => Sys2Proof.Machine.execConsistGone k s
  | .collPieceArrive k => Sys2Proof.Machine.execCollPieceArrive k s
  | .collResultArrive k => Sys2Proof.Machine.execCollResultArrive k s
  | .collRetransmit id => Sys2Proof.Machine.execCollRetransmit id s
  | .collProbe c => Sys2Proof.Machine.execCollProbe c s
  | .collNoticeArrive k => Sys2Proof.Machine.execCollNoticeArrive k s
  | .collLimitExpiry c => Sys2Proof.Machine.execCollLimitExpiry c s
  | .fqreplyRetry fn tag => Sys2Proof.Machine.execFqreplyRetry fn tag s
  | .fqreplyFail fn tag => Sys2Proof.Machine.execFqreplyFail fn tag s
  | .fqcfgEnable fn w => Sys2Proof.Machine.execFqcfgEnable fn w s
  | .fqcfgDisable fn w => Sys2Proof.Machine.execFqcfgDisable fn w s
  | .faultRecordPost fn => Sys2Proof.Machine.execFaultRecordPost fn s
  | .faultTimeout fn tag => Sys2Proof.Machine.execFaultTimeout fn tag s
  | .ocmdCreate fn w => Sys2Proof.Machine.execOcmdCreate fn w s
  | .ocmdDestroy fn w => Sys2Proof.Machine.execOcmdDestroy fn w s
  | .ocmdInval fn w => Sys2Proof.Machine.execOcmdInval fn w s
  | .ownerCommandEnd fn => Sys2Proof.Machine.execOwnerCommandEnd fn s
  | .psetup w => Sys2Proof.Machine.execPsetup w s
  | .ptear w => Sys2Proof.Machine.execPtear w s
  | .hoctlH2d fn w => Sys2Proof.Machine.execHoctlH2d fn w s
  | .hoctlD2h fn w => Sys2Proof.Machine.execHoctlD2h fn w s
  | .handoverEnd fn => Sys2Proof.Machine.execHandoverEnd fn s
  | .areqReport fn w => Sys2Proof.Machine.execAreqReport fn w s
  | .areqCertificate fn w => Sys2Proof.Machine.execAreqCertificate fn w s
  | .rtinv fn w => Sys2Proof.Machine.execRtinv fn w s
  | .bar2Read fn off n => Sys2Proof.Machine.execBar2Read fn off n s
  | .bar2Write fn off bytes => Sys2Proof.Machine.execBar2Write fn off bytes s
  | .msixUnmask fn v => Sys2Proof.Machine.execMsixUnmask fn v s
  | .registerWrite fn off w => Sys2Proof.Machine.execRegisterWrite fn off w s
  | .monitorStart u w => Sys2Proof.Machine.execMonitorStart u w s
  | .monitorStop u w => Sys2Proof.Machine.execMonitorStop u w s
  | .monitorSample u x => Sys2Proof.Machine.execMonitorSample u x s
  | .islandEvaluation hotPower cold powers temps supply => Sys2Proof.Machine.execIslandEvaluation hotPower cold powers temps supply s
  | .correctedErrorReport u n => Sys2Proof.Machine.execCorrectedErrorReport u n s
  | .warmReset => Sys2Proof.Machine.execWarmReset s
  | .coldReset => Sys2Proof.Machine.execColdReset s
  | .pfFlr => Sys2Proof.Machine.execPfFlr s
  | .vfFlr f => Sys2Proof.Machine.execVfFlr f s
  | .imageWrite img slot version digest sig sets => Sys2Proof.Machine.execImageWrite img slot version digest sig sets s
  | .migrationBegin b pkg => Sys2Proof.Machine.execMigrationBegin b pkg s
  | .linkRetrainComplete port ok => Sys2Proof.Machine.execLinkRetrainComplete port ok s
  | .collPieceDeadline c rank => Sys2Proof.Machine.execCollPieceDeadline c rank s
  | .noticeResend id => Sys2Proof.Machine.execNoticeResend id s
  | .partitionCommandEnd => Sys2Proof.Machine.execPartitionCommandEnd s

end Sys2Proof.Machine
end

