-- ==== Sys2Proof/Machine/RegReads.lean ====
section
/-! DEFINITION. Reads of registers by the host and of management space (01 R6-R7, 10 R201-R203, 11 R233, 17 R348, 21 R388-R403,
R437-R438, 24 R425, R428). A write-only register, a reserved field and an unassigned offset read zero. -/

namespace Sys2Proof.Machine

open Sys2Proof

/-! ## BAR0 (R395) -/

/-- A register of a queue's window (R201-R203). -/
def readQueueReg (d : Dev) (fn off : Nat) : Nat :=
  let x := queueOf d fn (off / 64)
  match off % 64 with
  | 0x00 => x.base.toNat
  | 0x08 => packFields [(0, x.log2n), (4, b2n x.host), (5, x.vec), (16, b2n x.enabled)]
  | 0x18 => x.ridx
  | 0x20 => packFields [(0, x.state), (8, x.cause), (16, x.seen)]
  | 0x30 => x.trigwm
  | _ => 0

/-- A register of the fault queue (R388). -/
def readFaultReg (d : Dev) (fn off : Nat) : Nat :=
  let q := faultQ d fn
  match off with
  | 0x00 => q.base.toNat
  | 0x08 => packFields [(0, q.log2n), (4, b2n q.host), (5, q.vec), (16, b2n q.enabled)]
  | 0x10 => q.widx
  | 0x18 => q.ridx
  | 0x28 => q.timeout
  | _ => 0

/-- A handover register or HKEY (R396, R397). -/
def readHandoverReg (d : Dev) (fn off : Nat) : Nat :=
  let h := (fnAt d fn).ho
  match off with
  | 0x00 => h.hova.toNat
  | 0x08 => h.holen.toNat
  | 0x10 => h.hosw.toNat
  | 0x20 => packFields [(0, b2n h.busy), (1, b2n h.lost)]
  | 0x38 => (fnAt d fn).hkey
  | _ => 0

/-- An owner-command register (R391). -/
def readOwnerReg (d : Dev) (fn off : Nat) : Nat :=
  let c := (fnAt d fn).oc
  match off with
  | 0x08 => c.arg0.toNat
  | 0x10 => c.arg1.toNat
  | 0x18 => packFields [(0, c.stat), (8, c.cause)]
  | _ => 0

/-- A partition information register (R437). -/
def readPartInfo (d : Dev) (fn off : Nat) : Nat :=
  match partOfFn d fn with
  | none => 0
  | some p => match off with
    | 0x00 => packFields [(0, p.part), (16, p.ownBase), (32, p.ownCnt)]
    | 0x08 => packFields [(0, p.vecBase), (32, p.vecCnt)]
    | 0x10 | 0x18 | 0x20 | 0x28 => match p.mems[off / 8 - 2]? with
      | some m => packFields [(0, m.1 / 2 ^ 16), (32, m.2 / 2 ^ 16)]
      | none => 0
    | _ => 0

/-- A partition register, of the physical function alone (R394). -/
def readPartReg (d : Dev) (fn off : Nat) : Nat := if fn = 0 && off = 0x10 then packFields [(0, d.pstat), (8, d.pcause)] else 0

/-- An entry of the pod member table (R400). -/
def podEntry (d : Dev) (fn j : Nat) : Nat :=
  match (partOfFn d fn).bind fun p => p.pod[j]? with
  | some k => packFields [(0, k), (15, 1)]
  | none => 0

/-- A register of the fabric configuration page (R353, R400). -/
def readFabricReg (d : Dev) (fn off : Nat) : Nat :=
  let x := fnAt d fn
  match off with
  | 0x000 => x.fdl0
  | 0x008 => x.fdl1
  | 0x010 => x.fdl2
  | 0x018 => x.fdl3
  | 0x020 => ((partOfFn d fn).map (·.pod.length)).getD 0
  | _ => if off < 0x800 then 0 else packFields ((List.range 4).map fun i => (16 * i, podEntry d fn ((off - 0x800) / 2 + i)))

/-- The pending bits of 64 vectors from v on (R438). -/
def readPending (d : Dev) (fn v : Nat) : Nat :=
  packFields ((List.range 64).map fun i => (i, b2n (Sparse.get {} (fnAt d fn).vectors (v + i)).pending))

/-- 8 bytes of the MSI-X table (R438): an entry's address, or its data and control words. -/
def readMsix (d : Dev) (fn off : Nat) : Nat :=
  let x := Sparse.get {} (fnAt d fn).vectors (off / 16)
  if !liveVector d fn (off / 16) then 0
  else if off % 16 = 0 then x.addr.toNat else packFields [(0, x.data.toNat), (32, b2n x.masked)]

/-- A read of 8 bytes of BAR0 (R395). -/
def readBar0 (d : Dev) (fn off : Nat) : Nat :=
  if off % 8 ≠ 0 then 0
  else if off < 0x1000 then readQueueReg d fn off
  else if off < 0x1040 then readFaultReg d fn (off - 0x1000)
  else if off < 0x1080 then readHandoverReg d fn (off - 0x1040)
  else if off < 0x10C0 then readOwnerReg d fn (off - 0x1080)
  else if off < 0x1100 then readPartInfo d fn (off - 0x10C0)
  else if off < 0x1140 then readPartReg d fn (off - 0x1100)
  else if off = 0x1148 then (fnAt d fn).astat
  else if off < 0x2000 then 0
  else if off < 0x3000 then readFabricReg d fn (off - 0x2000)
  else if off < 0x4000 then 0
  else if off < 0x4100 then readPending d fn (8 * (off - 0x4000))
  else if off < 0x8000 then 0
  else if off < 0x10000 then readMsix d fn (off - 0x8000)
  else 0

/-! ## Management space (log 24) -/

/-- A route-table entry as it reads (R348): 5 to 7 ports read as 0, a hop budget of 0 or 7 as 6. -/
def readRoute (r : Route) : Nat :=
  packFields ((r.ports.zipIdx.map fun e => (4 * e.2, e.1)) ++
    [(16, if 4 < r.nport then 0 else r.nport), (19, hopBudget r), (22, b2n r.own)])

/-- The fields of a monitor's register (R425). -/
def Monitor.word (m : Monitor) : Nat := packFields [(0, m.src), (8, m.inst), (20, m.base), (40, m.shift), (45, b2n m.run)]

/-- A monitor's capture of 128 bytes (R425). -/
def Monitor.capture (m : Monitor) : List Byte :=
  bytesOf m.min 4 ++ bytesOf m.max 4 ++ bytesOf m.count 8 ++ bytesOf m.sum 8 ++ bytesOf m.t0 8 ++ bytesOf m.t1 8 ++
    (List.range 16).flatMap (fun i => bytesOf (Sparse.get 0 m.hist i) 4) ++ bytesOf 0 24

/-- An error record of 64 bytes (R428). -/
def ErrorRec.bytes (e : ErrorRec) : List Byte :=
  bytesOf e.time 8 ++ bytesOf e.kind 1 ++ bytesOf e.part 1 ++ bytesOf e.unit 2 ++ bytesOf e.count 4 ++ bytesOf e.addr 8 ++ bytesOf 0 40

/-- A read of 8 bytes of management space (log 24): the route table at 0; monitor u at 0x10000 + 256 u, its register first and its
capture from 128 on; LOST of the error ring at 0x20000, and from 0x40000 its records, oldest first. -/
def readManagement (d : Dev) (off : Nat) : Nat :=
  if off % 8 ≠ 0 then 0
  else if off < 0x2000 then readRoute (Sparse.get {} d.routes (off / 8))
  else if off < 0x10000 then 0
  else if off < 0x18000 then
    let m := Sparse.get {} d.monitors ((off - 0x10000) / 256)
    if off % 256 = 0 then m.word else if off % 256 < 128 then 0 else recNat m.capture (off % 128) 8
  else if off = 0x20000 then d.errorsLost
  else if off < 0x40000 then 0
  else match d.errors[(off - 0x40000) / 64]? with
    | some e => recNat e.bytes (off % 64) 8
    | none => 0

/-- The code of a platform entry's state (R233). -/
def NameState.code (x : NameState) : Nat :=
  match x with
  | .free => 0 | .resident => 1 | .saved => 2 | .moving => 3 | .retired => 4

/-- The 128 bits of a platform entry (R233). -/
def NameEntry.word (e : NameEntry) : Nat :=
  packFields [(0, e.state.code), (3, e.gen), (19, e.loc), (29, e.core), (38, e.gidx), (43, e.owner), (64, e.save)]

/-! ## What a read leaves -/

/-- The host reads a register of a function, of the sixteen (R6). -/
def hostReads (d : Dev) (fn off : Nat) : Dev := if isFn fn then { d with readOut := readBar0 d fn off :: d.readOut } else d

/-- The management interface reads a register; in recovery mode it is not accepted (R430). -/
def managementReads (d : Dev) (off : Nat) : Dev := if d.recovery then d else { d with readOut := readManagement d off :: d.readOut }

/-- The management interface reads an entry of the platform table (R233, R430). -/
def entryReads (d : Dev) (idx : Nat) : Dev :=
  if d.recovery || nameEntries ≤ idx then d else { d with readOut := (Sparse.get {} d.names idx).word :: d.readOut }

end Sys2Proof.Machine
end

