-- ==== Sys2Proof/Machine/Schedule.lean ====
section
/-! DEFINITION. Which instruction or event a step runs: the turns of the agenda, and between them the slots and streams of
resident blocks in rotation (08 R162, log 4); the passing of time (08 R165, log 5); the word that a fetch finds. -/

namespace Sys2Proof.Machine

open Sys2Proof

/-! ## What a step does -/

/-- What a step does: it ends in a state, runs an instruction or event, or finds an instruction word where an event must
stand. -/
inductive Pick where
  | idle (s : State)
  | run (i : Instr) (s : State)
  deriving DecidableEq, Repr

/-- The oldest operation of the focused group that ends in the core completes (R26). -/
noncomputable def State.pickComplete (s : State) : Pick :=
  match s.grp.pend.findIdx? fun e => e.endsHere s.dev with
  | some k => .run (if (s.grp.pend[k]?).any (·.setA) then .countedOpComplete k else .memoryAck k) s
  | none => .idle s

/-- An operation of the focused group ends in the core. -/
def State.canComplete (s : State) : Bool := s.grp.pend.any fun e => e.endsHere s.dev

/-- The pre-emption request that the focused group takes before its next instruction (R225, R412). -/
def State.preemptNow (s : State) : Option (Nat × Nat) := if s.grp.ctx.inh then none else s.grp.preempt

/-- The issuing slot goes on in the clause that has issued, with nothing to wait for. -/
def State.keeps (s : State) : Bool := s.running && s.latched && s.slot.wait = .none && s.preemptNow.isNone && s.grp.live != 0

/-- The instruction at the issuing slot, or its decode-time trap (R51). -/
noncomputable def State.pickWord (s : State) : Pick :=
  match slotInstr s.blk.shape false s.word with
  | .ok i => .run i s
  | .error e => .idle (s.trapDecode e)

/-- What the focused slot does when its group is running (R162, R225). -/
noncomputable def State.pickReady (s : State) : Pick :=
  match s.preemptNow with
  | some p => .idle (s.takePreempt p.1 p.2)
  | none =>
    if s.slot.act = 0 || s.faultHeld then .idle s
    else if s.slot.wait != .none && s.canComplete then s.pickComplete
    else if s.latched then s.pickWord
    else .run .clauseIssue s

/-- What the focused slot does: a trap that waits is entered first, the end of the group comes when its operations have
completed (R199, R408). -/
noncomputable def State.pickSlot (s : State) : Pick :=
  if !s.blk.onCore || s.grp.ended then .idle s
  else match s.grp.trapReq with
  | some _ => if s.grp.pend = [] then .run .trapEntry s else s.pickComplete
  | none =>
    if s.grp.live = 0 then if s.grp.pend = [] then .run .groupEnd s else s.pickComplete
    else if s.blk.stopped || s.grp.yielded then s.pickComplete
    else s.pickReady

/-- The stream of the focused block may take a step (R126, R146, R148). -/
def State.streamRuns (s : State) : Bool :=
  s.blk.onCore && !s.blk.stopped && s.blk.state != .preempting && s.seq.run && !s.seq.rstw && !(s.seq.tag.any fun t => outstanding s.dev t)

/-- What the focused stream does. -/
noncomputable def State.pickStream (s : State) : Pick :=
  if !s.streamRuns then .idle s
  else if s.seq.words.isNone then .idle s.fetchStream
  else match slotInstr s.blk.shape true s.seq.word with
    | .ok i => .run i s
    | .error e => .idle (s.halt (decodeCause e) 0)

/-- The focused stream goes on in the clause it has fetched. -/
def State.streamKeeps (s : State) : Bool := s.focused && s.onStream && s.streamRuns && s.seq.words.isSome && s.seq.wait = .none

/-! ## Time (R165, R162, R223) -/

/-- PARKED and RESIDENT are marked as the waits stand (R221, R224). -/
def markParked (d : Dev) : Dev :=
  { d with blocks := d.blocks.map fun b => match b.state with
      | .resident => if parked d b then { b with state := .parked, stime := d.time } else b
      | .parked => if parked d b then b else { b with state := .resident, stime := d.time }
      | _ => b }

/-- What waits and releases decide: submissions that wait, and the states of blocks (R223, R224, R363). -/
def settleStates (d : Dev) : Dev := postReleases (markParked (settleColls d))

/-- A slot that stands ready counts the clocks in which it was not issued (R162). -/
def Slot.deny (x : Slot) (clocks : Nat) : Slot :=
  if x.act != 0 && x.clause.isSome && x.wait = .none then { x with denied := x.denied + clocks } else x

/-- Every slot of a block counts its clocks. -/
def Block.deny (b : Block) (clocks : Nat) : Block :=
  { b with groups := b.groups.map fun g => { g with slot0 := g.slot0.deny clocks, slot1 := g.slot1.deny clocks } }

/-- Clocks of a core in a tick. -/
def tickOf (clocks : Nat) (cores : List (Nat × Nat)) (c : Nat) : Nat := ((cores.find? fun e => e.1 = c).map (·.2)).getD clocks

/-- Time passes (R165): the time base, CYCLE of each core, the clocks of ready slots, the states that follow. -/
def tick (d : Dev) (ns clocks : Nat) (cores : List (Nat × Nat)) : Dev :=
  let d := { d with
    time := d.time + ns
    cycles := (List.range Config.cores).foldl (fun t c => Sparse.upd 0 t c (· + tickOf clocks cores c)) d.cycles
    blocks := d.blocks.map fun b => b.deny (tickOf clocks cores b.core) }
  notePools (settleStates d)

/-- The host writes bytes of its own memory (R247, R397). -/
def hostPut (d : Dev) (addr : Nat) (bytes : List Byte) : Dev :=
  { d with mem := bytes.zipIdx.foldl (fun m e => Memory.write m (2 ^ 39 + (addr + e.2) % 2 ^ 39) e.1) d.mem }

/-- A resident block's core fetches the line of a record ahead of a command into its layout-record cache, where the address is
readable (R158, R300). -/
def prepareRecord (d : Dev) (b va : Nat) : Dev :=
  match (findBlock d b).filter (·.onCore) with
  | none => d
  | some x => match xlat d x.shape.owner va .read none with
    | .ok l pa =>
      if l.kind = .remote then d
      else (loadAt d ⟨x.core, x.cluster, keyOf d x.shape.owner, chainOf d x.child⟩ .record l va pa 1).1
    | .trap _ | .park _ _ _ => d

/-! ## Turns -/

/-- A turn of the agenda: events take an event row alone. -/
noncomputable def State.pickTurn (s : State) (t : Turn) : Pick :=
  match t with
  | .run b g k => match s.focus b g k with
    | some x => x.pickSlot
    | none => .idle s
  | .stream b => match s.focusStream b with
    | some x => x.pickStream
    | none => .idle s
  | .event i => if (encode i).isNone then .run i s else .idle s
  | .tick ns clocks cores => .idle (s.unfocus.onDev fun d => tick d ns clocks cores)
  | .evict c u l => .idle (s.unfocus.onDev fun d => evictLine d c u l)
  | .upset p => .idle (s.unfocus.onDev fun d => upset d p)
  | .prepare b va => .idle (s.unfocus.onDev fun d => prepareRecord d b va)
  | .serve port => .idle (s.unfocus.onDev fun d => servePort d port)
  | .land port => .idle (s.unfocus.onDev fun d => landPort d port)
  | .moveIn b src key => .idle (s.unfocus.onDev fun d => moveIn d b src key)
  | .removed pkg die => .idle (s.unfocus.onDev fun d => turntableRemoved d pkg die)
  | .readBar0 fn off => .idle (s.onDev fun d => hostReads d fn off)
  | .readManagement off => .idle (s.onDev fun d => managementReads d off)
  | .readName idx => .idle (s.onDev fun d => entryReads d idx)
  | .hostWrite a b => .idle (s.onDev fun d => hostPut d a b)

/-- The slots and streams of the blocks on cores. -/
def candidates (d : Dev) : List Turn :=
  (d.blocks.filter (·.onCore)).flatMap fun b =>
    (b.groups.flatMap fun g => [Turn.run b.key g.idx false, Turn.run b.key g.idx true]) ++ [Turn.stream b.key]

/-- A slot that stands ready (R162): a live slot that waits for nothing. One that waits is polled instead (log 4). -/
def standsReady (b : Block) (g : Group) (k : Bool) : Bool :=
  let x := g.slot k
  b.onCore && !b.stopped && !g.ended && !g.yielded && g.trapReq.isNone && x.act != 0 && x.wait = .none

/-- A ready candidate: its partition (four of each core), its slot, and what ranks it. -/
structure Candidate where
  part : Nat
  block : Nat
  group : Nat
  slot : Bool
  rank : List Nat
  deriving DecidableEq, Repr

/-- What ranks a slot, most significant first (R162): urgent slots by the turn in which they became so; the age stamp; the slot
that issued less recently; slot 0. -/
def Group.rank (g : Group) (k : Bool) : List Nat :=
  let x := g.slot k
  [b2n (!x.urgent), if x.urgent then x.urgentAt else 0, g.age, x.issued, b2n k]

/-- The order of such lists. -/
def rankBefore : List Nat → List Nat → Bool
  | x :: s, y :: t => decide (x < y) || (x = y && rankBefore s t)
  | _, _ => false

/-- The ready candidates of the package. -/
def readyOnes (d : Dev) : List Candidate :=
  d.blocks.flatMap fun b => b.groups.flatMap fun g => ([false, true].filter (standsReady b g)).map fun k =>
    ⟨4 * b.core + g.idx % 4, b.key, g.idx, k, g.rank k⟩

/-- The first of a list of candidates by rank. -/
def bestOf : List Candidate → Option Candidate
  | [] => none
  | c :: t => match bestOf t with
    | some x => if rankBefore x.rank c.rank then some x else some c
    | none => some c

/-- A ready slot of the partition that was not the one to issue: three turns make it urgent (R162). -/
def Slot.pass (x : Slot) (clock : Nat) : Slot :=
  if x.urgent || x.denied + 1 < 3 then { x with denied := x.denied + 1 }
  else { x with denied := x.denied + 1, urgent := true, urgentAt := clock }

/-- A slot that issues (R162). -/
def Slot.chosen (x : Slot) (clock : Nat) : Slot := { x with denied := 0, urgent := false, issued := clock }

/-- One candidate of a partition issues, and the others do not. -/
def issueOf (d : Dev) (c : Candidate) (others : List Candidate) (clock : Nat) : Dev :=
  let on := fun (d : Dev) (y : Candidate) (f : Slot → Slot) => modBlock d y.block fun b => b.modGroup y.group fun g => g.onSlot y.slot f
  on ((others.filter (· != c)).foldl (fun d y => on d y (·.pass clock)) d) c (·.chosen clock)

/-- With no turn on the agenda (log 4): in every other turn the partitions issue in rotation, each its first-ranked candidate
(R162); in the turns between, every slot and stream is polled in rotation. -/
noncomputable def State.pickRota (s : State) : Pick :=
  let s := s.unfocus.onDev settleStates
  let s := { s with rota := s.rota + 1 }
  let n := s.rota / 2
  let r := if s.rota % 2 = 1 then [] else readyOnes s.dev
  let parts := (r.map (·.part)).eraseDups
  let mine := r.filter fun c => parts[n % parts.length]? = some c.part
  let l := candidates s.dev
  match bestOf mine, l[n % l.length]? with
  | some c, _ => (s.onDev fun d => issueOf d c mine s.rota).pickTurn (.run c.block c.group c.slot)
  | none, some t => s.pickTurn t
  | none, none => .idle s

/-- What a step does: the first turn of the agenda; with none, the slot or stream in focus while it goes on in its clause; else
the rotation. -/
noncomputable def pick (s : State) : Pick :=
  match s.agenda with
  | t :: rest => ({ s with agenda := rest } : State).pickTurn t
  | [] => if s.keeps then s.pickSlot else if s.streamKeeps then s.pickStream else s.pickRota

/-! ## The word that a fetch finds (log 6) -/

/-- Where the model places a code page for a word when no slot stands ready: a physical address, mapped at address 0. -/
def codePage : Nat := 0x10000

/-- The translation of that page: readable, writable, executable for owner 1 (log 6). -/
def codeLeaf : Leaf := ⟨true, true, true, .ordinary, 0, 1, codePage, 2 ^ 16, 0, 0⟩

/-- A header of a group's clause of one word with flags for both kinds of counted operations (R23). -/
def groupHeader : Word := 0x70110000
/-- A header of a stream's clause of one word (R25). -/
def streamHeader : Word := 0x701FF000

/-- A block of one group of 32 lanes with every register allocated, at address 0. -/
def codeBlock (key : Nat) : Block :=
  { key := key, state := .resident, shape := { vregs := 128, sregs := 64, accs := 32, scrb := 524288, owner := 1 } }

/-- Its group, with slot 0 at the first word of the clause. -/
def codeGroup : Group := { slot0 := { pc := 4, act := BitVec.allOnes 32 }, live := BitVec.allOnes 32 }

/-- A slot that stands ready at an instruction, or else the block above in focus with its page in the translation cache. -/
def State.fetchSite (s : State) : State :=
  if s.keeps then s
  else
    let s := s.unfocus
    { s with
      focused := true, onStream := false, k := false, grp := codeGroup, blk := codeBlock s.dev.nextBlock
      dev := { s.dev with nextBlock := s.dev.nextBlock + 1, tlb := ⟨1, 0, codeLeaf⟩ :: s.dev.tlb } }

/-- The list with x at position i; positions that are missing hold d. -/
def putAt (d x : Word) : Nat → List Word → List Word
  | 0, l => x :: l.drop 1
  | i + 1, [] => d :: putAt d x i []
  | i + 1, y :: t => y :: putAt d x i t

/-- A word in home memory at the physical address of a virtual one, where the translation cache holds it. -/
def State.storeWord (s : State) (va : DWord) (w : Word) : State :=
  match findLeaf s.dev s.blk.shape.owner va.toNat with
  | .leaf l _ _ _ => s.onDev fun d => { d with mem := (bytesOf w.toNat 4).zipIdx.foldl (fun m e =>
      Memory.write m (l.pa + va.toNat % l.size + e.2) e.1) d.mem }
  | .trap _ | .missing _ _ => s

/-- The word at the issuing slot's instruction, in memory and in the clause that has issued; a slot whose clause has not issued
takes a clause of this one word. -/
def State.placeGroupWord (s : State) (w : Word) : State :=
  let s := s.storeWord s.slot.pc w
  let c : Clause := s.slot.clause.getD ⟨s.clauseAddr, [groupHeader], BitVec.allOnes 32⟩
  let s := if s.slot.clause.isNone then s.storeWord s.clauseAddr groupHeader else s
  s.onSlot fun x => { x with clause := some { c with words := putAt 0 w s.slotIdx c.words } }

/-- The word as the stream's next instruction: the stream of the focused block runs a clause of this one word. -/
def State.placeStreamWord (s : State) (w : Word) : State :=
  let a : DWord := 0
  let s := (s.storeWord a streamHeader).storeWord (a + 4) w
  ({ s with onStream := true } : State).onSeq fun q =>
    { q with pc := a + 4, words := some [streamHeader, w], run := true, wait := .none, rstw := false }

end Sys2Proof.Machine
end

