-- ==== Sys2Proof/Machine/Step.lean ====
section
/-! DEFINITION. One step of the machine, and the state in which a given word is the next instruction. -/

namespace Sys2Proof.Machine

open Sys2Proof

/-- One step: what `pick` chooses, run by `exec`. -/
noncomputable def step (s : State) : Host.Outcome State Fault Refusal :=
  match pick s with
  | .idle t => .next t
  | .run i t => exec i t

/-- s with the instruction w where the next step fetches: no turn comes before it, and a slot, or for a word of the matrix
class the stream, stands at it with its clause issued (log 6). -/
def State.withFetchWord (s : State) (nbits w : Nat) : State :=
  let x : Word := BitVec.ofNat 32 (w % 2 ^ nbits)
  let t := ({ s with agenda := [] } : State).fetchSite
  if w / 2 ^ 28 % 16 = 15 then t.placeStreamWord x else t.placeGroupWord x

end Sys2Proof.Machine
end

