-- ==== Sys2Proof/Safety.lean ====
section
/-! DEFINITION. The terms in which claims about the machine are stated: the parts of a state, what an instruction leaves
alone, the bytes that a party reads, the invariant that every step keeps. -/

namespace Sys2Proof.Machine

open Sys2Proof

/-! ## The parts of a state -/

/-- The parts that an instruction may name as changed; a frame says that all others are unchanged. -/
inductive Part where
  /-- Vector registers with their poison tags (R149, R271). -/
  | vec
  /-- Uniform registers with their poison tags (R149, R281). -/
  | uni
  /-- Lane predicates (R149). -/
  | pred
  /-- Uniform predicates (R149). -/
  | upred
  /-- FPSTAT of the issuing slot (R104). -/
  | fpstat
  /-- FMT of the issuing slot (R79). -/
  | fmt
  /-- Flags and counted operations in flight (R26). -/
  | counted
  /-- Hold entries (R236). -/
  | holds
  /-- What the issuing slot has due at the end of its clause (R183, R186). -/
  | due
  /-- Slots, split stack, live lanes and the melded region (R150, R151, R185). -/
  | paths
  /-- MM (R190). -/
  | members
  /-- Trap registers, trap context, a trap that waits, the handler's `yld.done` (R169, R226, R409). -/
  | trap
  /-- Deferred reports (R271). -/
  | reports
  /-- RSSTAT and the numbers of the group's remote stores (R239, R243). -/
  | rsstat
  /-- The group's age stamp and the package's next one (R230). -/
  | age
  /-- The group's name, the platform table, and packets that waited for a name and go back to the inbox (R233, R234). -/
  | names
  /-- The scratchpad (R253). -/
  | scratch
  /-- Named barriers and the phases the group arrived in (R195). -/
  | bars
  /-- Matrix barriers and the phases the group arrived in (R127). -/
  | mbars
  /-- The sequencer context with tile slots and accumulators (R124). -/
  | stream
  /-- Arrival counters (R357). -/
  | arrivals
  /-- Home memory and the dirty bytes in front of it (R247, R249, R397). -/
  | memory
  /-- Lines and translations held clean by caches (R249, R382). -/
  | caches
  /-- Tickets of the package's order (R279, R293). -/
  | tickets
  /-- Coherence objects (R255). -/
  | objects
  /-- Forks, views and joins (R308, R311). -/
  | forks
  /-- Sidings pages charged to launches and partitions (R311). -/
  | pools
  /-- Triggers of groups, blocks and launches, with bind records and queues (R210-R214). -/
  | triggers
  /-- Event counters (R28, R283). -/
  | meters
  /-- Requests to other packages and answers to them, ports, error records (R242, R346, R428). -/
  | fabric
  /-- Jobs of the copy engines, multicast channels, range scoreboard (R283, R333, R337). -/
  | jobs
  /-- Registrations of landing buffers (R342). -/
  | lbufs
  /-- Consists and collectives (R355, R360). -/
  | colls
  /-- Outstanding faults (R388). -/
  | faults
  /-- Blocks other than the focused one. -/
  | blocks
  /-- The model's own counter of free values (log 9). -/
  | fresh
  deriving DecidableEq, Repr

/-- The issuing slot of u with a field taken from t. -/
def State.fromSlot (u t : State) (f : Slot → Slot → Slot) : State := u.onSlot fun x => f x t.slot

/-- u with part p taken from t. -/
def Part.copy (p : Part) (t u : State) : State :=
  match p with
  | .vec => { u with grp := { u.grp with v := t.grp.v, tags := t.grp.tags } }
  | .uni => { u with grp := { u.grp with s := t.grp.s, stags := t.grp.stags } }
  | .pred => { u with grp := { u.grp with p := t.grp.p } }
  | .upred => { u with grp := { u.grp with q := t.grp.q } }
  | .fpstat => u.fromSlot t fun x y => { x with fpstat := y.fpstat }
  | .fmt => u.fromSlot t fun x y => { x with fmt := y.fmt }
  | .counted => { u with
      grp := { u.grp with flags := t.grp.flags, pend := t.grp.pend }
      dev := { u.dev with nextId := t.dev.nextId } }
  | .holds => { u with grp := { u.grp with holds := t.grp.holds } }
  | .due => u.fromSlot t fun x y => { x with due := y.due }
  | .paths => { u with grp := { u.grp with
      slot0 := t.grp.slot0, slot1 := t.grp.slot1, stack := t.grp.stack, live := t.grp.live, meld := t.grp.meld
      mapA := t.grp.mapA, mapB := t.grp.mapB, mapPA := t.grp.mapPA, mapPB := t.grp.mapPB } }
  | .members => { u with grp := { u.grp with mm := t.grp.mm } }
  | .trap => { u with grp := { u.grp with
      trap := t.grp.trap, ctx := t.grp.ctx, trapReq := t.grp.trapReq, yielded := t.grp.yielded } }
  | .reports => { u with grp := { u.grp with reports := t.grp.reports } }
  | .rsstat => { u with grp := { u.grp with rsstat := t.grp.rsstat, rstvSeq := t.grp.rstvSeq } }
  | .age => { u with grp := { u.grp with age := t.grp.age }, dev := { u.dev with ages := t.dev.ages } }
  | .names => { u with
      grp := { u.grp with pname := t.grp.pname }
      dev := { u.dev with
        names := t.dev.names, nameClock := t.dev.nameClock, deferCount := t.dev.deferCount, inbox := t.dev.inbox } }
  | .scratch => { u with blk := { u.blk with scratch := t.blk.scratch, scratchBad := t.blk.scratchBad } }
  | .bars => { u with grp := { u.grp with barPhase := t.grp.barPhase }, blk := { u.blk with bars := t.blk.bars } }
  | .mbars => { u with grp := { u.grp with mbarPhase := t.grp.mbarPhase }, blk := { u.blk with mbars := t.blk.mbars } }
  | .stream => { u with blk := { u.blk with seq := t.blk.seq } }
  | .arrivals => { u with blk := { u.blk with counters := t.blk.counters } }
  | .memory => { u with dev := { u.dev with
      mem := t.dev.mem, keys := t.dev.keys, bad := t.dev.bad, l2host := t.dev.l2host, rdc := t.dev.rdc
      dirty := t.dev.dirty } }
  | .caches => { u with dev := { u.dev with
      l1 := t.dev.l1, cc := t.dev.cc, constant := t.dev.constant, icache := t.dev.icache, records := t.dev.records
      lastLaunch := t.dev.lastLaunch, tlb := t.dev.tlb, l2host := t.dev.l2host
      rdc := t.dev.rdc } }
  | .tickets => { u with dev := { u.dev with tickets := t.dev.tickets } }
  | .objects => { u with dev := { u.dev with objs := t.dev.objs } }
  | .forks => { u with dev := { u.dev with forks := t.dev.forks, joins := t.dev.joins } }
  | .pools => { u with dev := { u.dev with launches := t.dev.launches, parts := t.dev.parts } }
  | .triggers => { u with
      grp := { u.grp with triggered := t.grp.triggered }
      blk := { u.blk with trigm := t.blk.trigm, trigd := t.blk.trigd }
      dev := { u.dev with launches := t.dev.launches, binds := t.dev.binds, funcs := t.dev.funcs } }
  | .meters => { u with dev := { u.dev with flagMiss := t.dev.flagMiss, rsbStall := t.dev.rsbStall } }
  | .fabric => { u with dev := { u.dev with
      outstanding := t.dev.outstanding, nextId := t.dev.nextId, inbox := t.dev.inbox, outbox := t.dev.outbox
      ports := t.dev.ports, vias := t.dev.vias, errors := t.dev.errors, errorsLost := t.dev.errorsLost } }
  | .jobs => { u with dev := { u.dev with
      jobs := t.dev.jobs, channels := t.dev.channels, ranges := t.dev.ranges } }
  | .lbufs => { u with blk := { u.blk with lbufs := t.blk.lbufs } }
  | .colls => { u with dev := { u.dev with
      consists := t.dev.consists, heldForms := t.dev.heldForms, formDone := t.dev.formDone, colls := t.dev.colls
      sent := t.dev.sent, waitSubs := t.dev.waitSubs } }
  | .faults => { u with dev := { u.dev with
      tagsOut := t.dev.tagsOut, failed := t.dev.failed, nextTag := t.dev.nextTag, funcs := t.dev.funcs } }
  | .blocks => { u with dev := { u.dev with blocks := t.dev.blocks, nextBlock := t.dev.nextBlock } }
  | .fresh => { u with dev := { u.dev with fresh := t.dev.fresh } }

/-- t is s except in the parts w: every register, flag, special register, byte and record outside them is unchanged. -/
def ChangesOnly (w : List Part) (s t : State) : Prop := t = w.foldl (fun u p => p.copy t u) s

/-- The instruction is performed and the slot goes on to the next one: u is the state with the instruction's effects, before
the slot moves (R22). -/
def Completes (i : Instr) (s : State) (effect : State → Prop) : Prop := ∃ u, exec i s = .next u.advance ∧ effect u

/-- Of the group and the block only the parts w change; other units of the package may act as well. -/
def KeepsOwn (w : List Part) (s t : State) : Prop := ∃ d, ChangesOnly w { s with dev := d } t

/-! ## Reading the parts -/

/-- The word under a vector key, 32·register + lane (R149). -/
def State.vec (s : State) (key : Nat) : Word := Sparse.get 0 s.grp.v key

/-- Lane L of the predicate register p itself, whatever a region names (R149). -/
def State.predBit (s : State) (p L : Nat) : Bool := inM (Sparse.get 0 s.grp.p p) L

/-- The n registers from name d hold, in each lane of T, a word that P accepts, and every other register word is as it was;
names are those of s (R30, R187). -/
def VecResult (s u : State) (T : Mask) (d n : Nat) (P : Nat → Nat → Word → Prop) : Prop :=
  (∀ L, L < 32 → inM T L = true → ∀ i, i < n → P L i (u.vec (s.vkey L (d + i)))) ∧
  ∀ key, (∀ L, L < 32 → inM T L = true → ∀ i, i < n → key ≠ s.vkey L (d + i)) → u.vec key = s.vec key

/-- Predicate p holds, in each lane of T, a bit that P accepts, and every other predicate bit is as it was. -/
def PredResult (s u : State) (T : Mask) (p : Nat) (P : Nat → Bool → Prop) : Prop :=
  (∀ L, L < 32 → inM T L = true → P L (u.predBit (s.pname L p) L)) ∧
  ∀ q L, L < 32 → ¬ (inM T L = true ∧ q = s.pname L p) → u.predBit q L = s.predBit q L

/-- Uniform register d holds x, and every other one is as it was. -/
def UniResult (s u : State) (d : Nat) (x : DWord) : Prop := u.rs d = x ∧ ∀ r, r ≠ d → u.rs r = s.rs r

/-- A byte as a plain load of a core reads it, under an owner key (R250). -/
def Dev.byteAt (d : Dev) (core cl key pa : Nat) : Byte := ((loadBytes d core cl key pa 1 true).2.head?).getD 0

/-- The address of the next instruction: the next slot of the clause, or the next clause (R22). -/
def State.nextPc (s : State) : DWord := if s.slotIdx < s.lastIdx then s.slot.pc + 4 else s.clauseAddr + 32

/-! ## The invariant -/

/-- Home memory stands in its canonical form. -/
abbrev State.Inv (s : State) : Prop := Memory.wf s.dev.mem = true

/-- A page is whole and aligned: every walk gives such pages (R381, R384). -/
def WholePage (l : Leaf) : Prop := 2 ^ 16 ∣ l.size ∧ 2 ^ 16 ∣ l.pa

/-- The translation cache holds whole pages. -/
def State.WholePages (s : State) : Prop := ∀ t, t ∈ s.dev.tlb → WholePage t.leaf

end Sys2Proof.Machine
end

