-- ==== Sys2Proof/Certificates/Slice0/Obligations.lean ====
section
/-! DEFINITION. The statements for the provers. A table of instructions is an inductive proposition whose rows are the rows of
the spec's tables; a statement says of every row that the instruction completes with the row's effect and nothing else. -/

namespace Sys2Proof.Claims

open Sys2Proof Sys2Proof.Machine

/-! ## Lane integer instructions (R86-R93) -/

/-- A relation between two operand words and the result word. -/
abbrev Op2 := Word → Word → Word → Prop

/-- sat_i32(sx32(a) + sx32(b)). -/
def Iadds : Op2 := fun a b x => x.toInt = max (-2147483648) (min (a.toInt + b.toInt) 2147483647)
/-- sat_n32(ux32(a) + ux32(b)). -/
def Iaddsn : Op2 := fun a b x => x.toNat = min (a.toNat + b.toNat) 4294967295
/-- wrap32(floor(sx32(a) · sx32(b) / 2^32)). -/
def Imulh : Op2 := fun a b x => x.toInt = (a.toInt * b.toInt) / 2 ^ 32
/-- wrap32(floor(ux32(a) · ux32(b) / 2^32)). -/
def Imulhn : Op2 := fun a b x => x.toNat = a.toNat * b.toNat / 2 ^ 32
/-- The operand with the smaller or larger value. -/
def Imin : Op2 := fun a b x => x.toInt = min a.toInt b.toInt
def Imax : Op2 := fun a b x => x.toInt = max a.toInt b.toInt
def Iminn : Op2 := fun a b x => x.toNat = min a.toNat b.toNat
def Imaxn : Op2 := fun a b x => x.toNat = max a.toNat b.toNat
/-- abs(sx32(a) - sx32(b)) read as n32. -/
def Iabsd : Op2 := fun a b x => (x.toNat : Int) = |a.toInt - b.toInt|
/-- Bit i of the result is bit i - n of a. -/
def Shl : Op2 := fun a b x => ∀ i, i < 32 → x.getLsbD i = (decide (b.toNat ≤ i) && a.getLsbD (i - b.toNat))
/-- Bit i of the result is bit i + n of a, 0 past bit 31. -/
def Shr : Op2 := fun a b x => ∀ i, i < 32 → x.getLsbD i = a.getLsbD (i + b.toNat)
/-- Bit i of the result is bit i + n of a, bit 31 past bit 31. -/
def Sar : Op2 := fun a b x => ∀ i, i < 32 → x.getLsbD i = a.getLsbD (min (i + b.toNat) 31)
/-- Bit i of the result is bit (i - n) mod 32 of a. -/
def Rotl : Op2 := fun a b x => ∀ i, i < 32 → x.getLsbD i = a.getLsbD ((i + 32 - b.toNat % 32) % 32)
/-- Position and length of a field (R90). -/
def fieldPosOf (b : Word) : Nat := (b.extractLsb' 0 8).toNat
def fieldLenOf (b : Word) : Nat := min (b.extractLsb' 8 8).toNat 32
/-- Bit i of the result is bit pos + i of a for i below the length, 0 past bit 31 and from the length on. -/
def Bfen : Op2 := fun a b x => ∀ i, i < 32 → x.getLsbD i = (decide (i < fieldLenOf b) && a.getLsbD (fieldPosOf b + i))
/-- The same with bit 31 past bit 31, the field's top bit repeated from the length on, and 0 for length 0. -/
def Bfe : Op2 := fun a b x => ∀ i, i < 32 → x.getLsbD i =
  (decide (fieldLenOf b ≠ 0) && a.getLsbD (min (fieldPosOf b + min i (fieldLenOf b - 1)) 31))

/-- The two-operand members of the LR class (R86, R87, R90). -/
inductive IntOp : (VReg → VReg → BOp → Instr) → Op2 → Prop
  | iadd : IntOp .iadd fun a b x => x = a + b
  | isub : IntOp .isub fun a b x => x = a - b
  | iadds : IntOp .iadds Iadds
  | iaddsn : IntOp .iaddsn Iaddsn
  | imul : IntOp .imul fun a b x => x = a * b
  | imulh : IntOp .imulh Imulh
  | imulhn : IntOp .imulhn Imulhn
  | imin : IntOp .imin Imin
  | imax : IntOp .imax Imax
  | iminn : IntOp .iminn Iminn
  | imaxn : IntOp .imaxn Imaxn
  | iabsd : IntOp .iabsd Iabsd
  | and : IntOp .and fun a b x => x = a &&& b
  | or : IntOp .or fun a b x => x = a ||| b
  | xor : IntOp .xor fun a b x => x = a ^^^ b
  | andn : IntOp .andn fun a b x => x = a &&& ~~~ b
  | shl : IntOp .shl Shl
  | shr : IntOp .shr Shr
  | sar : IntOp .sar Sar
  | rotl : IntOp .rotl Rotl
  | bfe : IntOp .bfe Bfe
  | bfen : IntOp .bfen Bfen

/-- The LI forms with the extension of their immediate (R86, R87, R40). -/
inductive IntImm : (VReg → VReg → BitVec 8 → Instr) → (BitVec 8 → Word) → Op2 → Prop
  | iadd : IntImm .iaddImm (·.signExtend 32) fun a b x => x = a + b
  | isub : IntImm .isubImm (·.signExtend 32) fun a b x => x = a - b
  | iadds : IntImm .iaddsImm (·.signExtend 32) Iadds
  | iaddsn : IntImm .iaddsnImm (·.setWidth 32) Iaddsn
  | imul : IntImm .imulImm (·.signExtend 32) fun a b x => x = a * b
  | imin : IntImm .iminImm (·.signExtend 32) Imin
  | imax : IntImm .imaxImm (·.signExtend 32) Imax
  | iminn : IntImm .iminnImm (·.setWidth 32) Iminn
  | imaxn : IntImm .imaxnImm (·.setWidth 32) Imaxn
  | and : IntImm .andImm (·.setWidth 32) fun a b x => x = a &&& b
  | or : IntImm .orImm (·.setWidth 32) fun a b x => x = a ||| b
  | xor : IntImm .xorImm (·.setWidth 32) fun a b x => x = a ^^^ b
  | andn : IntImm .andnImm (·.setWidth 32) fun a b x => x = a &&& ~~~ b
  | shl : IntImm .shlImm (·.setWidth 32) Shl
  | shr : IntImm .shrImm (·.setWidth 32) Shr
  | sar : IntImm .sarImm (·.setWidth 32) Sar
  | rotl : IntImm .rotlImm (·.setWidth 32) Rotl

/-- The number of lanes or bits among the first n at which p holds. -/
def countTo (n : Nat) (p : Nat → Bool) : Nat := ((List.range n).filter p).length

/-- The remaining members that write one register: operands, destination, and the result in a lane from the state (R88, R89,
R90, R92, R93, R95). -/
inductive LaneWord : Instr → List Opnd → VReg → (State → Nat → Word → Prop) → Prop
  | popc d a : LaneWord (.popc d a) [.v a 1] d fun s L x => x.toNat = countTo 32 fun i => (s.rv L a).getLsbD i
  | clz d a : LaneWord (.clz d a) [.v a 1] d fun s L x => x.toNat ≤ 32 ∧
      (∀ i, i < x.toNat → (s.rv L a).getLsbD (31 - i) = false) ∧ (x.toNat < 32 → (s.rv L a).getLsbD (31 - x.toNat) = true)
  | clzSgn d a : LaneWord (.clzSgn d a) [.v a 1] d fun s L x => x.toNat ≤ 31 ∧
      (∀ i, i < x.toNat → (s.rv L a).getLsbD (30 - i) = (s.rv L a).getLsbD 31) ∧
      (x.toNat < 31 → (s.rv L a).getLsbD (30 - x.toNat) = !(s.rv L a).getLsbD 31)
  | brev d a : LaneWord (.brev d a) [.v a 1] d fun s L x => ∀ i, i < 32 → x.getLsbD i = (s.rv L a).getLsbD (31 - i)
  | mov d a : LaneWord (.mov d a) [.v a 1] d fun s L x => x = s.rv L a
  | movs d b : LaneWord (.movs d b) [.s b 1] d fun s _ x => x = (s.rs b).extractLsb' 0 32
  | bfi d a b : LaneWord (.bfi d a b) [.v a 1, opndB 1 b, .v d 1] d fun s L x => ∀ i, i < 32 → x.getLsbD i =
      if fieldPosOf (s.rb L b) ≤ i ∧ i < fieldPosOf (s.rb L b) + fieldLenOf (s.rb L b) then
        (s.rv L a).getLsbD (i - fieldPosOf (s.rb L b)) else (s.rv L d).getLsbD i
  | imuladd d a b c : LaneWord (.imuladd d a b c) [.v a 1, .v b 1, .v c.val 1] d fun s L x =>
      x = s.rv L a * s.rv L b + s.rv L c.val
  | itadd d a b c : LaneWord (.itadd d a b c) [.v a 1, .v b 1, .v c.val 1] d fun s L x =>
      x = s.rv L a + s.rv L b + s.rv L c.val
  | vsel d a b n p : LaneWord (.vsel d a b n p) [.v a 1, .v b 1, .p p] d fun s L x =>
      x = if xor (s.rp L p) n then s.rv L a else s.rv L b
  | movi d h i : LaneWord (.movi d h i) [] d fun _ _ x => x.toNat = i.toNat * if h then 65536 else 1
  | movk d h i : LaneWord (.movk d h i) [.v d 1] d fun s L x =>
      x.extractLsb' (if h then 16 else 0) 16 = i ∧
      x.extractLsb' (if h then 0 else 16) 16 = (s.rv L d).extractLsb' (if h then 0 else 16) 16
  | movsx d i : LaneWord (.movsx d i) [] d fun _ _ x => x.toInt = i.toInt
  | p2v d : LaneWord (.p2v d) [.p 0, .p 1, .p 2, .p 3, .p 4, .p 5, .p 6, .p 7] d fun s L x =>
      ∀ i, i < 32 → x.getLsbD i = (decide (i < 8) && s.rp L i)

/-- The members that write a lane predicate, with the bit they give (R91, R94, R95). -/
inductive LanePred : Instr → List Opnd → PReg → (State → Nat → Bool → Prop) → Prop
  | icmp c p a b : LanePred (.icmp c p a b) [.v a 1, opndB 1 b] p fun s L x => x = condI c (s.rv L a) (s.rb L b)
  | icmpImm c p a i : LanePred (.icmpImm c p a i) [.v a 1] p fun s L x => x = condI c (s.rv L a) (i.signExtend 32)
  | and d x a y b : LanePred (.plop d 0 x a y b) [.p a, .p b] d fun s L r => r = (xor (s.rp L a) x && xor (s.rp L b) y)
  | or d x a y b : LanePred (.plop d 1 x a y b) [.p a, .p b] d fun s L r => r = (xor (s.rp L a) x || xor (s.rp L b) y)
  | xor d x a y b : LanePred (.plop d 2 x a y b) [.p a, .p b] d fun s L r => r = xor (xor (s.rp L a) x) (xor (s.rp L b) y)
  | mov d x a y b : LanePred (.plop d 3 x a y b) [.p a, .p b] d fun s L r => r = xor (s.rp L a) x
  | v2p p a b : LanePred (.v2p p a b) [.v a 1] p fun s L r => r = (s.rv L a).getLsbD b

/-- The integer conditions of R37 between two words, signed for lt, le, gt, ge and unsigned for lo, ls, hi, hs. -/
def condHolds (c : Cond) (a b : Word) : Prop :=
  match c with
  | .eq => a = b
  | .ne => a ≠ b
  | .lt => BitVec.slt a b = true
  | .le => BitVec.sle a b = true
  | .gt => BitVec.slt b a = true
  | .ge => BitVec.sle b a = true
  | .lo => BitVec.ult a b = true
  | .ls => BitVec.ule a b = true
  | .hi => BitVec.ult b a = true
  | .hs => BitVec.ule b a = true

end Sys2Proof.Claims

open Sys2Proof Sys2Proof.Machine Sys2Proof.Claims

/-- R86, R87, R90: every two-operand integer member completes in every state whose operands are ready, writes op(a, b) in the
lanes taking part, and changes nothing else. -/
def Sys2Proof.Claims.IntegerMembersWriteTheirResult : Prop :=
  (∀ c P, IntOp c P → ∀ (d a : VReg) (b : BOp) (s : State), s.blocked s.part [.v a 1, opndB 1 b] [.v d 1] = none →
    Completes (c d a b) s fun u => ChangesOnly [.vec] (s.consume s.part [.v a 1, opndB 1 b]) u ∧
      VecResult s u s.part d 1 fun L _ x => P (s.rv L a) (s.rb L b) x) ∧
  (∀ c f P, IntImm c f P → ∀ (d a : VReg) (i : BitVec 8) (s : State), s.blocked s.part [.v a 1] [.v d 1] = none →
    Completes (c d a i) s fun u => ChangesOnly [.vec] (s.consume s.part [.v a 1]) u ∧
      VecResult s u s.part d 1 fun L _ x => P (s.rv L a) (f i) x)

/-- R88, R89, R90, R92, R93, R95: the other members that write one register; `mov.b64` a pair. -/
def Sys2Proof.Claims.LaneMovesAndFieldsWriteTheirResult : Prop :=
  (∀ i rd d P, LaneWord i rd d P → ∀ s : State, s.blocked s.part rd [.v d 1] = none →
    Completes i s fun u => ChangesOnly [.vec] (s.consume s.part rd) u ∧ VecResult s u s.part d 1 fun L _ x => P s L x) ∧
  (∀ (d a : VReg) (s : State), s.blocked s.part [.v a 2] [.v d 2] = none →
    Completes (.movB64 d a) s fun u => ChangesOnly [.vec] (s.consume s.part [.v a 2]) u ∧
      VecResult s u s.part d 2 fun L i x => x = s.rv L (a.val + i))

/-- R91, R94, R95: the members that write a lane predicate; the condition of `icmp` is that of R37. -/
def Sys2Proof.Claims.LanePredicateMembersWriteTheirBit : Prop :=
  (∀ i rd p P, LanePred i rd p P → ∀ s : State, s.blocked s.part rd [.p p] = none →
    Completes i s fun u => ChangesOnly [.pred] (s.consume s.part rd) u ∧ PredResult s u s.part p (P s)) ∧
  ∀ c a b, condI c a b = true ↔ condHolds c a b

/-- The parts above together: the integer, bitfield and move members, and those that write a lane predicate. -/
def Obligations.IntegerAndMoveMembersWriteTheirResult : Prop := IntegerMembersWriteTheirResult ∧ LaneMovesAndFieldsWriteTheirResult ∧ LanePredicateMembersWriteTheirBit

namespace Sys2Proof.Claims

open Sys2Proof Sys2Proof.Machine

/-! ## Floating point (R103-R121): a result is an encoding with the flags it raises -/

/-- FPSTAT of the issuing slot holds what it held and the flags r L of the lanes of T (R103, R104). -/
def FlagsRaised (s u : State) (T : Mask) (r : Nat → FFlags) : Prop :=
  ∀ j, j < 5 → (u.slot.fpstat.getLsbD j = true ↔
    s.slot.fpstat.getLsbD j = true ∨ ∃ L, L < 32 ∧ inM T L = true ∧ (r L).getLsbD j = true)

/-- One rounding of an exact value, which may come from an invalid operation, to nearest even (R106). -/
def nearest (F : Fmt) (x : Val × Bool) : Nat × FFlags := roundFp F .rne false x.1 x.2

/-- The f32 value of a register word after DAZ, and the values of a pair and of half k (R67, R111, R112). -/
def val32 (s : State) (w : Word) : Val := f32.val (s.daz w)
def half (s : State) (k : Nat) (w : Word) : Val := s.hk.val (w.extractLsb' (16 * k) 16).toNat

/-- Two halves each rounded on its own (R111). -/
def bothHalves (s : State) (f : Nat → Val × Bool) : Nat × FFlags :=
  ((nearest s.hk (f 1)).1 * 65536 + (nearest s.hk (f 0)).1, (nearest s.hk (f 0)).2 ||| (nearest s.hk (f 1)).2)

/-- Members that write one register with one rounding (R106, R108, R111). -/
inductive FloatWord : Instr → List Opnd → VReg → (State → Nat → Nat × FFlags) → Prop
  | fadd d a b : FloatWord (.fadd d a b) [.v a 1, opndB 1 b] d fun s L =>
      nearest f32 (addVal (val32 s (s.rv L a)) (val32 s (s.rb L b)))
  | fsub d a b : FloatWord (.fsub d a b) [.v a 1, opndB 1 b] d fun s L =>
      nearest f32 (addVal (val32 s (s.rv L a)) (negVal (val32 s (s.rb L b))))
  | fmul d a b : FloatWord (.fmul d a b) [.v a 1, opndB 1 b] d fun s L =>
      nearest f32 (mulVal (val32 s (s.rv L a)) (val32 s (s.rb L b)))
  | fscl d a b : FloatWord (.fscl d a b) [.v a 1, opndB 1 b] d fun s L =>
      nearest f32 (scaleVal (val32 s (s.rv L a)) (s.rb L b).toInt, false)
  | ffmad d a b : FloatWord (.ffmad d a b) [.v a 1, opndB 1 b, .v d 1] d fun s L =>
      nearest f32 (fmaVal (val32 s (s.rv L a)) (val32 s (s.rb L b)) (val32 s (s.rv L d)))
  | ffmadc d a b c : FloatWord (.ffmadc d a b c) [.v a 1, .v b 1, .v c.val 1] d fun s L =>
      nearest f32 (fmaVal (val32 s (s.rv L a)) (val32 s (s.rv L b)) (val32 s (s.rv L c.val)))
  | hadd2 d a b : FloatWord (.hadd2 d a b) [.v a 1, opndB 1 b] d fun s L =>
      bothHalves s fun k => addVal (half s k (s.rv L a)) (half s k (s.rb L b))
  | hmul2 d a b : FloatWord (.hmul2 d a b) [.v a 1, opndB 1 b] d fun s L =>
      bothHalves s fun k => mulVal (half s k (s.rv L a)) (half s k (s.rb L b))
  | hfmad2 d a b : FloatWord (.hfmad2 d a b) [.v a 1, opndB 1 b, .v d 1] d fun s L =>
      bothHalves s fun k => fmaVal (half s k (s.rv L a)) (half s k (s.rb L b)) (half s k (s.rv L d))

/-- Members on pairs with one rounding (R112). -/
inductive FloatPair : Instr → List Opnd → VReg → (State → Nat → Nat × FFlags) → Prop
  | dadd d a b : FloatPair (.dadd d a b) [.v a 2, opndB 2 b] d fun s L =>
      nearest f64 (addVal (f64.val (s.rv2 L a).toNat) (f64.val (s.rb2 L b).toNat))
  | dmul d a b : FloatPair (.dmul d a b) [.v a 2, opndB 2 b] d fun s L =>
      nearest f64 (mulVal (f64.val (s.rv2 L a).toNat) (f64.val (s.rb2 L b).toNat))
  | dfmad d a b : FloatPair (.dfmad d a b) [.v a 2, opndB 2 b, .v d 2] d fun s L =>
      nearest f64 (fmaVal (f64.val (s.rv2 L a).toNat) (f64.val (s.rb2 L b).toNat) (f64.val (s.rv2 L d).toNat))

/-- The encoding that `fmin` selects: the other operand beside a NaN, the canonical NaN for two, else the smaller by value with
-0 below +0 (R107). -/
def Least (F : Fmt) (a b x : Nat) : Prop :=
  match F.val a, F.val b with
  | .nan, .nan => x = F.nan
  | .nan, _ => x = b
  | _, .nan => x = a
  | p, q => (x = a ∧ cmpVal true q p ≠ some .lt) ∨ (x = b ∧ cmpVal true q p = some .lt)

/-- The encoding that `fmax` selects (R107). -/
def Greatest (F : Fmt) (a b x : Nat) : Prop :=
  match F.val a, F.val b with
  | .nan, .nan => x = F.nan
  | .nan, _ => x = b
  | _, .nan => x = a
  | p, q => (x = a ∧ cmpVal true p q ≠ some .lt) ∨ (x = b ∧ cmpVal true p q = some .lt)

/-- Members that select or change bits and raise no flag (R93, R107, R110, R111). -/
inductive FloatMove : Instr → List Opnd → VReg → Nat → (State → Nat → Nat → Word → Prop) → Prop
  | fmin d a b : FloatMove (.fmin d a b) [.v a 1, opndB 1 b] d 1 fun s L _ x =>
      Least f32 (s.daz (s.rv L a)) (s.daz (s.rb L b)) x.toNat
  | fmax d a b : FloatMove (.fmax d a b) [.v a 1, opndB 1 b] d 1 fun s L _ x =>
      Greatest f32 (s.daz (s.rv L a)) (s.daz (s.rb L b)) x.toNat
  | hmin2 d a b : FloatMove (.hmin2 d a b) [.v a 1, opndB 1 b] d 1 fun s L _ x => ∀ k, k < 2 →
      Least s.hk ((s.rv L a).extractLsb' (16 * k) 16).toNat ((s.rb L b).extractLsb' (16 * k) 16).toNat
        (x.extractLsb' (16 * k) 16).toNat
  | hmax2 d a b : FloatMove (.hmax2 d a b) [.v a 1, opndB 1 b] d 1 fun s L _ x => ∀ k, k < 2 →
      Greatest s.hk ((s.rv L a).extractLsb' (16 * k) 16).toNat ((s.rb L b).extractLsb' (16 * k) 16).toNat
        (x.extractLsb' (16 * k) 16).toNat
  | fabs d a : FloatMove (.fabs d a) [.v a 1] d 1 fun s L _ x =>
      ∀ j, j < 32 → x.getLsbD j = (decide (j ≠ 31) && (s.rv L a).getLsbD j)
  | fneg d a : FloatMove (.fneg d a) [.v a 1] d 1 fun s L _ x =>
      ∀ j, j < 32 → x.getLsbD j = xor (decide (j = 31)) ((s.rv L a).getLsbD j)
  | fabsH2 d a : FloatMove (.fabsH2 d a) [.v a 1] d 1 fun s L _ x =>
      ∀ j, j < 32 → x.getLsbD j = (decide (j ≠ 31 ∧ j ≠ 15) && (s.rv L a).getLsbD j)
  | fnegH2 d a : FloatMove (.fnegH2 d a) [.v a 1] d 1 fun s L _ x =>
      ∀ j, j < 32 → x.getLsbD j = xor (decide (j = 31 ∨ j = 15)) ((s.rv L a).getLsbD j)
  | fabsD d a : FloatMove (.fabsD d a) [.v a 2] d 2 fun s L i x =>
      ∀ j, j < 32 → x.getLsbD j = (decide (¬ (i = 1 ∧ j = 31)) && (s.rv L (a.val + i)).getLsbD j)
  | fnegD d a : FloatMove (.fnegD d a) [.v a 2] d 2 fun s L i x =>
      ∀ j, j < 32 → x.getLsbD j = xor (decide (i = 1 ∧ j = 31)) ((s.rv L (a.val + i)).getLsbD j)
  | movh d i : FloatMove (.movh d i) [] d 1 fun _ _ _ x => x.toNat = (nearest f32 (f16.val i.toNat, false)).1

/-- Comparisons (R109, R112): the relation of R37 between two values, with +0 and -0 equal. -/
def CompareHolds (c : FCond) (p q : Val) : Prop :=
  match c with
  | .oeq => cmpVal false p q = some .eq
  | .one => cmpVal false p q = some .lt ∨ cmpVal false p q = some .gt
  | .olt => cmpVal false p q = some .lt
  | .ole => cmpVal false p q = some .lt ∨ cmpVal false p q = some .eq
  | .ogt => cmpVal false p q = some .gt
  | .oge => cmpVal false p q = some .gt ∨ cmpVal false p q = some .eq
  | .ord => p ≠ .nan ∧ q ≠ .nan
  | .uno => p = .nan ∨ q = .nan
  | .ueq => (p = .nan ∨ q = .nan) ∨ cmpVal false p q = some .eq
  | .une => (p = .nan ∨ q = .nan) ∨ cmpVal false p q = some .lt ∨ cmpVal false p q = some .gt

inductive FloatCompare : Instr → List Opnd → PReg → (State → Nat → Bool → Prop) → Prop
  | fcmp c p a b : FloatCompare (.fcmp c p a b) [.v a 1, opndB 1 b] p fun s L x =>
      x = true ↔ CompareHolds c (val32 s (s.rv L a)) (val32 s (s.rb L b))
  | dcmp c p a b : FloatCompare (.dcmp c p a b) [.v a 2, opndB 2 b] p fun s L x =>
      x = true ↔ CompareHolds c (f64.val (s.rv2 L a).toNat) (f64.val (s.rb2 L b).toNat)

/-! ## Operations counted by SETA (R26, R28) -/

/-- One counted operation issues between s and u, and e is what is noted of it: its flag, SETA's or SETB's, rises by one. -/
def Counted (s u : State) (setA : Bool) (e : Pend) : Prop :=
  u.grp.pend = s.grp.pend ++ [e] ∧ e.setA = setA ∧ e.flag = s.flagOf setA ∧ e.slot = b2n s.k ∧
  ∀ f, Sparse.get 0 u.grp.flags f = Sparse.get 0 s.grp.flags f + b2n (decide (f = e.flag ∧ f < 12))

/-- The operation takes the package's next identifier. -/
def Issued (s u : State) (setA : Bool) (e : Pend) : Prop := Counted s u setA e ∧ e.id = s.dev.nextId

/-- It takes the package's next identifier and no other is taken. -/
def Issues (s u : State) (setA : Bool) (e : Pend) : Prop := Issued s u setA e ∧ u.dev.nextId = s.dev.nextId + 1

/-- What an operation in flight will write at its completion: the n registers from name d in the lanes of T, predicates not
among them, no uniform register and no tag; it waits for nothing outside the core. -/
def WillWrite (s : State) (e : Pend) (T : Mask) (d n : Nat) (P : Nat → Nat → Word → Prop) : Prop :=
  VecResult s ({ s with grp := s.grp.land e } : State) T d n P ∧
  ChangesOnly [.vec] s { s with grp := s.grp.land e } ∧ e.tags = [] ∧ e.ext = false ∧
  ∀ k, k ∈ e.vkeys ↔ ∃ L i, L < 32 ∧ inM T L = true ∧ i < n ∧ k = s.vkey L (d + i)

/-- A counted operation whose registers arrive later: with a lane taking part it issues and will write its result; with none
nothing changes. -/
def IssuesResult (s u : State) (d n : Nat) (P : Nat → Nat → Word → Prop) : Prop :=
  if s.part = 0 then u.grp.pend = s.grp.pend ∧ u.grp.flags = s.grp.flags
  else ∃ e, Issues s u true e ∧ WillWrite s e s.part d n P

/-- Conversions and special functions that do not read FMT.RM (R113, R114, R118, R120): a result of 64 bits, or of 32. -/
inductive Exact : Instr → List Opnd → VReg → Nat → (State → Nat → Nat × FFlags) → Prop
  | rcp d a : Exact (.rcp d a) [.v a 1] d 1 fun s L => specialF .rcp (s.daz (s.rv L a))
  | rsq d a : Exact (.rsq d a) [.v a 1] d 1 fun s L => specialF .rsq (s.daz (s.rv L a))
  | sqrt d a : Exact (.sqrt d a) [.v a 1] d 1 fun s L => specialF .sqrt (s.daz (s.rv L a))
  | ex2 d a : Exact (.ex2 d a) [.v a 1] d 1 fun s L => specialF .ex2 (s.daz (s.rv L a))
  | lg2 d a : Exact (.lg2 d a) [.v a 1] d 1 fun s L => specialF .lg2 (s.daz (s.rv L a))
  | sin d a : Exact (.sin d a) [.v a 1] d 1 fun s L => specialF .sin (s.daz (s.rv L a))
  | cos d a : Exact (.cos d a) [.v a 1] d 1 fun s L => specialF .cos (s.daz (s.rv L a))
  | tanh d a : Exact (.tanh d a) [.v a 1] d 1 fun s L => specialF .tanh (s.daz (s.rv L a))
  | fdiv d a b : Exact (.fdiv d a b) [.v a 1, .v b 1] d 1 fun s L => divF (s.daz (s.rv L a)) (s.daz (s.rv L b))
  | cvtdF64 d a : Exact (.cvtdF64 d a) [.v a 1] d 2 fun s L => ((nearest f64 (val32 s (s.rv L a), false)).1, 0)
  | unpk d a k e : Exact (.unpk d a k e) [.v a 1] d 1 fun s L =>
      ((nearest f32 (unpackVal s.slot.fmt k e (s.rv L a).toNat, false)).1, 0)

/-- The value of an integer source and the limits of an integer target by type code (R117). -/
def sourceInt (s : State) (L a t : Nat) : Val :=
  intVal (cvtInt t (if t / 2 = 1 then (s.rv2 L a).toNat else (s.rv L a).toNat))
def words (t : Nat) : Nat := if t / 2 = 1 then 2 else 1
def toInteger (m : Rnd) (t : Nat) (x : Val) : Nat × FFlags :=
  ((wrap64 (roundInt (intLo (cvtSigned t) (cvtWidth t)) (intHi (cvtSigned t) (cvtWidth t)) m x).1).toNat,
    (roundInt (intLo (cvtSigned t) (cvtWidth t)) (intHi (cvtSigned t) (cvtWidth t)) m x).2)

/-- n elements of w bits, packed from bit 0, with the flags of all of them (R119). -/
def Packs (w n : Nat) (f : Nat → Nat × FFlags) (x : Nat × FFlags) : Prop :=
  x.1 < 2 ^ (w * n) ∧ (∀ k, k < n → x.1 / 2 ^ (w * k) % 2 ^ w = (f k).1) ∧
  ∀ j, j < 5 → (x.2.getLsbD j = true ↔ ∃ k, k < n ∧ (f k).2.getLsbD j = true)

/-- Conversions that read FMT.RM, whose mode is m (R117-R121). -/
inductive Rounded (m : Rnd) : Instr → List Opnd → VReg → Nat → (State → Nat → Nat × FFlags → Prop) → Prop
  | cvtf d a t : Rounded m (.cvtf d a t) [.v a (words t)] d 1 fun s L x => x = roundFp f32 m false (sourceInt s L a t)
  | cvti d a t : Rounded m (.cvti d a t) [.v a 1] d (words t) fun s L x => x = toInteger m t (val32 s (s.rv L a))
  | cvtdF32 d a : Rounded m (.cvtdF32 d a) [.v a 2] d 1 fun s L x => x = roundFp f32 m false (f64.val (s.rv2 L a).toNat)
  | cvtdfI d a t : Rounded m (.cvtdfI d a t) [.v a 2] d (words t) fun s L x => x = toInteger m t (f64.val (s.rv2 L a).toNat)
  | cvtdfF d a t : Rounded m (.cvtdfF d a t) [.v a (words t)] d 2 fun s L x => x = roundFp f64 m false (sourceInt s L a t)
  | cvth2 d a b : Rounded m (.cvth2 d a b) [.v a 1, .v b 1] d 1 fun s L x =>
      Packs 16 2 (fun k => roundFp s.hk m false (val32 s (s.rv L (if k = 0 then a.val else b.val)))) x
  | cvtb4 d a : Rounded m (.cvtb4 d a) (eachV a 4) d 1 fun s L x =>
      Packs 8 4 (fun k => toNarrow (fmtNF s.slot.fmt) m (fmtSAT s.slot.fmt) (fmtSEXP s.slot.fmt) (val32 s (s.rv L (a.val + k)))) x
  | cvtb4Q d a : Rounded m (.cvtb4Q d a) (eachV a 8) d 1 fun s L x =>
      Packs 4 8 (fun k => toNibble (fmtI4S s.slot.fmt) m (fmtSEXP s.slot.fmt) (val32 s (s.rv L (a.val + k)))) x
  | qnt d a : Rounded m (.qnt d a) [.v a 1] d 1 fun s L x => x = quantise m (fmtSEXP s.slot.fmt) (val32 s (s.rv L a))

/-- The instructions that read FMT.RM (R103). -/
inductive ReadsRM : Instr → Prop
  | frnd d a : ReadsRM (.frnd d a)
  | frndD d a : ReadsRM (.frndD d a)
  | counted m i rd d n P : Rounded m i rd d n P → ReadsRM i

/-- Word i of a result of up to 64 bits. -/
def wordAt (x i : Nat) : Word := BitVec.ofNat 32 (x / 2 ^ (32 * i))

end Sys2Proof.Claims

open Sys2Proof Sys2Proof.Machine Sys2Proof.Claims

/-- R106, R108, R111, R112: an arithmetic member rounds its exact value once, writes the encoding in the lanes taking part, ORs
their flags into FPSTAT, and changes nothing else. -/
def Sys2Proof.Claims.FloatArithmeticRoundsOnce : Prop :=
  (∀ i rd d r, FloatWord i rd d r → ∀ s : State, s.blocked s.part rd [.v d 1] = none →
    Completes i s fun u => ChangesOnly [.vec, .fpstat] (s.consume s.part rd) u ∧
      VecResult s u s.part d 1 (fun L _ x => x = wordAt (r s L).1 0) ∧ FlagsRaised s u s.part fun L => (r s L).2) ∧
  (∀ i rd d r, FloatPair i rd d r → ∀ s : State, s.blocked s.part rd [.v d 2] = none →
    Completes i s fun u => ChangesOnly [.vec, .fpstat] (s.consume s.part rd) u ∧
      VecResult s u s.part d 2 (fun L i x => x = wordAt (r s L).1 i) ∧ FlagsRaised s u s.part fun L => (r s L).2)

/-- R93, R107, R109, R110, R111, R112: selections, sign changes, `movh` and comparisons raise no flag. -/
def Sys2Proof.Claims.FloatSelectionsAndComparisonsRaiseNothing : Prop :=
  (∀ i rd d n P, FloatMove i rd d n P → ∀ s : State, s.blocked s.part rd [.v d n] = none →
    Completes i s fun u => ChangesOnly [.vec, .fpstat] (s.consume s.part rd) u ∧ u.slot.fpstat = s.slot.fpstat ∧
      VecResult s u s.part d n (P s)) ∧
  ∀ i rd p P, FloatCompare i rd p P → ∀ s : State, s.blocked s.part rd [.p p] = none →
    Completes i s fun u => ChangesOnly [.pred] (s.consume s.part rd) u ∧ PredResult s u s.part p (P s)

/-- R110, R103: `frnd` gives the integral value that FMT.RM chooses and raises nothing; with a reserved RM every instruction that
reads RM traps ILLEGAL_OPERAND, whatever lanes take part. -/
def Sys2Proof.Claims.RoundToIntegralReadsTheMode : Prop :=
  (∀ (d a : VReg) (s : State) m, fmtRM s.slot.fmt = some m → s.blocked s.part [.v a 1] [.v d 1] = none →
    Completes (.frnd d a) s fun u => ChangesOnly [.vec] (s.consume s.part [.v a 1]) u ∧
      VecResult s u s.part d 1 fun L _ x => x = wordAt (rndF f32 m (s.daz (s.rv L a))) 0) ∧
  (∀ (d a : VReg) (s : State) m, fmtRM s.slot.fmt = some m → s.blocked s.part [.v a 2] [.v d 2] = none →
    Completes (.frndD d a) s fun u => ChangesOnly [.vec] (s.consume s.part [.v a 2]) u ∧
      VecResult s u s.part d 2 fun L i x => x = wordAt (rndF f64 m (s.rv2 L a).toNat) i) ∧
  ∀ i s, ReadsRM i → fmtRM s.slot.fmt = none → exec i s = .next (s.raise
    { cause := cILLEGAL_OPERAND, mask := s.slot.act, path := s.wholePath, info0 := s.wordInfo })

/-- The parts above together: float arithmetic, selections and comparisons, and rounding to an integral value. -/
def Obligations.FloatMembersGiveTheirResult : Prop := FloatArithmeticRoundsOnce ∧ FloatSelectionsAndComparisonsRaiseNothing ∧ RoundToIntegralReadsTheMode

/-- R113, R114, R117-R121, R26, R28: a conversion or special function issues one operation counted by SETA, raises its flags,
and will write its result at completion; with no lane taking part it only goes on. -/
def Obligations.ConversionsIssueTheirResult : Prop :=
  (∀ i rd d n r, Exact i rd d n r → ∀ s : State, s.blocked s.part rd [.v d n] = none → s.flagFull true = false →
    Completes i s fun u => ChangesOnly [.counted, .fpstat] (s.consume s.part rd) u ∧
      IssuesResult s u d n (fun L i x => x = wordAt (r s L).1 i) ∧ FlagsRaised s u s.part fun L => (r s L).2) ∧
  ∀ m i rd d n P, Rounded m i rd d n P → ∀ s : State, fmtRM s.slot.fmt = some m → s.blocked s.part rd [.v d n] = none →
    s.flagFull true = false →
    Completes i s fun u => ChangesOnly [.counted, .fpstat] (s.consume s.part rd) u ∧
      ∃ r : Nat → Nat × FFlags, (∀ L, L < 32 → inM s.part L = true → P s L (r L)) ∧
        IssuesResult s u d n (fun L i x => x = wordAt (r L).1 i) ∧ FlagsRaised s u s.part fun L => (r L).2

namespace Sys2Proof.Claims

open Sys2Proof Sys2Proof.Machine

/-! ## Group-wide operations (R189-R194) -/

/-- The operands of the lanes of T in increasing lane order. -/
def operandsOf (s : State) (a : VReg) : List Word := ((List.range 32).filter fun L => inM s.part L).map fun L => s.rv L a

/-- Two lane selections: the operand of a lane of T, or the lane's own (R191). -/
def Exchanged (s : State) (a : VReg) (L : Nat) (n : Int) (x : Word) (valid : Bool) : Prop :=
  if 0 ≤ n ∧ n ≤ 31 ∧ inM s.part n.toNat = true then x = s.rv n.toNat a ∧ valid = true
  else x = s.rv L a ∧ valid = false

/-- Members with one operand register or predicate whose result is a register word and VALID (R191, R192, R193), with the check
of MM. -/
inductive GroupWord : Instr → List Opnd → VReg → (State → Nat → Word → Bool → Prop) → Prop
  | lxgAt d a b : GroupWord (.lxgAt d a b) [.v a 1, .v b 1] d fun s L => Exchanged s a L (s.rv L b).toNat
  | lxgBack d a b : GroupWord (.lxgBack d a b) [.v a 1, .v b 1] d fun s L => Exchanged s a L (L - (s.rv L b).toNat)
  | lxgFwd d a b : GroupWord (.lxgFwd d a b) [.v a 1, .v b 1] d fun s L => Exchanged s a L (L + (s.rv L b).toNat)
  | lxgFlip d a b : GroupWord (.lxgFlip d a b) [.v a 1, .v b 1] d fun s L => Exchanged s a L (L ^^^ (s.rv L b).toNat : Nat)
  | gpredMask d x a : GroupWord (.gpredMask d x a) [.p a] d fun s _ r v => v = true ∧
      ∀ j, j < 32 → r.getLsbD j = (inM s.part j && xor (s.rp j a) x)
  | gpeerEq d a : GroupWord (.gpeerEq d a) [.v a 1] d fun s L r v => v = true ∧
      ∀ j, j < 32 → r.getLsbD j = (inM s.part j && (s.rv j a == s.rv L a))
  | gpeerUni d a : GroupWord (.gpeerUni d a) [.v a 1] d fun s L r v =>
      ((∀ j, j < 32 → inM s.part j = true → s.rv j a = s.rv L a) → r = s.part ∧ v = true) ∧
      ((¬ ∀ j, j < 32 → inM s.part j = true → s.rv j a = s.rv L a) → r = 0 ∧ v = false)
  | gredAdd d a : GroupWord (.gredAdd d a) [.v a 1] d fun s _ r v => v = true ∧ r = (operandsOf s a).sum
  | gredAnd d a : GroupWord (.gredAnd d a) [.v a 1] d fun s _ r v => v = true ∧
      ∀ j, j < 32 → (r.getLsbD j = true ↔ ∀ L, L < 32 → inM s.part L = true → (s.rv L a).getLsbD j = true)
  | gredOr d a : GroupWord (.gredOr d a) [.v a 1] d fun s _ r v => v = true ∧
      ∀ j, j < 32 → (r.getLsbD j = true ↔ ∃ L, L < 32 ∧ inM s.part L = true ∧ (s.rv L a).getLsbD j = true)
  | minSigned d a : GroupWord (.gredMin d a 0) [.v a 1] d fun s _ r v => v = true ∧ r ∈ operandsOf s a ∧
      ∀ x, x ∈ operandsOf s a → r.toInt ≤ x.toInt
  | minUnsigned d a : GroupWord (.gredMin d a 1) [.v a 1] d fun s _ r v => v = true ∧ r ∈ operandsOf s a ∧
      ∀ x, x ∈ operandsOf s a → r.toNat ≤ x.toNat
  | minFloat d a : GroupWord (.gredMin d a 2) [.v a 1] d fun s _ r v => v = true ∧
      r = wordAt (canonNaN (extreme (minF f32) ((operandsOf s a).map s.daz))) 0
  | maxSigned d a : GroupWord (.gredMax d a 0) [.v a 1] d fun s _ r v => v = true ∧ r ∈ operandsOf s a ∧
      ∀ x, x ∈ operandsOf s a → x.toInt ≤ r.toInt
  | maxUnsigned d a : GroupWord (.gredMax d a 1) [.v a 1] d fun s _ r v => v = true ∧ r ∈ operandsOf s a ∧
      ∀ x, x ∈ operandsOf s a → x.toNat ≤ r.toNat
  | maxFloat d a : GroupWord (.gredMax d a 2) [.v a 1] d fun s _ r v => v = true ∧
      r = wordAt (canonNaN (extreme (maxF f32) ((operandsOf s a).map s.daz))) 0
  | gscanAdd d a : GroupWord (.gscanAdd d a) [.v a 1] d fun s L r v => v = true ∧
      r = ((((List.range (L + 1)).filter fun j => inM s.part j).map fun j => s.rv j a)).sum
  | gscanAddExcl d a : GroupWord (.gscanAddExcl d a) [.v a 1] d fun s L r v => v = true ∧
      r = ((((List.range L).filter fun j => inM s.part j).map fun j => s.rv j a)).sum

/-- Polls into a predicate (R192). -/
inductive GroupPoll : Instr → List Opnd → PReg → (State → Bool → Prop) → Prop
  | any n x a : GroupPoll (.gpredAny n x a) [.p a] n fun s r =>
      r = true ↔ ∃ j, j < 32 ∧ inM s.part j = true ∧ xor (s.rp j a) x = true
  | all n x a : GroupPoll (.gpredAll n x a) [.p a] n fun s r =>
      r = true ↔ ∀ j, j < 32 → inM s.part j = true → xor (s.rp j a) x = true

/-- Floating sums: the operands of all lanes, -0.0 outside T (R83, R193). -/
def addendsOf (s : State) (a : VReg) : List Nat :=
  (List.range 32).map fun L => if inM s.part L then s.daz (s.rv L a) else 0x80000000

/-- Members that round sums: the result of a lane and the flags of every step (R83, R193). -/
inductive GroupSum : Instr → VReg → VReg → (State → Nat → Nat) → (State → FFlags) → Prop
  | gredFadd d a : GroupSum (.gredFadd d a) d a (fun s _ => (treeSum (addendsOf s a)).1) fun s => (treeSum (addendsOf s a)).2
  | gscanFadd d a : GroupSum (.gscanFadd d a) d a (fun s L => (nth (0, 0) (scanSums (addendsOf s a)) L).1)
      fun s => (nth (0, 0) (scanSums (addendsOf s a)) 31).2
  | gscanFaddExcl d a : GroupSum (.gscanFaddExcl d a) d a
      (fun s L => if L = 0 then 0x80000000 else (nth (0, 0) (scanSums (addendsOf s a)) (L - 1)).1)
      fun s => (nth (0, 0) (scanSums (addendsOf s a)) 30).2

/-- The codes of `sysv` and `vmask` (R194). -/
inductive LaneCode : Instr → VReg → (State → Nat → Word → Prop) → Prop
  | lane d : LaneCode (.sysv d 0) d fun _ L x => x.toNat = L
  | below d : LaneCode (.sysv d 1) d fun _ L x => ∀ j, j < 32 → x.getLsbD j = decide (j < L)
  | thru d : LaneCode (.sysv d 2) d fun _ L x => ∀ j, j < 32 → x.getLsbD j = decide (j ≤ L)
  | above d : LaneCode (.sysv d 3) d fun _ L x => ∀ j, j < 32 → x.getLsbD j = decide (L < j)
  | from d : LaneCode (.sysv d 4) d fun _ L x => ∀ j, j < 32 → x.getLsbD j = decide (L ≤ j)
  | path d : LaneCode (.sysv d 5) d fun s L x =>
      x.toNat = if s.inRegion then if inM s.grp.meld.bmask L then 2 else 1 else 0
  | take d : LaneCode (.vmask d 0) d fun s _ x => x = s.part
  | slot d : LaneCode (.vmask d 1) d fun s _ x => x = s.slot.act
  | live d : LaneCode (.vmask d 2) d fun s _ x => x = s.grp.live
  | patha d : LaneCode (.vmask d 3) d fun s _ x =>
      x = if s.inRegion then s.slot.act &&& ~~~ s.grp.meld.bmask else s.slot.act
  | pathb d : LaneCode (.vmask d 4) d fun s _ x => x = if s.inRegion then s.grp.meld.bmask else 0
  | mm d : LaneCode (.vmask d 5) d fun s _ x => x = s.grp.mm

/-- The check of MM passes: no member has exited and every lane taking part is a member (R190). -/
def MembersOk (s : State) : Prop := s.part = 0 ∨ ∀ L, L < 32 →
  (inM s.grp.mm L = true → inM s.grp.live L = true) ∧ (inM s.part L = true → inM s.grp.mm L = true)

/-- The state after what an operation in flight writes has landed. -/
def landed (s : State) (e : Pend) : State := { s with grp := s.grp.land e }

/-- A group operation issues: at completion it writes a word that P accepts with VALID to every lane taking part and nothing else;
with none taking part it changes nothing (R189). -/
def IssuesGroup (s u : State) (d : VReg) (P : Nat → Word → Bool → Prop) : Prop :=
  if s.part = 0 then u.grp.pend = s.grp.pend ∧ u.grp.flags = s.grp.flags
  else ∃ e, Issues s u true e ∧ e.ext = false ∧ ChangesOnly [.vec, .pred] s (landed s e) ∧
    ∃ r : Nat → Word × Bool, (∀ L, L < 32 → inM s.part L = true → P L (r L).1 (r L).2) ∧
      VecResult s (landed s e) s.part d 1 (fun L _ x => x = (r L).1) ∧
      (∀ L, L < 32 → (landed s e).predBit 7 L = if inM s.part L = true then (r L).2 else s.predBit 7 L) ∧
      ∀ q L, L < 32 → q ≠ 7 → (landed s e).predBit q L = s.predBit q L

/-- A poll issues: at completion the lanes taking part hold the result in predicate n, and VALID is 1 (R192). -/
def IssuesPoll (s u : State) (n : PReg) (P : Bool → Prop) : Prop :=
  if s.part = 0 then u.grp.pend = s.grp.pend ∧ u.grp.flags = s.grp.flags
  else ∃ e b, Issues s u true e ∧ e.ext = false ∧ P b ∧ ChangesOnly [.vec, .pred] s (landed s e) ∧
    (∀ key, (landed s e).vec key = s.vec key) ∧
    (∀ L, L < 32 → inM s.part L = true → (landed s e).predBit 7 L = true ∧
      (s.pname L n ≠ 7 → (landed s e).predBit (s.pname L n) L = b)) ∧
    ∀ q L, L < 32 → ¬ (inM s.part L = true ∧ (q = 7 ∨ q = s.pname L n)) → (landed s e).predBit q L = s.predBit q L

end Sys2Proof.Claims

open Sys2Proof Sys2Proof.Machine Sys2Proof.Claims

/-- R189-R193: a group-wide member passes the check of MM, issues one operation counted by SETA, and will write its result and
VALID to the lanes taking part; the floating sums OR the flags of every step into FPSTAT. -/
def Obligations.GroupOperationsIssueTheirResult : Prop :=
  (∀ i rd d P, GroupWord i rd d P → ∀ s : State, MembersOk s → s.blocked s.part rd [.p 7, .v d 1] = none → s.flagFull true = false →
    Completes i s fun u => ChangesOnly [.counted] (s.consume s.part rd) u ∧ IssuesGroup s u d (P s)) ∧
  (∀ i rd n P, GroupPoll i rd n P → ∀ s : State, MembersOk s → s.blocked s.part rd [.p 7, .p n] = none → s.flagFull true = false →
    Completes i s fun u => ChangesOnly [.counted] (s.consume s.part rd) u ∧ IssuesPoll s u n (P s)) ∧
  ∀ i d a r f, GroupSum i d a r f → ∀ s : State, MembersOk s → s.blocked s.part [.v a 1] [.p 7, .v d 1] = none →
    s.flagFull true = false →
    Completes i s fun u => ChangesOnly [.counted, .fpstat] (s.consume s.part [.v a 1]) u ∧
      IssuesGroup s u d (fun L x v => v = true ∧ x = wordAt (r s L) 0) ∧ FlagsRaised s u s.part fun _ => f s

/-- R190: a member that checks MM traps MEMBER_MASK with the lanes, MM and the offending lanes, whatever else it would do. -/
def Obligations.MemberMaskTrapsFirst : Prop :=
  ∀ i s, ((∃ rd d P, GroupWord i rd d P) ∨ (∃ rd n P, GroupPoll i rd n P) ∨ ∃ d a r f, GroupSum i d a r f) → ¬ MembersOk s →
    exec i s = .next (s.raise
      { cause := cMEMBER_MASK, mask := s.part, path := s.wholePath, info0 := s.grp.mm.setWidth 64
        info1 := ((s.grp.mm &&& ~~~ s.grp.live) ||| (s.part &&& ~~~ s.grp.mm)).setWidth 64 })

/-- R194: `sysv` and `vmask` issue the value of each code with VALID, whatever MM holds; A and M must be 0, and codes 6 to 127 are
illegal. -/
def Obligations.LaneCodesIssueTheirValue : Prop :=
  (∀ i d P, LaneCode i d P → ∀ s : State, s.blocked s.part [] [.p 7, .v d 1] = none → s.flagFull true = false →
    Completes i s fun u => ChangesOnly [.counted] s u ∧ IssuesGroup s u d fun L x v => v = true ∧ P s L x) ∧
  ∀ w fn, w / 2 ^ 28 = 5 → w / 2 ^ 22 % 2 ^ 6 = fn → fn = 0x25 ∨ fn = 0x26 →
    (w / 2 ^ 8 % 2 ^ 7 ≠ 0 ∨ w % 2 = 1 ∨ 6 ≤ w / 2 % 2 ^ 7 → decode w = .error .illegalInstruction) ∧
    (w / 2 ^ 8 % 2 ^ 7 = 0 → w % 2 = 0 → w / 2 % 2 ^ 7 < 6 → ∃ d : VReg, d.val = w / 2 ^ 15 % 2 ^ 7 ∧
      (fn = 0x25 → decode w = .ok (.sysv d (Fin.ofNat 128 (w / 2)))) ∧ (fn = 0x26 → decode w = .ok (.vmask d (Fin.ofNat 128 (w / 2)))))

namespace Sys2Proof.Claims

open Sys2Proof Sys2Proof.Machine

/-! ## Uniform instructions (R96-R102) -/

/-- A relation between two operand double words and the result. -/
abbrev UOp2 := DWord → DWord → DWord → Prop

def Smulh : UOp2 := fun a b x => x.toInt = (a.toInt * b.toInt) / 2 ^ 64
def Smin : UOp2 := fun a b x => x.toInt = min a.toInt b.toInt
def Smax : UOp2 := fun a b x => x.toInt = max a.toInt b.toInt
def Sminn : UOp2 := fun a b x => x.toNat = min a.toNat b.toNat
def Smaxn : UOp2 := fun a b x => x.toNat = max a.toNat b.toNat
def Sshl : UOp2 := fun a b x => ∀ i, i < 64 → x.getLsbD i = (decide (b.toNat ≤ i) && a.getLsbD (i - b.toNat))
def Sshr : UOp2 := fun a b x => ∀ i, i < 64 → x.getLsbD i = a.getLsbD (i + b.toNat)
def Ssar : UOp2 := fun a b x => ∀ i, i < 64 → x.getLsbD i = a.getLsbD (min (i + b.toNat) 63)
def Saddw : UOp2 := fun a b x => x.toInt = (a.extractLsb' 0 32 + b.extractLsb' 0 32).toInt

/-- The two-operand members of the UR class (R97). -/
inductive UniOp2 : (SReg → SReg → SReg → QGuard → Instr) → UOp2 → Prop
  | sadd : UniOp2 .sadd fun a b x => x = a + b
  | ssub : UniOp2 .ssub fun a b x => x = a - b
  | smul : UniOp2 .smul fun a b x => x = a * b
  | smulh : UniOp2 .smulh Smulh
  | smin : UniOp2 .smin Smin
  | smax : UniOp2 .smax Smax
  | sminn : UniOp2 .sminn Sminn
  | smaxn : UniOp2 .smaxn Smaxn
  | sand : UniOp2 .sand fun a b x => x = a &&& b
  | sor : UniOp2 .sor fun a b x => x = a ||| b
  | sxor : UniOp2 .sxor fun a b x => x = a ^^^ b
  | sshl : UniOp2 .sshl Sshl
  | sshr : UniOp2 .sshr Sshr
  | ssar : UniOp2 .ssar Ssar
  | saddw : UniOp2 .saddw Saddw

/-- The UI forms with the extension of their immediate (R97, R46). -/
inductive UniImm : (SReg → SReg → BitVec 10 → Instr) → (BitVec 10 → DWord) → UOp2 → Prop
  | sadd : UniImm .saddImm (·.signExtend 64) fun a b x => x = a + b
  | ssub : UniImm .ssubImm (·.signExtend 64) fun a b x => x = a - b
  | smul : UniImm .smulImm (·.signExtend 64) fun a b x => x = a * b
  | smin : UniImm .sminImm (·.signExtend 64) Smin
  | smax : UniImm .smaxImm (·.signExtend 64) Smax
  | sminn : UniImm .sminnImm (·.setWidth 64) Sminn
  | smaxn : UniImm .smaxnImm (·.setWidth 64) Smaxn
  | sand : UniImm .sandImm (·.setWidth 64) fun a b x => x = a &&& b
  | sor : UniImm .sorImm (·.setWidth 64) fun a b x => x = a ||| b
  | sxor : UniImm .sxorImm (·.setWidth 64) fun a b x => x = a ^^^ b
  | sshl : UniImm .sshlImm (·.setWidth 64) Sshl
  | sshr : UniImm .sshrImm (·.setWidth 64) Sshr
  | ssar : UniImm .ssarImm (·.setWidth 64) Ssar
  | saddw : UniImm .saddwImm (·.signExtend 64) Saddw

/-- The guarded members with one operand or none that write a uniform register (R99, R101). -/
inductive UniOne : (QGuard → Instr) → List Opnd → SReg → (State → DWord → Prop) → Prop
  | smov d a : UniOne (.smov d a) [.s a 1] d fun s x => x = s.rs a
  | spopc d a : UniOne (.spopc d a) [.s a 1] d fun s x => x.toNat = countTo 64 fun i => (s.rs a).getLsbD i
  | sclz d a : UniOne (.sclz d a) [.s a 1] d fun s x => x.toNat ≤ 64 ∧
      (∀ i, i < x.toNat → (s.rs a).getLsbD (63 - i) = false) ∧ (x.toNat < 64 → (s.rs a).getLsbD (63 - x.toNat) = true)
  | q2s d : UniOne (.q2s d) [] d fun s x => ∀ i, i < 64 → x.getLsbD i = (decide (i < 8) && s.rq i)

/-- Members without a guard that write a uniform register (R98, R102). -/
inductive UniFree : Instr → List Opnd → SReg → (State → DWord → Prop) → Prop
  | ssel d a b q n : UniFree (.ssel d a b q n) [.s a 1, .s b 1] d fun s x => x = if xor (s.rq q) n then s.rs a else s.rs b
  | smovi d h i : UniFree (.smovi d h i) [] d fun _ x => x.toNat = i.toNat * 2 ^ (16 * h.val)
  | smovk d h i : UniFree (.smovk d h i) [.s d 1] d fun s x => ∀ j, j < 4 →
      x.extractLsb' (16 * j) 16 = if j = h.val then i else (s.rs d).extractLsb' (16 * j) 16
  | smovsx d i : UniFree (.smovsx d i) [] d fun _ x => x.toInt = i.toInt
  | sadr d i : UniFree (.sadr d i) [] d fun s x => x = s.clauseAddr + 32 * i.signExtend 64

/-- The conditions of R38 between two double words. -/
def scondHolds (c : SCond) (a b : DWord) : Prop :=
  match c with
  | .eq => a = b
  | .ne => a ≠ b
  | .lt => BitVec.slt a b = true
  | .le => BitVec.sle a b = true
  | .gt => BitVec.slt b a = true
  | .ge => BitVec.sle b a = true
  | .lo => BitVec.ult a b = true
  | .hs => BitVec.ule b a = true

/-- Members that write a uniform predicate, under a guard (R98, R101). -/
inductive UniPred : (QGuard → Instr) → List Opnd → QReg → (State → Prop) → Prop
  | ssetp c q a b : UniPred (.ssetp c q a b) [.s a 1, .s b 1] q fun s => scondHolds c (s.rs a) (s.rs b)
  | and d x a y b : UniPred (.qlop d 0 x a y b) [] d fun s => xor (s.rq a) x = true ∧ xor (s.rq b) y = true
  | or d x a y b : UniPred (.qlop d 1 x a y b) [] d fun s => xor (s.rq a) x = true ∨ xor (s.rq b) y = true
  | xor d x a y b : UniPred (.qlop d 2 x a y b) [] d fun s => xor (s.rq a) x ≠ xor (s.rq b) y
  | mov d x a y b : UniPred (.qlop d 3 x a y b) [] d fun s => xor (s.rq a) x = true

/-- Uniform predicate q holds the truth of p, and the others are as they were. -/
def QResult (s u : State) (q : Nat) (p : Prop) : Prop := (u.rq q = true ↔ p) ∧ ∀ r, r < 8 → r ≠ q → u.rq r = s.rq r

/-- A guarded instruction (R33). -/
inductive Guarded : (QGuard → Instr) → Prop
  | two c P a b d : UniOp2 c P → Guarded (c d a b)
  | one c rd d P : UniOne c rd d P → Guarded c
  | pred c rd q P : UniPred c rd q P → Guarded c
  | s2q a : Guarded (.s2q a)
  | sgetv d a x : Guarded (.sgetv d a x)
  | bra o : Guarded fun g => .bra g o
  | call o : Guarded fun g => .call g o
  | ret : Guarded fun g => .ret g
  | brx x : Guarded fun g => .brx g x
  | loop c o : Guarded fun g => .loop g c o

/-- The guard holds: there is none, or q[QG] XOR QN is 1 (R33). -/
def GuardHolds (s : State) (g : QGuard) : Prop :=
  match g with
  | .always => True
  | .on q n => xor (s.rq q) n = true

end Sys2Proof.Claims

open Sys2Proof Sys2Proof.Machine Sys2Proof.Claims

/-- R97, R98, R99, R101, R102: a uniform member whose guard holds writes its result in one register and changes nothing else. -/
def Sys2Proof.Claims.UniformMembersWriteTheirResult : Prop :=
  (∀ c P, UniOp2 c P → ∀ (d a b : SReg) (g : QGuard) (s : State), GuardHolds s g → s.blocked 1 [.s a 1, .s b 1] [.s d 1] = none →
    Completes (c d a b g) s fun u => ChangesOnly [.uni] s u ∧ ∃ x, P (s.rs a) (s.rs b) x ∧ UniResult s u d x) ∧
  (∀ c f P, UniImm c f P → ∀ (d a : SReg) (i : BitVec 10) (s : State), s.blocked 1 [.s a 1] [.s d 1] = none →
    Completes (c d a i) s fun u => ChangesOnly [.uni] s u ∧ ∃ x, P (s.rs a) (f i) x ∧ UniResult s u d x) ∧
  (∀ c rd d P, UniOne c rd d P → ∀ (g : QGuard) (s : State), GuardHolds s g → s.blocked 1 rd [.s d 1] = none →
    Completes (c g) s fun u => ChangesOnly [.uni] s u ∧ ∃ x, P s x ∧ UniResult s u d x) ∧
  ∀ i rd d P, UniFree i rd d P → ∀ s : State, s.blocked 1 rd [.s d 1] = none →
    Completes i s fun u => ChangesOnly [.uni] s u ∧ ∃ x, P s x ∧ UniResult s u d x

/-- R98, R101: members that write uniform predicates; `s2q` writes all eight. -/
def Sys2Proof.Claims.UniformPredicateMembersWriteTheirBit : Prop :=
  (∀ c rd q P, UniPred c rd q P → ∀ (g : QGuard) (s : State), GuardHolds s g → s.blocked 1 rd [] = none →
    Completes (c g) s fun u => ChangesOnly [.upred] s u ∧ QResult s u q (P s)) ∧
  (∀ c q (a : SReg) (i : BitVec 10) (s : State), s.blocked 1 [.s a 1] [] = none →
    Completes (.ssetpImm c q a i) s fun u => ChangesOnly [.upred] s u ∧
      QResult s u q (scondHolds c (s.rs a) (i.signExtend 64))) ∧
  ∀ (a : SReg) (g : QGuard) (s : State), GuardHolds s g → s.blocked 1 [.s a 1] [] = none →
    Completes (.s2q a g) s fun u => ChangesOnly [.upred] s u ∧ ∀ i, i < 8 → u.rq i = (s.rs a).getLsbD i

/-- The parts above together: uniform members that write a uniform register or predicate. -/
def Obligations.UniformMembersWriteTheirRegister : Prop := UniformMembersWriteTheirResult ∧ UniformPredicateMembersWriteTheirBit

/-- R33, R96, R175: an instruction whose guard fails writes nothing and goes on. -/
def Obligations.FailedGuardHasNoEffect : Prop :=
  ∀ c, Guarded c → ∀ (g : QGuard) (s : State), ¬ GuardHolds s g → exec (c g) s = .next s.advance

namespace Sys2Proof.Claims

open Sys2Proof Sys2Proof.Machine

/-! ## Control flow (R175-R182) -/

/-- The clause n clauses away from the one in execution (R34). -/
def clauseAt (s : State) (n : DWord) : DWord := s.clauseAddr + 32 * n

/-- A trap that depends on no lane and leaves the instruction without effect: the whole active mask, the word (R188). -/
def TrapsWhole (i : Instr) (s : State) (c : Cause) (info1 : DWord) : Prop :=
  exec i s = .next (s.raise { cause := c, mask := s.slot.act, path := s.wholePath, info0 := s.wordInfo, info1 := info1 })

/-- The lanes m and TRAPPATH p of a trap for the lanes bad: in a region path A's lanes first (R188). -/
def TakenFor (s : State) (bad m : Mask) (p : BitVec 2) : Prop :=
  if s.inRegion = false then m = bad ∧ p = 0
  else if s.meldField = 2 then m = bad ∧ p = 1
  else if s.meldField = 3 then m = bad ∧ p = 2
  else if bad &&& ~~~ s.grp.meld.bmask = 0 then m = bad ∧ p = 2
  else m = bad &&& ~~~ s.grp.meld.bmask ∧ p = 1

/-- A trap by instruction for the lanes ch: path A's lanes first; with path B's left over, `rft` executes the instruction again for
them, and otherwise it goes on behind it. -/
def TrapsPathByPath (i : Instr) (s : State) (ch : Mask) (c : Cause) (info0 info1 : DWord) : Prop :=
  ∃ m q, TakenFor s ch m q ∧
    (m = ch → exec i s = .next (s.raise
      { cause := c, mask := m, path := q, info0 := info0, info1 := info1, next := true })) ∧
    (m ≠ ch → exec i s = .next ((s.onSlot fun x => { x with micro := 1 }).raise
      { cause := c, mask := m, path := q, info0 := info0, info1 := info1, next := false }) ∧
      ∃ n p, TakenFor s (ch &&& s.grp.meld.bmask) n p ∧ n = ch &&& ~~~ m ∧
        exec i (s.onSlot fun x => { x with micro := 1 }) = .next (s.raise
          { cause := c, mask := n, path := p, info0 := info0, info1 := info1, next := true }))

/-- The lanes of T at which p[P] XOR N is 1. -/
def Chosen (s : State) (p : PReg) (n : Bool) (m : Mask) : Prop :=
  ∀ L, L < 32 → (inM m L = true ↔ inM s.part L = true ∧ xor (s.rp L p) n = true)

/-- Topmost in a stack that stands bottom first: l is lower ++ x :: upper and nothing in upper has the property. -/
def Topmost (p : Path → Prop) (l lower : List Path) (x : Path) (upper : List Path) : Prop :=
  l = lower ++ x :: upper ∧ p x ∧ ∀ y, y ∈ upper → ¬ p y

/-- A frame whose lanes contain those of m (R180). -/
def Encloses (m : Mask) (f : Path) : Prop := f.waiting = true ∧ m &&& ~~~ f.rjm = 0

/-- The frame at which the issuing slot arrives at a `rejoin` (R180). -/
def ArrivesAt (s : State) (f : Path) : Prop := Encloses s.slot.act f ∧ f.pcw = s.clauseAddr

/-- The slot k of u holds what the topmost path of a stack held, or is empty where the stack holds none (R151). -/
def FilledFrom (u : State) (k : Bool) (below l : List Path) : Prop :=
  (∀ lower x upper, Topmost (fun y => y.waiting = false) l lower x upper →
    u.grp.slot k = x.toSlot ∧ u.grp.stack = below ++ (lower ++ upper)) ∧
  ((∀ y, y ∈ l → y.waiting = true) → u.grp.slot k = {} ∧ u.grp.stack = below ++ l)

/-- The whole of what happens to a slot that moves to another instruction: its masks, FMT, FPSTAT and frame registers, the other
slot, the stack and the live lanes are kept. -/
def KeepsPath (s t : State) : Prop :=
  t.slot.act = s.slot.act ∧ t.slot.fmt = s.slot.fmt ∧ t.slot.fpstat = s.slot.fpstat ∧ t.slot.rjpc = s.slot.rjpc ∧
  t.slot.rjm = s.slot.rjm ∧ t.grp.slot (!s.k) = s.grp.slot (!s.k) ∧ t.grp.stack = s.grp.stack ∧ t.grp.live = s.grp.live ∧
  t.slot.wait = .none

end Sys2Proof.Claims

open Sys2Proof Sys2Proof.Machine Sys2Proof.Claims

/-- R22, R183, R186: within a clause a slot goes on four bytes further; where it leaves the clause for an address, regions and
table changes that it has due take effect; everything else is kept. -/
def Obligations.SlotsMoveAndKeepAllElse : Prop :=
  (∀ s : State, ChangesOnly [.paths] s s.advance ∧ KeepsPath s s.advance ∧ s.advance.slot.pc = s.nextPc) ∧
  (∀ s : State, s.slotIdx < s.lastIdx → s.advance.slot.due = s.slot.due ∧ s.advance.slot.clause = s.slot.clause ∧
    s.advance.grp.meld = s.grp.meld) ∧
  (∀ (s : State) (a : DWord), ChangesOnly [.paths] s (s.leave a) ∧ KeepsPath s (s.leave a) ∧ (s.leave a).slot.pc = a ∧
    (s.leave a).slot.clause = none ∧ (s.leave a).slot.due = {} ∧
    (s.leave a).grp.meld = (match s.slot.due.opens with
      | some b => if s.slot.act = 0 then if s.slot.due.closes then {} else s.grp.meld
          else { bmask := b &&& s.slot.act, active := true, slot := s.k }
      | none => if s.slot.due.closes then {} else s.grp.meld) ∧
    (s.slot.due.tables = [] → (s.leave a).grp.mapA = s.grp.mapA ∧ (s.leave a).grp.mapB = s.grp.mapB ∧
      (s.leave a).grp.mapPA = s.grp.mapPA ∧ (s.leave a).grp.mapPB = s.grp.mapPB) ∧
    ∀ x y r, s.slot.due.tables = [.install false false x y] →
      Sparse.get r (s.leave a).grp.mapA r = (if r = x then y else Sparse.get r s.grp.mapA r) ∧
      (s.leave a).grp.mapB = s.grp.mapB)

/-- R175, R176: uniform branches go to their target, `call` leaves the next clause in s63, `loop` counts its register down, and
an indirect target that names no clause traps MISALIGNED. -/
def Obligations.BranchesGoToTheirTarget : Prop :=
  (∀ (g : QGuard) o (s : State), GuardHolds s g → exec (.bra g o) s = .next (s.leave (clauseAt s (o.signExtend 64)))) ∧
  (∀ (g : QGuard) o (s : State), GuardHolds s g → s.blocked 1 [] [.s 63 1] = none →
    ∃ u, exec (.call g o) s = .next (u.leave (clauseAt s (o.signExtend 64))) ∧ ChangesOnly [.uni] s u ∧
      UniResult s u 63 (s.clauseAddr + 32)) ∧
  (∀ (g : QGuard) (s : State), GuardHolds s g → s.blocked 1 [.s 63 1] [] = none →
    (s.rs 63 &&& 31 = 0 → exec (.ret g) s = .next (s.leave (s.rs 63))) ∧
    (s.rs 63 &&& 31 ≠ 0 → TrapsWhole (.ret g) s cMISALIGNED (s.rs 63))) ∧
  (∀ (g : QGuard) (x : SReg) (s : State), GuardHolds s g → s.blocked 1 [.s x 1] [] = none →
    (s.rs x &&& 31 = 0 → exec (.brx g x) s = .next (s.leave (s.rs x))) ∧
    (s.rs x &&& 31 ≠ 0 → TrapsWhole (.brx g x) s cMISALIGNED (s.rs x))) ∧
  ∀ (g : QGuard) (c : SReg) o (s : State), GuardHolds s g → s.blocked 1 [.s c 1] [.s c 1] = none →
    ∃ u, ChangesOnly [.uni] s u ∧ UniResult s u c (s.rs c - 1) ∧
      exec (.loop g c o) s = .next (if s.rs c - 1 = 0 then u.advance else u.leave (clauseAt s (o.signExtend 64)))

/-- R151, R179: `br.div` goes on, branches, or splits: the branching lanes take the other slot if it is empty, else the top of
the split stack, and SPLIT_STACK_OVERFLOW at 64 entries. -/
def Sys2Proof.Claims.DivergenceSplitsTheSlot : Prop :=
  ∀ (p : PReg) (n : Bool) o (s : State) br, s.inRegion = false → s.blocked s.part [.p p] [] = none → Chosen s p n br →
    (br = 0 → exec (.brDiv p n o) s = .next (s.leave (s.clauseAddr + 32))) ∧
    (br ≠ 0 → br = s.slot.act → exec (.brDiv p n o) s = .next (s.leave (clauseAt s (o.signExtend 64)))) ∧
    (br ≠ 0 → br ≠ s.slot.act → ((s.grp.slot (!s.k)).act = 0 ∨ s.grp.stack.length < 64) →
      ∃ u, exec (.brDiv p n o) s = .next (u.leave (s.clauseAddr + 32)) ∧ ChangesOnly [.paths] s u ∧
        u.slot = { s.slot with act := s.slot.act &&& ~~~ br } ∧ u.grp.live = s.grp.live ∧ u.grp.meld = s.grp.meld ∧
        ∃ x : Path, x.pcw = clauseAt s (o.signExtend 64) ∧ x.act = br ∧ x.rjpc = s.slot.rjpc ∧ x.rjm = s.slot.rjm ∧
          x.fmt = s.slot.fmt ∧ x.fpstat = s.slot.fpstat ∧ x.waiting = false ∧
          if (s.grp.slot (!s.k)).act = 0 then u.grp.slot (!s.k) = x.toSlot ∧ u.grp.stack = s.grp.stack
          else u.grp.slot (!s.k) = s.grp.slot (!s.k) ∧ u.grp.stack = s.grp.stack ++ [x]) ∧
    (br ≠ 0 → br ≠ s.slot.act → (s.grp.slot (!s.k)).act ≠ 0 → 64 ≤ s.grp.stack.length →
      TrapsWhole (.brDiv p n o) s cSPLIT_STACK_OVERFLOW 0)

/-- R178, R180, R182: `rejoin.set` pushes a frame for the whole active mask; at `rejoin` a path goes on without a frame, leaves a
complete one with the frame's lanes, waits in it, or traps REJOIN_DEADLOCK where no path could go on. -/
def Sys2Proof.Claims.RejoinGathersTheLanesOfItsFrame : Prop :=
  (∀ o (s : State), s.inRegion = false → s.grp.stack.length < 64 → Completes (.rejoinSet o) s fun u =>
    ChangesOnly [.paths] s u ∧ u.grp.slot (!s.k) = s.grp.slot (!s.k) ∧ u.grp.live = s.grp.live ∧ u.grp.meld = s.grp.meld ∧
    u.slot = { s.slot with rjpc := clauseAt s (o.signExtend 64), rjm := s.slot.act } ∧
    u.grp.stack = s.grp.stack ++ [{ pcw := clauseAt s (o.signExtend 64), rjpc := s.slot.rjpc, act := 0, rjm := s.slot.act
                                    fmt := s.slot.fmt, fpstat := s.slot.fpstat, waiting := true }]) ∧
  (∀ o (s : State), s.inRegion = false → 64 ≤ s.grp.stack.length → TrapsWhole (.rejoinSet o) s cSPLIT_STACK_OVERFLOW 0) ∧
  (∀ s : State, s.inRegion = false → (∀ f, f ∈ s.grp.stack → ¬ ArrivesAt s f) → exec .rejoin s = .next s.advance) ∧
  ∀ (s : State) lower f upper, s.inRegion = false → Topmost (ArrivesAt s) s.grp.stack lower f upper →
    (f.act ||| s.slot.act = f.rjm → Completes .rejoin s fun u =>
      ChangesOnly [.paths] s u ∧ u.grp.slot (!s.k) = s.grp.slot (!s.k) ∧ u.grp.live = s.grp.live ∧
      u.grp.meld = s.grp.meld ∧ u.grp.stack = lower ++ upper ∧ u.slot.act = f.rjm ∧ u.slot.fmt = f.fmt ∧
      u.slot.fpstat = f.fpstat ||| s.slot.fpstat ∧ u.slot.rjpc = f.rjpc ∧
      (∀ lo x up, Topmost (Encloses f.rjm) (lower ++ upper) lo x up → u.slot.rjm = x.rjm) ∧
      ((∀ x, x ∈ lower ++ upper → ¬ Encloses f.rjm x) → u.slot.rjm = 0)) ∧
    (f.act ||| s.slot.act ≠ f.rjm →
      ((s.grp.slot (!s.k)).act ≠ 0 ∨ ∃ y, y ∈ s.grp.stack.drop s.grp.stackBase ∧ y.waiting = false) →
      ∃ u, exec .rejoin s = .next u ∧ ChangesOnly [.paths] s u ∧ u.grp.slot (!s.k) = s.grp.slot (!s.k) ∧
        u.grp.live = s.grp.live ∧
        ∃ stack, stack = lower ++ { f with act := f.act ||| s.slot.act, fpstat := f.fpstat ||| s.slot.fpstat
                                           rslot := BitVec.ofNat 3 s.slotIdx } :: upper ∧
          FilledFrom u s.k (stack.take s.grp.stackBase) (stack.drop s.grp.stackBase)) ∧
    (f.act ||| s.slot.act ≠ f.rjm → (s.grp.slot (!s.k)).act = 0 →
      (∀ y, y ∈ s.grp.stack.drop s.grp.stackBase → y.waiting = true) →
      ∃ frames : DWord, exec .rejoin s = .next (s.raise
          { cause := cREJOIN_DEADLOCK, mask := s.slot.act, path := 0, info0 := s.wordInfo, info1 := frames
            info2 := f.pcw, info3 := f.rjm ++ f.act }) ∧
        ∀ j, j < 64 → (frames.getLsbD j = true ↔ ∃ x, s.grp.stack[j]? = some x ∧ x.waiting = true ∧ x.act ≠ 0))

/-- The parts above together: `br.div`, `rejoin.set` and `rejoin`. -/
def Obligations.DivergentPathsSplitAndRejoin : Prop := DivergenceSplitsTheSlot ∧ RejoinGathersTheLanesOfItsFrame

/-- R183-R186, R80: what opens and closes a melded region, what changes its tables, and what is a violation inside one. -/
def Obligations.MeldingTakesEffectAfterTheClause : Prop :=
  (∀ (p : PReg) (n : Bool) (s : State) ch, s.grp.meld.active = false → s.blocked s.part [.p p] [] = none → Chosen s p n ch →
    Completes (.bmeld p n) s fun u => ChangesOnly [.due] s u ∧
      u.slot.due = { s.slot.due with opens := some (s.slot.act &&& ~~~ ch) }) ∧
  (∀ (p : PReg) (n : Bool) (s : State), s.grp.meld.active = true → TrapsWhole (.bmeld p n) s cMELD_VIOLATION 0) ∧
  (∀ s : State, s.inRegion = true → s.meldField < 2 → Completes .emeld s fun u => ChangesOnly [.due] s u ∧
    u.slot.due = { s.slot.due with closes := true }) ∧
  (∀ s : State, s.inRegion = false ∨ 2 ≤ s.meldField → TrapsWhole .emeld s cMELD_VIOLATION 0) ∧
  (∀ i (s : State), s.inRegion = true → ((∃ p n o, i = .brDiv p n o) ∨ (∃ o, i = .rejoinSet o) ∨ i = .rejoin) →
    TrapsWhole i s cMELD_VIOLATION 0) ∧
  (∀ (x : Fin 4) (s : State), Completes (.mclr x) s fun u => ChangesOnly [.due] s u ∧
    u.slot.due = { s.slot.due with tables := s.slot.due.tables ++ [.clear (bitOf x 0) (bitOf x 1)] }) ∧
  ∀ (r : SReg) (b : Bool) (s : State), s.blocked 1 [.s r 1] [] = none →
    ((∀ j, j < 4 → badEntry s.blk.shape.vregs (mapEntry (s.rs r) j) = false) → Completes (.mmap r b) s fun u =>
      ChangesOnly [.due] s u ∧
      u.slot.due = { s.slot.due with tables := s.slot.due.tables ++ mapChanges b (s.rs r) }) ∧
    ((∃ j, j < 4 ∧ badEntry s.blk.shape.vregs (mapEntry (s.rs r) j) = true) → TrapsWhole (.mmap r b) s cILLEGAL_OPERAND 0)

/-- R81, R82, R80, R190, R230: writes of FMT and MM, and `yield`, which makes the group the youngest. -/
def Sys2Proof.Claims.ModeWritesChangeOneRegister : Prop :=
  (∀ i (s : State), s.pathOnly = false → Completes (.fmtset i) s fun u => ChangesOnly [.fmt] s u ∧ u.slot.fmt = i) ∧
  (∀ i (s : State), s.pathOnly = true → TrapsWhole (.fmtset i) s cMELD_VIOLATION 0) ∧
  (∀ (r : SReg) (s : State), s.pathOnly = true → TrapsWhole (.fmtsetr r) s cMELD_VIOLATION 0) ∧
  (∀ (r : SReg) (s : State), s.pathOnly = false → s.blocked 1 [.s r 1] [] = none →
    ((s.rs r).toNat < 2 ^ 16 → Completes (.fmtsetr r) s fun u =>
      ChangesOnly [.fmt] s u ∧ u.slot.fmt = (s.rs r).extractLsb' 0 16) ∧
    (2 ^ 16 ≤ (s.rs r).toNat → TrapsWhole (.fmtsetr r) s cILLEGAL_OPERAND 0)) ∧
  (∀ (r : SReg) (s : State), s.blocked 1 [.s r 1] [] = none →
    ((s.rs r).toNat < 2 ^ 32 → Completes (.setmm r) s fun u =>
      ChangesOnly [.members] s u ∧ u.grp.mm = (s.rs r).extractLsb' 0 32) ∧
    (2 ^ 32 ≤ (s.rs r).toNat → TrapsWhole (.setmm r) s cILLEGAL_OPERAND 0)) ∧
  ∀ s : State, Completes .yield s fun u => ChangesOnly [.age] s u ∧ u.grp.age = s.dev.ages ∧ u.dev.ages = s.dev.ages + 1

/-- R200, R414, R415, R188: the trap instructions trap the lanes they name, and `rft` then goes on after them. -/
def Obligations.TrapInstructionsTrap : Prop :=
  (∀ c (s : State), exec (.trap c) s = .next (s.raise
    { cause := cUSER_TRAP, mask := s.slot.act, path := s.wholePath, info0 := c.setWidth 64, next := true })) ∧
  (∀ (p : PReg) n c (s : State) ch, s.slot.micro = 0 → s.blocked s.part [.p p] [] = none → Chosen s p n ch →
    (ch = 0 → exec (.trapP p n c) s = .next s.advance) ∧
    (ch ≠ 0 → TrapsPathByPath (.trapP p n c) s ch cUSER_TRAP (c.setWidth 64) 1)) ∧
  ∀ c (s : State), s.slot.micro = 0 → (s.part = 0 → exec (.bpt c) s = .next s.advance) ∧
    (s.part ≠ 0 → TrapsPathByPath (.bpt c) s s.part cBREAKPOINT (c.setWidth 64) 0)

/-- R408-R410, R169: a trap waits for the group's counted operations; then the trap registers hold what it reports, the context
holds both slots, s0-s3 with their poison tags, q, p0-p6, MM, MELD, the renaming tables and the stack's depth, and the live lanes start at the handler's first clause. -/
def Obligations.TrapEntrySavesTheContext : Prop :=
  (∀ (s : State) r, s.grp.pend ≠ [] → ChangesOnly [.trap, .paths] s (s.raise r) ∧
    (s.raise r).slot = { s.slot with wait := .trap, denied := 0, urgent := false } ∧
    (s.raise r).grp.slot (!s.k) = s.grp.slot (!s.k) ∧ (s.raise r).grp.stack = s.grp.stack ∧
    (s.raise r).grp.live = s.grp.live ∧ (s.raise r).grp.trap = s.grp.trap ∧ (s.raise r).grp.ctx = s.grp.ctx ∧
    ∃ q, (s.raise r).grp.trapReq = some q ∧ q.pslot = s.k ∧ q.next = r.next ∧ q.regs.cause = r.cause ∧
      q.regs.pc = s.slot.pc) ∧
  ∀ (s : State) r, s.grp.pend = [] → s.grp.ctx.inh = false → s.blk.shape.handler ≠ 0 →
    ∃ u, s.raise r = u ∧ ChangesOnly [.trap, .paths, .members] s u ∧ u.grp.trapReq = none ∧
      u.grp.trap = ⟨r.cause, s.slot.pc, s.slot.pc.extractLsb' 2 3, r.mask, r.path, r.info0, r.info1, r.info2, r.info3,
        dw s.dev.time⟩ ∧
      u.grp.slot0 = { pc := s.blk.shape.handler, act := s.grp.live } ∧ u.grp.slot1 = {} ∧ u.grp.mm = s.grp.live ∧
      u.grp.meld = {} ∧ u.grp.stack = s.grp.stack ∧ u.grp.live = s.grp.live ∧
      u.grp.ctx.inh = true ∧ u.grp.ctx.next = r.next ∧ u.grp.ctx.pslot = s.k ∧ u.grp.ctx.depth = s.grp.stack.length ∧
      u.grp.ctx.meld = s.grp.meld ∧ u.grp.ctx.mm = s.grp.mm ∧ u.grp.ctx.q = s.grp.q ∧
      u.grp.ctx.s0 = s.rs 0 ∧ u.grp.ctx.s1 = s.rs 1 ∧ u.grp.ctx.s2 = s.rs 2 ∧ u.grp.ctx.s3 = s.rs 3 ∧
      (∀ e, e ∈ u.grp.ctx.stags ↔ e ∈ s.grp.stags ∧ e.1 < 4) ∧
      u.grp.ctx.mapA = s.grp.mapA ∧ u.grp.ctx.mapB = s.grp.mapB ∧
      u.grp.ctx.mapPA = s.grp.mapPA ∧ u.grp.ctx.mapPB = s.grp.mapPB ∧
      (∀ p, p < 7 → Sparse.get 0 u.grp.ctx.preds p = Sparse.get 0 s.grp.p p) ∧
      ∀ k, ∃ x : Path, x = (if k then u.grp.ctx.slot1 else u.grp.ctx.slot0) ∧ x.pcw = (s.grp.slot k).pc ∧
        x.act = (s.grp.slot k).act ∧ x.fmt = (s.grp.slot k).fmt ∧ x.fpstat = (s.grp.slot k).fpstat ∧
        x.rjpc = (s.grp.slot k).rjpc ∧ x.rjm = (s.grp.slot k).rjm ∧ x.due = (s.grp.slot k).due

/-- R416, R226: outside a handler `rft` is illegal; with operations of the handler in flight it waits; then it restores slots,
region, tables, MM, s0-s3, q and p0-p6 for the lanes that have not exited and discards the handler's split-stack entries; where it goes
on in another clause, what the slot had due takes effect. -/
def Obligations.ReturnRestoresTheContext : Prop :=
  (∀ s : State, s.grp.ctx.inh = false → TrapsWhole .rft s cILLEGAL_INSTRUCTION 0) ∧
  (∀ s : State, s.grp.ctx.inh = true → s.grp.pend ≠ [] → exec .rft s = .next (s.waitFor .ops)) ∧
  (∀ s : State, s.grp.ctx.inh = true → s.grp.pend = [] →
    ∃ u, exec .rft s = .next u ∧ ChangesOnly [.trap, .paths, .members, .uni, .pred, .upred] s u ∧ u.grp.ctx.inh = false ∧
      u.grp.trap = s.grp.trap ∧ u.grp.live = s.grp.live ∧ u.grp.mm = s.grp.ctx.mm &&& s.grp.live ∧ u.grp.q = s.grp.ctx.q ∧
      (s.grp.resumesNext = false →
        u.grp.meld = { s.grp.ctx.meld with bmask := s.grp.ctx.meld.bmask &&& s.grp.live } ∧
        u.grp.mapA = s.grp.ctx.mapA ∧ u.grp.mapB = s.grp.ctx.mapB ∧
        u.grp.mapPA = s.grp.ctx.mapPA ∧ u.grp.mapPB = s.grp.ctx.mapPB) ∧
      (∀ x b, x = (if s.grp.ctx.pslot then s.grp.ctx.slot1 else s.grp.ctx.slot0) → s.grp.resumesNext = true →
        x.due.opens = some b → x.act &&& s.grp.live ≠ 0 →
        u.grp.meld = { bmask := b &&& (x.act &&& s.grp.live), active := true, slot := s.grp.ctx.pslot }) ∧
      u.rs 0 = s.grp.ctx.s0 ∧ u.rs 1 = s.grp.ctx.s1 ∧ u.rs 2 = s.grp.ctx.s2 ∧ u.rs 3 = s.grp.ctx.s3 ∧
      (∀ r, 4 ≤ r → u.rs r = s.rs r) ∧
      (∀ e, e ∈ u.grp.stags ↔ e ∈ s.grp.ctx.stags ∨ e ∈ s.grp.stags ∧ 4 ≤ e.1) ∧
      (∀ p, p < 7 → Sparse.get 0 u.grp.p p = Sparse.get 0 s.grp.ctx.preds p) ∧
      Sparse.get 0 u.grp.p 7 = Sparse.get 0 s.grp.p 7 ∧
      (∀ k x, x = (if k then s.grp.ctx.slot1 else s.grp.ctx.slot0) → x.act &&& s.grp.live ≠ 0 →
        (u.grp.slot k).act = x.act &&& s.grp.live ∧ (u.grp.slot k).fmt = x.fmt ∧ (u.grp.slot k).fpstat = x.fpstat ∧
        (u.grp.slot k).rjpc = x.rjpc ∧ (u.grp.slot k).rjm = x.rjm ∧
        (u.grp.slot k).pc = if k ≠ s.grp.ctx.pslot then x.pcw
          else if s.grp.ctx.next then s.grp.trap.pc + 4 else s.grp.trap.pc) ∧
      (s.grp.ctx.slot0.act &&& s.grp.live ≠ 0 → s.grp.ctx.slot1.act &&& s.grp.live ≠ 0 →
        u.grp.stack = s.grp.stack.take s.grp.ctx.depth)) ∧
  (∀ s : State, s.grp.ctx.inh = true → s.grp.trap.cause = cPREEMPT → Completes .yldDone s fun u =>
    ChangesOnly [.trap] s u ∧ u.grp.trap = s.grp.trap ∧ u.grp.ctx = s.grp.ctx ∧ u.grp.trapReq = s.grp.trapReq ∧
    (u.grp.yielded = true ↔ s.blk.state = .preempting)) ∧
  ∀ s : State, s.grp.ctx.inh = false ∨ s.grp.trap.cause ≠ cPREEMPT → TrapsWhole .yldDone s cILLEGAL_INSTRUCTION 0

/-- R199, R181, R234: `exit` ends the lanes taking part: they leave the slot and the live lanes, the slot goes on with the others,
and with its last lane the group gives up its name and its hold entries. -/
def Obligations.ExitEndsTheLanesTakingPart : Prop :=
  (∀ s : State, s.part = 0 → exec .exit s = .next s.advance) ∧
  ∀ s : State, s.part ≠ 0 → s.report (fun r => decide (r.bit < 2) || s.ownAccess r) = none →
    (s.lastOfFork s.part = true → exec .exit s = .next (s.waitFor .join)) ∧
    (s.lastOfFork s.part = false →
      ∃ u, exec .exit s = .next u ∧ ChangesOnly [.paths, .due, .trap, .holds, .names] s u ∧
        u.grp.live = s.grp.live &&& ~~~ s.part ∧ u.grp.trap = s.grp.trap ∧
        (s.grp.ctx.inh = false → u.grp.ctx = s.grp.ctx) ∧
        (s.slot.act &&& ~~~ s.part ≠ 0 → u.slot.act = s.slot.act &&& ~~~ s.part ∧ u.slot.pc = s.nextPc ∧
          u.slot.fmt = s.slot.fmt ∧ u.slot.fpstat = s.slot.fpstat) ∧
        (u.grp.live ≠ 0 → u.grp.pname = s.grp.pname ∧ u.grp.holds = s.grp.holds ∧ u.dev.names = s.dev.names) ∧
        (u.grp.live = 0 → u.grp.pname = 0 ∧ u.grp.holds = []))

/-- R237: `hold` notes the lanes taking part against the register they name; more than eight entries, a register already held,
or two registers trap. -/
def Obligations.HoldNotesTheLanes : Prop :=
  ∀ (v : VReg) (s : State), (s.part = 0 → exec (.hold v) s = .next s.advance) ∧
    ((∃ L M, L < 32 ∧ M < 32 ∧ inM s.part L = true ∧ inM s.part M = true ∧ s.vname L v ≠ s.vname M v) →
      TrapsWhole (.hold v) s cMELD_VIOLATION 0) ∧
    ∀ x, s.part ≠ 0 → (∀ L, L < 32 → inM s.part L = true → s.vname L v = x) →
      ((∀ h, h ∈ s.grp.holds → h.reg ≠ x) → s.grp.holds.length < 8 → Completes (.hold v) s fun u =>
        ChangesOnly [.holds] s u ∧ u.grp.holds = s.grp.holds ++ [⟨x, true, s.part, 0, 0, 0⟩]) ∧
      ((∀ h, h ∈ s.grp.holds → h.reg ≠ x) → 8 ≤ s.grp.holds.length → ∃ m q, TakenFor s s.part m q ∧
        exec (.hold v) s = .next (s.raise
          { cause := cREMOTE_CONFLICT, mask := m, path := q, info0 := 3, info1 := dw x, info2 := 0 })) ∧
      ∀ lo h up, s.grp.holds = lo ++ h :: up → (∀ y, y ∈ lo ++ up → y.reg ≠ x) → h.reg = x →
        (h.complete = true → s.grp.holds.length ≤ 8 → Completes (.hold v) s fun u =>
          ChangesOnly [.holds] s u ∧ u.grp.holds = lo ++ up ++ [⟨x, true, s.part, 0, 0, 0⟩]) ∧
        (h.complete = false → h.held = false → Completes (.hold v) s fun u =>
          ChangesOnly [.holds] s u ∧ u.grp.holds = lo ++ { h with held := true, hmask := s.part } :: up) ∧
        (h.complete = false → h.held = true → ∃ m q, TakenFor s s.part m q ∧
          exec (.hold v) s = .next (s.raise
            { cause := cREMOTE_CONFLICT, mask := m, path := q, info0 := 2, info1 := dw x, info2 := h.hmask.setWidth 64 }))

namespace Sys2Proof.Claims

open Sys2Proof Sys2Proof.Machine

/-! ## Lane memory instructions (R250, R267-R280) -/

/-- Everything that a lane memory instruction asks for holds: a lane takes part, its flag is below 63, its operands are ready, and
every lane's address is aligned, mapped, allowed, in a space that takes the operation, and free of the range scoreboard (R269,
R283); a release at system scope finds no remote operation in flight, a first write of a view page finds its pages (R311), and an
acquire is not one whose answers are awaited (log 30). -/
def MemReady (s : State) (setA : Bool) (a : Access) (rd wr : List Opnd) (va : Nat → Nat) : Prop :=
  s.part ≠ 0 ∧ s.flagFull setA = false ∧ s.blocked s.part rd wr = none ∧
  (∀ L, L < 32 → inM s.part L = true → va L % a.size = 0 ∧
    s.rangeHit a.acc.writes false (va L) (va L + a.size) = false ∧
    ∃ l pa, s.checkVa a.acc (va L) = .ok l pa ∧ a.badSpace (.ok l pa) = false ∧ s.unsettled a (.ok l pa) = false) ∧
  (a.rel = some .sys → s.fabricBusy = false) ∧
  (a.acc.writes = true → ∃ d, s.reserve (s.laneAccs a.acc s.part va) = .ok d) ∧ (a.acq ≠ none → s.slot.micro = 0)

/-- The slot goes on from u, or stands at an acquire that waits for operation e of another package (R287; log 30). -/
def GoesOn (i : Instr) (s : State) (acq : Option Scope) (e : Pend) (u : State) : Prop :=
  exec i s = .next (if acq.isSome && e.ext then (u.onSlot fun x => { x with micro := e.id + 1 }).waitFor .ops else u.advance)

/-- Lane L takes part and its address lies at pa of a page with leaf l. -/
def LandsAt (s : State) (a : Acc) (va : Nat → Nat) (L : Nat) (l : Leaf) (pa : Nat) : Prop :=
  L < 32 ∧ inM s.part L = true ∧ s.checkVa a (va L) = .ok l pa

/-- A page of memory of this package: not of another package, not of a view, whole and aligned as every walk gives it (R381,
R384). -/
def OwnPage (l : Leaf) : Prop := l.kind ≠ .remote ∧ l.kind ≠ .view ∧ WholePage l

/-- Every lane's page is memory of this package. -/
def AllLocal (s : State) (a : Acc) (va : Nat → Nat) : Prop := ∀ L l pa, LandsAt s a va L l pa → OwnPage l

/-- The operation in flight waits for another package exactly if a lane's page belongs to one (R351). -/
def WaitsForFabric (s : State) (a : Acc) (va : Nat → Nat) (e : Pend) : Prop :=
  e.ext = true ↔ ∃ L l pa, LandsAt s a va L l pa ∧ l.kind = .remote

/-- Register i of a load that read these bytes (R268). -/
def Widens (z : Size) (bytes : List Byte) (i : Nat) (x : Word) : Prop :=
  match z with
  | .x8 | .x16 => x.toNat = natOf bytes
  | .s8 => x = (nth 0 bytes 0).signExtend 32
  | .s16 => x = (nth 0 bytes 1 ++ nth 0 bytes 0).signExtend 32
  | .b32 | .b64 | .b128 => ∀ j, j < 4 → x.extractLsb' (8 * j) 8 = nth 0 bytes (4 * i + j)

/-- Byte i of the operand of a store from register d on (R273). -/
def storeByte (s : State) (L d i : Nat) : Byte := (s.rv L (d + i / 4)).extractLsb' (8 * (i % 4)) 8

/-- Loads: their path and their acquire (R272). -/
inductive LoadRow : Instr → Via → Option Scope → VReg → VReg → BitVec 5 → Size → Prop
  | ld d a f z c : LoadRow (.ld d a f z c) (.plain c) none d a f z
  | ldAcq d a c z : LoadRow (.ldAcq d a c z) (.plain false) (some c) d a 0 z
  | ldc d a f z c : LoadRow (.ldc d a f z c) .constant none d a f z
  | ldro d a f z c : LoadRow (.ldro d a f z c) .readOnly none d a f z

/-- Stores and their release (R273). -/
inductive StoreRow : Instr → Option Scope → VReg → VReg → BitVec 5 → Size → Prop
  | st d a f z c : StoreRow (.st d a f z c) none d a f z
  | stRel d a c z : StoreRow (.stRel d a c z) (some c) d a 0 z

/-- The state at which the accesses of an instruction are performed: operands consumed, the release done (R238, R252). -/
def released (s : State) (rd : List Opnd) (rel : Option Scope) : Dev :=
  match rel with
  | none => (s.consume s.part rd).dev
  | some c => releaseAt (s.consume s.part rd).dev s.blk.cluster c

/-- Byte i of the store of lane L lies at pa. -/
def StoresAt (s : State) (va : Nat → Nat) (n L i pa : Nat) : Prop :=
  i < n ∧ ∃ l p, LandsAt s .write va L l p ∧ pa = p + i

/-! ### Atomics (R275-R279) -/

/-- The new value of an atomic at a w-bit location (R276). -/
def stepsTo (op : AtomOp) {w : Nat} (old x y : BitVec w) : BitVec w :=
  match op with
  | .add => old + x
  | .min => if x.slt old then x else old
  | .max => if old.slt x then x else old
  | .minn => if x.ult old then x else old
  | .maxn => if old.ult x then x else old
  | .and => old &&& x
  | .or => old ||| x
  | .xor => old ^^^ x
  | .exch => x
  | .cas => if old = x then y else old
  | .fadd => BitVec.ofNat w (addF f32 old.toNat x.toNat).1

/-- Atomics with return: operation, 64-bit or not, scope, order, `sc`, and registers (R276, R279). -/
inductive AtomRow : Instr → AtomOp → Bool → Scope → Ord → Bool → VReg → VReg → Prop
  | add d a c o z : AtomRow (.atomAdd d a c o z) .add z c o false d a
  | min d a c o z : AtomRow (.atomMin d a c o z) .min z c o false d a
  | max d a c o z : AtomRow (.atomMax d a c o z) .max z c o false d a
  | minn d a c o z : AtomRow (.atomMinn d a c o z) .minn z c o false d a
  | maxn d a c o z : AtomRow (.atomMaxn d a c o z) .maxn z c o false d a
  | and d a c o z : AtomRow (.atomAnd d a c o z) .and z c o false d a
  | or d a c o z : AtomRow (.atomOr d a c o z) .or z c o false d a
  | xor d a c o z : AtomRow (.atomXor d a c o z) .xor z c o false d a
  | exch d a c o z : AtomRow (.atomExch d a c o z) .exch z c o false d a
  | cas d a c o z : AtomRow (.atomCas d a c o z) .cas z c o false d a
  | fadd d a c o : AtomRow (.atomFadd d a c o) .fadd false c o false d a
  | scAdd d a c z : AtomRow (.atomScAdd d a c z) .add z c .ar true d a
  | scExch d a c z : AtomRow (.atomScExch d a c z) .exch z c .ar true d a
  | scCas d a c z : AtomRow (.atomScCas d a c z) .cas z c .ar true d a

/-- Reductions: operation, 64-bit or not, scope, release, and registers (R277). -/
inductive RedRow : Instr → AtomOp → Bool → Scope → Bool → VReg → VReg → Prop
  | add d a c o z : RedRow (.redAdd d a c o z) .add z c o d a
  | fadd d a c o : RedRow (.redFadd d a c o) .fadd false c o d a
  | min d a c o z : RedRow (.redMin d a c o z) .min z c o d a
  | max d a c o z : RedRow (.redMax d a c o z) .max z c o d a
  | or d a c o z : RedRow (.redOr d a c o z) .or z c o d a

/-- The w-bit operand of lane L in registers from r on. -/
def operandAt (s : State) (L r w : Nat) : BitVec w := BitVec.ofNat w (s.rv2 L r).toNat

/-- The physical address of lane L. -/
def homeOf (s : State) (a : Acc) (va : Nat → Nat) (L : Nat) : Nat :=
  match s.checkVa a (va L) with
  | .ok _ pa => pa
  | .hard _ _ | .soft _ _ _ => 0

/-- The value at pa after the lanes below n have performed their operations there in increasing order, from v (R270). -/
def afterLanes (s : State) (op : AtomOp) (w d : Nat) (va : Nat → Nat) (pa n : Nat) (v : BitVec w) : BitVec w :=
  ((List.range n).filter fun L => inM s.part L && homeOf s .atomic va L == pa).foldl
    (fun v L => stepsTo op v (operandAt s L d w) (operandAt s L (d + w / 32) w)) v

/-- What the atomics of an instruction leave at the homes of their lanes, from the released package d: the number at each
location, and every other byte as its cluster's write-back left it (R250). -/
def HomesAfter (s u : State) (d : Dev) (op : AtomOp) (w r : Nat) (va : Nat → Nat) : Prop :=
  (∀ L l pa, LandsAt s .atomic va L l pa → BitVec.ofNat w (homeNat u.dev s.key pa (w / 8)) =
    afterLanes s op w r va pa 32 (BitVec.ofNat w (homeNat (dropLine d s.blk.core s.blk.cluster (pa / 128)) s.key pa (w / 8)))) ∧
  ∀ p, (∀ L l pa, LandsAt s .atomic va L l pa → ¬ (pa ≤ p ∧ p < pa + w / 8)) →
    ((∀ L l pa, LandsAt s .atomic va L l pa → pa / 128 ≠ p / 128) → homeByte u.dev s.key p = homeByte d s.key p) ∧
    ((∃ L l pa, LandsAt s .atomic va L l pa ∧ pa / 128 = p / 128) →
      homeByte u.dev s.key p = homeByte (dropLine d s.blk.core s.blk.cluster (p / 128)) s.key p)

/-- Every location that the lanes name is free of poison (R265, R420). -/
def NoPoison (s : State) (d : Dev) (va : Nat → Nat) (n : Nat) : Prop :=
  ∀ L l pa, LandsAt s .atomic va L l pa → poisoned d pa n = false

/-- Bits of an atomic's location. -/
def widthOf (wide : Bool) : Nat := if wide then 64 else 32

/-! ### The scratchpad (R253, R278) -/

/-- What a scratchpad lane instruction asks for (R269, R283). -/
def ScratchReady (s : State) (setA writes : Bool) (n : Nat) (rd wr : List Opnd) (off : Nat → Int) : Prop :=
  s.part ≠ 0 ∧ s.flagFull setA = false ∧ s.blocked s.part rd wr = none ∧
  ∀ L, L < 32 → inM s.part L = true → off L % n = 0 ∧ 0 ≤ off L ∧ off L + n ≤ s.blk.shape.scrb ∧
    s.rangeHit writes true (off L).toNat ((off L).toNat + n) = false

/-- The scratchpad atomics (R278). -/
inductive ScratchAtom : (VReg → VReg → Bool → Ord → Instr) → AtomOp → Prop
  | add : ScratchAtom .atomsAdd .add
  | cas : ScratchAtom .atomsCas .cas
  | exch : ScratchAtom .atomsExch .exch
  | fadd : ScratchAtom .atomsFadd .fadd

/-- The value at an offset after the lanes below n have performed their operations there in increasing order. -/
def scratchAfter (s : State) (op : AtomOp) (d : Nat) (off : Nat → Int) (p n : Nat) (v : Word) : Word :=
  ((List.range n).filter fun L => inM s.part L && off L == (p : Int)).foldl
    (fun v L => stepsTo op v (s.rv L d) (s.rv L (d + 1))) v

/-! ### Checks that fail (R269) -/

/-- A global lane instruction with its access, operands and addresses. -/
inductive LaneGlobal : Instr → Bool → Access → List Opnd → List Opnd → (State → Nat → Nat) → Prop
  | load i v q d a f z : LoadRow i v q d a f z →
      LaneGlobal i true { acc := .read, size := sizeBytes z, acq := q } [.v a 2] [.v d (sizeRegs z)] fun s => s.gva a f z
  | store i r d a f z : StoreRow i r d a f z →
      LaneGlobal i false { acc := .write, size := sizeBytes z, rel := r } [.v a 2, .v d (sizeRegs z)] [] fun s => s.gva a f z
  | atomic i op w c o sc (d a : VReg) : AtomRow i op w c o sc d a →
      LaneGlobal i true (atomAccess op w c o sc) [.v a 2, .v d (atomRegs op (atomBytes w))] [.v d (atomBytes w / 4)]
        fun s => s.gva a 0 .x8
  | reduce i op w c o (d a : VReg) : RedRow i op w c o d a →
      LaneGlobal i false (atomAccess op w c (if o then .rel else .rlx) false) [.v a 2, .v d (atomBytes w / 4)] []
        fun s => s.gva a 0 .x8

/-- A trap for the lanes bad whose TRAPINFO0 is the word and TRAPINFO1 the address of the lowest lane it is taken for (R188). -/
def TrapsLanes (i : Instr) (s : State) (c : Cause) (bad : Mask) (info1 : Nat → DWord) (info2 : DWord) : Prop :=
  ∃ m p L, TakenFor s bad m p ∧ L < 32 ∧ inM m L = true ∧ (∀ M, M < L → inM m M = false) ∧
    exec i s = .next (s.raise { cause := c, mask := m, path := p, info0 := s.wordInfo, info1 := info1 L, info2 := info2 })

/-! ## Uniform memory instructions (R281, R282) -/

/-- What a uniform memory instruction asks for. -/
def UniReady (s : State) (setA : Bool) (a : Access) (rd wr : List Opnd) (va : Nat) (l : Leaf) (pa : Nat) : Prop :=
  s.flagFull setA = false ∧ s.blocked 1 rd wr = none ∧ va % a.size = 0 ∧ s.rangeHit a.acc.writes false va (va + a.size) = false ∧
  s.checkVa a.acc va = .ok l pa ∧ a.badSpace (.ok l pa) = false ∧ s.unsettled a (.ok l pa) = false ∧
  (a.acc.writes = true → ∃ d, s.reserve [⟨0, va, l, pa⟩] = .ok d)

/-- Uniform loads: bytes and path. -/
inductive UniLoad : (SReg → SReg → BitVec 11 → Instr) → Via → Nat → Prop
  | b64 : UniLoad .sldB64 (.plain false) 8
  | b32 : UniLoad .sldB32 (.plain false) 4
  | const : UniLoad .sldc .constant 8

/-- Uniform stores: bytes. -/
inductive UniStore : (SReg → SReg → BitVec 11 → Instr) → Nat → Prop
  | b64 : UniStore .sstB64 8
  | b32 : UniStore .sstB32 4

/-- Uniform atomics. -/
inductive UniAtom : (SReg → SReg → Instr) → AtomOp → Prop
  | add : UniAtom .satomAdd .add
  | cas : UniAtom .satomCas .cas
  | exch : UniAtom .satomExch .exch

/-- Uniform register d takes x when the operation lands, and nothing else changes. -/
def WillWriteUni (s : State) (e : Pend) (d : SReg) (x : DWord) : Prop :=
  ChangesOnly [.uni] s (landed s e) ∧ UniResult s (landed s e) d x ∧ e.stags = []

end Sys2Proof.Claims

open Sys2Proof Sys2Proof.Machine Sys2Proof.Claims

/-- R250, R268, R272, R254: a load whose checks pass issues one operation counted by SETA; a lane of this package will hold the
bytes that its path serves, widened, or its registers a poison tag; no byte of memory changes. -/
def Sys2Proof.Claims.LoadsReadTheirBytes : Prop :=
  (∀ i via acq d a f z, LoadRow i via acq d a f z → ∀ s : State,
    MemReady s true { acc := .read, size := sizeBytes z, acq := acq } [.v a 2] [.v d (sizeRegs z)] (s.gva a f z) →
    ∃ u e c, c = s.consume s.part [.v a 2] ∧ GoesOn i s acq e u ∧ ChangesOnly [.counted, .caches, .fabric] c u ∧
      Issued s u true e ∧ WaitsForFabric s .read (s.gva a f z) e ∧
      (∀ key pa, homeByte u.dev key pa = homeByte c.dev key pa) ∧
      (acq = none → ∀ core cl key pa, u.dev.byteAt core cl key pa = c.dev.byteAt core cl key pa) ∧
      ChangesOnly [.vec] s (landed s e) ∧
      (∀ key, (∀ L i, L < 32 → inM s.part L = true → i < sizeRegs z → key ≠ s.vkey L (d + i)) →
        (landed s e).vec key = s.vec key) ∧
      ∀ L l pa, LandsAt s .read (s.gva a f z) L l pa → l.kind ≠ .remote →
        ∃ bytes bad, (loadAt c.dev s.who via l (s.gva a f z L) pa (sizeBytes z)).2 = (bytes, bad) ∧
          ∀ j, j < sizeRegs z →
            (bad = false → Widens z bytes j ((landed s e).vec (s.vkey L (d + j)))) ∧
            (bad = true → (s.vkey L (d + j), s.poisonTag (s.gva a f z L)) ∈ e.tags)) ∧
  ∀ (d : Dev) w c l va pa n, l.kind ≠ .view → pa % 128 + n ≤ 128 →
    (loadAt d w (.plain c) l va pa n).2.1 = (List.range n).map fun i => d.byteAt w.core w.cl w.key (pa + i)

/-- R250, R273, R252: a store whose checks pass issues one operation counted by SETB; on pages of this package each byte it names
reads as the operand's byte of the highest lane that names it, every other byte as after its release, and no home changes. -/
def Obligations.StoresWriteTheirBytes : Prop :=
  ∀ i rel d a f z, StoreRow i rel d a f z → ∀ s : State,
    MemReady s false { acc := .write, size := sizeBytes z, rel := rel } [.v a 2, .v d (sizeRegs z)] [] (s.gva a f z) →
    ∃ u e c, c = released s [.v a 2, .v d (sizeRegs z)] rel ∧ exec i s = .next u.advance ∧
      ChangesOnly [.counted, .memory, .caches, .forks, .pools, .fabric] (s.consume s.part [.v a 2, .v d (sizeRegs z)]) u ∧
      Issued s u false e ∧ WaitsForFabric s .write (s.gva a f z) e ∧ landed s e = s ∧
      (AllLocal s .write (s.gva a f z) →
        (∀ L i pa, StoresAt s (s.gva a f z) (sizeBytes z) L i pa →
          (∀ M j, L < M → ¬ StoresAt s (s.gva a f z) (sizeBytes z) M j pa) →
          u.dev.byteAt s.blk.core s.blk.cluster s.key pa = storeByte s L d i) ∧
        (∀ pa, (∀ L i, ¬ StoresAt s (s.gva a f z) (sizeBytes z) L i pa) →
          u.dev.byteAt s.blk.core s.blk.cluster s.key pa = c.byteAt s.blk.core s.blk.cluster s.key pa) ∧
        ∀ key pa, homeByte u.dev key pa = homeByte c key pa)

/-- R250, R270, R275, R276, R279: an atomic whose checks pass issues one operation counted by SETA; its lanes act at the home of
their line in increasing order, each will hold the value it found, no other byte at home changes, and `atom.sc` takes a ticket
a lane. -/
def Sys2Proof.Claims.AtomicsPerformAtTheHome : Prop :=
  ∀ i op wide sc o seq (d a : VReg), AtomRow i op wide sc o seq d a → ∀ (s : State) rd,
    rd = [Opnd.v a 2, Opnd.v d (atomRegs op (atomBytes wide))] →
    MemReady s true (atomAccess op wide sc o seq) rd [.v d (atomBytes wide / 4)] (s.gva a 0 .x8) →
    ∃ u e c, c = released s rd (ordRel o sc) ∧ GoesOn i s (ordAcq o sc) e u ∧
      ChangesOnly [.counted, .memory, .caches, .forks, .pools, .fabric, .tickets] (s.consume s.part rd) u ∧
      Issued s u true e ∧ WaitsForFabric s .atomic (s.gva a 0 .x8) e ∧
      u.dev.tickets = s.dev.tickets + (if seq then countTo 32 (inM s.part) else 0) ∧
      (AllLocal s .atomic (s.gva a 0 .x8) → NoPoison s c (s.gva a 0 .x8) (atomBytes wide) →
        HomesAfter s u c op (widthOf wide) d (s.gva a 0 .x8) ∧
        WillWrite s e s.part d (atomBytes wide / 4) fun L j x => ∀ l pa, LandsAt s .atomic (s.gva a 0 .x8) L l pa →
          x = (afterLanes s op (widthOf wide) d (s.gva a 0 .x8) pa L (BitVec.ofNat (widthOf wide) (homeNat
            (dropLine c s.blk.core s.blk.cluster (pa / 128)) s.key pa (atomBytes wide)))).extractLsb' (32 * j) 32)

/-- R277: a reduction does the same without a result, counted by SETB. -/
def Sys2Proof.Claims.ReductionsPerformAtTheHome : Prop :=
  ∀ i op wide sc o (d a : VReg), RedRow i op wide sc o d a → ∀ (s : State) rd,
    rd = [Opnd.v a 2, Opnd.v d (atomBytes wide / 4)] →
    MemReady s false (atomAccess op wide sc (if o then .rel else .rlx) false) rd [] (s.gva a 0 .x8) →
    ∃ u e c, c = released s rd (if o then some sc else none) ∧ exec i s = .next u.advance ∧
      ChangesOnly [.counted, .memory, .caches, .forks, .pools, .fabric, .reports] (s.consume s.part rd) u ∧
      Issued s u false e ∧ WaitsForFabric s .atomic (s.gva a 0 .x8) e ∧ landed s e = s ∧
      (AllLocal s .atomic (s.gva a 0 .x8) → NoPoison s c (s.gva a 0 .x8) (atomBytes wide) →
        u.grp.reports = s.grp.reports ∧ HomesAfter s u c op (widthOf wide) d (s.gva a 0 .x8))

/-- The parts above together: atomics and reductions of global memory. -/
def Obligations.AtomicsAndReductionsPerformAtTheHome : Prop := AtomicsPerformAtTheHome ∧ ReductionsPerformAtTheHome

/-- R253, R272, R273, R278: scratchpad members act on the block's own bytes in increasing lane order. -/
def Obligations.ScratchpadMembersActOnTheBlockBytes : Prop :=
  (∀ (d a : VReg) f z c (s : State), ScratchReady s true false (sizeBytes z) [.v a 1] [.v d (sizeRegs z)] (s.sof a f z) →
    (∀ L, L < 32 → inM s.part L = true → s.blk.spoison (s.sof a f z L).toNat (sizeBytes z) = false) →
    Completes (.lds d a f z c) s fun u => ChangesOnly [.counted] (s.consume s.part [.v a 1]) u ∧
      ∃ e, Issues s u true e ∧ WillWrite s e s.part d (sizeRegs z) fun L j x =>
        Widens z ((List.range (sizeBytes z)).map fun k => s.blk.sbyte ((s.sof a f z L).toNat + k)) j x) ∧
  (∀ (d a : VReg) f z c (s : State), ScratchReady s false true (sizeBytes z) [.v a 1, .v d (sizeRegs z)] [] (s.sof a f z) →
    Completes (.sts d a f z c) s fun u =>
      ChangesOnly [.counted, .scratch] (s.consume s.part [.v a 1, .v d (sizeRegs z)]) u ∧
      (∃ e, Issues s u false e ∧ landed s e = s) ∧
      (∀ L i, L < 32 → inM s.part L = true → i < sizeBytes z →
        (∀ M j, L < M → M < 32 → inM s.part M = true → j < sizeBytes z → s.sof a f z M + j ≠ s.sof a f z L + i) →
        u.blk.sbyte ((s.sof a f z L).toNat + i) = storeByte s L d i) ∧
      ∀ p : Nat, (∀ L i, L < 32 → inM s.part L = true → i < sizeBytes z → (p : Int) ≠ s.sof a f z L + i) →
        u.blk.sbyte p = s.blk.sbyte p) ∧
  ∀ c op, ScratchAtom c op → ∀ (d a : VReg) g o (s : State) (off : Nat → Int), off = s.sof a 0 .x8 →
    ScratchReady s true true 4 [.v a 1, .v d (atomRegs op 4)] [.v d 1] off →
    (orderSensitive op = true → s.blk.shape.strict = true → s.alone = true) →
    (∀ L, L < 32 → inM s.part L = true → s.blk.spoison (off L).toNat 4 = false) →
    Completes (c d a g o) s fun u =>
      ChangesOnly [.counted, .scratch] (s.consume s.part [.v a 1, .v d (atomRegs op 4)]) u ∧
      (∃ e, Issues s u true e ∧ WillWrite s e s.part d 1 fun L _ x =>
        x = scratchAfter s op d off (off L).toNat L (BitVec.ofNat 32 (natOf (s.blk.sbytes (off L).toNat 4)))) ∧
      (∀ L, L < 32 → inM s.part L = true → BitVec.ofNat 32 (natOf (u.blk.sbytes (off L).toNat 4)) =
        scratchAfter s op d off (off L).toNat 32 (BitVec.ofNat 32 (natOf (s.blk.sbytes (off L).toNat 4)))) ∧
      ∀ p : Nat, (∀ L, L < 32 → inM s.part L = true → ¬ (off L ≤ p ∧ (p : Int) < off L + 4)) → u.blk.sbyte p = s.blk.sbyte p

/-- R26, R27, R267, R269, R188: with its flag at 63 a memory instruction waits; with no lane taking part it only goes on; a
misaligned lane traps before any lane acts; an atomic to a space that takes none traps ATOMIC_SPACE; outside the scratchpad
SCRATCH_BOUNDS; an acquire whose answers are awaited goes on once they are in (log 30). -/
def Obligations.FailedChecksTrapBeforeAnyLaneActs : Prop :=
  (∀ i b a rd wr va, LaneGlobal i b a rd wr va → ∀ s : State,
    (∀ c, a.acq = some c → s.slot.micro ≠ 0 → exec i s = .next
      (if ∃ e ∈ s.grp.pend, e.id + 1 = s.slot.micro then s.waitFor .ops else (s.acquire c).advance)) ∧
    ((a.acq ≠ none → s.slot.micro = 0) →
    (s.flagFull b = true → exec i s = .next (s.waitFor .flagFull)) ∧
    (s.flagFull b = false → s.part = 0 → exec i s = .next s.advance) ∧
    ∀ bad, s.part ≠ 0 → s.flagFull b = false → s.blocked s.part rd wr = none →
      ((∀ L, L < 32 → (inM bad L = true ↔ inM s.part L = true ∧ va s L % a.size ≠ 0)) → bad ≠ 0 →
        TrapsLanes i s cMISALIGNED bad (fun L => dw (va s L)) 0) ∧
      ((∀ L, L < 32 → inM s.part L = true → va s L % a.size = 0 ∧ ∃ l pa, s.checkVa a.acc (va s L) = .ok l pa) →
        (∀ L, L < 32 → (inM bad L = true ↔ inM s.part L = true ∧ a.badSpace (s.checkVa a.acc (va s L)) = true)) → bad ≠ 0 →
        TrapsLanes i s cATOMIC_SPACE bad (fun L => dw (va s L)) 0))) ∧
  ∀ (d a : VReg) f z c (s : State) bad, s.part ≠ 0 → s.flagFull true = false →
    s.blocked s.part [.v a 1] [.v d (sizeRegs z)] = none →
    ((∀ L, L < 32 → (inM bad L = true ↔ inM s.part L = true ∧ s.sof a f z L % sizeBytes z ≠ 0)) → bad ≠ 0 →
      TrapsLanes (.lds d a f z c) s cMISALIGNED bad (fun L => BitVec.ofInt 64 (s.sof a f z L)) 0) ∧
    ((∀ L, L < 32 → inM s.part L = true → s.sof a f z L % sizeBytes z = 0) →
      (∀ L, L < 32 → (inM bad L = true ↔ inM s.part L = true ∧
        (s.sof a f z L < 0 ∨ s.blk.shape.scrb < s.sof a f z L + sizeBytes z))) → bad ≠ 0 →
      TrapsLanes (.lds d a f z c) s cSCRATCH_BOUNDS bad (fun L => BitVec.ofInt 64 (s.sof a f z L)) (dw s.blk.shape.scrb))

/-- R274: a prefetch goes on and changes what caches hold, no byte that anyone reads. -/
def Sys2Proof.Claims.PrefetchChangesNoByte : Prop :=
  ∀ (a : VReg) f z c (s : State), s.blocked s.part [.v a 2] [] = none → Completes (.pf a f z c) s fun u =>
    ChangesOnly [.caches] (s.consume s.part [.v a 2]) u ∧
    ∀ core cl key pa, u.dev.byteAt core cl key pa = (s.consume s.part [.v a 2]).dev.byteAt core cl key pa ∧
      homeByte u.dev key pa = homeByte (s.consume s.part [.v a 2]).dev key pa

/-- The parts above together: loads and prefetches. -/
def Obligations.LoadsAndPrefetchesRead : Prop := LoadsReadTheirBytes ∧ PrefetchChangesNoByte

/-- R281, R282: uniform loads, stores and atomics act once for the slot, on pages of this package and not of a view; TRAPMASK of
their traps is 0. -/
def Sys2Proof.Claims.UniformMemoryActsOnceForTheSlot : Prop :=
  (∀ i via n, UniLoad i via n → ∀ (d a : SReg) o (s : State) l pa, l.kind ≠ .remote →
    UniReady s true { acc := .read, size := n } [.s a 1] [.s d 1] (s.uva a o n) l pa →
    Completes (i d a o) s fun u => ChangesOnly [.counted, .caches] s u ∧
      (∀ core cl key pa, u.dev.byteAt core cl key pa = s.dev.byteAt core cl key pa) ∧
      ∃ e bytes bad, Issues s u true e ∧ (loadAt s.dev s.who via l (s.uva a o n) pa n).2 = (bytes, bad) ∧
        (bad = false → WillWriteUni s e d (dw (natOf bytes))) ∧
        (bad = true → e.svals = [] ∧ e.stags = [(d.val, s.poisonTag (s.uva a o n))])) ∧
  (∀ i n, UniStore i n → ∀ (d a : SReg) o (s : State) l pa, OwnPage l →
    UniReady s false { acc := .write, size := n } [.s a 1, .s d 1] [] (s.uva a o n) l pa →
    Completes (i d a o) s fun u => ChangesOnly [.counted, .memory, .caches, .forks] s u ∧
      (∃ e, Issues s u false e ∧ landed s e = s) ∧
      (∀ p, u.dev.byteAt s.blk.core s.blk.cluster s.key p =
        if pa ≤ p ∧ p < pa + n then (s.rs d).extractLsb' (8 * (p - pa)) 8 else
          s.dev.byteAt s.blk.core s.blk.cluster s.key p) ∧
      ∀ key p, homeByte u.dev key p = homeByte s.dev key p) ∧
  (∀ i op, UniAtom i op → ∀ (d a : SReg) (s : State) l pa c, OwnPage l →
    c = dropLine s.dev s.blk.core s.blk.cluster (pa / 128) → poisoned c pa 8 = false →
    UniReady s true (atomAccess op true .pkg .rlx false) [.s a 1, .s d (if op = .cas then 2 else 1)] [.s d 1]
      (s.uva a 0 8) l pa →
    Completes (i d a) s fun u => ChangesOnly [.counted, .memory, .caches, .forks] s u ∧
      (∃ e, Issues s u true e ∧ WillWriteUni s e d (dw (homeNat c s.key pa 8))) ∧
      BitVec.ofNat 64 (homeNat u.dev s.key pa 8) =
        stepsTo op (BitVec.ofNat 64 (homeNat c s.key pa 8)) (s.rs d) (s.rs (d + 1)) ∧
      ∀ p, ¬ (pa ≤ p ∧ p < pa + 8) → homeByte u.dev s.key p = homeByte c s.key p) ∧
  (∀ (d a : SReg) o (s : State), s.flagFull true = false → s.blocked 1 [.s a 1] [.s d 1] = none → s.uva a o 8 % 8 ≠ 0 →
    exec (.sldB64 d a o) s = .next (s.raise { cause := cMISALIGNED, mask := 0, path := s.wholePath, info0 := s.wordInfo
                                              info1 := dw (s.uva a o 8) }))

/-- R281, R282: uniform scratchpad members. -/
def Sys2Proof.Claims.UniformScratchpadMembersActOnce : Prop :=
  ∀ (d a : SReg) o (s : State) p, s.uof a o = (p : Nat) → p % 8 = 0 → p + 8 ≤ s.blk.shape.scrb →
    (s.flagFull true = false → s.blocked 1 [.s a 1] [.s d 1] = none → s.rangeHit false true p (p + 8) = false →
      s.blk.spoison p 8 = false → Completes (.slds d a o) s fun u => ChangesOnly [.counted] s u ∧
        ∃ e, Issues s u true e ∧ WillWriteUni s e d (dw (natOf (s.blk.sbytes p 8)))) ∧
    (s.flagFull false = false → s.blocked 1 [.s a 1, .s d 1] [] = none → s.rangeHit true true p (p + 8) = false →
      Completes (.ssts d a o) s fun u => ChangesOnly [.counted, .scratch] s u ∧
        (∃ e, Issues s u false e ∧ landed s e = s) ∧
        ∀ q, u.blk.sbyte q = if p ≤ q ∧ q < p + 8 then (s.rs d).extractLsb' (8 * (q - p)) 8 else s.blk.sbyte q)

/-- The parts above together: uniform memory and scratchpad members. -/
def Obligations.UniformMemoryAndScratchpadMembersActOnce : Prop := UniformMemoryActsOnceForTheSlot ∧ UniformScratchpadMembersActOnce

namespace Sys2Proof.Claims

open Sys2Proof Sys2Proof.Machine

/-! ## System registers (R164-R170, R413) -/

/-- The value of a system register as `srd` gives it (R165-R169, R185, R410). -/
inductive SysRead : Nat → (State → DWord) → Prop
  | nlane : SysRead 0x000 fun _ => 32
  | gidx : SysRead 0x001 fun s => dw s.grp.idx
  | ngrp : SysRead 0x002 fun s => dw s.blk.shape.groups
  | blin : SysRead 0x003 fun s => dw s.blk.blin
  | nlev : SysRead 0x004 fun s => dw s.blk.shape.nlev
  | launch : SysRead 0x005 fun s => s.blk.launchId
  | owner : SysRead 0x006 fun s => dw s.blk.shape.owner
  | alloc : SysRead 0x007 fun s =>
      dw (s.blk.shape.vregs + 2 ^ 8 * s.blk.shape.sregs + 2 ^ 16 * s.blk.shape.accs + 2 ^ 32 * s.blk.shape.scrb)
  | time : SysRead 0x008 fun s => dw s.dev.time
  | cycle : SysRead 0x009 fun s => dw (Sparse.get 0 s.dev.cycles s.blk.core)
  | pname : SysRead 0x00A fun s => s.grp.pname
  | args : SysRead 0x00B fun s => s.blk.shape.args
  | lidx k : k < 8 → SysRead (0x010 + k) fun s => dw (nth 0 s.blk.shape.lidx k)
  | lext k : k < 8 → SysRead (0x018 + k) fun s => dw (nth 1 s.blk.shape.lext k)
  | fmt : SysRead 0x100 fun s => s.slot.fmt.setWidth 64
  | fpstat : SysRead 0x101 fun s => s.slot.fpstat.setWidth 64
  | mm : SysRead 0x102 fun s => s.grp.mm.setWidth 64
  | meld : SysRead 0x103 fun s => dw (s.grp.meld.bmask.toNat + 2 ^ 32 * b2n s.grp.meld.active + 2 ^ 33 * b2n s.grp.meld.slot)
  | rsstat : SysRead 0x104 fun s => s.grp.rsstat
  | twinq : SysRead 0x106 fun s =>
      dw (s.blk.shape.quota + 2 ^ 24 * ((s.ownChild.map fun c => c.shadows.length).getD 0))
  | trapcause : SysRead 0x200 fun s => s.grp.trap.cause.setWidth 64
  | trappc : SysRead 0x201 fun s => s.grp.trap.pc
  | trapslot : SysRead 0x202 fun s => s.grp.trap.slot.setWidth 64
  | trapmask : SysRead 0x203 fun s => s.grp.trap.mask.setWidth 64
  | trappath : SysRead 0x204 fun s => s.grp.trap.path.setWidth 64
  | info0 : SysRead 0x205 fun s => s.grp.trap.info0
  | info1 : SysRead 0x206 fun s => s.grp.trap.info1
  | info2 : SysRead 0x207 fun s => s.grp.trap.info2
  | info3 : SysRead 0x208 fun s => s.grp.trap.info3
  | traptime : SysRead 0x209 fun s => s.grp.trap.time
  | traps0 : SysRead 0x20A fun s => s.grp.ctx.s0
  | traps1 : SysRead 0x20B fun s => s.grp.ctx.s1
  | traps2 : SysRead 0x20C fun s => s.grp.ctx.s2
  | traps3 : SysRead 0x20D fun s => s.grp.ctx.s3
  | trapq : SysRead 0x20E fun s => s.grp.ctx.q.setWidth 64
  | trapmm : SysRead 0x20F fun s => s.grp.ctx.mm.setWidth 64
  | trapst : SysRead 0x210 fun s => dw (b2n s.grp.ctx.inh + 2 * b2n s.grp.ctx.next + 4 * b2n s.grp.ctx.preq +
      2 ^ 8 * (s.grp.ctx.depth % 64))

/-- Registers that `swr` writes whole, with their reserved bits and the part that holds them (R167-R169, R410). -/
inductive SysWhole : Nat → DWord → Part → Prop
  | fmt : SysWhole 0x100 0xFFFFFFFFFFFF0000 .fmt
  | fpstat : SysWhole 0x101 0xFFFFFFFFFFFFFFE0 .fpstat
  | mm : SysWhole 0x102 0xFFFFFFFF00000000 .members
  | rsstat : SysWhole 0x104 0 .rsstat
  | cause : SysWhole 0x200 0xFFFFFFFFFFFFFF00 .trap
  | pc : SysWhole 0x201 3 .trap
  | slot : SysWhole 0x202 0xFFFFFFFFFFFFFFF8 .trap
  | mask : SysWhole 0x203 0xFFFFFFFF00000000 .trap
  | path : SysWhole 0x204 0xFFFFFFFFFFFFFFFC .trap
  | info k : k < 5 → SysWhole (0x205 + k) 0 .trap
  | s k : k < 4 → SysWhole (0x20A + k) 0 .trap
  | q : SysWhole 0x20E 0xFFFFFFFFFFFFFF00 .trap
  | trapmm : SysWhole 0x20F 0xFFFFFFFF00000000 .trap

/-- `swr` reaches the register: the operand is ready and outside a handler the trap registers are not named. -/
def SwrReady (s : State) (r : SReg) (n : BitVec 16) : Prop :=
  s.blocked 1 [.s r 1] [] = none ∧ (0x200 ≤ n.toNat → s.grp.ctx.inh = true)

/-! ## Fences (R252, R292, R293) -/

/-- Reports that a fence with this reach raises (R271, R340). -/
def fenceRaises (s : State) (reach : Fin 8) : Report → Bool := fun x => s.ownAccess x || (x.bit = 1 && bitOf reach 1)

/-- Nothing stands before a fence with a release part (R292). -/
def FenceOpen (s : State) (reach : Fin 8) : Prop :=
  (bitOf reach 2 = true → s.fabricBusy = false) ∧ (bitOf reach 1 = true → s.slotJobs = false) ∧
  s.report (fenceRaises s reach) = none

/-- The fences with their effect on the package: release, ticket, acquire (R292, R293). -/
inductive FenceRow : Instr → Fin 8 → (State → Dev) → Nat → Prop
  | rel r c : FenceRow (.fenceRel r c) r (fun s => releaseAt s.dev s.blk.cluster c) 0
  | ar r c : FenceRow (.fenceAr r c) r (fun s => acquireAt (releaseAt s.dev s.blk.cluster c) s.blk.core s.blk.cluster c) 0
  | sc r c : FenceRow (.fenceSc r c) r (fun s => acquireAt (releaseAt s.dev s.blk.cluster c) s.blk.core s.blk.cluster c) 1

/-- Home memory of two packages agrees under every key. -/
def SameHomes (d e : Dev) : Prop := ∀ key pa, homeByte d key pa = homeByte e key pa

/-! ## Barriers (R127, R195-R198, R339) -/

/-- Barrier n of the block after the group's arrival at x: the last arrival of a phase without bytes due completes it (R195,
R196). -/
def Arrived (s u : State) (n : Nat) (x : Bar) : Prop :=
  ChangesOnly [.bars] s u ∧ Sparse.get 0 u.grp.barPhase n = x.phase.toNat + 1 ∧
  (∀ m, m ≠ n → u.blk.bar m = s.blk.bar m ∧ Sparse.get 0 u.grp.barPhase m = Sparse.get 0 s.grp.barPhase m) ∧
  (x.expect ≠ 0 ∧ x.arrived + 1 = x.expect ∧ x.pending = 0 → (u.blk.bar n).phase = x.phase + 1 ∧ (u.blk.bar n).arrived = 0 ∧
    (u.blk.bar n).arr = 0 ∧ (u.blk.bar n).expect = x.expect) ∧
  (¬ (x.expect ≠ 0 ∧ x.arrived + 1 = x.expect ∧ x.pending = 0) → (u.blk.bar n).phase = x.phase ∧ (u.blk.bar n).arrived = x.arrived + 1 ∧
    (u.blk.bar n).arr = setLane x.arr s.grp.idx true ∧ (u.blk.bar n).expect = x.expect ∧ (u.blk.bar n).pending = x.pending)

/-- The barrier takes an arrival of the group: it is not BROKEN, the group has not arrived, arrivals are still due (R196, R339). -/
def BarOpen (s : State) (n : Nat) : Prop :=
  s.breaks n = false ∧ inM (s.blk.bar n).arr s.grp.idx = false ∧ (s.blk.bar n).arrived ≠ (s.blk.bar n).expect

/-- What a returning wait does: nothing, or an acquire at die scope where an engine took part (R297). -/
def WaitReturns (s u : State) : Prop :=
  ChangesOnly [.caches] s u ∧ (u.dev = s.dev ∨ u.dev = acquireAt s.dev s.blk.core s.blk.cluster .die)

end Sys2Proof.Claims

open Sys2Proof Sys2Proof.Machine Sys2Proof.Claims

/-- R413, R165-R170, R104: `srd` gives every register its value; a strict launch traps on a register of time, and FPSTAT waits
for the slot's counted operations. -/
def Sys2Proof.Claims.SystemRegistersReadTheirValue : Prop :=
  (∀ n f, SysRead n f → ∀ (d : SReg) (s : State), s.blocked 1 [] [.s d 1] = none →
    (s.blk.shape.strict = true → n ≠ 0x008 ∧ n ≠ 0x009 ∧ n ≠ 0x209) → (n = 0x101 → s.slotBusy = false) →
    Completes (.srd d (BitVec.ofNat 16 n)) s fun u => ChangesOnly [.uni] s u ∧ UniResult s u d (f s)) ∧
  (∀ (d : SReg) n (s : State), n = 0x105 ∨ n = 0x118 → s.blocked 1 [] [.s d 1] = none →
    Completes (.srd d (BitVec.ofNat 16 n)) s fun u => ChangesOnly [.uni] s u ∧ UniResult s u d (s.sysReg n)) ∧
  (∀ (d : SReg) n (s : State), s.blk.shape.strict = true → n = 0x008 ∨ n = 0x009 ∨ n = 0x209 →
    TrapsWhole (.srd d (BitVec.ofNat 16 n)) s cNONDETERMINISTIC_OP 0) ∧
  ∀ (d : SReg) (s : State), s.slotBusy = true → exec (.srd d 0x101) s = .next (s.waitFor .ops)

/-- R413, R164, R185, R145, R323, R80: `swr` writes the writable fields of one register and changes no other register; a read-only
register, a trap register outside a handler, MELD or a reserved bit traps ILLEGAL_OPERAND, FMT in a path-only clause
MELD_VIOLATION. -/
def Sys2Proof.Claims.SystemRegistersTakeTheirWrites : Prop :=
  (∀ (n : BitVec 16) resv part, SysWhole n.toNat resv part → ∀ (r : SReg) (s : State), SwrReady s r n → s.rs r &&& resv = 0 →
    (n.toNat = 0x100 → s.pathOnly = false) → Completes (.swr r n) s fun u => ChangesOnly [part] s u ∧
      u.sysReg n.toNat = s.rs r ∧ ∀ m, m ≠ n.toNat → u.sysReg m = s.sysReg m) ∧
  (∀ (r : SReg) (s : State), SwrReady s r 0x118 → s.rs r &&& 0xFFFFFFFF8000F800 = 0 → Completes (.swr r 0x118) s fun u =>
    u = { s with blk := { s.blk with seq := { s.blk.seq with
      iv := s.blk.seq.iv && !(s.rs r).getLsbD 0, of := s.blk.seq.of && !(s.rs r).getLsbD 1
      uf := s.blk.seq.uf && !(s.rs r).getLsbD 2, nx := s.blk.seq.nx && !(s.rs r).getLsbD 3 } } }) ∧
  (∀ (r : SReg) (s : State), SwrReady s r 0x105 → s.rs r &&& 0x0000FC0000800E00 = 0 → Completes (.swr r 0x105) s fun u =>
    ChangesOnly [.forks] s u ∧ u.dev.forks = s.dev.forks ∧ u.lastJoin.rcnt = ((s.rs r).extractLsb' 48 16).toNat ∧
    u.lastJoin.status = s.lastJoin.status ∧ ∀ m, m ≠ 0x105 → u.sysReg m = s.sysReg m) ∧
  (∀ (r : SReg) (s : State), SwrReady s r 0x106 → s.rs r &&& 0xFFFFE00000000000 = 0 → exec (.swr r 0x106) s = .next s.advance) ∧
  (∀ (r : SReg) (s : State), SwrReady s r 0x210 → s.rs r &&& 0xFFFFFFFFFFFFC0F8 = 0 → Completes (.swr r 0x210) s fun u =>
    u = { s with grp := { s.grp with ctx := { s.grp.ctx with next := (s.rs r).getLsbD 1 } } }) ∧
  (∀ (r : SReg) (n : BitVec 16) (s : State), s.blocked 1 [.s r 1] [] = none →
    (n.toNat ≤ 0xFF ∨ n.toNat = 0x103 ∨ (0x200 ≤ n.toNat ∧ n.toNat ≤ 0x2FF ∧ s.grp.ctx.inh = false) ∨
      ∃ resv part, SysWhole n.toNat resv part ∧ s.rs r &&& resv ≠ 0) → TrapsWhole (.swr r n) s cILLEGAL_OPERAND 0) ∧
  ∀ (r : SReg) (s : State), s.blocked 1 [.s r 1] [] = none → s.rs r &&& 0xFFFFFFFFFFFF0000 = 0 → s.pathOnly = true →
    TrapsWhole (.swr r 0x100) s cMELD_VIOLATION 0

/-- The parts above together: system registers and modes. -/
def Obligations.SystemAndModeRegistersAreReadAndWritten : Prop := SystemRegistersReadTheirValue ∧ SystemRegistersTakeTheirWrites ∧ ModeWritesChangeOneRegister

/-- R292, R293, R271: a fence waits for the classes it reaches, raises what failed among them, then releases, takes its ticket
and acquires at its scope. -/
def Sys2Proof.Claims.FencesOrderAtTheirScope : Prop :=
  (∀ (r : Fin 8) c (s : State),
    ((bitOf r 2 = true → s.remoteReads = false) → s.report (fenceRaises s r) = none → Completes (.fenceAcq r c) s fun u =>
      ChangesOnly [.caches] s u ∧ u.dev = acquireAt s.dev s.blk.core s.blk.cluster c ∧ SameHomes u.dev s.dev) ∧
    (bitOf r 2 = true → s.remoteReads = true → exec (.fenceAcq r c) s = .next (s.waitFor .ops))) ∧
  (∀ i r f n, FenceRow i r f n → ∀ s : State,
    (FenceOpen s r → Completes i s fun u => ChangesOnly [.memory, .caches, .tickets] s u ∧
      u.dev = { f s with tickets := s.dev.tickets + n }) ∧
    (bitOf r 2 = true → s.fabricBusy = true → exec i s = .next (s.waitFor .ops)) ∧
    (¬ (bitOf r 2 = true ∧ s.fabricBusy = true) → bitOf r 1 = true → s.slotJobs = true →
      exec i s = .next (s.waitFor .jobs))) ∧
  (∀ c (s : State), (c = .sys → s.remoteStores .sys = false) →
    (Completes (.fenceLayout c) s fun u => ChangesOnly [.memory, .caches] s u ∧
      ∃ d, d = releaseAt s.dev s.blk.cluster c ∧ SameHomes u.dev d ∧ u.dev.l1 = d.l1 ∧ u.dev.icache = d.icache ∧
        ∀ x, x ∈ u.dev.records ↔ x ∈ s.dev.records ∧ coreWithin c s.blk.core x.unit = false) ∧
    Completes (.icinv c) s fun u => ChangesOnly [.memory, .caches] s u ∧
      ∃ d, d = releaseAt s.dev s.blk.cluster c ∧ SameHomes u.dev d ∧ u.dev.l1 = d.l1 ∧ u.dev.records = d.records ∧
        ∀ x, x ∈ u.dev.icache ↔ x ∈ s.dev.icache ∧ coreWithin c s.blk.core x.unit = false) ∧
  ∀ i c (s : State), i = .fenceLayout c ∨ i = .icinv c → s.remoteStores c = true → exec i s = .next (s.waitFor .ops)

/-- R252, R255: an acquire drops the lines that its scope names and no other; a release leaves no dirty sector of the cluster but
those of PRIVATE objects, and their bytes stand at their homes. -/
def Sys2Proof.Claims.AcquireDropsAndReleaseWritesBack : Prop :=
  (∀ (d : Dev) core cl c,
    (c = .grp ∨ c = .blk → acquireAt d core cl c = d) ∧
    (∀ x, x ∈ (acquireAt d core cl .clu).l1 ↔ x ∈ d.l1 ∧ (x.unit = core → x.ro = true ∨
      ∃ o, o ∈ d.objs ∧ o.core = core ∧ o.priv = false ∧ inObj o x.line x.key = true)) ∧
    (acquireAt d core cl .clu).cc = d.cc ∧
    (c = .die ∨ c = .pkg ∨ c = .sys →
      (∀ x, x ∈ (acquireAt d core cl c).l1 ↔ x ∈ d.l1 ∧ (x.unit = core → x.ro = true ∨
        ∃ o, o ∈ d.objs ∧ o.cluster = cl ∧ inObj o x.line x.key = true)) ∧
      ∀ x, x ∈ (acquireAt d core cl c).cc ↔ x ∈ d.cc ∧ (x.unit = cl →
        ∃ o, o ∈ d.objs ∧ o.cluster = cl ∧ inObj o x.line x.key = true)) ∧
    (acquireAt d core cl c).dirty = d.dirty ∧ SameHomes (acquireAt d core cl c) d) ∧
  (∀ (d : Dev) cl c, c = .grp ∨ c = .blk ∨ c = .clu → releaseAt d cl c = d) ∧
  (∀ (d : Dev) cl c, c = .die ∨ c = .pkg ∨ c = .sys → ∀ x, x ∈ (releaseAt d cl c).dirty → x ∈ d.dirty ∧ (x.cluster = cl →
    ∃ o, o ∈ d.objs ∧ o.cluster = cl ∧ o.priv = true ∧ inObj o (x.sector / 4) x.key = true)) ∧
  ∀ (d : Dev) cl c x off b, c = .die ∨ c = .pkg ∨ c = .sys → x ∈ d.dirty → x.cluster = cl → isHost (32 * x.sector) = false →
    (∀ o, o ∈ d.objs → o.cluster = cl → o.priv = true → inObj o (x.sector / 4) x.key = false) →
    d.dirty.Pairwise (fun y z => y.sector ≠ z.sector) → (x.bytes.map Prod.fst).Nodup → (off, b) ∈ x.bytes → off < 32 →
    homeByte (releaseAt d cl c) x.key (32 * x.sector + off) = b

/-- The parts above together: fences, and the acquire and release actions. -/
def Obligations.FencesReleaseAndAcquire : Prop := FencesOrderAtTheirScope ∧ AcquireDropsAndReleaseWritesBack

/-- R256: `objrel` ends the block's objects with the record address and no other. -/
def Sys2Proof.Claims.ObjectsEndByTheirRecord : Prop :=
  ∀ (r : SReg) (s : State), s.blocked 1 [.s r 1] [] = none → Completes (.objrel r) s fun u =>
    ChangesOnly [.memory, .caches, .objects] s u ∧
    (∀ o, o ∈ u.dev.objs ↔ o ∈ s.dev.objs ∧ ¬ (o.block = s.blk.key ∧ o.recAddr = s.rs r)) ∧
    ((∀ o, o ∈ s.dev.objs → ¬ (o.block = s.blk.key ∧ o.recAddr = s.rs r)) → u = s)

/-- R232-R235, R170: `nameget` answers the group's name, taking the lowest free entry the first time; `nameput` retires it;
`nameq` answers the state of a name, asking the package of its home where that is another. -/
def Sys2Proof.Claims.NamesAreTakenAndGivenUp : Prop :=
  (∀ (d : SReg) (s : State), s.blocked 1 [] [.s d 1] = none → Completes (.nameget d) s fun u =>
    ChangesOnly [.uni, .names, .forks, .fabric] s u ∧ (s.chain = [] → u.dev.inbox = s.dev.inbox ∧ u.dev.ports = s.dev.ports) ∧
    UniResult s u d u.grp.pname ∧
    (s.grp.pname ≠ 0 → u.grp.pname = s.grp.pname ∧ u.dev.names = s.dev.names) ∧
    (s.grp.pname = 0 → ∀ i, i < 2 ^ 22 → s.dev.pkg < 1024 → (Sparse.get {} s.dev.names i).state = .free →
      (∀ j, j < i → (Sparse.get {} s.dev.names j).state ≠ .free) →
      ∃ e : NameEntry, Sparse.get {} u.dev.names i = e ∧ e.state = .resident ∧ e.loc = s.dev.pkg ∧ e.core = s.blk.core ∧
        e.gidx = s.grp.idx ∧ e.owner = s.blk.shape.owner ∧ e.gen ≠ 0 ∧ nameHome u.grp.pname = s.dev.pkg ∧
        nameIndex u.grp.pname = i ∧ nameGen u.grp.pname = e.gen ∧ (u.grp.pname).extractLsb' 48 16 = 0 ∧
        ∀ j, j ≠ i → Sparse.get {} u.dev.names j = Sparse.get {} s.dev.names j)) ∧
  (∀ s : State, Completes .nameput s fun u => ChangesOnly [.names, .holds, .fabric] s u ∧ u.grp.pname = 0 ∧
    (s.grp.pname = 0 → u = s) ∧ (s.grp.pname ≠ 0 → u.grp.holds = [] ∧
      (nameHome s.grp.pname ≠ s.dev.pkg → u.dev = tellHome s.dev s.blk.shape.owner s.grp.pname 4 0 0) ∧
      ∀ e : NameEntry, nameHome s.grp.pname = s.dev.pkg → Sparse.get {} s.dev.names (nameIndex s.grp.pname) = e →
        e.gen = nameGen s.grp.pname → e.state ≠ .free → (Sparse.get {} u.dev.names (nameIndex s.grp.pname)).state = .retired)) ∧
  (∀ (x : SReg) (s : State), s.blocked 1 [.s x 1] [.s x 1] = none →
    (badName s.dev s.blk.shape.owner (s.rs x) = true → exec (.nameq x) s = .next (s.raise
      { cause := cNAME_INVALID, mask := s.slot.act, path := s.wholePath, info0 := s.rs x })) ∧
    (badName s.dev s.blk.shape.owner (s.rs x) = false → s.blk.shape.strict = true →
      TrapsWhole (.nameq x) s cNONDETERMINISTIC_OP 0) ∧
    (badName s.dev s.blk.shape.owner (s.rs x) = false → s.blk.shape.strict = false → nameHome (s.rs x) = s.dev.pkg →
      Completes (.nameq x) s fun u => ChangesOnly [.uni] s u ∧
        ∀ e : NameEntry, Sparse.get {} s.dev.names (nameIndex (s.rs x)) = e → UniResult s u x (dw
          (if e.state = .free ∨ e.gen ≠ nameGen (s.rs x) then 0 else if e.state = .resident then 1
            else if e.state = .saved then 2 else if e.state = .moving then 3 else 4))) ∧
    (badName s.dev s.blk.shape.owner (s.rs x) = false → s.blk.shape.strict = false → nameHome (s.rs x) ≠ s.dev.pkg →
      Completes (.nameq x) s fun u => ChangesOnly [.counted, .fabric] s u ∧ u.grp.flags = s.grp.flags ∧
        ∃ e o p, u.grp.pend = s.grp.pend ++ [e] ∧ e.skeys = [x.val] ∧ e.ext = true ∧ e.id = o.pend ∧
          u.dev = sendPacket { s.dev with nextId := s.dev.nextId + 2, outstanding := s.dev.outstanding ++ [o] } p ∧
          p.dst = nameHome (s.rs x) ∧ p.body = .nameAsk o.id (s.rs x) ∧ o.purpose = .nameq ∧ o.deadline = p.deadline))

/-- R211, R212, R309: `trig` marks the group once; it waits for the slot's operations at other packages, releases at system scope,
and has no effect in a fork child. -/
def Sys2Proof.Claims.TriggerMarksTheGroup : Prop :=
  ∀ s : State, (s.blk.child.isSome = true → exec .trig s = .next s.advance) ∧
    (s.blk.child = none → s.fabricBusy = true → exec .trig s = .next (s.waitFor .ops)) ∧
    (s.blk.child = none → s.fabricBusy = false → Completes .trig s fun u =>
      ChangesOnly [.memory, .caches, .triggers, .fabric] s u ∧ u.grp.triggered = true ∧
      SameHomes u.dev (releaseAt s.dev s.blk.cluster .sys) ∧
      (s.grp.triggered = true → u = { s with dev := releaseAt s.dev s.blk.cluster .sys }) ∧
      (s.grp.triggered = false → (∃ g, g ∈ s.blk.groups ∧ g.triggered = false ∧ g.ended = false) →
        u.blk.trigd = s.blk.trigd ∧ u.dev = releaseAt s.dev s.blk.cluster .sys))

/-- The parts above together: a group takes and gives up its name, and triggers. -/
def Obligations.NamesAndTriggersOfAGroup : Prop := NamesAreTakenAndGivenUp ∧ TriggerMarksTheGroup

/-- R195, R196, R197, R271, R297, R339: arrivals and waits at a named barrier. -/
def Sys2Proof.Claims.NamedBarriersCountTheirGroups : Prop :=
  (∀ (n : Fin 16) (s : State), s.report s.ownAccess = none →
    (BarOpen s n → Completes (.barArr n) s fun u => Arrived s u n (s.blk.bar n)) ∧
    (s.breaks n = false → (inM (s.blk.bar n).arr s.grp.idx = true ∨ (s.blk.bar n).arrived = (s.blk.bar n).expect) →
      exec (.barArr n) s = .next (s.waitFor (.barArrive n)))) ∧
  (∀ (n : Fin 16) (s : State), s.report (fun r => r.bit = 1 && r.bar = n.val) = none → s.breaks n = false →
    (Sparse.get 0 s.grp.barPhase n ≠ (s.blk.bar n).phase.toNat + 1 → Completes (.barWait n) s fun u => WaitReturns s u) ∧
    (Sparse.get 0 s.grp.barPhase n = (s.blk.bar n).phase.toNat + 1 → exec (.barWait n) s = .next (s.waitFor (.bar n)))) ∧
  (∀ (n : Fin 16) (s : State), s.slot.micro = 0 →
    s.report (fun r => s.ownAccess r || (r.bit = 1 && r.bar = n.val)) = none → BarOpen s n →
    ((s.blk.bar n).expect ≠ 0 ∧ (s.blk.bar n).arrived + 1 = (s.blk.bar n).expect ∧ (s.blk.bar n).pending = 0 →
      ∃ t, Arrived s t n (s.blk.bar n) ∧ Completes (.barSync n) s fun u =>
        ∃ v, ChangesOnly [.caches] t v ∧ (v.dev = t.dev ∨ v.dev = acquireAt t.dev t.blk.core t.blk.cluster .die) ∧
          u.advance = v.advance) ∧
    (¬ ((s.blk.bar n).expect ≠ 0 ∧ (s.blk.bar n).arrived + 1 = (s.blk.bar n).expect ∧ (s.blk.bar n).pending = 0) →
      ∃ t, Arrived s t n (s.blk.bar n) ∧
        exec (.barSync n) s = .next ((t.onSlot fun x => { x with micro := 1 }).waitFor (.bar n)))) ∧
  (∀ (n : Fin 16) (s : State), s.slot.micro ≠ 0 → s.report (fun r => r.bit = 1 && r.bar = n.val) = none →
    s.breaks n = false → Sparse.get 0 s.grp.barPhase n ≠ (s.blk.bar n).phase.toNat + 1 →
    Completes (.barSync n) s fun u => WaitReturns s u) ∧
  (∀ i (n : Fin 16) (s : State), i = .barArr n ∨ i = .barWait n ∨ i = .barSync n → s.grp.reports = [] → s.breaks n = true →
    exec i s = .next ((s.onSlot fun x => { x with micro := 0 }).raise
      { cause := cCOPY_DESCRIPTOR, mask := s.slot.act, path := s.wholePath, info0 := 6 }))

/-- R196, R339: `bar.init` sets EXPECT of an idle barrier and keeps PHASE; `bar.expect` adds to PENDING, which may complete the
phase; operands out of range and a barrier in use trap ILLEGAL_OPERAND. -/
def Sys2Proof.Claims.NamedBarriersAreSetUp : Prop :=
  (∀ (e : SReg) (n : Fin 16) (s : State), s.blocked 1 [.s e 1] [] = none →
    (0 < (s.rs e).toNat → (s.rs e).toNat ≤ 1024 → s.barBusy n = false → Completes (.barInit e n) s fun u =>
      ChangesOnly [.bars, .jobs] s u ∧ u.grp = s.grp ∧ (∀ m, m ≠ n.val → u.blk.bar m = s.blk.bar m) ∧
      u.blk.bar n = { expect := (s.rs e).extractLsb' 0 11, phase := (s.blk.bar n).phase } ∧
      ((s.blk.bar n).broken = false → u.dev = s.dev)) ∧
    ((s.rs e).toNat = 0 ∨ 1024 < (s.rs e).toNat ∨ s.barBusy n = true → TrapsWhole (.barInit e n) s cILLEGAL_OPERAND 0)) ∧
  ∀ (b : SReg) (n : Fin 16) (s : State) (p : Int), s.blocked 1 [.s b 1] [] = none →
    p = (s.blk.bar n).pending + (s.rs b).toInt →
    (-(2 ^ 27) ≤ p → p ≤ 2 ^ 27 - 1 → Completes (.barExpect b n) s fun u =>
      ChangesOnly [.bars] s u ∧ u.grp = s.grp ∧ (∀ m, m ≠ n.val → u.blk.bar m = s.blk.bar m) ∧
      (p = 0 ∧ (s.blk.bar n).expect ≠ 0 ∧ (s.blk.bar n).arrived = (s.blk.bar n).expect → (u.blk.bar n).phase = (s.blk.bar n).phase + 1 ∧
        (u.blk.bar n).arrived = 0 ∧ (u.blk.bar n).arr = 0) ∧
      (¬ (p = 0 ∧ (s.blk.bar n).expect ≠ 0 ∧ (s.blk.bar n).arrived = (s.blk.bar n).expect) → u.blk.bar n = { s.blk.bar n with pending := p })) ∧
    (p < -(2 ^ 27) ∨ 2 ^ 27 - 1 < p → TrapsWhole (.barExpect b n) s cILLEGAL_OPERAND 0)

/-- R127, R146, R198: the groups' side of the matrix barriers: the arrival of the last live group completes the phase once the
sequencer has arrived or does not run. -/
def Sys2Proof.Claims.MatrixBarriersCountTheirGroups : Prop :=
  (∀ (n : Fin 8) (s : State) x, x = s.blk.mbar n → s.report s.ownAccess = none →
    (inM x.arr s.grp.idx = true → exec (.mbarArr n) s = .next (s.waitFor (.mbarArrive n))) ∧
    (inM x.arr s.grp.idx = false → s.grp.idx < 32 → Completes (.mbarArr n) s fun u => ChangesOnly [.mbars] s u ∧
      Sparse.get 0 u.grp.mbarPhase n = x.phase.toNat + 1 ∧ (∀ m, m ≠ n.val → u.blk.mbar m = s.blk.mbar m) ∧
      (s.liveAll &&& ~~~ setLane x.arr s.grp.idx true = 0 ∧ (x.seqArr = true ∨ s.blk.seq.run = false) →
        u.blk.mbar n = { phase := x.phase + 1 }) ∧
      (¬ (s.liveAll &&& ~~~ setLane x.arr s.grp.idx true = 0 ∧ (x.seqArr = true ∨ s.blk.seq.run = false)) →
        u.blk.mbar n = { x with arr := setLane x.arr s.grp.idx true }))) ∧
  ∀ (n : Fin 8) (s : State), s.report (fun r => r.bit = 0) = none →
    (Sparse.get 0 s.grp.mbarPhase n = (s.blk.mbar n).phase.toNat + 1 → exec (.mbarWait n) s = .next (s.waitFor (.mbar n))) ∧
    (Sparse.get 0 s.grp.mbarPhase n ≠ (s.blk.mbar n).phase.toNat + 1 → exec (.mbarWait n) s = .next s.advance)

/-- The parts above together: named and matrix barriers. -/
def Obligations.BarriersCountTheirGroups : Prop := NamedBarriersCountTheirGroups ∧ NamedBarriersAreSetUp ∧ MatrixBarriersCountTheirGroups

namespace Sys2Proof.Claims

open Sys2Proof Sys2Proof.Machine

/-! ## Commands of a group: objects, jobs, registrations, remote stores, collectives, forks, streams -/

/-- The operands of a command counted by SETB are ready. -/
def CommandReady (s : State) (rd wr : List Opnd) : Prop := s.flagFull false = false ∧ s.blocked 1 rd wr = none

/-- The operation in flight writes nothing when it completes. -/
def WritesNothing (s : State) (e : Pend) : Prop := landed s e = s

/-- Uniform register d takes x when the operation completes, and no other register or predicate changes. -/
def Returns (s : State) (e : Pend) (d : SReg) (x : DWord) : Prop := WillWriteUni s e d x ∧ e.skeys = [d.val]

/-- The instructions that start a job of an engine (R332, R335, R344). -/
inductive JobRow : (SReg → SReg → Fin 16 → Instr) → JobKind → Prop
  | copy : JobRow .cpySlice .copy
  | gather : JobRow .cpyxSlice .gather
  | cast : JobRow .mcst .multicast

/-- The selector of a job command, read by its kind (R332, R342). -/
def selectOf (k : JobKind) (s : State) (x : Nat) : Select := if k = .multicast then s.castSelect x else s.copySelect x

/-- Every check of a job command passes: card, records, selector, spans, counts (R333), and an entry of the range scoreboard is
free (R283). -/
def JobReady (s : State) (k : JobKind) (a sel : DWord) (c : Card) (x y : Layout) (t : State) : Prop :=
  (∃ t', s.readCard k a = .ok (t', c) ∧ t'.readRecords k c = .ok (t, x, y)) ∧
  t.jobChecks k a c x y (selectOf k t sel.toNat) = none ∧ t.rangeFree = true

/-- `vattr`'s report x of the page of va with leaf l, which gives a 4-bit REDOP (R322). -/
def AttrFields (s : State) (l : Leaf) (va : Nat) (x : DWord) : Prop :=
  l.redop < 16 →
    (x.extractLsb' 0 2).toNat = (match l.kind with
      | .ordinary => 0
      | .view => 1
      | .dup => 2
      | .remote => 3) ∧
    (x.extractLsb' 2 4).toNat = l.redop ∧
    (x.getLsbD 6 = true ↔ s.blk.child.isSome = true ∧ l.kind = .view) ∧
    (x.getLsbD 7 = true ↔ s.blk.child.isSome = true ∧ l.kind = .view ∧ (s.ownShadow va).isSome = true) ∧
    x.extractLsb' 8 8 = 0 ∧
    (x.getLsbD 7 = false → x.extractLsb' 16 48 = 0) ∧
    ∀ sh, x.getLsbD 7 = true → s.ownShadow va = some sh → sh.dirt.length < 1024 →
      (x.extractLsb' 16 48).toNat = sh.dirt.length

/-- The n bytes at va, which the instruction has not read before, are b as path v serves them: their page is of this package, no
sector of them is poisoned; t is the state after the read (R265, R269). -/
def LineRead (s : State) (v : Via) (va n : Nat) (b : List Byte) (t : State) : Prop :=
  s.hasRead va n = none ∧ ∃ l pa d, s.checkVa .read va = .ok l pa ∧ l.kind ≠ .remote ∧
    loadAt (keepLeaf s.dev s.blk.shape.owner va l) s.who v l va pa n = (d, b, false) ∧ t = { s with dev := d }

/-- The pieces of a record from va on, each at most 64 bytes, read one after the other (R360). -/
def LinesRead : State → Nat → List (List Byte) → State → Prop
  | s, _, [], t => t = s
  | s, va, b :: bs, t => ∃ u, LineRead s (.plain false) (va % 2 ^ 64) b.length b u ∧
      LinesRead (u.noteRead (va % 2 ^ 64) b) (va + 64) bs t

/-- A consist record reads as rec: its first line and its table are read, every field is legal (R359, R360). -/
def ConsistReads (s : State) (again : Bool) (a : DWord) (rec : ConsistRec) (t : State) : Prop :=
  ∃ h tb u n, a.toNat % 64 = 0 ∧ LineRead s (.plain false) a.toNat 64 h u ∧ (∀ e, e ∈ consistFields again h → e.2 = true) ∧
    n = recNat h 2 2 ∧ LinesRead (u.noteRead a.toNat h) (a.toNat + 64) tb t ∧ tb.length = ceilDiv (2 * n) 64 ∧
    (∀ i, i < tb.length → (nth [] tb i).length = min (2 * n - 64 * i) 64) ∧
    (∀ e, e ∈ memberFields (partOf t.dev s.blk.shape.owner) tb.flatten n → e.2 = true) ∧
    rec = ⟨cidKey t.dev s.blk.shape.owner (recNat h 0 2), n, recNat h 4 4, membersOf tb.flatten n, tb.flatten.take (2 * n)⟩

/-- RSSTAT.SENT after one more packet, the other fields as they were (R243). -/
def SentOneMore (x y : DWord) : Prop := y.extractLsb' 0 16 = x.extractLsb' 0 16 + 1 ∧ y.extractLsb' 16 48 = x.extractLsb' 16 48

end Sys2Proof.Claims

open Sys2Proof Sys2Proof.Machine Sys2Proof.Claims

/-- R265, R300, R333: a record of this package is read through the layout-record cache; poison and failed translations trap with
its address. -/
def Sys2Proof.Claims.RecordsAreReadThroughTheirCache : Prop :=
  ∀ (s : State) va agent n l pa bytes bad, s.hasRead va n = none → s.checkVa .read va = .ok l pa → l.kind ≠ .remote →
    (loadAt s.dev s.who .record l va pa n).2 = (bytes, bad) →
    (bad = false → ∃ t, s.onceRead va agent n = .ok (t.noteRead va bytes, bytes) ∧ ChangesOnly [.caches] s t) ∧
    (bad = true → ∃ t, s.onceRead va agent n = .error (t.raise { cause := cPOISON_CONSUMED, mask := s.slot.act
                                                                 path := s.wholePath, info0 := s.wordInfo, info1 := dw va }) ∧
      ChangesOnly [.caches] s t)

/-- R255: `obj.read` and `obj.priv` hold an object over the lines of a record's span and set their predicate, or clear it where
the block holds 8 objects or the cluster 32; a record at an address that is no multiple of 64 traps MISALIGNED. -/
def Sys2Proof.Claims.ObjectsAreDeclaredOverTheirSpan : Prop :=
  ∀ i (r : SReg) (q : QReg) priv, (i = .objRead r q ∧ priv = false) ∨ (i = .objPriv r q ∧ priv = true) → ∀ s : State,
    s.blocked 1 [.s r 1] [] = none →
    ((s.rs r).toNat % 64 ≠ 0 → TrapsWhole i s cMISALIGNED (s.rs r)) ∧
    ∀ t bytes rec sp ls, (s.rs r).toNat % 64 = 0 → s.onceRead (s.rs r).toNat 0 64 = .ok (t, bytes) → parseLayout bytes = .ok rec →
      rec.scratch = false → sp = rec.span rec.whole → t.onceBlocks 0 (blocks64 sp.1 sp.2) (vaOf sp.1) = none →
      sp.2 - 1 - sp.1 < 4 * 2 ^ 20 →
      ls = t.objectLines (blocks64 sp.1 sp.2 + 1) (vaOf sp.1 / 128) ((vaOf sp.1 + (sp.2 - sp.1).toNat + 127) / 128) →
      (∀ e, e ∈ ls → e.1.kind = .ordinary) →
      Completes i s fun u => ChangesOnly [.upred, .objects, .memory, .caches, .fresh] s u ∧
        ∃ rest, rest = s.dev.objs.filter (fun o => !(o.block = s.blk.key && o.recAddr = s.rs r)) ∧
        (8 ≤ (rest.filter fun o => o.block = s.blk.key).length ∨ 32 ≤ (rest.filter fun o => o.cluster = s.blk.cluster).length →
          u.dev.objs = rest ∧ QResult s u q.val False) ∧
        ((rest.filter fun o => o.block = s.blk.key).length < 8 → (rest.filter fun o => o.cluster = s.blk.cluster).length < 32 →
          QResult s u q.val True ∧ ∃ o, u.dev.objs = rest ++ [o] ∧ o.block = s.blk.key ∧ o.cluster = s.blk.cluster ∧
            o.core = s.blk.core ∧ o.recAddr = s.rs r ∧ o.lines = ls.map (·.2) ∧ o.priv = priv ∧ o.key = s.key)

/-- The parts above together: coherence objects and the records that declare them. -/
def Obligations.ObjectsAreDeclaredAndEnd : Prop := RecordsAreReadThroughTheirCache ∧ ObjectsAreDeclaredOverTheirSpan ∧ ObjectsEndByTheirRecord

/-- R283, R332-R338, R344: a job command whose checks pass releases one job to its engine: the slice of its card that the selector
names, its ranges in the scoreboard, one operation counted by SETB. -/
def Sys2Proof.Claims.JobCommandsReleaseOneJob : Prop :=
  ∀ i k, JobRow i k → ∀ (c x : SReg) (n : Fin 16) (s t : State) card lr rr,
    CommandReady s [.s c 1, .s x 1] [] → JobReady s k (s.rs c) (s.rs x) card lr rr t →
    Completes (i c x n) s fun u => KeepsOwn [.counted] s u ∧ (∃ e, Counted s u false e ∧ WritesNothing s e) ∧
      u.dev.l1 = t.dev.l1 ∧ (k ≠ .multicast → SameHomes u.dev (releaseAt t.dev s.blk.cluster .pkg)) ∧
      ∃ j, u.dev.jobs = s.dev.jobs ++ [j] ∧ u.dev.ranges = s.dev.ranges ++ [⟨s.blk.key, s.blk.core, j.id, j.reads, t.ownWrites j⟩] ∧
        (k ≠ .multicast → t.ownWrites j = j.writes) ∧
        j.kind = k ∧ j.block = s.blk.key ∧ j.gidx = s.grp.idx ∧ j.owner = s.blk.shape.owner ∧ j.cardAddr = s.rs c ∧
        j.card = card ∧ j.src = lr ∧ j.dst = rr ∧ j.sel = s.rs x ∧ j.bar = n.val ∧ j.performed = false ∧
        (k ≠ .multicast → j.mode = ((s.rs x).extractLsb' 16 2).toNat ∧
          ∀ i ns, i = ((s.rs x).extractLsb' 0 6).toNat → ns = ((s.rs x).extractLsb' 8 6).toNat + 1 → card.split < 5 →
            nth 0 j.lo card.split = i * nth 0 card.box card.split / ns ∧
            (card.split < card.box.length → nth 0 j.size card.split =
              (i + 1) * nth 0 card.box card.split / ns - i * nth 0 card.box card.split / ns) ∧
            ∀ m, m < 5 → m ≠ card.split → nth 0 j.lo m = 0 ∧ nth 0 j.size m = nth 0 card.box m)

/-- R342, R343: registrations of landing buffers are made, freed and dropped; each check that fails traps with its subcode. -/
def Sys2Proof.Claims.LandingBuffersAreRegistered : Prop :=
  (∀ (h l : SReg) (n : Fin 16) (s : State) len, s.blocked 1 [.s h 1, .s l 1] [] = none →
    len = ((s.rs l).extractLsb' 32 20).toNat → s.chanLegal (s.rs h).toNat [1, 2] = true →
    (∀ c, s.findChan (s.rs h).toNat = some c → s.member c = false ∧ (c.len = 0 ∨ c.len = len) ∧ c.members.length < 1024) →
    bufferLegal (s.rs l).toNat s.blk.shape.scrb = true → s.blk.lbufs.length < 8 →
    Completes (.lbufReg h l n) s fun u => ChangesOnly [.lbufs, .jobs, .forks, .counted, .fabric] s u ∧ u.grp = s.grp ∧
      ∃ b, u.blk.lbufs = s.blk.lbufs ++ [b] ∧ b.sel = s.rs h ∧ b.off = ((s.rs l).extractLsb' 0 20).toNat ∧ b.len = len ∧
        b.bar = n.val ∧ b.mode = ((s.rs h).extractLsb' 16 2).toNat ∧ b.free = true ∧
        (s.findChan (s.rs h).toNat = none → b.chan = s.dev.nextId)) ∧
  (∀ (h l : SReg) (n : Fin 16) (s : State), s.blocked 1 [.s h 1, .s l 1] [] = none →
    s.chanLegal (s.rs h).toNat [1, 2] = false → exec (.lbufReg h l n) s = .next (s.raise
      { cause := cMULTICAST_REGISTRATION, mask := s.slot.act, path := s.wholePath, info0 := 1 })) ∧
  (∀ (h : SReg) (s : State) c, s.blocked 1 [.s h 1] [] = none → s.chanLegal (s.rs h).toNat [0] = true →
    s.findChan (s.rs h).toNat = some c → s.member c = true →
    (Completes (.lbufFree h) s fun u => ChangesOnly [.lbufs, .memory, .caches] s u ∧
      SameHomes u.dev (releaseAt s.dev s.blk.cluster .die) ∧
      ∀ lo b up, s.blk.lbufs = lo ++ b :: up → b.chan = c.id → (∀ x, x ∈ lo → x.chan ≠ c.id) →
        u.blk.lbufs = lo ++ { b with free := true } :: up) ∧
    (s.delivering c = true → exec (.lbufDrop h) s = .next (s.waitFor .delivery)) ∧
    (s.delivering c = false → Completes (.lbufDrop h) s fun u => ChangesOnly [.lbufs, .jobs] s u ∧
      u.dev.jobs = s.dev.jobs ∧ (∀ b, b ∈ u.blk.lbufs ↔ b ∈ s.blk.lbufs ∧ b.chan ≠ c.id))) ∧
  ∀ i (h : SReg) (s : State), i = .lbufFree h ∨ i = .lbufDrop h → s.blocked 1 [.s h 1] [] = none →
    s.chanLegal (s.rs h).toNat [0] = true → s.findChan (s.rs h).toNat = none → exec i s = .next (s.raise
      { cause := cMULTICAST_REGISTRATION, mask := s.slot.act, path := s.wholePath, info0 := 2 })

/-- The parts above together: engine commands and landing buffers. -/
def Obligations.JobsAndLandingBuffersAreCommanded : Prop := JobCommandsReleaseOneJob ∧ LandingBuffersAreRegistered

/-- R239, R243, R355: `rstv` and `fxfer` send one packet to the home of their name, counted by SETB and in RSSTAT.SENT, after a
release at system scope; a value that is no name within reach traps NAME_INVALID. -/
def Sys2Proof.Claims.RemoteStoresAndTransfersAreSent : Prop :=
  (∀ (d : VReg) (n : SReg) (v : VReg) (s c : State), CommandReady s [.s n 1] [] → c = s.consume s.part [.v d 1] →
    badName s.dev s.blk.shape.owner (s.rs n) = false →
    (s.part = 0 → Completes (.rstv d n v) s fun u => ChangesOnly [.forks, .fabric] s u ∧ u.dev.outstanding = s.dev.outstanding) ∧
    (s.part ≠ 0 → s.accessBusy = false → s.blocked s.part [.v d 1] [] = none → Completes (.rstv d n v) s fun u =>
      ChangesOnly [.counted, .forks, .memory, .caches, .fabric, .rsstat] c u ∧ SentOneMore s.grp.rsstat u.grp.rsstat ∧
      (∃ e, Counted s u false e ∧ WritesNothing s e ∧ e.ext = true) ∧
      SameHomes u.dev (releaseAt c.dev s.blk.cluster .sys) ∧
      ∃ o, u.dev.outstanding = s.dev.outstanding ++ [o] ∧ o.purpose = .rstv ∧ o.block = s.blk.key ∧ o.gidx = s.grp.idx ∧
        o.name = s.rs n ∧ o.target = nameHome (s.rs n) ∧
        (nameHome (s.rs n) = s.dev.pkg → ∃ p seq prev, u.dev.inbox = s.notRestartable.dev.inbox ++ [p] ∧ p.src = s.dev.pkg ∧
          p.owner = s.blk.shape.owner ∧ p.stamp = s.dev.time ∧ p.deadline = o.deadline ∧
          p.body = .rstv o.id (s.rs n) v s.part (operandsOf s d) (s.blk.key * 32 + s.grp.idx) seq prev false))) ∧
  (∀ (n a x : SReg) (k : Fin 16) (s : State), CommandReady s [.s n 1, .s a 1, .s x 1] [] →
    s.xferChecks (s.rs n) (s.rs a) (s.rs x) = none →
    s.rangeHit false false (s.rs a).toNat ((s.rs a).toNat + ((s.rs x).extractLsb' 20 20).toNat) = false →
    s.accessBusy = false → Completes (.fxfer n a x k) s fun u =>
      ChangesOnly [.counted, .forks, .memory, .caches, .fabric, .rsstat] s u ∧ SentOneMore s.grp.rsstat u.grp.rsstat ∧
      (∃ e, Counted s u false e ∧ WritesNothing s e ∧ e.ext = true) ∧ SameHomes u.dev (releaseAt s.dev s.blk.cluster .sys) ∧
      ∃ o, u.dev.outstanding = s.dev.outstanding ++ [o] ∧ o.purpose = .transfer ∧ o.block = s.blk.key ∧ o.gidx = s.grp.idx ∧
        o.name = s.rs n ∧ o.doff = ((s.rs x).extractLsb' 0 20).toNat ∧ o.len = ((s.rs x).extractLsb' 20 20).toNat ∧
        o.counter = k.val ∧ (nameHome (s.rs n) = s.dev.pkg → ∃ p, u.dev.inbox = s.notRestartable.dev.inbox ++ [p] ∧
          p.body = .claim o.id (s.rs n) o.doff o.len k)) ∧
  (∀ (d : VReg) (n : SReg) (v : VReg) (s : State), CommandReady s [.s n 1] [] →
    badName s.dev s.blk.shape.owner (s.rs n) = true → exec (.rstv d n v) s = .next (s.raise
        { cause := cNAME_INVALID, mask := s.slot.act, path := s.wholePath, info0 := s.rs n })) ∧
  ∀ (n a x : SReg) (k : Fin 16) (s : State), CommandReady s [.s n 1, .s a 1, .s x 1] [] →
    badName s.dev s.blk.shape.owner (s.rs n) = true → exec (.fxfer n a x k) s = .next (s.raise
      { cause := cNAME_INVALID, mask := s.slot.act, path := s.wholePath, info0 := s.rs n })

/-- R357, R358: `arrc.set` clears, consumes or keeps COUNT and sets TARGET; `arrc.wait` returns once COUNT has reached a TARGET
that is not 0, as an acquire at system scope. -/
def Sys2Proof.Claims.ArrivalCountersAreSetAndAwaited : Prop :=
  (∀ (v : SReg) (k : Fin 16) (s : State) c, CommandReady s [.s v 1] [] → c = s.blk.counter k →
    ((s.rs v).extractLsb' 32 30 ≠ 0 → TrapsWhole (.arrcSet v k) s cILLEGAL_OPERAND (s.rs v)) ∧
    ((s.rs v).extractLsb' 32 30 = 0 → (s.rs v).getLsbD 62 = true → (s.rs v).getLsbD 63 = false → c.count < c.target →
      TrapsWhole (.arrcSet v k) s cILLEGAL_OPERAND (dw c.count)) ∧
    ((s.rs v).extractLsb' 32 30 = 0 →
      ((s.rs v).getLsbD 62 = true → (s.rs v).getLsbD 63 = false → c.target ≤ c.count) →
      Completes (.arrcSet v k) s fun u => (∃ w, ChangesOnly [.counted, .arrivals] s w ∧
          ((w.blk.counter k).released = false → u = w) ∧
          ((w.blk.counter k).released = true → u = { w with grp := w.grp.release k, blk := w.blk.release k })) ∧
        (∃ e, Counted s u false e ∧ WritesNothing s e) ∧ (∀ j, j ≠ k.val → u.blk.counter j = s.blk.counter j) ∧
        (u.blk.counter k).target = ((s.rs v).extractLsb' 0 32).toNat ∧
        (u.blk.counter k).count = if (s.rs v).getLsbD 63 then 0 else if (s.rs v).getLsbD 62 then c.count - c.target
          else c.count)) ∧
  ∀ (k : Fin 16) (s : State) c, c = s.blk.counter k →
    (s.slot.micro = 1 ∨ (c.target ≠ 0 ∧ c.target ≤ c.count) → Completes (.arrcWait k) s fun u => ChangesOnly [.caches] s u ∧
      u.dev = acquireAt s.dev s.blk.core s.blk.cluster .sys) ∧
    (s.slot.micro ≠ 1 → ¬ (c.target ≠ 0 ∧ c.target ≤ c.count) → exec (.arrcWait k) s = .next (s.waitFor (.counter k)))

/-- The parts above together: remote stores, transfers and arrival counters. -/
def Obligations.RemoteStoresTransfersAndCountersOfAGroup : Prop := RemoteStoresAndTransfersAreSent ∧ ArrivalCountersAreSetAndAwaited

/-- R360, R361: a formation begins with its record and answers at once or waits; it returns its status when the formation has
ended. -/
def Sys2Proof.Claims.FormationsReturnTheirStatus : Prop :=
  ∀ i again (d r : SReg), (i = .collForm d r ∧ again = false) ∨ (i = .collReform d r ∧ again = true) → ∀ s : State,
    CommandReady s [.s r 1] [.s d 1] →
    (∀ f st, s.slot.micro = 1 → s.formResult = some f → f.status = some st → Completes i s fun u =>
      ChangesOnly [.counted, .colls] s u ∧ u.dev.consists = s.dev.consists ∧ u.dev.colls = s.dev.colls ∧
      ∃ e, Counted s u false e ∧ Returns s e d (dw st)) ∧
    (∀ f, s.slot.micro = 1 → s.formResult = some f → f.status = none → exec i s = .next (s.waitFor (.form f.cid))) ∧
    ∀ t rec x st, s.slot.micro ≠ 1 ∨ s.formResult = none → ConsistReads s again (s.rs r) rec t →
      x = (if again then reformStatus t.notRestartable.dev s.blk.shape.owner rec
        else formStatus t.notRestartable.dev s.blk.shape.owner rec) →
      (x.2 = some st → Completes i s fun u => KeepsOwn [.counted] s u ∧ st < 8 ∧
        (again = false → (∀ m, m ∈ rec.members → m.1 ≠ t.dev.pkg) → st = 3) ∧
        (again = true → heldHere t.dev rec.cid = none → st = 7) ∧
        ∃ e, Counted s u false e ∧ Returns s e d (dw st) ∧ u.dev.consists = x.1.consists) ∧
      (x.2 = none → ∃ u, exec i s = .next u ∧ KeepsOwn [.paths] s u ∧ u.slot.micro = 1 ∧ u.slot.wait = .form rec.cid ∧
        u.slot.pc = s.slot.pc)

/-- R363, R367, R369: `coll` submits its lanes' buffers, `coll.wait` returns the status and time of a collective that has ended
here, `coll.abort` asks for its abort; each is counted by SETB. -/
def Sys2Proof.Claims.CollectiveCommandsAreCounted : Prop :=
  (∀ (p a : VReg) (c : SReg) (s : State), CommandReady s [.s c 1] [] → s.part = 0 →
    Completes (.coll p a c) s fun u => ChangesOnly [.forks, .fabric] s u ∧ u.dev.outstanding = s.dev.outstanding) ∧
  (∀ (p a : VReg) (c : SReg) (s v : State) b k card rk va, CommandReady s [.s c 1] [] → s.part ≠ 0 →
    s.blocked s.part [.v p 1, .v a 2] [] = none → (s.rs c).toNat % 64 = 0 → LineRead s (.plain false) (s.rs c).toNat 64 b v →
    v.cardConsist (recNat b 0 2) = some k → (∀ e, e ∈ collFields (some k) b → e.2 = true) → card = parseColl b →
    rk = (fun L => (s.rv L p).toNat) → va = (fun L => (s.rv2 L a).toNat) → v.badRanks k card.seq s.part rk = 0 →
    (∀ L, L < 32 → inM s.part L = true → va L % 4 = 0) → v.bufferChecks card k.members.length s.part rk va = none →
    v.accessBusy = false → Completes (.coll p a c) s fun u => KeepsOwn [.counted, .holds] s u ∧ ∃ e, Counted s u false e ∧ WritesNothing s e) ∧
  (∀ (d c : SReg) (s t : State) b k st, CommandReady s [.s c 1] [.s d 2] → (∀ x y z, s.slot.wait ≠ .coll x y z) →
    (s.rs c).toNat % 64 = 0 → LineRead s (.plain false) (s.rs c).toNat 64 b t → t.cardConsist (recNat b 0 2) = some k →
    (collStatus t.dev k.cid k.epoch (recNat b 8 4) = some st → Completes (.collWait d c) s fun u =>
      KeepsOwn [.counted] s u ∧ u.dev.colls = t.dev.colls ∧
      ∃ e, Counted s u false e ∧ e.skeys = [d.val, d.val + 1] ∧ ChangesOnly [.uni] s (landed s e) ∧
        (landed s e).rs d = statusWord st ∧ (landed s e).rs (d.val + 1) = dw st.stime ∧
        ∀ r, r ≠ d.val → r ≠ d.val + 1 → (landed s e).rs r = s.rs r) ∧
    (collStatus t.dev k.cid k.epoch (recNat b 8 4) = none → ∃ u, KeepsOwn [.paths] s u ∧
      exec (.collWait d c) s = .next (u.waitFor (.coll k.cid k.epoch (recNat b 8 4))))) ∧
  (∀ (d c : SReg) (s : State) x y z st, CommandReady s [.s c 1] [.s d 2] → s.slot.wait = .coll x y z →
    collStatus s.dev x y z = some st → Completes (.collWait d c) s fun u => ChangesOnly [.counted, .caches] s u ∧
      ∃ e, Counted s u false e ∧ e.skeys = [d.val, d.val + 1] ∧ e.svals = [(d.val, statusWord st), (d.val + 1, dw st.stime)]) ∧
  (∀ (c : SReg) (s t : State) b k, CommandReady s [.s c 1] [] → (s.rs c).toNat % 64 = 0 →
    LineRead s (.plain false) (s.rs c).toNat 64 b t → t.cardConsist (recNat b 0 2) = some k →
    Completes (.collAbort c) s fun u => KeepsOwn [.counted] s u ∧ ∃ e, Counted s u false e ∧ WritesNothing s e) ∧
  ∀ i (c : SReg) (s : State), (i = .collAbort c ∧ CommandReady s [.s c 1] [] ∨
      (∃ d : SReg, i = .collWait d c ∧ CommandReady s [.s c 1] [.s d 2] ∧ ∀ x y z, s.slot.wait ≠ .coll x y z)) →
    (s.rs c).toNat % 64 ≠ 0 → TrapsWhole i s cMISALIGNED (s.rs c)

/-- The parts above together: formations and collective commands. -/
def Obligations.CollectivesAreFormedAndCommanded : Prop := FormationsReturnTheirStatus ∧ CollectiveCommandsAreCounted

/-- R307, R308, R316, R318: `fork` opens the fork of its record with every child unstarted, after a release at its scope; a
second open fork, depth 8 and a misaligned record trap; `joinw` waits for the join, then acquires and returns the status. -/
def Sys2Proof.Claims.ForksOpenAndJoin : Prop :=
  (∀ (r : SReg) (s : State), CommandReady s [.s r 1] [] →
    (s.forking = true → TrapsWhole (.fork r) s cILLEGAL_OPERAND 0x100) ∧
    (s.forking = false → 8 ≤ (s.blk.child.map (·.depth)).getD 0 → TrapsWhole (.fork r) s cILLEGAL_OPERAND 0x101) ∧
    (s.forking = false → (s.blk.child.map (·.depth)).getD 0 < 8 → (s.rs r).toNat % 64 ≠ 0 →
      TrapsWhole (.fork r) s cMISALIGNED (s.rs r)) ∧
    ∀ t b fr, s.forking = false → (s.blk.child.map (·.depth)).getD 0 < 8 → (s.rs r).toNat % 64 = 0 →
      LineRead s (.plain false) (s.rs r).toNat 64 b t → (∀ e, e ∈ forkFields t.confined b → e.2 = true) → fr = parseFork b →
      (t.blockJobs = true → exec (.fork r) s = .next ((t.noteRead (s.rs r).toNat b).waitFor .jobs)) ∧
      (t.blockJobs = false → (fr.domain = 4 → t.fabricBusy = false) → Completes (.fork r) s fun u =>
        KeepsOwn [.counted] s u ∧ (∃ e, Counted s u false e ∧ WritesNothing s e) ∧
        SameHomes u.dev (releaseAt t.dev s.blk.cluster (scopeOf fr.domain)) ∧
        ∃ f, u.dev.forks = t.dev.forks ++ [f] ∧ f.block = s.blk.key ∧ f.owner = s.blk.shape.owner ∧ f.launch = s.blk.launch ∧
          f.fr = fr ∧ f.twins = [] ∧ f.children = (List.range fr.nch).map fun i => ({ idx := i } : Child))) ∧
  ∀ (d : SReg) (s : State), CommandReady s [] [.s d 1] →
    (s.forking = true → exec (.joinw d) s = .next (s.waitFor .join)) ∧
    (s.forking = false → (∀ j, j ∈ s.dev.joins → j.1 ≠ s.blk.key) → Completes (.joinw d) s fun u =>
      ChangesOnly [.counted] s u ∧ ∃ e, Issues s u false e ∧ Returns s e d 0) ∧
    (s.forking = false → (∃ j, j ∈ s.dev.joins ∧ j.1 = s.blk.key) → s.lastJoin.trap = none → Completes (.joinw d) s fun u =>
      ChangesOnly [.counted, .caches] s u ∧ (∃ e, Issues s u false e ∧ Returns s e d s.lastJoin.status) ∧
      u.dev.l1 = (acquireAt s.dev s.blk.core s.blk.cluster (scopeOf s.lastJoin.domain)).l1)

/-- R311, R322: `vattr.q` reports the attributes of a page and changes nothing; `vattr.rsv` first makes what a first write would
allocate. -/
def Sys2Proof.Claims.ViewAttributesAreReported : Prop :=
  ∀ (d a : SReg) (s : State) l pa va, s.blocked 1 [.s a 1] [.s d 1] = none → va = (s.rs a).toNat → s.checkVa .read va = .ok l pa →
    (Completes (.vattrQ d a) s fun u => ChangesOnly [.uni, .caches] s u ∧
      ∃ x, UniResult s u d x ∧ AttrFields s l.held va x) ∧
    (s.blk.child = none → Completes (.vattrRsv d a) s fun u => ChangesOnly [.uni, .caches] s u ∧
      ∃ x, UniResult s u d x ∧ AttrFields s l.held va x) ∧
    ∀ t e, t = s.onDev (fun x => keepLeaf x s.blk.shape.owner va l.held) → s.pageToFetch [⟨0, va, l.held, pa⟩] = none →
      t.makeRoom [⟨0, va, l.held, pa⟩] = some e → Completes (.vattrRsv d a) s fun u =>
        ChangesOnly [.uni, .caches, .forks, .pools] s u ∧ u.dev = e ∧ ∃ x, UniResult s u d x ∧ AttrFields u l.held va x

/-- The parts above together: `fork`, `joinw` and `vattr`. -/
def Obligations.ForksOpenJoinAndReport : Prop := ForksOpenAndJoin ∧ ViewAttributesAreReported

namespace Sys2Proof.Claims

open Sys2Proof Sys2Proof.Machine

/-! ## The matrix sequencer (R124-R148) -/

/-- The stream instruction is performed and the sequencer goes on to the next one: u is the state with the effects (R126). -/
def StreamCompletes (i : Instr) (s : State) (effect : State → Prop) : Prop := ∃ u, exec i s = .next u.mxNext ∧ effect u

/-- Register kD takes x; every other k-register and the rest of the machine are as they were. -/
def KResult (s u : State) (d : Nat) (x : DWord) : Prop :=
  ChangesOnly [.stream] s u ∧ u.seq = { s.seq with k := u.seq.k } ∧ u.seq.rk d = x ∧ ∀ j, j ≠ d → u.seq.rk j = s.seq.rk j

/-- Where the sequencer stands after an instruction that does not branch: the next slot, or the next clause (R22, R126). -/
def nextSlot (q : Seq) : DWord := if q.idx < q.last then q.pc + 4 else q.clause + 32

/-- Predicate kqP is b, every other predicate as it was. -/
def KqResult (s u : State) (p : Fin 4) (b : Bool) : Prop :=
  u.seq.kq.getLsbD p.val = b ∧ ∀ j : Fin 4, j ≠ p → u.seq.kq.getLsbD j.val = s.seq.kq.getLsbD j.val

/-- The sequencer of u is that of s but for predicate kqP, which is b. -/
def OnlyKq (s u : State) (p : Fin 4) (b : Bool) : Prop :=
  ChangesOnly [.stream] s u ∧ KqResult s u p b ∧ u.seq = { s.seq with kq := u.seq.kq }

/-- Stream instructions that need a reservation (R147). -/
inductive NeedsReservation : Instr → Prop
  | tclm p n c : NeedsReservation (.tclm p n c)
  | trel n c : NeedsReservation (.trel n c)
  | tld n l c : NeedsReservation (.tld n l c)
  | tldSp n l c : NeedsReservation (.tldSp n l c)
  | mma d a b : NeedsReservation (.mma d a b)
  | mmas d a b : NeedsReservation (.mmas d a b)
  | accz d n : NeedsReservation (.accz d n)
  | accst d l c : NeedsReservation (.accst d l c)
  | accld d l c : NeedsReservation (.accld d l c)
  | dmap n a : NeedsReservation (.dmap n a)

/-- The place of an element, as the record read in state t gives it, is read in state v as the number z (R135, R250, R310). -/
def ReadsAs (t v : State) (a : Nat × Nat) (z : Nat) : Prop :=
  ∃ l pa, t.mxXlat .read a.1 = .ok (l, pa) ∧ v.mxNat (l, a.1, pa, a.2) = .ok z

/-- What a dense slot holds at an element whose byte or bytes read as z: a 4-bit kind takes its half (R68). -/
def halfOf (r : Layout) (c : List Int) (z : Nat) : Nat :=
  if r.type.nibble then (if r.high c then z / 16 else z % 16) else z

/-- The run exponents of a slot: the signed bytes of the scale vector, 0 where there is none (R76, R135). -/
def ScalesOf (t v : State) (r : Layout) (o : List Int) (x : Tile) (lw : Nat) : Prop :=
  ∀ l i : Nat, l < 64 → i < runsOf lw →
    (r.scaleSpot (posOf o (64 * i : Nat) l) = none → x.exp l (64 * i) = 0) ∧
    ∀ a, r.scaleSpot (posOf o (64 * i : Nat) l) = some a → ∃ z, ReadsAs t v a z ∧ x.exp l (64 * i) = sext z 8

/-- Slot n of u is x and every other slot is as in s; of the sequencer nothing else changes. -/
def TileResult (s u : State) (n : Nat) (x : Tile) : Prop :=
  ChangesOnly [.stream, .memory, .caches] s u ∧ u.seq = { s.seq with tiles := u.seq.tiles } ∧ u.seq.tile n = some x ∧
  ∀ m, m ≠ n → u.seq.tile m = s.seq.tile m

/-- A slot that a multiply reads as an operand: claimed, tagged t, with the HI slot of its map (R136, R138). -/
def SlotOf (s : State) (n : TName) (x : Tile) (t : SlotTag) (hi : Option Tile) : Prop :=
  s.seq.tile n.val = some x ∧ x.tag = some t ∧
  ((t.mapped = false ∧ hi = none) ∨ (t.mapped = true ∧ t.kind = .dpw8 ∧ hi ≠ none ∧ s.seq.tile (n.val + 1) = hi))

/-- MF names the kinds of a pair of R134. -/
def FormatOf (s : State) (ka kb : Elem) (p : Pair) : Prop :=
  Elem.ofCode s.seq.ka = some ka ∧ Elem.ofCode s.seq.kb = some kb ∧ pairOf ka kb = some p

/-- The new value of an accumulator element and its flags: over K positions in chunks, or the wrapped exact sum (R83, R136). -/
def newElement (p : Pair) (c : Nat) (a b : Nat → List Val) (k : Nat) : Nat × FFlags :=
  match p with
  | .float w => mmaElement c a b k w
  | .int => ((BitVec.ofInt 32 (sext c 32 + ((List.range k).map fun j => ((crossVals (a j) (b j)).map fun x => valInt x.1).sum).sum)).toNat, 0)

/-- Tile d is multiplied into, every other tile kept, the flags of its roundings set in MXSTAT; nothing else changes (R136, R145). -/
def Multiplied (s u : State) (d : Nat) (p : Pair) (a b : Operand) (k : Nat) : Prop :=
  ChangesOnly [.stream] s u ∧
  u.seq = { s.seq with acc := u.seq.acc, iv := u.seq.iv, of := u.seq.of, uf := u.seq.uf, nx := u.seq.nx } ∧
  (∀ m n : Nat, m < 64 → n < 64 → Sparse.get 0 u.seq.acc (4096 * d + (64 * m + n)) =
    BitVec.ofNat 32 (newElement p (s.seq.elem d (64 * m + n)) (a m) (b n) k).1) ∧
  (∀ x, x / 4096 ≠ d → Sparse.get 0 u.seq.acc x = Sparse.get 0 s.seq.acc x) ∧
  ∀ f, f = (fun (i : Nat) => (List.range 4096).any fun e =>
      (newElement p (s.seq.elem d e) (a (e / 64)) (b (e % 64)) k).2.getLsbD i) →
    u.seq.iv = (s.seq.iv || f 0) ∧ u.seq.of = (s.seq.of || f 2) ∧ u.seq.uf = (s.seq.uf || f 3) ∧ u.seq.nx = (s.seq.nx || f 4)

/-- Byte pa is one of those at which `accst` stores element e (R140). -/
def StoredBy (r : Layout) (e : (Nat × List Int) × (Leaf × Nat × Nat × Nat)) (pa : Nat) : Prop :=
  e.2.2.2.1 ≤ pa ∧ pa < e.2.2.2.1 + r.type.size

/-- The lines of the elements with the cluster's dirty bytes written back (R250). -/
def settled (s : State) (ls : List (Leaf × Nat × Nat × Nat)) : Dev :=
  (ls.flatMap fun x => [x.2.2.1 / 128, (x.2.2.1 + x.2.2.2 - 1) / 128]).foldl
    (fun d l => dropLine d s.blk.core s.blk.cluster l) s.dev

end Sys2Proof.Claims

open Sys2Proof Sys2Proof.Machine Sys2Proof.Claims

/-- R141, R142, R133, R22: the sequencer's arithmetic, its format and its branches; the instruction after is the next slot or the
next clause, a taken branch goes to the clause at its offset. -/
def Sys2Proof.Claims.SequencerRegistersAndBranches : Prop :=
  (∀ s : State, s.mxNext.seq.pc = nextSlot s.seq ∧ ChangesOnly [.stream] s s.mxNext ∧
    (s.seq.idx < s.seq.last → s.mxNext.seq.words = s.seq.words) ∧ (¬ s.seq.idx < s.seq.last → s.mxNext.seq.words = none) ∧
    s.mxNext.seq = { s.seq with pc := s.mxNext.seq.pc, words := s.mxNext.seq.words, wait := .none }) ∧
  (∀ (d : Fin 16) (i : BitVec 16) (s : State), StreamCompletes (.kmovi d 0 i) s fun u => KResult s u d (i.setWidth 64)) ∧
  (∀ (d : Fin 16) (h : Fin 4) (i : BitVec 16) (s : State), h.val ≠ 0 → StreamCompletes (.kmovi d h i) s fun u =>
    ∃ x, KResult s u d x ∧ x.extractLsb' (16 * h.val) 16 = i ∧
      ∀ j : Fin 4, j ≠ h → x.extractLsb' (16 * j.val) 16 = (s.seq.rk d).extractLsb' (16 * j.val) 16) ∧
  (∀ (d a : Fin 16) (i : BitVec 13) (s : State), StreamCompletes (.kadd d a i) s fun u =>
    KResult s u d (s.seq.rk a + i.signExtend 64)) ∧
  (∀ (d a b : Fin 16) (s : State), StreamCompletes (.kaddReg d a b) s fun u => KResult s u d (s.seq.rk a + s.seq.rk b)) ∧
  (∀ (eb ea : BitVec 7) (kb ka : Fin 16) (s : State), StreamCompletes (.mfmt eb ea kb ka) s fun u =>
    u = { s with blk := { s.blk with seq := { s.blk.seq with ka := ka.val, kb := kb.val, ea := ea.toInt, eb := eb.toInt } } }) ∧
  (∀ i (o : BitVec 16) (taken : State → Prop),
    (i = .kbra o ∧ taken = fun _ => True) ∨
    (∃ p : Fin 4, (i = .kbraKq p o ∧ taken = fun s => s.seq.kq.getLsbD p.val = true) ∨
      (i = .kbraNkq p o ∧ taken = fun s => s.seq.kq.getLsbD p.val = false)) →
    ∀ s : State, (¬ taken s → exec i s = .next s.mxNext) ∧
      (taken s → ∃ t, exec i s = .next t ∧ ChangesOnly [.stream] s t ∧
        t.seq = { s.seq with pc := s.seq.clause + 32 * o.signExtend 64, words := none, wait := .none })) ∧
  ∀ (d : Fin 16) (o : BitVec 16) (s : State),
    (s.seq.rk d = 1 → StreamCompletes (.kbraDec d o) s fun u => KResult s u d 0) ∧
    (s.seq.rk d ≠ 1 → ∃ u t, KResult s u d (s.seq.rk d - 1) ∧ exec (.kbraDec d o) s = .next t ∧ ChangesOnly [.stream] s t ∧
      t.seq = { u.seq with pc := s.seq.clause + 32 * o.signExtend 64, words := none, wait := .none })

/-- R125, R127, R129, R143: `mx.start` starts the block's stream at its entry, k0 and k1 taken from its operands, k2 to k15 and the
predicates zero; a running stream traps MATRIX_RESERVATION, an entry that names no clause MISALIGNED. The sequencer arrives at and
waits for matrix barriers; `mend` ends the stream with its reservation and names. -/
def Obligations.StreamsStartMeetAndEnd : Prop :=
  (∀ (e x y : SReg) (s : State), CommandReady s [.s e 1, .s x 1, .s y 1] [] →
    (s.blk.seq.run = true → TrapsWhole (.mxStart e x y) s cMATRIX_RESERVATION 0) ∧
    (s.blk.seq.run = false → (s.rs e).toNat % 32 ≠ 0 → TrapsWhole (.mxStart e x y) s cMISALIGNED (s.rs e)) ∧
    (s.blk.seq.run = false → (s.rs e).toNat % 32 = 0 → Completes (.mxStart e x y) s fun u =>
      ChangesOnly [.counted, .stream, .memory, .caches] s u ∧ SameHomes u.dev (releaseAt s.dev s.blk.cluster .pkg) ∧
      (∃ p, Issues s u false p ∧ WritesNothing s p) ∧
      Sparse.get 0 u.blk.seq.k 0 = s.rs x ∧ Sparse.get 0 u.blk.seq.k 1 = s.rs y ∧
      (∀ j, 2 ≤ j → Sparse.get 0 u.blk.seq.k j = 0) ∧
      u.blk.seq = { s.blk.seq with pc := s.rs e, words := none, run := true, halt := false, cause := 0, k := u.blk.seq.k, kq := 0
                                   ka := 0, kb := 0, ea := 0, eb := 0, wait := .none })) ∧
  (∀ (n : Fin 8) (s : State) x, x = s.blk.mbar n →
    (x.seqArr = true → exec (.mxbarArr n) s = .next (s.onSeq fun q => { q with wait := .barArrive n.val })) ∧
    (x.seqArr = false → StreamCompletes (.mxbarArr n) s fun u => ChangesOnly [.stream, .mbars] s u ∧ u.grp = s.grp ∧
      u.seq = { s.seq with barPhase := u.seq.barPhase } ∧ Sparse.get 0 u.seq.barPhase n = x.phase.toNat + 1 ∧
      (∀ m, m ≠ n.val → Sparse.get 0 u.seq.barPhase m = Sparse.get 0 s.seq.barPhase m ∧ u.blk.mbar m = s.blk.mbar m) ∧
      (s.liveAll &&& ~~~ x.arr = 0 → u.blk.mbar n = { phase := x.phase + 1 }) ∧
      (s.liveAll &&& ~~~ x.arr ≠ 0 → u.blk.mbar n = { x with seqArr := true }))) ∧
  (∀ (n : Fin 8) (s : State),
    (Sparse.get 0 s.seq.barPhase n = (s.blk.mbar n).phase.toNat + 1 →
      exec (.mxbarWait n) s = .next (s.onSeq fun q => { q with wait := .bar n.val })) ∧
    (Sparse.get 0 s.seq.barPhase n ≠ (s.blk.mbar n).phase.toNat + 1 → exec (.mxbarWait n) s = .next s.mxNext)) ∧
  ∀ s : State, ∃ t, exec .mend s = .next t ∧ KeepsOwn [.stream, .mbars] s t ∧ t.grp = s.grp ∧
    t.seq = { s.seq with run := false, words := none, wait := .none, res := .none, tiles := [], rstw := false }

/-- R129, R130, R132, R139, R147: reservations and slot names. The home engine always grants; a neighbour does where the block's
tiles fit beside its own and those it lends; `tclm` claims names as all-zero slots where that many are free. -/
def Obligations.ReservationsAndSlotsAreTaken : Prop :=
  (∀ (p e : Fin 4) (h : Bool) (s : State) nb lent, s.seq.res = .none → nb = 4 * s.blk.cluster + e.val →
    lent = Sparse.get 0 s.dev.lent nb →
    (h = true ∨ e.val = s.blk.core % 4 → StreamCompletes (.mxacq p e h) s fun u => ChangesOnly [.stream] s u ∧
      KqResult s u p true ∧ u.seq = { s.seq with kq := u.seq.kq, res := .home }) ∧
    (h = false → e.val ≠ s.blk.core % 4 →
      (s.blk.shape.accs + ((shapesOn s.dev nb).map fun x => x.accs).sum + lent ≤ 32 →
        StreamCompletes (.mxacq p e h) s fun u => KqResult s u p true ∧
          u.seq = { s.seq with kq := u.seq.kq, res := .neighbour nb } ∧ Sparse.get 0 u.dev.lent nb = lent + s.blk.shape.accs ∧
          ∃ d, ChangesOnly [.stream] { s with dev := { s.dev with lent := d } } u) ∧
      (32 < s.blk.shape.accs + ((shapesOn s.dev nb).map fun x => x.accs).sum + lent →
        StreamCompletes (.mxacq p e h) s fun u => OnlyKq s u p false))) ∧
  (∀ s : State, StreamCompletes .mxrel s fun u => u.seq = { s.seq with res := .none, tiles := [], rstw := false } ∧
    (∃ d, ChangesOnly [.stream] { s with dev := { s.dev with lent := d } } u) ∧
    ∀ e, (s.seq.res = .neighbour e → Sparse.get 0 u.dev.lent e = Sparse.get 0 s.dev.lent e - s.blk.shape.accs) ∧
      (s.seq.res ≠ .neighbour e → Sparse.get 0 u.dev.lent e = Sparse.get 0 s.dev.lent e)) ∧
  (∀ (p : Fin 4) (n : TName) (c : Fin 64) (s : State) core, s.seq.res ≠ .none → s.blk.server = some core →
    ((∃ j : Nat, j ≤ c.val ∧ s.seq.claimed (n.val + j) = true) → exec (.tclm p n c) s = .next (s.halt cMATRIX_SLOT 0)) ∧
    ((∀ j : Nat, j ≤ c.val → s.seq.claimed (n.val + j) = false) →
      (slotsHeld s.dev core + s.seq.tiles.length + c.val + 1 ≤ 64 → restoreWaits s.dev core = false →
        StreamCompletes (.tclm p n c) s fun u => ChangesOnly [.stream] s u ∧ KqResult s u p true ∧
          u.seq = { s.seq with kq := u.seq.kq, tiles := u.seq.tiles } ∧
          (∀ j : Nat, j ≤ c.val → u.seq.tile (n.val + j) = some {}) ∧
          ∀ m, m < n.val ∨ n.val + c.val < m → u.seq.tile m = s.seq.tile m) ∧
      (64 < slotsHeld s.dev core + s.seq.tiles.length + c.val + 1 ∨ restoreWaits s.dev core = true →
        StreamCompletes (.tclm p n c) s fun u => OnlyKq s u p false))) ∧
  (∀ (n : TName) (c : Fin 64) (s : State), s.seq.res ≠ .none →
    ((∃ j : Nat, j ≤ c.val ∧ s.seq.claimed (n.val + j) = false) → exec (.trel n c) s = .next (s.halt cMATRIX_SLOT 0)) ∧
    ((∀ j : Nat, j ≤ c.val → s.seq.claimed (n.val + j) = true) → StreamCompletes (.trel n c) s fun u =>
      ChangesOnly [.stream] s u ∧ u.seq = { s.seq with tiles := u.seq.tiles } ∧
      (∀ j : Nat, j ≤ c.val → u.seq.claimed (n.val + j) = false) ∧
      ∀ m, m < n.val ∨ n.val + c.val < m → u.seq.tile m = s.seq.tile m)) ∧
  ∀ (d n : Fin 32) (s : State), s.seq.res ≠ .none → StreamCompletes (.accz d n) s fun u =>
    ChangesOnly [.stream] s u ∧ u.seq = { s.seq with acc := u.seq.acc } ∧
    ∀ x, (d.val ≤ x / 4096 ∧ x / 4096 ≤ d.val + n.val → Sparse.get 0 u.seq.acc x = 0) ∧
      (x / 4096 < d.val ∨ d.val + n.val < x / 4096 → Sparse.get 0 u.seq.acc x = Sparse.get 0 s.seq.acc x)

/-- R135, R137, R138, R140: tiles are loaded through layout records, elements outside the extents read as the pad value or as zero;
`dmap` attaches a map; `accld` loads and `accst` stores an accumulator tile. -/
def Obligations.TilesMoveThroughTheirRecords : Prop :=
  (∀ (n : TName) (l c : Fin 16) (s t v w : State) r o vs xs, s.seq.res ≠ .none → s.seq.claimed n.val = true →
    s.mxRecord l c tileKind = .ok (t, r, o) → nth 0 o 0 % (r.type.kd : Int) = 0 → t.mxTake (denseTakes r o) = .ok (v, vs) →
    v.mxTake (scaleTakes r o r.type.kd) = .ok (w, xs) → StreamCompletes (.tld n l c) s fun u => ∃ x : Tile,
      TileResult s u n.val x ∧ x.tag = some ⟨r.type, 0, r.scale != 0, false⟩ ∧ ScalesOf v w r o x r.type.kd ∧
      ∀ m e : Nat, m < 64 → e < r.type.kd →
        (r.inside (posOf o e m) = false → x.bits r.type m e = r.padBits) ∧
        (r.inside (posOf o e m) = true → ∃ z, ReadsAs t v (r.spot (posOf o e m)) z ∧
          x.bits r.type m e = halfOf r (posOf o e m) z)) ∧
  (∀ (n : TName) (l c : Fin 16) (s t v w y : State) r o len ms vs xs, s.seq.res ≠ .none → s.seq.claimed n.val = true →
    s.mxRecord l c tileKind = .ok (t, r, o) → r.type.nibble = false → r.keep ≠ 0 →
    nth 0 o 0 % (2 * r.type.kd : Nat) = 0 → len = r.keep * r.type.size →
    t.mxTake (runTakes r o 0 8 fun l i j => 16 * l + 8 * i + j) = .ok (v, ms) →
    v.mxTake (runTakes r o 8 len fun l i j => 64 * l + len * i + j) = .ok (w, vs) →
    w.mxTake (scaleTakes r o (2 * r.type.kd)) = .ok (y, xs) → StreamCompletes (.tldSp n l c) s fun u => ∃ x : Tile,
      TileResult s u n.val x ∧ x.tag = some ⟨r.type, r.keep, r.scale != 0, false⟩ ∧ ScalesOf w y r o x (2 * r.type.kd) ∧
      ∀ m i : Nat, m < 64 → i < runsOf (2 * r.type.kd) → ∀ run, run = posOf o (64 * i : Nat) m →
        (r.inside run = false → x.mask m i = 0) ∧
        (r.inside run = true →
          (∀ j : Nat, j < 8 → ∃ z, ReadsAs t v (vaOf (r.runAddr run + j), 1) z ∧ x.mask m i / 256 ^ j % 256 = z) ∧
          ∀ j : Nat, j < len → ∃ z, ReadsAs v w (vaOf (r.runAddr run + (8 + j : Nat)), 1) z ∧
            Sparse.get 0 x.bytes (64 * m + len * i + j) = BitVec.ofNat 8 z)) ∧
  (∀ (n : TName) (a : Fin 16) (s v : State) x vs, s.seq.res ≠ .none → s.seq.tile n.val = some x →
    (s.seq.rk a).toNat % 8 = 0 →
    s.mxTake ((List.range 512).map fun i => ⟨i, .inr (((s.seq.rk a).toNat + i) % 2 ^ 64, 1)⟩) = .ok (v, vs) →
    StreamCompletes (.dmap n a) s fun u => ∃ y : Tile, TileResult s u n.val y ∧ y.bytes = x.bytes ∧ y.exps = x.exps ∧
      y.masks = x.masks ∧ y.tag = x.tag.map (fun g => { g with mapped := true }) ∧
      ∀ i : Nat, i < 512 → ∃ z, ReadsAs s v (((s.seq.rk a).toNat + i) % 2 ^ 64, 1) z ∧
        Sparse.get 0 y.map i = BitVec.ofNat 8 z) ∧
  (∀ (d : Fin 32) (l c : Fin 16) (s t v : State) r o vs, s.seq.res ≠ .none → s.mxRecord l c accKind = .ok (t, r, o) →
    t.mxTake ((accSpots r o).map fun x => ⟨x.1, .inr (r.spot x.2)⟩) = .ok (v, vs) → StreamCompletes (.accld d l c) s fun u =>
      ChangesOnly [.stream, .memory, .caches] s u ∧ u.seq = { s.seq with acc := u.seq.acc } ∧
      (∀ x, x / 4096 ≠ d.val → Sparse.get 0 u.seq.acc x = Sparse.get 0 s.seq.acc x) ∧
      ∀ m n : Nat, m < 64 → n < 64 →
        (r.inside (posOf o n m) = false → Sparse.get 0 u.seq.acc (4096 * d.val + (64 * m + n)) = 0) ∧
        (r.inside (posOf o n m) = true → ∃ z, ReadsAs t v (r.spot (posOf o n m)) z ∧
          Sparse.get 0 u.seq.acc (4096 * d.val + (64 * m + n)) = BitVec.ofNat 32 (accIn r.type z))) ∧
  ∀ (d : Fin 32) (l c : Fin 16) (s t : State) r o ls, s.seq.res ≠ .none → s.mxRecord l c accKind = .ok (t, r, o) →
    t.mxLeaves .write ((accSpots r o).map fun x => r.spot x.2) = .ok ls →
    t.pageToFetch (ls.map fun x => ⟨0, x.2.1, x.1, x.2.2.1⟩) = none →
    t.makeRoom (ls.map fun x => ⟨0, x.2.1, x.1, x.2.2.1⟩) ≠ none → StreamCompletes (.accst d l c) s fun u =>
      ∀ es, es = (accSpots r o).zip ls → ChangesOnly [.stream, .memory, .caches, .forks, .pools, .fabric] s u ∧
      u.seq = { s.seq with iv := u.seq.iv, of := u.seq.of, uf := u.seq.uf, nx := u.seq.nx } ∧
      (∀ f, f = (fun (i : Nat) => es.any fun e => (accOut r.type (s.seq.elem d e.1.1)).2.getLsbD i) →
        u.seq.iv = (s.seq.iv || f 0) ∧ u.seq.of = (s.seq.of || f 2) ∧ u.seq.uf = (s.seq.uf || f 3) ∧
        u.seq.nx = (s.seq.nx || f 4)) ∧
      ((∀ x, x ∈ ls → x.1.kind ≠ .view) →
        (∀ lo e up, es = lo ++ e :: up → ∀ j : Nat, j < r.type.size →
          (∀ f, f ∈ up → ¬ StoredBy r f (e.2.2.2.1 + j)) →
          (homeByte u.dev s.key (e.2.2.2.1 + j)).toNat = (accOut r.type (s.seq.elem d e.1.1)).1 / 256 ^ j % 256) ∧
        ∀ pa, (∀ e, e ∈ es → ¬ StoredBy r e pa) → homeByte u.dev s.key pa = homeByte (settled s ls) s.key pa)

/-- R83, R134, R136, R137, R138, R145: `mma` and `mmas` add the products of two operands to an accumulator tile, chunk by chunk
with one rounding each, or as wrapped integers, and touch no other tile; tags that do not fit halt the stream. -/
def Obligations.MultipliesUpdateOneTile : Prop :=
  (∀ (d : Fin 32) (a b : TName) (s : State) x y ta tb hx hy ka kb p, s.seq.res ≠ .none → FormatOf s ka kb p →
    SlotOf s a x ta hx → SlotOf s b y tb hy →
    (ta.nz = 0 → tb.nz = 0 → fitsTags s.seq ka kb p ta tb = true → StreamCompletes (.mma d a b) s fun u =>
      Multiplied s u d.val p (denseOperand ka s.seq.ea x hx) (denseOperand kb s.seq.eb y hy) ka.kd) ∧
    (ta.nz ≠ 0 ∨ tb.nz ≠ 0 ∨ ta.kind ≠ ka ∨ tb.kind ≠ kb ∨
        (p = .int ∧ (s.seq.ea ≠ 0 ∨ s.seq.eb ≠ 0 ∨ ta.scaled = true ∨ tb.scaled = true)) →
      exec (.mma d a b) s = .next (s.halt cILLEGAL_OPERAND 0))) ∧
  (∀ (d : Fin 32) (a b : TName) (s : State), s.seq.res ≠ .none → s.seq.tile a.val = none ∨ s.seq.tile b.val = none →
    exec (.mma d a b) s = .next (s.halt cMATRIX_SLOT 0) ∧ exec (.mmas d a b) s = .next (s.halt cMATRIX_SLOT 0)) ∧
  ∀ (d : Fin 32) (a b : TName) (s : State) x y z ta tb tc ka kb p, s.seq.res ≠ .none → FormatOf s ka kb p →
    SlotOf s a x ta none → SlotOf s b y tb none → s.seq.tile (b.val + 1) = some z → z.tag = some tc → tc.mapped = false →
    (ta.nz ≠ 0 → tb.nz = 0 → tc.nz = 0 → fitsTags s.seq ka kb p ta tb = true → fitsTags s.seq ka kb p ta tc = true →
      ka.nibble = false → StreamCompletes (.mmas d a b) s fun u =>
        Multiplied s u d.val p (keptOperand ka ta.nz s.seq.ea x) (pairOperand kb s.seq.eb y z) (2 * ka.kd)) ∧
    (ta.nz = 0 ∨ tb.nz ≠ 0 ∨ tc.nz ≠ 0 ∨ ka.nibble = true → exec (.mmas d a b) s = .next (s.halt cILLEGAL_OPERAND 0))

/-- R146, R147: an instruction without its reservation, or `mxacq` with one, halts the stream; a halt gives up the reservation and
the names, keeps the accumulators and leaves every live group a report of the cause with the address and the word. -/
def Sys2Proof.Claims.StreamHaltsReachEveryGroup : Prop :=
  (∀ i, NeedsReservation i → ∀ s : State, s.seq.res = .none → exec i s = .next (s.halt cMATRIX_RESERVATION 0)) ∧
  (∀ (p e : Fin 4) (h : Bool) (s : State), s.seq.res ≠ .none → exec (.mxacq p e h) s = .next (s.halt cMATRIX_RESERVATION 0)) ∧
  ∀ (s : State) c va, s.anyLive = true → ∀ t, t = s.halt c va →
    KeepsOwn [.stream, .mbars, .reports] s { t with blk := { t.blk with groups := s.blk.groups } } ∧
    t.seq = { s.seq with run := false, words := none, wait := .none, res := .none, tiles := [], rstw := false, cause := c
                         halt := true } ∧
    t.blk.groups.length = s.blk.groups.length ∧
    ∀ g h, (g = s.grp ∧ h = t.grp) ∨ (∃ j : Nat, s.blk.groups[j]? = some g ∧ t.blk.groups[j]? = some h) →
      h = { g with reports := h.reports } ∧ (g.live = 0 → h = g) ∧
      (g.live ≠ 0 → ∃ r, h.reports = g.reports ++ [r] ∧ r.bit = 0 ∧ r.cause = c ∧
        r.info0 = s.seq.pc ∧ r.info1 = s.seq.word.setWidth 64 ∧ r.info2 = if hasAddress c then dw va else 0)

/-- The parts above together: registers, branches and halts of the sequencer. -/
def Obligations.StreamRegistersBranchesAndHalts : Prop := SequencerRegistersAndBranches ∧ StreamHaltsReachEveryGroup

namespace Sys2Proof.Claims

open Sys2Proof Sys2Proof.Machine

/-! ## Events of the machine -/

/-- An event outside the groups: enabled exactly where `en` holds of the package, it gives a package that `eff` accepts;
elsewhere it does not occur, and nothing changes. -/
def EventActs (i : Instr) (en : Dev → Prop) (eff : Dev → Dev → Prop) : Prop :=
  ∀ (s : State) d, d = s.unfocus.dev →
    (en d → ∃ e, exec i s = .next { s.unfocus with dev := e } ∧ eff d e) ∧
    (¬ en d → exec i s = .next s.unfocus)

/-- An event of one block: it acts where the block exists and `en` holds of it. -/
def BlockActs (i : Instr) (b : Nat) (en : Dev → Block → Prop) (eff : Dev → Block → Dev → Prop) : Prop :=
  ∀ (s : State) d, d = s.unfocus.dev →
    (∀ x, findBlock d b = some x → en d x → ∃ e, exec i s = .next { s.unfocus with dev := e } ∧ eff d x e) ∧
    ((∀ x, findBlock d b = some x → ¬ en d x) → exec i s = .next s.unfocus)

/-- An event that takes packet k of the inbox: it acts where the packet is there and `en` holds of it; the effect starts from the
package without the packet. -/
def PacketActs (i : Instr) (k : Nat) (en : Dev → Packet → Prop) (eff : Dev → Packet → Dev → Prop) : Prop :=
  ∀ (s : State) d, d = s.unfocus.dev →
    (∀ p, d.inbox[k]? = some p → en d p →
      ∃ e, exec i s = .next { s.unfocus with dev := e } ∧ eff { d with inbox := d.inbox.take k ++ d.inbox.drop (k + 1) } p e) ∧
    ((∀ p, d.inbox[k]? = some p → ¬ en d p) → exec i s = .next s.unfocus)

/-- Block b of e is y; no other block changes, and nothing but the blocks. -/
def OneBlock (d e : Dev) (b : Nat) (y : Block) : Prop :=
  e = { d with blocks := e.blocks } ∧ findBlock e b = some y ∧ ∀ c, c ≠ b → findBlock e c = findBlock d c

/-- Queue q of function fn of e is y; no other queue of the function changes. -/
def OneQueue (d e : Dev) (fn q : Nat) (y : Queue) : Prop :=
  queueOf e fn q = y ∧ ∀ p, p ≠ q → queueOf e fn p = queueOf d fn p

/-- A launch of key l ends: its state and status. -/
def LaunchIs (e : Dev) (l : Nat) (st : LaunchState) (status : Nat) : Prop :=
  ∃ x, findLaunch e l = some x ∧ x.state = st ∧ x.status = status

/-- The number that the package will give its next launch or block is given to none. -/
def FreshKeys (d : Dev) : Prop := (∀ l, l ∈ d.launches → l.key < d.nextLaunch) ∧ ∀ b, b ∈ d.blocks → b.key < d.nextBlock

end Sys2Proof.Claims

open Sys2Proof Sys2Proof.Machine Sys2Proof.Claims

/-- R22, R26, R27, R51, R126, R148, R162, R197, R199, R408: the events of a group and its block: clauses issue, operations complete,
traps are taken, groups end, blocks retire, restored slots are filled; elsewhere none of these events occurs, and nothing changes. When an event occurs is the
model's agenda (log 4), and the choices that firmware makes are its operands (log 12). -/
def Obligations.GroupsAndBlocksAdvance : Prop :=
  (∀ s : State, ¬ (s.running = true ∧ s.latched = false ∧ s.faultHeld = false) →
    exec .clauseIssue s = .next s.unfocus) ∧
  (∀ s : State, s.running = true → s.latched = false → s.faultHeld = false →
    (∀ c, fetchClause s.dev s.blk s.clauseAddr s.slot.wait.tag = .trap c → exec .clauseIssue s = .next (s.raiseAt s.clauseAddr
      { cause := c, mask := s.slot.act, path := 0, info0 := 0, info1 := s.clauseAddr })) ∧
    ∀ d ws h, fetchClause s.dev s.blk s.clauseAddr s.slot.wait.tag = .ok d ws → h = (nth 0 ws 0).toNat →
      (headerLegal ws = false → s.guardPending h = false → exec .clauseIssue s = .next (({ s with dev := d } : State).raiseAt s.clauseAddr
        { cause := cILLEGAL_CLAUSE, mask := (s.clausePath h).1 &&& s.guardLanes h, path := (s.clausePath h).2
          info0 := (nth 0 ws 0).setWidth 64 })) ∧
      (headerLegal ws = true → (bits h 25 24 ≠ 0 → s.inRegion = true) → s.slotIdx ≤ bits h 22 20 + bits h 23 23 →
        (s.waitsFlag h = true → exec .clauseIssue s = .next (({ s with dev := d } : State).waitClause .flags)) ∧
        (s.waitsFlag h = false → (s.report fun r => s.ownAccess r && r.namedBy h) = none →
          s.guardPending h = false → ∃ t, exec .clauseIssue s = .next t ∧ ChangesOnly [.paths] { s with dev := d } t ∧
            t.slot.clause = some ⟨s.clauseAddr, ws, s.guardLanes h⟩ ∧ t.slot.act = s.slot.act ∧
            t.slot.pc = if s.slotIdx < 1 + bits h 23 23 then s.clauseAddr + dw (4 * (1 + bits h 23 23)) else s.slot.pc))) ∧
  (∀ s : State,
    (s.running = true ∧ 3 ≤ s.slot.denied → ∃ t, exec .candidateUrgent s = .next t ∧ ChangesOnly [.paths] s t ∧
      t.slot = { s.slot with urgent := true, urgentAt := s.rota }) ∧
    (¬ (s.running = true ∧ 3 ≤ s.slot.denied) → exec .candidateUrgent s = .next s.unfocus)) ∧
  (∀ i k setA, (i = .countedOpComplete k ∧ setA = true) ∨
      (i = .memoryAck k ∧ setA = false) → ∀ s : State,
    (∀ e, s.focused = true → s.grp.pend[k]? = some e → e.setA = setA → e.ext = false → (∀ x, x ∈ s.grp.pend → x.id = e.id → x = e) →
      ∃ t, exec i s = .next t ∧ ChangesOnly [.counted] (landed s e) t ∧
        t.grp.pend = s.grp.pend.filter (fun x => x.id ≠ e.id) ∧
        ∀ f, Sparse.get 0 t.grp.flags f = Sparse.get 0 s.grp.flags f - b2n (decide (f = e.flag ∧ f < 12))) ∧
    ((∀ e, s.grp.pend[k]? = some e → s.focused = false ∨ e.setA ≠ setA ∨ e.ext = true) →
      exec i s = .next s.unfocus)) ∧
  (∀ s : State,
    (∀ q, s.focused = true → s.grp.trapReq = some q → s.grp.pend = [] →
      (s.grp.ctx.inh = false → s.blk.shape.handler ≠ 0 → ∃ t, exec .trapEntry s = .next t ∧
        ChangesOnly [.trap, .paths, .members] s t ∧ t.grp.trapReq = none ∧ t.grp.trap = q.regs ∧ t.grp.ctx.inh = true ∧
        t.grp.ctx.next = q.next ∧ t.grp.ctx.pslot = q.pslot ∧ t.grp.slot0 = { pc := s.blk.shape.handler, act := s.grp.live } ∧
        t.grp.slot1 = {} ∧ t.grp.mm = s.grp.live) ∧
      (s.grp.ctx.inh = true ∨ s.blk.shape.handler = 0 → ∃ e, exec .trapEntry s = .next { s.unfocus with dev := e } ∧
        (s.blk.child = none → (∀ x, x ∈ e.blocks → x.launch ≠ s.blk.launch) ∧
          ∀ l, findLaunch s.dev s.blk.launch = some l → ∃ m, findLaunch e s.blk.launch = some m ∧ m.state = .ending ∧
            m.status = 5 ∧ m.cause = q.regs.cause))) ∧
    (s.focused = false ∨ s.grp.trapReq = none ∨ s.grp.pend ≠ [] → exec .trapEntry s = .next s.unfocus)) ∧
  (∀ (s : State) done, done = (s.focused = true ∧ s.onStream = false ∧ s.grp.ended = false ∧ s.grp.live = 0 ∧ s.grp.pend = [] ∧
      s.grp.trapReq = none) →
    (done → ∃ t, exec .groupEnd s = .next t ∧
      t.grp = { s.grp with ended := true, pname := 0, holds := [], preempt := none } ∧
      t.blk.exitm = setLane s.blk.exitm s.grp.idx true ∧ SameHomes t.dev (releaseAt s.dev s.blk.cluster .sys) ∧
      ∀ x, x = Sparse.get {} s.dev.names (nameIndex s.grp.pname) → s.grp.pname ≠ 0 → nameHome s.grp.pname = s.dev.pkg →
        x.gen = nameGen s.grp.pname → x.state = .resident →
        (Sparse.get {} t.dev.names (nameIndex s.grp.pname)).state = .retired) ∧
    (¬ done → exec .groupEnd s = .next s.unfocus)) ∧
  (∀ b, BlockActs (.blockRetire b) b
    (fun d x => x.onCore = true ∧ (∀ g, g ∈ x.groups → g.ended = true) ∧ x.seq.run = false ∧ scratchBusy d b = false)
    fun d x e => e.blocks = d.blocks.filter (fun y => y.key ≠ b) ∧ (∀ o, o ∈ e.objs → o.block ≠ b) ∧
      (x.child = none → ∀ l, findLaunch d x.launch = some l → ∃ m, findLaunch e x.launch = some m ∧ m.retired = l.retired + 1 ∧
        m.state = l.state) ∧
      ∀ c f, x.child = some c → forkOf d c.parent = some f → ∀ y, f.child c.idx = some y →
        ((forkOf e c.parent).bind fun g => g.child c.idx) = some { y with state := .ended }) ∧
  ∀ b, BlockActs (.matrixRestoreSlots b) b
    (fun d x => x.onCore = true ∧ x.seq.rstw = true ∧ slotsHeld d x.core + x.seq.tiles.length ≤ 64)
    fun d x e => OneBlock d e b { x with seq := { x.seq with rstw := false } }
namespace Sys2Proof.Claims

open Sys2Proof Sys2Proof.Machine

/-- Where the entry at RIDX of a queue stands (R203). -/
def entryAt (x : Queue) : Nat := (if x.host then 2 ^ 39 else 0) + x.base.toNat + 32 * (x.ridx % 2 ^ x.log2n)

/-- Half of a list, rounded up (R220). -/
def firstHalf (l : List Block) : List Block := l.take ((l.length + 1) / 2)

/-- Entry a of the slot table alone changes. -/
def OneBind (d e : Dev) (a : Nat) (x : Bind) : Prop := bindAt e a = x ∧ ∀ c, c ≠ a → bindAt e c = bindAt d c

end Sys2Proof.Claims

open Sys2Proof Sys2Proof.Machine Sys2Proof.Claims

/-- R201, R202, R204, R205, R206: a queue is enabled, kicked, read, restarted and disabled: its indices, its state and cause, the
launch of an accepted or refused entry, the launches that a disable cancels. When an event occurs is the
model's agenda (log 4), and the choices that firmware makes are its operands (log 12). -/
def Obligations.LaunchQueuesAreServed : Prop :=
  (∀ fn q (w : DWord), EventActs (.qcfgEnable fn q w) (fun _ => fn < 16 ∧ q < 64 ∧ w.getLsbD 16 = true)
    fun d e => ∀ x y n, x = queueOf d fn q → n = bits w.toNat 3 0 →
      y = { x with log2n := n, host := w.getLsbD 4, vec := bits w.toNat 15 5 } →
      (x.state ≠ 0 → x.enabled = true → e = d) ∧
      (x.state = 0 → x.enabled = false → d.recovery = false →
        (n < 4 → OneQueue d e fn q { y with cause := 3 }) ∧
        (4 ≤ n → 2 ^ 39 ≤ x.base.toNat ∨ (y.host = false ∧ inPartition d fn x.base.toNat (32 * 2 ^ n) = false) →
          OneQueue d e fn q { y with cause := 6 }) ∧
        (4 ≤ n → x.base.toNat < 2 ^ 39 → (y.host = false → inPartition d fn x.base.toNat (32 * 2 ^ n) = true) →
          OneQueue d e fn q { y with
            enabled := true, widx := 0, ridx := 0, state := 1, trigwm := 0, drain := false, trigd := [], skips := [] }))) ∧
  (∀ fn q (w : DWord), EventActs (.qcfgDisable fn q w) (fun _ => fn < 16 ∧ q < 64 ∧ w.getLsbD 16 = false)
    fun d e => (queueOf d fn q).enabled = true → (queueOf d fn q).state ≠ 0 →
      OneQueue d e fn q { queueOf d fn q with enabled := false, state := 0 } ∧
      ∀ l, findLaunch d l.key = some l → l.fn = fn → l.q = q → l.detached = false → l.started = 0 → l.begun = false →
        l.state = .waiting ∨ l.state = .bound → LaunchIs e l.key .ending 6) ∧
  (∀ fn q (w : DWord), EventActs (.qkick fn q w) (fun _ => fn < 16 ∧ q < 64)
    fun d e => ∀ x n, x = queueOf d fn q → n = bits w.toNat 31 0 →
      (x.state ≠ 1 → e = d) ∧
      (x.state = 1 → gap n x.ridx ≤ 2 ^ x.log2n → e = { d with funcs := e.funcs } ∧ OneQueue d e fn q { x with widx := n }) ∧
      (x.state = 1 → 2 ^ x.log2n < gap n x.ridx → OneQueue d e fn q { x with state := 2, cause := 2 })) ∧
  (∀ fn q (w : DWord), EventActs (.qrestart fn q w) (fun _ => fn < 16 ∧ q < 64)
    fun d e => ∀ x y n, x = queueOf d fn q → y = queueOf e fn q → n = bits w.toNat 31 0 →
      (x.state < 2 → y = x) ∧ (2 ≤ x.state → 2 ^ 31 ≤ gap n x.ridx → y = { x with cause := 5 }) ∧
      (2 ≤ x.state → gap n x.ridx < 2 ^ 31 → y.ridx = n ∧ y.state = 1 ∧ y.cause = 0 ∧ y.seen = 0 ∧
        y.widx = if 2 ^ 31 ≤ gap x.widx n then n else x.widx)) ∧
  (∀ fn q, EventActs (.queueEntryRead fn q)
    (fun d => fn < 16 ∧ q < 64 ∧ (queueOf d fn q).state = 1 ∧ (queueOf d fn q).ridx ≠ (queueOf d fn q).widx ∧
      (queueOf d fn q).drain = false)
    fun d e => ∀ x b rec word, x = queueOf d fn q → poisoned d (entryAt x) 32 = false →
      b = homeBytes d (fnKey d fn) (entryAt x) 32 → rec = recNat b 8 8 → word = recNat b 16 8 →
      (recNat b 0 2 ≠ x.ridx % 2 ^ 16 → OneQueue d e fn q { x with state := 2, cause := 1, seen := recNat b 0 2 }) ∧
      (recNat b 0 2 = x.ridx % 2 ^ 16 →
        (recNat b 2 1 ≠ 1 → recNat b 2 1 ≠ 2 → OneQueue d e fn q { x with state := 3, cause := 4 }) ∧
        (recNat b 2 1 = 2 → (queueOf e fn q).drain = true ∧ (queueOf e fn q).ridx = (x.ridx + 1) % 2 ^ 32 ∧
          (queueOf e fn q).state = 1) ∧
        (recNat b 2 1 = 1 → entryAddrOk d fn rec 256 = false ∨ entryAddrOk d fn word 16 = false →
          OneQueue d e fn q { x with state := 3, cause := 6 }) ∧
        (recNat b 2 1 = 1 → entryAddrOk d fn rec 256 = true → entryAddrOk d fn word 16 = true →
          (queueOf e fn q).ridx = (x.ridx + 1) % 2 ^ 32 ∧ (queueOf e fn q).state = 1 ∧ (queueOf e fn q).widx = x.widx ∧
          (FreshKeys d → poisoned d rec 256 = false → ∀ r, r = homeBytes d (fnKey d fn) rec 256 →
            ∃ l, findLaunch e d.nextLaunch = some l ∧ l.fn = fn ∧ l.q = q ∧ l.idx = x.ridx ∧ l.record = rec ∧ l.done = word ∧
              l.lr = parseLaunch r ∧ (refusal d fn r = none → l.state = .waiting) ∧
              ∀ c, refusal d fn r = some c → l.state = .ended ∧ l.status = c)))) ∧
  ∀ fn q, EventActs (.queueDrainResume fn q)
    (fun d => fn < 16 ∧ q < 64 ∧ (queueOf d fn q).drain = true ∧
      ∀ l, l ∈ d.launches → l.fn = fn → l.q = q → l.detached = false → l.state = .ended)
    fun d e => e = { d with funcs := e.funcs } ∧ OneQueue d e fn q { queueOf d fn q with drain := false }

/-- R208, R213, R214, R216, R218, R220: instances of launches are bound, their blocks claimed, placed and donated, priorities age,
and a launch whose blocks have retired is completed: the time, then the status, in its completion word. When an event occurs is the
model's agenda (log 4), and the choices that firmware makes are its operands (log 12). -/
def Obligations.LaunchesArePlacedAndCompleted : Prop :=
  (∀ l e lev record first count (cls : BitVec 96), EventActs (.launchBind l e lev record ⟨first, count⟩ cls)
    (fun d => e < 256 ∧ (2 ≤ (bindAt d e).state ∨ ∃ x, findLaunch (unbindEntry d e) l = some x ∧ x.stub = false ∧
      (x.state = .waiting ∨ x.state = .bound) ∧ depsMet (unbindEntry d e) x = true ∧
      bindRange (unbindEntry d e) x lev first count = true ∧ bindClusters (unbindEntry d e) x lev first cls = true))
    fun d t => (2 ≤ (bindAt d e).state → t = d) ∧
      ((bindAt d e).state < 2 → t = { d with launches := t.launches, binds := t.binds } ∧ ∃ r, OneBind d t e r ∧ r.launch = l ∧
        r.record = record ∧ r.first = first ∧ r.count = count ∧ r.clusters = cls ∧ r.next = first ∧ r.state = 1 ∧ r.retired = 0 ∧
        ∀ x, findLaunch (unbindEntry d e) l = some x → r.prio = x.lr.prio ∧ r.eprio = x.lr.prio ∧ r.level = lev ∧
          ∃ m, findLaunch t l = some m ∧ m.state = .bound ∧ m.bound = x.bound ++ [(first, count)])) ∧
  (∀ cl e n, EventActs (.clusterClaim cl e n)
    (fun d => (bindAt d e).open = true ∧ (bindAt d e).clusters.getLsbD cl = true ∧ claimsAhead d cl e = false ∧
      ∃ l t, findLaunch d (bindAt d e).launch = some l ∧ claimFrom d l e cl n = some t)
    fun d t => ∀ l, findLaunch d (bindAt d e).launch = some l → l.lr.corLevels = none → FreshKeys d →
      1 ≤ n ∧ n ≤ 8 ∧ (bindAt t e).next = (bindAt d e).next + n ∧ t.nextBlock = d.nextBlock + n ∧
      ∀ i, i < n → ∃ b, findBlock t (d.nextBlock + i) = some b ∧ b.state = .unstarted ∧ b.cluster = cl ∧
        b.blin = (bindAt d e).next + i ∧ b.launch = (bindAt d e).launch ∧ b.slotEntry = e ∧ b.shape = l.lr.shape b.blin) ∧
  (∀ b core, BlockActs (.blockPlace b core) b (fun d x => x.state = .unstarted ∧ nextOn d core x = true)
    fun d x t => (∃ y, findBlock t b = some y ∧ y.state = .resident ∧ y.core = core ∧ y.cluster = core / 4 ∧ y.shape = x.shape ∧
        y.blin = x.blin ∧ y.groups = x.shape.startGroups d.ages ∧ y.scratch = x.scratch) ∧
      (∀ c, c ≠ b → findBlock t c = findBlock d c) ∧ t.ages = d.ages + x.shape.groups ∧
      ∀ l, findLaunch d x.launch = some l → ∃ m, findLaunch t x.launch = some m ∧ m.started = l.started + 1) ∧
  (∀ thief victim e, EventActs (.workDonation thief victim e)
    (fun d => thief ≠ victim ∧ (bindAt d e).state ≠ 0 ∧ (bindAt d e).cor = false ∧ (bindAt d e).clusters.getLsbD thief = true ∧
      (bindAt d e).clusters.getLsbD victim = true ∧ donable d victim thief ≠ [] ∧ idleCluster d thief = true ∧
      ∀ b, b ∈ firstHalf (donable d victim thief) → ∃ l, findLaunch d b.launch = some l ∧
        l.allows d ((firstHalf (donable d victim thief)).map fun x => x.key) b.blin (4 * thief) = true)
    fun d t => t = { d with blocks := t.blocks } ∧ ∀ k x go, findBlock d k = some x →
      go = (firstHalf (donable d victim thief)).map (fun y => y.key) →
      (k ∈ go → findBlock t k = some { x with state := .inTransit, cluster := thief, donor := victim, stime := d.time }) ∧
      (k ∉ go → findBlock t k = some x)) ∧
  (∀ b ok, BlockActs (.donatedBlockArrival b ok) b (fun _ x => x.state = .inTransit)
    fun d x t => OneBlock d t b
      { x with state := .unstarted, cluster := if ok then x.cluster else x.donor, stime := d.time }) ∧
  (∀ e, EventActs (.eprioAging e)
    (fun d => bindReady d e = true ∧ (bindAt d e).eprio < min 7 ((bindAt d e).prio + (d.time - (bindAt d e).since) / 10000000))
    fun d t => t = { d with binds := t.binds } ∧ OneBind d t e { bindAt d e with
      eprio := min 7 ((bindAt d e).prio + (d.time - (bindAt d e).since) / 10000000) }) ∧
  ∀ l, EventActs (.launchComplete l)
    (fun d => ∃ x, findLaunch d l = some x ∧ launchBusy d l = false ∧ (∀ b, b ∈ d.blocks → b.launch ≠ l) ∧
      (∀ y, y ∈ x.shares → y.ended = true) ∧ (x.stub = true → x.state = .ending) ∧
      (x.state = .ending ∨ ((x.state = .waiting ∨ x.state = .bound) ∧ x.retired = blocksHere d x ∧ depsMet d x = true)))
    fun d t => ∀ x st, findLaunch d l = some x → st = (if x.state = .ending then x.status else 1) → LaunchIs t l .ended st ∧
      (x.away = none → x.done % 16 = 0 →
        homeBytes t (fnKey d x.fn) (x.done + 8) 8 = bytesOf d.time 8 ∧
        homeBytes t (fnKey d x.fn) x.done 8 = bytesOf (if st = 5 then 5 + 2 ^ 8 * x.cause.toNat else st) 8)
namespace Sys2Proof.Claims

open Sys2Proof Sys2Proof.Machine

/-- A pre-emption request for block x: it stops for a whole save where it has no handler, else every live group is to take PREEMPT;
in PREEMPTING and beyond the request has no further effect (R225, R226). -/
def Requested (d t : Dev) (x : Block) (reason : Nat) : Prop :=
  (¬ (x.state = .resident ∨ x.state = .parked) ∨ x.reserved = true → t = d) ∧
  (x.state = .resident ∨ x.state = .parked → x.reserved = false → ∀ dl, dl = d.time + 1000 * x.shape.wdog → ∃ y, OneBlock d t x.key y ∧
    y = { x with state := y.state, stime := d.time, preempt := y.preempt, stopped := y.stopped
                 handlerPending := y.handlerPending, groups := y.groups } ∧
    y.state = .preempting ∧ y.preempt = some (reason, dl) ∧ (y.stopped = true ↔ x.shape.handler = 0) ∧
    (x.shape.handler = 0 → y.groups = x.groups) ∧
    (x.shape.handler ≠ 0 → ∀ (j : Nat) g, x.groups[j]? = some g → ∃ h, y.groups[j]? = some h ∧
      (g.ended = true ∨ g.live = 0 → h = g) ∧
      (g.ended = false → g.live ≠ 0 → h.preempt = some (reason, dl) ∧ (g.ctx.inh = true → h.ctx.preq = true) ∧
        h = { g with preempt := h.preempt, ctx := h.ctx })))

/-- Every name of the block that lives at home, under its generation, has an entry that P accepts (R233, R234). -/
def NamesBecome (d t : Dev) (x : Block) (P : NameEntry → Prop) : Prop :=
  ∀ g, g ∈ x.groups → g.pname ≠ 0 → nameHome g.pname = d.pkg →
    (Sparse.get {} d.names (nameIndex g.pname)).gen = nameGen g.pname →
    (Sparse.get {} d.names (nameIndex g.pname)).state ≠ .free → (Sparse.get {} d.names (nameIndex g.pname)).state ≠ .retired → P (Sparse.get {} t.names (nameIndex g.pname))

/-- What a group keeps in a whole save (R226, R228). -/
def SavedWhole (g h : Group) : Prop :=
  h.v = g.v ∧ h.s = g.s ∧ h.p = g.p ∧ h.q = g.q ∧ h.tags = g.tags ∧ h.stack = g.stack ∧ h.live = g.live ∧ h.mm = g.mm ∧
  h.holds = g.holds ∧ h.ctx = g.ctx ∧ h.trap = g.trap ∧ h.reports = g.reports ∧ h.rsstat = g.rsstat ∧ h.pname = g.pname ∧
  h.slot0.pc = g.slot0.pc ∧ h.slot1.pc = g.slot1.pc ∧ h.slot0.act = g.slot0.act ∧ h.slot1.act = g.slot1.act

end Sys2Proof.Claims

open Sys2Proof Sys2Proof.Machine Sys2Proof.Claims

/-- R213, R223, R225-R229, R148, R234: blocks are pre-empted, saved, resumed, evicted and moved to another package, and a launch
without save areas ends; what a save keeps of registers, scratchpad and stream, and what the names of the block become. When an event occurs is the
model's agenda (log 4), and the choices that firmware makes are its operands (log 12). -/
def Obligations.BlocksAreSavedResumedAndMoved : Prop :=
  (∀ b, BlockActs (.timeSliceExpiry b) b (fun d x => x.onCore = true ∧ sliceOver d x = true)
    fun d x t => Requested d t x 2) ∧
  (∀ b (r : Fin 8), BlockActs (.preemptRequest b r) b
    (fun d x => x.begun = true ∧ ((r = 1 ∧ waitsFor d x (fun p => decide (ownPrio d x < p)) = true) ∨
      (r = 2 ∧ sliceOver d x = true) ∨ r = 3 ∨ r = 4 ∨ r = 5))
    fun d x t => Requested d t x r.val) ∧
  (∀ b, BlockActs (.watchdogExpiry b) b
    (fun d x => x.state = .preempting ∧ x.stopped = false ∧ x.allYielded = false ∧ ∃ p, x.preempt = some p ∧ p.2 ≤ d.time)
    fun d x t => OneBlock d t b { x with stopped := true }) ∧
  (∀ b, BlockActs (.blockSave b) b
    (fun d x => x.state = .preempting ∧ x.done = false ∧ (x.stopped = true ∨ x.allYielded = true) ∧ saveReady d x = true)
    fun d x t => NamesBecome d t x (fun e => e.state = .saved ∧ e.save = x.saveAddr) ∧ (∀ o, o ∈ t.objs → o.block ≠ b) ∧
      (∀ c, c ≠ b → findBlock t c = findBlock d c) ∧
      ∃ y, findBlock t b = some y ∧ y.state = .saved ∧ y.preempt = none ∧ y.stopped = false ∧ y.shape = x.shape ∧
        y.seq = { x.seq with words := none, rstw := false, res := if x.seq.res = .none then .none else .home } ∧
        (x.stopped = true → y.scratch = x.scratch ∧ ∀ (j : Nat) g, x.groups[j]? = some g → ∃ h, y.groups[j]? = some h ∧ SavedWhole g h) ∧
        (x.stopped = false → (∀ a, a < x.shape.pscr → Sparse.get 0 y.scratch a = Sparse.get 0 x.scratch a) ∧
          ∀ (j : Nat) g, x.groups[j]? = some g → ∃ h, y.groups[j]? = some h ∧ h.s = g.s ∧ h.p = g.p ∧ h.q = g.q ∧ h.holds = g.holds ∧
            h.ctx = g.ctx ∧ h.trap = g.trap ∧
            ∀ key, key / 32 < x.shape.pkeep ∨ (g.holdOf (key / 32)).isSome = true → Sparse.get 0 h.v key = Sparse.get 0 g.v key)) ∧
  (∀ b core (s : State) d, d = postReleases s.unfocus.dev →
    (∀ x, findBlock d b = some x → x.state = .saved → x.loc = d.pkg → x.cor = false → nextOn d core x = true →
      (saveBad d x = false → ∃ t, exec (.blockResume b core) s = .next { s.unfocus with dev := t } ∧
        NamesBecome d t x (fun e => e.state = .resident ∧ e.loc = d.pkg ∧ e.core = core) ∧
        (∀ c, c ≠ b → findBlock t c = findBlock d c) ∧
        ∃ y, findBlock t b = some y ∧ y.state = .resident ∧ y.core = core ∧ y.cluster = core / 4 ∧ y.nres = x.nres + 1 ∧
          y.scratch = x.scratch ∧ y.bars = x.bars ∧ y.groups = x.groups.map (fun g => { g with age := d.ages + g.idx }) ∧
          y.seq = { x.seq with rstw := !x.seq.tiles.isEmpty }) ∧
      (saveBad d x = true → ∃ t, exec (.blockResume b core) s = .next { s.unfocus with dev := t } ∧
        (x.child = none → (∀ y, y ∈ t.blocks → y.launch ≠ x.launch) ∧
          ∀ l, findLaunch d x.launch = some l → LaunchIs t x.launch .ending 5))) ∧
    ((∀ x, findBlock d b = some x → x.state ≠ .saved ∨ x.loc ≠ d.pkg) →
      exec (.blockResume b core) s = .next s.unfocus)) ∧
  (∀ b, BlockActs (.parkingEviction b) b
    (fun d x => ∃ l, findLaunch d x.launch = some l ∧ x.child = none ∧ evictsFor d l = true ∧ evictable d l x = true ∧
      ∀ y, y ∈ d.blocks → y.launch = l.key → y.child = none → x.blin < y.blin → evictable d l y = false)
    fun d x t => (∀ y, y ∈ evictees d x → ∃ z, findBlock t y.key = some z ∧ z.state = .evicted ∧ z.waitEvt = true) ∧
      NamesBecome d t x (fun e => e.state = .saved)) ∧
  (∀ l, EventActs (.savepoolTimeout l)
    (fun d => ∃ x t, findLaunch d l = some x ∧ poolStuck d x = true ∧ x.poolSince = some t ∧ t + 1000000 ≤ d.time)
    fun _ t => LaunchIs t l .ending 8 ∧ ∀ b, b ∈ t.blocks → b.launch ≠ l) ∧
  (∀ b pkg, BlockActs (.migrationBegin b pkg) b (fun d x => mayMigrate d x pkg = true)
    fun d x t => NamesBecome d t x (fun e => e.state = .moving) ∧
      findBlock t b = some { x with state := .moving, moveTo := pkg, stime := d.time } ∧
      ∀ c, c ≠ b → findBlock t c = findBlock d c) ∧
  (∀ b save, BlockActs (.migrationComplete b save) b
    (fun d x => x.state = .moving ∧ (moveArea d x save).isSome = true)
    fun d x t => NamesBecome d t x (fun e => e.state = .saved ∧ e.loc = x.moveTo ∧ e.save = save) ∧
      ∃ y, findBlock t b = some y ∧ y.state = .saved ∧ y.loc = x.moveTo ∧ y.saveAddr = save ∧ y.shape = x.shape) ∧
  ∀ b, BlockActs (.migrationAbandon b) b (fun d x => x.state = .moving ∧ x.moveTo ≠ d.pkg)
    fun d x t => NamesBecome d t x (fun e => e.state = .saved ∧ e.loc = x.loc ∧ e.save = x.saveAddr) ∧
      ∃ y, findBlock t b = some y ∧ y.state = .saved ∧ y.loc = x.loc ∧ y.saveAddr = x.saveAddr ∧ y.shape = x.shape
namespace Sys2Proof.Claims

open Sys2Proof Sys2Proof.Machine

/-- A packet with this body leaves for a package: it is in this package's own inbox, or waits at a live listed port with the budget of
its route less the first link, on hop channel 0 (R348, R349). -/
def Sends (d t : Dev) (dst o : Nat) (body : PacketBody) : Prop :=
  (dst = d.pkg → ∃ a, a ∈ t.inbox ∧ a.dst = dst ∧ a.owner = o ∧ a.body = body) ∧
  (dst ≠ d.pkg → liveListed d dst ≠ [] → ∃ port w, port ∈ liveListed d dst ∧ w ∈ (portAt t port).queued ∧ w.packet.dst = dst ∧
    w.packet.owner = o ∧ w.packet.body = body ∧ w.budget = hopBudget (Sparse.get {} d.routes dst) - 1 ∧ w.hop = 0)

/-- A remote register store delivered to the group that holds its name, with the status (R240): beyond the allocation 6, no free
hold entry 5, a lane that has already arrived 3, else the lanes arrive and their words are written. -/
def Delivered (d t : Dev) (n : DWord) (r : VReg) (m : Mask) (data : List Word) (code : Nat) : Prop :=
  (holderOf d n = none → code = 2 ∧ t.blocks = d.blocks) ∧
  ∀ b g, holderOf d n = some (b, g) → findBlock d b.key = some b → b.groups.find? (fun x => x.idx = g.idx) = some g →
    ∃ y h, findBlock t b.key = some y ∧ y.groups.find? (fun x => x.idx = g.idx) = some h ∧
      (b.shape.vregs ≤ r.val → code = 6 ∧ h = g) ∧
      (r.val < b.shape.vregs → g.holdOf r = none → 8 ≤ g.holds.length → code = 5 ∧ h = g) ∧
      (r.val < b.shape.vregs → ∀ old, (g.holdOf r = some old ∨ (g.holdOf r = none ∧ g.holds.length < 8 ∧
          old = { reg := r, held := false, hmask := 0, arr := 0, conf := 0 })) →
        (m &&& old.arr ≠ 0 → code = 3 ∧ h.v = g.v ∧ ∃ z, h.holdOf r = some z ∧ z.conf = old.conf ||| (m &&& old.arr) ∧
          z.arr = old.arr) ∧
        (m &&& old.arr = 0 → code = 0 ∧ (∃ z, h.holdOf r = some z ∧ z.arr = old.arr ||| m ∧ z.conf = old.conf) ∧
          (∀ (i : Nat) L w, (lanesOf m)[i]? = some L → data[i]? = some w → Sparse.get 0 h.v (32 * r.val + L) = w) ∧
          ∀ key, (∀ L, L ∈ lanesOf m → key ≠ 32 * r.val + L) → Sparse.get 0 h.v key = Sparse.get 0 g.v key))

/-- The one status of a request is counted in RSSTAT of its group, its record goes, and its operation awaits nothing (R242, R243). -/
def Settled (d t : Dev) (o : Outstanding) (code : Nat) : Prop :=
  (∀ x, x ∈ t.outstanding → x.id ≠ o.id) ∧
  ∀ b g, findBlock d o.block = some b → b.groups.find? (fun x => x.idx = o.gidx) = some g →
    ∃ y h, findBlock t o.block = some y ∧ y.groups.find? (fun x => x.idx = o.gidx) = some h ∧
      h.rsstat = statCount g.rsstat code ∧ (∀ x, x ∈ h.pend → x.id = o.pend → x.ext = false) ∧ h.v = g.v ∧ h.flags = g.flags

/-- A remote access ends: its record goes; its operation becomes what P says and awaits what is still outstanding; its group's
reports become what Q says (R354). -/
def Answered (d t : Dev) (o : Outstanding) (P : Pend → Pend → Prop) (Q : List Report → List Report → Prop) : Prop :=
  (∀ x, x ∈ t.outstanding → x.id ≠ o.id) ∧
  ∀ b g, findBlock d o.block = some b → b.groups.find? (fun x => x.idx = o.gidx) = some g →
    ∃ y h, findBlock t o.block = some y ∧ y.groups.find? (fun x => x.idx = o.gidx) = some h ∧ h.v = g.v ∧ h.flags = g.flags ∧
      Q g.reports h.reports ∧ ∀ (j : Nat) x, g.pend[j]? = some x → ∃ z, h.pend[j]? = some z ∧ (x.id ≠ o.pend → z = x) ∧
        (x.id = o.pend → P x z ∧
          (z.ext = true ↔ ∃ r, r ∈ t.outstanding ∧ r.block = o.block ∧ r.gidx = o.gidx ∧ r.pend = o.pend))

/-- A remote access fails: poison tags for what it returns, else a deferred report of its slot (R271, R354, R420). -/
def Failed (d t : Dev) (o : Outstanding) (c : Cause) (bit target : Nat) : Prop :=
  (o.returns = true → Answered d t o (fun x z => (∀ k, o.keys.head? = some k → k < 2 ^ 20 →
      z.tags = x.tags ++ o.keys.map (fun k => (k, ⟨c, o.addr, target, d.time⟩)))) fun r u => u = r) ∧
  (o.returns = false → Answered d t o (fun x z => z = { x with ext := z.ext })
    fun _ u => ∃ x, x ∈ u ∧ x.bit = bit ∧ x.slot = o.pslot)

end Sys2Proof.Claims

open Sys2Proof Sys2Proof.Machine Sys2Proof.Claims

/-- R240-R244, R355-R357, R420: stores and transfers to a name are checked at its home, deferred while it moves, delivered or
forwarded once, answered by one status, counted in RSSTAT; data packets land in the scratchpad and are counted. When an event occurs is the
model's agenda (log 4), and the choices that firmware makes are its operands (log 12). -/
def Obligations.NamesReceiveStoresAndTransfers : Prop :=
  (∀ d o n x, x = Sparse.get {} d.names (nameIndex n) →
    (x.poisoned = true ∨ x.state = .free ∨ x.gen ≠ nameGen n → homeCheck d o n = .status 1) ∧
    (x.poisoned = false → x.gen = nameGen n → (x.state = .retired → homeCheck d o n = .status 2) ∧
      (x.state = .moving ∨ x.state = .resident ∨ x.state = .saved → x.owner ≠ o → homeCheck d o n = .status 4) ∧
      (x.owner = o → (x.state = .moving → homeCheck d o n = .defer) ∧
        (x.state = .resident ∨ x.state = .saved → homeCheck d o n = .go x)))) ∧
  (∀ (x : DWord) code, code < 8 → (statCount x code).extractLsb' 0 16 = x.extractLsb' 0 16 ∧
    ((statCount x code).extractLsb' 56 8).toNat = max (x.extractLsb' 56 8).toNat code ∧
    (statCount x code).extractLsb' 16 16 = (if code = 0 then x.extractLsb' 16 16 + 1 else x.extractLsb' 16 16) ∧
    ∀ k, k < 3 → ((statCount x code).extractLsb' (32 + 8 * k) 8).toNat =
      (if code = k + 1 ∨ (k = 2 ∧ 3 ≤ code) then min 255 ((x.extractLsb' (32 + 8 * k) 8).toNat + 1)
       else (x.extractLsb' (32 + 8 * k) 8).toNat)) ∧
  (∀ k, PacketActs (.rstvHomeCheck k) k
    (fun d p => ∃ id n r m data sender seq prev, p.body = .rstv id n r m data sender seq prev false ∧
      ¬ (nextApplied d (p.src, sender, n) < seq ∧ d.time ≤ prev))
    fun d p t => ∀ id n r m data sender seq prev, p.body = .rstv id n r m data sender seq prev false →
      (p.deadline < d.time → t.blocks = d.blocks ∧ t.inbox = d.inbox) ∧
      (d.time ≤ p.deadline →
        (∀ c, homeCheck d p.owner n = .status c → t.blocks = d.blocks ∧ Sends d t p.src p.owner (.status id c)) ∧
        (∀ x, x = Sparse.get {} d.names (nameIndex n) → homeCheck d p.owner n = .defer → d.deferCount < 65536 →
          x.deferred.length < 4096 → t.blocks = d.blocks ∧ ∃ a,
            (Sparse.get {} t.names (nameIndex n)).deferred = x.deferred ++ [a] ∧ a.body = p.body ∧ a.src = p.src) ∧
        ∀ x, homeCheck d p.owner n = .go x →
          (x.loc = d.pkg → ∃ c, Delivered d t n r m data c ∧ Sends d t p.src p.owner (.status id c)) ∧
          (x.loc ≠ d.pkg → t.blocks = d.blocks ∧
            Sends d t x.loc p.owner (.rstv id n r m data 0 x.fwd x.fwdBy true)))) ∧
  (∀ k, PacketActs (.rstvApply k) k
    (fun d p => ∃ id n r m data sender seq prev, p.body = .rstv id n r m data sender seq prev true ∧
      ¬ (nextApplied d (nameHome n, 0, n) < seq ∧ d.time ≤ prev))
    fun d p t => ∀ id n r m data sender seq prev, p.body = .rstv id n r m data sender seq prev true →
      ∃ c, Delivered d t n r m data c ∧ Sends d t p.src p.owner (.status id c)) ∧
  (∀ k, PacketActs (.rstvStatus k) k (fun _ p => ∃ id c, p.body = .status id c)
    fun d p t => ∀ id c, p.body = .status id c → (findOut d id = none → t = d) ∧
      ∀ o, findOut d id = some o → Settled d t o (if o.deadline < d.time then 7 else c)) ∧
  (∀ id, EventActs (.rstvTimeout id)
    (fun d => ∃ o, findOut d id = some o ∧ o.purpose = .rstv ∧ o.deadline < d.time)
    fun d t => ∀ o, findOut d id = some o → Settled d t o 7) ∧
  (∀ k, PacketActs (.fxferClaim k) k
    (fun _ p => (∃ id n off len c, p.body = .claim id n off len c) ∨ ∃ id n, p.body = .xend id n)
    fun d p t => t.blocks = d.blocks ∧
      (∀ id n, p.body = .xend id n → t = { d with names := t.names } ∧ ∀ i, (Sparse.get {} t.names i).claims =
        (Sparse.get {} d.names i).claims.filter (fun x => x ≠ (p.src, id))) ∧
      ∀ id n off len c, p.body = .claim id n off len c →
        (p.deadline < d.time → t = d) ∧
        (d.time ≤ p.deadline → (∀ st, homeCheck d p.owner n = .status st → Sends d t p.src p.owner (.grant id st 0)) ∧
          ∀ x, homeCheck d p.owner n = .go x →
            (∀ b, findBlock d x.block = some b → b.shape.scrb < off + len → Sends d t p.src p.owner (.grant id 6 0)) ∧
            ((∀ b, findBlock d x.block = some b → off + len ≤ b.shape.scrb) → Sends d t p.src p.owner (.grant id 0 x.loc) ∧
              (p.src, id) ∈ (Sparse.get {} t.names (nameIndex n)).claims))) ∧
  (∀ k, PacketActs (.fxferDataPacket k) k (fun _ p => ∃ id n off c bytes bad, p.body = .xdata id n off c bytes bad)
    fun d p t => ∀ id n off c bytes bad, p.body = .xdata id n off c bytes bad →
      (p.deadline < d.time ∨ holderOf d n = none → t = d) ∧
      (d.time ≤ p.deadline → ∀ b g, holderOf d n = some (b, g) → findBlock d b.key = some b →
        Sends d t p.src p.owner (.xack id off) ∧ ∃ y, findBlock t b.key = some y ∧
          ((y.counter c).released = false → y.groups = b.groups) ∧
          ((y.counter c).released = true → y.groups = b.groups.map (fun g => g.release c)) ∧
          (∀ (i : Nat) x, bytes[i]? = some x → Sparse.get 0 y.scratch (off + i) = x) ∧
          (∀ a, a < off ∨ off + bytes.length ≤ a → Sparse.get 0 y.scratch a = Sparse.get 0 b.scratch a) ∧
          (y.counter c).target = (b.counter c).target ∧
          (y.counter c).count = min (2 ^ 32 - 1) ((b.counter c).count + bytes.length))) ∧
  ∀ id, EventActs (.fxferStatus id)
    (fun d => (∃ o, findOut d id = some o ∧ o.purpose = .transfer ∧ (o.deadline < d.time ∨ ∃ p, p ∈ d.inbox ∧ answersTo id p = true)) ∨
      (findOut d id = none ∧ ∃ p, p ∈ d.inbox ∧ answersTo id p = true))
    fun d t => (findOut d id = none → t.blocks = d.blocks) ∧ ∀ o, findOut d id = some o →
      (o.deadline < d.time → Settled d t o 7) ∧
      (d.time ≤ o.deadline → ∀ p, d.inbox.find? (answersTo id) = some p →
        (∀ c loc, p.body = .grant id c loc → (c ≠ 0 → Settled d t o c) ∧
          (c = 0 → t.blocks = d.blocks ∧ ∃ x, findOut t id = some x ∧ x.target = loc)) ∧
        ∀ off, p.body = .xack id off →
          (o.awaited.filter (fun x => x ≠ off) = [] → Settled d t o 0) ∧
          (o.awaited.filter (fun x => x ≠ off) ≠ [] → t.blocks = d.blocks ∧ ∃ x, findOut t id = some x ∧
            x.awaited = o.awaited.filter (fun x => x ≠ off)))

/-- R347, R349, R351-R354, R401, R429, R291: remote accesses are checked, performed and answered, packets accepted, forwarded or
discarded, links replay, retrain, die and come back, and old dirty sectors go to their homes. When an event occurs is the
model's agenda (log 4), and the choices that firmware makes are its operands (log 12). -/
def Obligations.FabricServesRequestsAndLinks : Prop :=
  (∀ k, PacketActs (.remoteRequestArrive k) k
    (fun d p => ∃ id op pa n data, p.body = .request id op pa n data ∧ ∀ (i : Nat) q, i < k → d.inbox[i]? = some q →
      q.src = p.src → ∀ id' op' pa' n' data', q.body = .request id' op' pa' n' data' → pa' / 128 ≠ pa / 128)
    fun d p t => ∀ id op pa n data, p.body = .request id op pa n data →
      (p.deadline < d.time → t = d) ∧
      (d.time ≤ p.deadline → (partOf d p.owner = none → t.mem = d.mem ∧ Sends d t p.src p.owner (.response id 1 [])) ∧
        ∀ q r es, partOf d p.owner = some q → rangesFor d q p.src = (r, es) →
          ((∀ e, e ∈ es → e.passes op p.owner pa n = false) ∨ created r p.owner = false ∨ populated pa n = false →
            t.mem = r.mem ∧ Sends d t p.src p.owner (.response id 1 [])) ∧
          ((∃ e, e ∈ es ∧ e.passes op p.owner pa n = true) → created r p.owner = true → populated pa n = true →
            (op = .load → poisoned r pa n = false → t.mem = r.mem ∧
              Sends d t p.src p.owner (.response id 0 (homeBytes r (keyOf r p.owner) pa n))) ∧
            (op = .store → isHost pa = isHost (pa + n - 1) → Sends d t p.src p.owner (.response id 0 []) ∧
              ∀ (i : Nat) x, i < n → data[i]? = some x → homeByte t (keyOf r p.owner) (pa + i) = x) ∧
            (op ≠ .store → poisoned r pa n = true → t.mem = r.mem ∧ Sends d t p.src p.owner (.response id 2 []))))) ∧
  (∀ k, PacketActs (.remoteResponseArrive k) k
    (fun _ p => ∃ id code data, p.body = .response id code data)
    fun d p t => ∀ id code data, p.body = .response id code data → (findOut d id = none → t = d) ∧
      ∀ o, findOut d id = some o → o.purpose = .access →
        (o.deadline < d.time → Failed d t o cFABRIC_TIMEOUT 2 o.target) ∧
        (d.time ≤ o.deadline → (code = 1 → Failed d t o cREMOTE_DENIED 3 o.target) ∧
          (2 ≤ code → Failed d t o cPOISON_CONSUMED 4 0) ∧
          (code = 0 → Answered d t o (fun x z => (o.keys = [] → z = { x with ext := z.ext }) ∧
            (∀ k, o.keys.head? = some k → k < 2 ^ 20 → z.vals = x.vals ++ o.keys.zip (responseWords o data)) ∧
            ∀ k, o.keys.head? = some k → 2 ^ 20 ≤ k → z.svals = x.svals ++ [(k - 2 ^ 20, dw (natOf data))]) fun r u => u = r))) ∧
  (∀ id, EventActs (.remoteDeadlineExpiry id)
    (fun d => ∃ o, findOut d id = some o ∧ o.purpose ≠ .rstv ∧ o.purpose ≠ .transfer ∧ o.deadline < d.time)
    fun d t => ∀ o, findOut d id = some o → o.purpose = .access → Failed d t o cFABRIC_TIMEOUT 2 o.target) ∧
  (∀ (p : Packet) budget hop, EventActs (.fabricPacketArrive p budget hop)
    (fun d => hop + budget ≤ 5 ∧ p.src ≠ d.pkg ∧ p.dst < 1024)
    fun d t => (p.dst = d.pkg → p.dead = false → (takeNow d p = none → t = { d with inbox := d.inbox ++ [p] }) ∧
        ∀ e, takeNow d p = some e → t = e) ∧
      (p.dst ≠ d.pkg → budget = 0 → t = { d with errors := t.errors, errorsLost := t.errorsLost } ∧
        ∃ e, e ∈ t.errors ∧ e.kind = 9 ∧ e.addr = p.dst) ∧
      (p.dst ≠ d.pkg → budget ≠ 0 → p.dead = false → t.inbox = d.inbox ∧
        ((∀ c n g r f, p.body ≠ .form c n g r f) → PacketBody.pinnedCid p.body = none → liveListed d p.dst ≠ [] →
          ∃ x, x ∈ liveListed d p.dst ∧ ⟨p, budget - 1, hop + 1⟩ ∈ (portAt t x).queued) ∧
        (∀ c n g r f x, p.body = .form c n g r f → (liveListed d p.dst).head? = some x →
          ⟨p, budget - 1, hop + 1⟩ ∈ (portAt t x).queued ∧ ⟨p.owner, c, p.src, p.dst, x⟩ ∈ t.vias) ∧
        ∀ c v, PacketBody.pinnedCid p.body = some c →
          d.vias.find? (fun v => v.owner = p.owner && v.cid = c && v.src = p.src && v.dst = p.dst) = some v →
          ((portAt d v.port).live = true → ⟨p, budget - 1, hop + 1⟩ ∈ (portAt t v.port).queued) ∧
          ((portAt d v.port).live = false → liveListed d p.src ≠ [] → ∃ x w, x ∈ liveListed d p.src ∧ w ∈ (portAt t x).queued ∧
            w.packet = { p with dead := true }))) ∧
  (∀ p : Packet, EventActs (.pinnedPacketReturned p)
    (fun d => p.src = d.pkg ∧ p.dst ≠ d.pkg ∧ p.dead = true ∧ PacketBody.pinned p.body = true)
    fun d t => (sentAs d p = none → t = d) ∧ ∀ x r c, sentAs d p = some x → PacketBody.destRank p.body = some r →
      findColl d x.coll = some c → c.ended = false → (consistAt d c.die c.cid).isSome = true →
      ∃ y st, findColl t x.coll = some y ∧ y.state = .aborted ∧ y.status = some st ∧ st.code = 2 ∧ st.failRank = r) ∧
  (∀ port : Fin 16, EventActs (.linkReplay port)
    (fun d => (portAt d port).live = true ∧ (portAt d port).retraining = false)
    fun d t => t = { d with ports := t.ports } ∧ (∀ q, q ≠ port.val → portAt t q = portAt d q) ∧ ∀ x, x = portAt d port →
      (x.fails = 0 ∨ x.firstFail + 10000 < d.time → portAt t port = { x with fails := 1, firstFail := d.time }) ∧
      (x.fails ≠ 0 → d.time ≤ x.firstFail + 10000 → portAt t port = { x with fails := x.fails + 1 })) ∧
  (∀ port : Fin 16, EventActs (.linkRetrain port)
    (fun d => (portAt d port).live = true ∧ (portAt d port).retraining = false ∧ 8 ≤ (portAt d port).fails)
    fun d t => portAt t port = { portAt d port with retraining := true, since := d.time, wire := [] } ∧
      (∀ q, q ≠ port.val → portAt t q = portAt d q) ∧
      ∃ e, e ∈ t.errors ∧ e.kind = 3 ∧ e.unit = port.val ∧ e.count = (portAt d port).fails) ∧
  (∀ port : Fin 16, EventActs (.linkDeath port)
    (fun d => (portAt d port).live = true ∧ (portAt d port).retraining = true ∧ (portAt d port).firstFail + 10000 ≤ d.time)
    fun d t => (∀ y, y = portAt t port → y.live = false ∧ y.retraining = false ∧ y.fails = 0 ∧ y.queued = [] ∧ y.wire = []) ∧
      (d.colls = [] → ∃ e, e ∈ t.errors ∧ e.kind = 4 ∧ e.unit = port.val)) ∧
  (∀ port : Fin 16, EventActs (.linken port) (fun _ => True)
    fun d t => (d.recovery = true ∨ (portAt d port).live = true ∨ (portAt d port).retraining = true → t = d) ∧
      (d.recovery = false → (portAt d port).live = false → (portAt d port).retraining = false →
        t = { d with ports := t.ports } ∧ portAt t port = { portAt d port with retraining := true, since := d.time })) ∧
  (∀ (port : Fin 16) ok, EventActs (.linkRetrainComplete port ok)
    (fun d => (portAt d port).retraining = true ∧ (ok = true →
      ((portAt d port).live = true → d.time ≤ (portAt d port).since + 2000 ∧ d.time ≤ (portAt d port).firstFail + 10000) ∧
      ((portAt d port).live = false → d.time ≤ (portAt d port).since + 10000)))
    fun d t => (∀ q, q ≠ port.val → portAt t q = portAt d q) ∧
      (ok = true → portAt t port = { portAt d port with live := true, retraining := false, fails := 0 } ∧
        ((portAt d port).live = false → ∃ e, e ∈ t.errors ∧ e.kind = 5 ∧ e.unit = port.val)) ∧
      (ok = false → portAt t port = { portAt d port with retraining := (portAt d port).live, since := d.time })) ∧
  ∀ cl sector, EventActs (.dirtySectorTimeout cl sector)
    (fun d => ∃ x, x ∈ d.dirty ∧ x.cluster = cl ∧ x.sector = sector ∧ x.since + 50000 ≤ d.time ∧
      ∀ o, o ∈ d.objs → o.cluster = cl → o.priv = true → inObj o (sector / 4) x.key = false)
    fun d t => t.dirty = d.dirty.filter (fun y => !(y.cluster = cl && y.sector / 4 = sector / 4 && !y.kept d)) ∧
      (∀ x s, s / 4 = sector / 4 → d.dirty.filter (fun y => y.cluster = cl && y.sector = s) = [x] → x.kept d = false →
        ∀ lo o b up, x.bytes = lo ++ (o, b) :: up → o < 32 → (∀ e, e ∈ up → e.1 ≠ o) → homeByte t x.key (32 * s + o) = b) ∧
      ∀ pa, pa / 128 ≠ sector / 4 → ∀ key, homeByte t key pa = homeByte d key pa
namespace Sys2Proof.Claims

open Sys2Proof Sys2Proof.Machine

/-- A job of one element between records of one kind without scales: its only point, the source read from memory, the destination
inside its extents (R334). -/
def OneElement (d : Dev) (j : Job) (p : List Int) (pa : Nat) : Prop :=
  boxPoints j.box = [p] ∧ j.kind ≠ .gather ∧ j.src.type = j.dst.type ∧ j.src.type.nibble = false ∧ j.src.scale = 0 ∧
  j.dst.scale = 0 ∧ j.src.scratch = false ∧ j.src.inside (addCoords j.card.sorg p) = true ∧
  j.dst.inside (addCoords j.card.dorg p) = true ∧ j.dst.phantoms (addCoords j.card.dorg p) = [] ∧
  ∃ l, engXlat d j.owner (vaOf (j.src.addr (addCoords j.card.sorg p))) .read j.parked = .ok (l, pa) ∧ l.kind ≠ .view ∧
    poisoned d pa j.src.type.size = false

/-- STATUS of the job's card can take the OR in d: its address translates for a write to spa, on a page that is no view page, in one
line, without poison (R341). -/
def StatusAt (d : Dev) (j : Job) (spa : Nat) : Prop :=
  spa % 128 + 8 ≤ 128 ∧ ∃ l, engXlat d j.owner (vaOf (j.cardAddr.toNat + 0x60 : Nat)) .write j.parked = .ok (l, spa) ∧ l.kind ≠ .view ∧
    poisoned (dropLine d (j.place d).1 (j.place d).2 (spa / 128)) spa 8 = false

/-- The package after the n bytes at one place of the owner's memory are written at another by the job (R250, R334). -/
def copied (d : Dev) (j : Job) (from' dst n : Nat) : Dev :=
  clearWritten (engineStore d (j.place d).1 (j.place d).2 (keyOf d j.owner) dst (homeBytes d (keyOf d j.owner) from' n)) [(dst, n)]

/-- The job has left the tracker with its ranges (R283). -/
def JobGone (t : Dev) (id : Nat) : Prop := (∀ j, j ∈ t.jobs → j.id ≠ id) ∧ ∀ r, r ∈ t.ranges → r.job ≠ id

/-- A collective stands aborted with a code and a failing rank (R368). -/
def Aborted (t : Dev) (id code rank : Nat) : Prop :=
  ∃ c st, findColl t id = some c ∧ c.state = .aborted ∧ c.status = some st ∧ st.code = code ∧ st.failRank = rank

/-- A packet of a collective passes the checks of deadline, CID, owner and epoch at the consist k (R353, R361). -/
def Passes (d : Dev) (p : Packet) (cid epoch : Nat) (k : Consist) : Prop :=
  d.time ≤ p.deadline ∧ heldHere d (cidKey d p.owner cid) = some k ∧ k.owner = p.owner ∧ k.epoch = epoch

/-- A packet of a collective is discarded: late, of no CID held, or of another epoch of the sender's own consist (R353, R361). -/
def Discarded (d : Dev) (p : Packet) (cid epoch : Nat) : Prop :=
  p.deadline < d.time ∨ heldHere d (cidKey d p.owner cid) = none ∨
    ∃ k, heldHere d (cidKey d p.owner cid) = some k ∧ k.owner = p.owner ∧ k.epoch ≠ epoch

/-- A join that stands at M goes on: past the bound, or with the child there lost, ended with its jobs, or ended on another package
(R314, R320). -/
def MayMerge (d : Dev) (b : Nat) (f : Fork) : Prop :=
  f.bound ≤ f.m ∨ ∃ c, f.child f.m = some c ∧ (c.state = .lost ∨ (c.state = .ended ∧ childJobs d b c.idx = false) ∨
    (c.state = .away ∧ ∃ p pages bad, p ∈ d.inbox ∧ p.body = .childEnd f.block c.idx c.runs pages bad))

/-- Formations of a CID that wait end with a status, and no consist of the CID stands (R360, R361). -/
def FormationEnds (d t : Dev) (cid status : Nat) : Prop :=
  (∀ c, c ∈ t.consists → c.cid ≠ cid) ∧ (∀ c, c ∈ d.consists → c.cid ≠ cid → c ∈ t.consists) ∧
  t.formDone = d.formDone.map fun f => if f.cid = cid ∧ f.status = none then { f with status := some status } else f

end Sys2Proof.Claims

open Sys2Proof Sys2Proof.Machine Sys2Proof.Claims

/-- R283, R309, R312, R314, R317, R320, R334, R341, R344, R345: engine jobs are performed and leave the tracker, multicasts fill their
receivers' buffers, fork children start, and a join merges its children byte by byte and fixes its status. When an event occurs is the
model's agenda (log 4), and the choices that firmware makes are its operands (log 12). -/
def Obligations.JobsArePerformedAndForksJoined : Prop :=
  (∀ id, EventActs (.copyJobExecute id)
    (fun d => ∃ j, d.jobs.find? (fun x => x.id = id) = some j ∧
      (j.dropped = true ∨ j.performed = true ∨
        (j.kind ≠ .multicast ∧ j.waits d = false ∧ held d j = false ∧ trackerHolds d id = true)))
    fun d t => ∀ j, d.jobs.find? (fun x => x.id = id) = some j →
      (j.dropped = true ∨ (j.performed = true ∧ j.arrivals = []) → JobGone t id ∧ t.mem = d.mem) ∧
      (j.dropped = false → j.performed = false → ∀ p from' dst l spa, OneElement d j p from' → j.dst.scratch = false → j.mode = 0 →
        engXlat d j.owner (vaOf (j.dst.addr (addCoords j.card.dorg p))) .write j.parked = .ok (l, dst) → l.kind ≠ .view →
        StatusAt (copied d j from' dst j.dst.type.size) j spa → (∀ i, i < j.dst.type.size → (dst + i) / 128 ≠ spa / 128) →
        JobGone t id ∧ homeBytes t (keyOf d j.owner) dst j.dst.type.size = homeBytes d (keyOf d j.owner) from' j.dst.type.size)) ∧
  (∀ id, EventActs (.multicastSend id)
    (fun d => ∃ j, d.jobs.find? (fun x => x.id = id) = some j ∧ (j.dropped = true ∨ j.performed = true ∨
      ∃ c, d.channels.find? (fun c => c.id = j.chan) = some c ∧ j.kind = .multicast ∧ j.waits d = false ∧ held d j = false ∧
        trackerHolds d id = true ∧ (∀ b, b ∈ c.members → receiverFree d c.id b = true) ∧
        ∀ x, x ∈ d.jobs.takeWhile (fun x => x.id ≠ j.id) → x.kind = .multicast → x.chan = j.chan → x.performed = true))
    fun d t => ∀ j, d.jobs.find? (fun x => x.id = id) = some j →
      (j.dropped = true ∨ (j.performed = true ∧ j.arrivals = []) → JobGone t id ∧ t.mem = d.mem) ∧
      (j.dropped = false → j.performed = false → ∀ c p from' spa, d.channels.find? (fun c => c.id = j.chan) = some c →
        c.revoked = [] → OneElement d j p from' → j.dst.scratch = true → j.mode = 0 → StatusAt d j spa →
        (∀ r, r ∈ receivers d c.id → r.2.mode = 0) → receivers d c.id ≠ [] →
        JobGone t id ∧ ∀ r a, r ∈ receivers d c.id → a = (j.dst.addr (addCoords j.card.dorg p)).toNat →
          a + j.dst.type.size ≤ r.2.len → ∃ y, findBlock t r.1 = some y ∧
            (∀ l, y.lbufs.find? (fun l => l.chan = c.id) = some l → l.free = false) ∧
            ∀ i, i < j.dst.type.size →
              Sparse.get 0 y.scratch (r.2.off + a + i) = homeByte d (keyOf d j.owner) (from' + i))) ∧
  (∀ b i core, EventActs (.childStart b i core)
    (fun d => ∃ p f c, forkOf d b = some f ∧ parentOf d f = some p ∧ f.child i = some c ∧
      (f.mayStart c = true ∨ f.mayRerun c = true) ∧ orphansRun d f = false ∧
      ((f.home = none ∧ f.pkgOf d i ≠ d.pkg) ∨ (sameDomain f.fr.domain core p.core = true ∧ ownCluster d f.owner core = true ∧
        roomFor d core (childShape p.shape (launchKeeps d p) f.fr) = true ∧
        (takeSave d f.owner (childShape p.shape (launchKeeps d p) f.fr).saveBytes).isSome = true)))
    fun d t => ∀ p f c, forkOf d b = some f → parentOf d f = some p → p.key = b → f.child i = some c →
      ∃ g x, forkOf t b = some g ∧ g.child i = some x ∧ x.runs = c.runs + b2n (f.mayRerun c) ∧ x.shadows = [] ∧
        (f.mayRerun c = true → g.state = .serial ∧ g.rcnt = f.rcnt + 1) ∧
        (f.mayRerun c = false → g.state = f.state ∧ g.rcnt = f.rcnt) ∧
        (f.home = none → f.pkgOf d i ≠ d.pkg → x.state = .away ∧
          ∃ spec lidx lext, Sends d t (f.pkgOf d i) f.owner (.childRun b i x.runs spec lidx lext)) ∧
        (f.home ≠ none ∨ f.pkgOf d i = d.pkg → FreshKeys d → x.state = .running d.nextBlock ∧ ∃ y, findBlock t d.nextBlock = some y ∧
          y.state = .resident ∧ y.core = core ∧ y.shape = childShape p.shape (launchKeeps d p) f.fr ∧ y.launch = p.launch ∧ y.blin = p.blin ∧
          y.child = some ⟨b, i, (p.child.map (·.depth)).getD 0 + 1, f.fr.nch, x.runs⟩ ∧
          y.groups = y.shape.startGroups d.ages)) ∧
  (∀ b, EventActs (.childMerge b)
    (fun d => ∃ f, forkOf d b = some f ∧
      ((f.home ≠ none ∧ ∃ c cs, f.children = c :: cs ∧ c.state = .ended ∧ childJobs d f.block c.idx = false) ∨
        (f.home = none ∧ (findBlock d b).isSome = true ∧
          ((f.state = .joined ∧ ∀ x, f.parked = some x → outstanding d x = false) ∨
            (f.state ≠ .joined ∧ orphansRun d f = false ∧ MayMerge d b f)))))
    fun d t => (∀ f src hb run c cs, forkOf d b = some f → f.home = some (src, hb, run) → f.children = c :: cs →
        forkOf t b = none ∧ Sends d t src f.owner (.childEnd hb c.idx run c.pages c.badSectors)) ∧
      ∀ p f, findBlock d b = some p → forkOf d b = some f → f.home = none → f.state ≠ .joined →
      (∀ c vpn sh tw, f.m < f.bound → f.child f.m = some c → c.state = .ended → c.shadows = [(vpn, sh)] → c.poisoned = false →
        p.child = none → isReduction sh.redop = false → sh.redop ≠ 13 → twinAt d b vpn = some tw →
        (∃ g x, forkOf t b = some g ∧ g.m = f.m + 1 ∧ g.child f.m = some x ∧ x.state = .merged ∧ x.shadows = []) ∧
        ∀ off key, off < 2 ^ 16 → key = keyOf d p.shape.owner → ∀ y, y = homeByte ((viewOf d p).settle d sh) key (sh.pa + off) →
          ((∃ e, (off / 128, e) ∈ sh.dirt) → sh.read off ≠ tw.read off → y = tw.read off ∨ y = sh.read off →
            homeByte t key (sh.pa + off) = sh.read off) ∧
          ((∀ e, (off / 128, e) ∉ sh.dirt) ∨ sh.read off = tw.read off ∨ (y ≠ tw.read off ∧ y ≠ sh.read off) →
            homeByte t key (sh.pa + off) = y)) ∧
      (f.bound ≤ f.m → f.fr.log = 0 → forkOf t b = none ∧ ∃ j, (b, j) ∈ t.joins ∧
        ((j.status.extractLsb' 0 8).toNat = if f.state = .failing then 3 else if ∃ c, c ∈ f.children ∧ c.state = .lost then 4
          else if f.conflicts = [] then 1 else 2) ∧
        (f.failb < 256 → (∀ c, c ∈ f.children → c.idx < 256) →
          (j.status.extractLsb' 16 16).toNat = min 65535 f.conflicts.length ∧
          (j.status.extractLsb' 32 16).toNat = min 65535 f.rcnt)))

/-- R349, R353, R360, R361, R365, R368, R370: consists form, meet their limit or lose a member; pieces and results are taken once and
acknowledged, packets sent again, awaited members probed; failures abort the collective and break its consist. When an event occurs is the
model's agenda (log 4), and the choices that firmware makes are its operands (log 12). -/
def Obligations.CollectivesFormExchangeAndAbort : Prop :=
  (∀ k, PacketActs (.formArrive k) k (fun _ p => ∃ cid n dig rank lim, p.body = .form cid n dig rank lim)
    fun d p t => ∀ cid n dig rank lim key, p.body = .form cid n dig rank lim → key = cidKey d p.owner cid →
      (heldHere d key = none → ∃ u, t = { d with heldForms := d.heldForms ++ [(p, u)] }) ∧
      ∀ c, heldHere d key = some c →
        (c.owner ≠ p.owner → t.consists = d.consists ∧ ∃ e, e ∈ t.errors ∧ e.kind = 9) ∧
        (c.owner = p.owner → c.state = .forming → c.digest ≠ dig → FormationEnds d t key 1) ∧
        (c.owner = p.owner → c.state = .forming → c.digest = dig → rank ∉ c.forms → c.forms.length + 1 < c.members.length →
          t = { d with consists := t.consists } ∧ ∃ x, heldHere t key = some x ∧ x.forms = rank :: c.forms ∧ x.state = .forming) ∧
        (c.owner = p.owner → c.state = .forming → c.digest = dig → rank ∉ c.forms → c.members.length ≤ c.forms.length + 1 →
          (pinsOf d c.members = none → FormationEnds d t key 5) ∧ ∀ ps, pinsOf d c.members = some ps →
            t = { d with consists := t.consists, formDone := t.formDone } ∧
            t.formDone = d.formDone.map (fun f => if f.cid = key ∧ f.status = none then { f with status := some 0 } else f) ∧
            ∃ x, heldHere t key = some x ∧ x.state = .ready ∧ x.pins = ps ∧ x.epoch = c.epoch ∧ x.members = c.members) ∧
        (c.owner = p.owner → c.state ≠ .forming → ∃ u, t = { d with heldForms := d.heldForms ++ [(p, u)] })) ∧
  (∀ die cid, EventActs (.formationLimitExpiry die cid)
    (fun d => ∃ k, consistAt d die cid = some k ∧ k.state = .forming ∧ k.limit ≠ 0 ∧ k.limit ≤ d.time)
    fun d t => t = { d with consists := t.consists, formDone := t.formDone } ∧ FormationEnds d t cid 2) ∧
  (∀ k, PacketActs (.consistGone k) k (fun _ p => ∃ cid rank, p.body = .gone cid rank)
    fun d p t => ∀ cid rank, p.body = .gone cid rank → (heldHere d (cidKey d p.owner cid) = none → t = d) ∧
      ∀ c, heldHere d (cidKey d p.owner cid) = some c →
        (c.owner ≠ p.owner → t.consists = d.consists ∧ ∃ e, e ∈ t.errors ∧ e.kind = 9) ∧
        (c.owner = p.owner → (c.state = .forming → FormationEnds d t c.cid 5) ∧
          (∀ x, x ∈ d.colls → findColl d x.id = some x → x.cid = c.cid → x.epoch = c.epoch → x.ended = false → x.subs ≠ [] →
            (consistAt d x.die x.cid).isSome = true → Aborted t x.id 4 rank) ∧
          (c.state ≠ .forming → (∀ x, x ∈ d.colls → x.cid = c.cid → x.epoch = c.epoch → x.ended = true ∨ x.subs = []) → t = d))) ∧
  (∀ k, PacketActs (.collPieceArrive k) k (fun _ p => PacketBody.isPiece p.body = true)
    fun d p t =>
      (∀ id cid epoch seq rank dest chunk idx bytes poison, p.body = .piece id cid epoch seq rank dest chunk idx bytes poison →
        (Discarded d p cid epoch → t = d) ∧
        ∀ c m, Passes d p cid epoch c → consistOfRank d c dest = some m →
          m.state ≠ .broken ∨ (∃ x, collAt d m.die m.cid epoch seq = some x ∧ x.ended = true) → Sends d t p.src p.owner (.ack id)) ∧
      (∀ id cid epoch seq rank dest chunk, p.body = .credit id cid epoch seq rank dest chunk →
        (Discarded d p cid epoch → t = d) ∧
        ∀ c m, Passes d p cid epoch c → consistOfRank d c dest = some m →
          m.state ≠ .broken ∨ (∃ x, collAt d m.die m.cid epoch seq = some x ∧ x.ended = true) → Sends d t p.src p.owner (.ack id)) ∧
      (∀ cid epoch seq dest chunk idx rows, p.body = .pieces cid epoch seq dest chunk idx rows → Discarded d p cid epoch → t = d) ∧
      (∀ id, p.body = .ack id → ∀ x, x ∈ t.sent → x.id ≠ id ∧ x ∈ d.sent) ∧
      (∀ cid epoch seq rank dest, p.body = .probe cid epoch seq rank dest → d.time ≤ p.deadline →
        heldHere d (cidKey d p.owner cid) = none → Sends d t p.src p.owner (.gone cid dest)) ∧
      ∀ cid epoch seq rank dest c m, p.body = .probe cid epoch seq rank dest → Passes d p cid epoch c →
        consistOfRank d c dest = some m → ∃ b, Sends d t p.src p.owner (.answer cid epoch seq dest b) ∧
          (b = true ↔ ∃ x, collAt d m.die m.cid epoch seq = some x ∧ x.subs ≠ [])) ∧
  (∀ k, PacketActs (.collResultArrive k) k
    (fun _ p => ∃ id cid epoch seq rank dest chunk idx bytes poison, p.body = .result id cid epoch seq rank dest chunk idx bytes poison)
    fun d p t => ∀ id cid epoch seq rank dest chunk idx bytes poison,
      p.body = .result id cid epoch seq rank dest chunk idx bytes poison → (Discarded d p cid epoch → t = d) ∧
      ∀ c m, Passes d p cid epoch c → consistOfRank d c dest = some m →
        m.state ≠ .broken ∨ (∃ x, collAt d m.die m.cid epoch seq = some x ∧ x.ended = true) → Sends d t p.src p.owner (.ack id)) ∧
  (∀ id, EventActs (.collRetransmit id)
    (fun d => ∃ x, d.sent.find? (fun y => y.id = id) = some x ∧ (∃ i c e q r r' ch n b w,
      x.packet.body = .piece i c e q r r' ch n b w ∨ x.packet.body = .result i c e q r r' ch n b w ∨
        x.packet.body = .credit i c e q r r' ch) ∧
      x.resend ≤ d.time ∧ d.time ≤ x.deadline)
    fun d t => ∀ x c k, d.sent.find? (fun y => y.id = id) = some x → findColl d x.coll = some c → consistAt d c.die c.cid = some k →
      (x.packet.dst = d.pkg → t.inbox = d.inbox ++ [x.packet] ∧ t.sent = d.sent.map fun y =>
        if y.id = x.id then { y with resend := y.resend + deadlineOf d x.packet.owner 3 / 4 } else y) ∧
      ∀ pin, x.packet.dst ≠ d.pkg → k.pins.find? (fun y => y.1 = x.packet.dst) = some pin →
        ((portAt d pin.2).live = true → (portAt t pin.2).queued = (portAt d pin.2).queued ++ [sourceWire d x.packet]) ∧
        ((portAt d pin.2).live = false → c.ended = false → ∀ r, PacketBody.destRank x.packet.body = some r → Aborted t c.id 2 r)) ∧
  (∀ id, EventActs (.collProbe id)
    (fun d => ∃ c k, findColl d id = some c ∧ consistAt d c.die c.cid = some k ∧ c.state = .active ∧
      c.heard + deadlineOf d k.owner 3 ≤ d.time)
    fun d t => (∃ c, findColl t id = some c ∧ c.heard = d.time) ∧ ∀ c k r, findColl d id = some c →
      consistAt d c.die c.cid = some k → awaitedRanks d c k = [r] → (memberAt k r).1 = d.pkg →
      ∃ a, a ∈ t.inbox ∧ a.body = .probe (plainCid c.cid) c.epoch c.seq (localRank d k) r) ∧
  (∀ id, EventActs (.collLimitExpiry id)
    (fun d => ∃ c card k, findColl d id = some c ∧ c.card = some card ∧ consistAt d c.die c.cid = some k ∧ c.ended = false ∧
      card.limit ≠ 0 ∧ c.started + 1000 * card.limit ≤ d.time)
    fun _ t => ∃ r, Aborted t id 3 r) ∧
  (∀ id rank, EventActs (.collPieceDeadline id rank)
    (fun d => ∃ x, x ∈ d.sent ∧ x.coll = id ∧ PacketBody.destRank x.packet.body = some rank ∧ x.deadline < d.time)
    fun d t => (∀ c, findColl d id = some c → c.ended = false → (consistAt d c.die c.cid).isSome = true → Aborted t id 3 rank) ∧
      (findColl d id = none → t.sent = d.sent.filter (fun x => !x.late d id rank))) ∧
  (∀ k, PacketActs (.collNoticeArrive k) k
    (fun _ p => ∃ id cid epoch seq code fail det st dest, p.body = .notice id cid epoch seq code fail det st dest)
    fun d p t => ∀ id cid epoch seq code fail det st dest, p.body = .notice id cid epoch seq code fail det st dest →
      (Discarded d p cid epoch → t = d) ∧ ∀ c m, Passes d p cid epoch c → consistOfRank d c dest = some m →
        Sends d t p.src p.owner (.ack id) ∧
        (m.state = .ready → ∃ x, consistAt t m.die m.cid = some x ∧ x.state = .broken) ∧
        ∀ x, collAt d m.die m.cid m.epoch seq = some x → findColl d x.id = some x → x.ended = false → Aborted t x.id code fail) ∧
  ∀ id, EventActs (.noticeResend id)
    (fun d => ∃ x, d.sent.find? (fun y => y.id = id) = some x ∧
      (∃ i c e q code fail det st dest, x.packet.body = .notice i c e q code fail det st dest) ∧
      (x.deadline < d.time ∨ x.resend ≤ d.time))
    fun d t => ∀ x, d.sent.find? (fun y => y.id = id) = some x →
      (x.deadline < d.time → t = { d with sent := d.sent.filter (fun y => y.id ≠ id) }) ∧
      (d.time ≤ x.deadline → Sends d t x.packet.dst x.packet.owner x.packet.body ∧ t.sent = d.sent.map fun y =>
        if y.id = x.id then { y with resend := y.resend + deadlineOf d x.packet.owner 3 / 4 } else y)
namespace Sys2Proof.Claims

open Sys2Proof Sys2Proof.Machine

/-- Of the package only the registers of function fn change, as f says. -/
def OneFn (d t : Dev) (fn : Nat) (f : Func → Func) : Prop :=
  t = { d with funcs := t.funcs } ∧ fnAt t fn = f (fnAt d fn) ∧ ∀ g, g ≠ fn → fnAt t g = fnAt d g

/-- A tag of a function is outstanding. -/
def TagOut (d : Dev) (fn tag : Nat) : Prop := ∃ x, x ∈ d.tagsOut ∧ x.tag = tag ∧ x.fn = fn

/-- The tag is outstanding no longer, and a fault record of it still waiting is dropped (R388). -/
def TagEnds (d t : Dev) (fn tag : Nat) : Prop :=
  t.tagsOut = d.tagsOut.filter (fun x => x.tag ≠ tag) ∧
  (fnAt t fn).fq = { (fnAt d fn).fq with waiting := (fnAt d fn).fq.waiting.filter fun r => r.term || r.tag ≠ tag }

/-- The head of a function's waiting records is of a kind and finds a slot of an enabled ring (R388). -/
def HeadFits (d : Dev) (fn : Nat) (term : Bool) (r : RingRec) : Prop :=
  (fnAt d fn).fq.waiting.head? = some r ∧ r.term = term ∧ (fnAt d fn).fq.enabled = true ∧
  gap (fnAt d fn).fq.widx (fnAt d fn).fq.ridx < 2 ^ (fnAt d fn).fq.log2n

/-- An owner command: its event and OP (R391). -/
inductive OwnerOp : (Nat → DWord → Instr) → Nat → Prop
  | create : OwnerOp .ocmdCreate 1
  | destroy : OwnerOp .ocmdDestroy 2
  | inval : OwnerOp .ocmdInval 3

/-- The cause c of an owner command on owner o (R391): a reserved bit 4, an owner of another function 1, the management owner or
one created already 5, an owner not created 6, launches not ended 3, a bad operand 4; 0 where it may be done. -/
def OwnerCause (d : Dev) (fn op o w c : Nat) : Prop :=
  (bits w 63 13 ≠ 0 → c = 4) ∧
  (bits w 63 13 = 0 → fnOwns d fn o = false → c = 1) ∧
  (bits w 63 13 = 0 → fnOwns d fn o = true → ∀ p, partOfFn d fn = some p →
    (op = 1 → p.ownBase = o ∨ created d o = true → c = 5) ∧
    (op = 1 → p.ownBase ≠ o → created d o = false → c = if createOk d fn (fnAt d fn).oc.arg0.toNat then 0 else 4) ∧
    (op = 2 → p.ownBase = o → c = 5) ∧
    (op = 2 → p.ownBase ≠ o → created d o = false → c = 6) ∧
    (op = 2 → p.ownBase ≠ o → created d o = true →
      c = if ∃ l, l ∈ d.launches ∧ l.lr.owner = o ∧ l.state ≠ .ended then 3 else 0) ∧
    (op = 3 → created d o = false → c = 6) ∧
    (op = 3 → created d o = true → c = if invalOk (fnAt d fn).oc.arg0.toNat (fnAt d fn).oc.arg1.toNat then 0 else 4))

/-- What an owner command without cause does (R385, R390, R391). -/
def OwnerDone (d t : Dev) (fn op o w : Nat) : Prop :=
  (op = 1 → t.nonces = d.nonces + 1 ∧ Sparse.get {} t.owners o =
    { created := true, root := (fnAt d fn).oc.arg0.toNat, replay := bitOf w 12, nonce := d.nonces + 1 }) ∧
  (op = 2 → Sparse.get {} t.owners o = {} ∧ (∀ e, e ∈ t.tlb → e.owner ≠ o) ∧ ∀ c, c ∈ t.l1 ++ t.cc ++ t.constant ++ t.icache ++ t.records ++ t.rdc ++ t.l2host → c.key ≠ keyOf d o) ∧
  (op = 3 → ∀ va len, va = (fnAt d fn).oc.arg0.toNat → len = (fnAt d fn).oc.arg1.toNat → ∀ e, e ∈ t.tlb ↔ e ∈ d.tlb ∧
    ¬ (e.owner = o ∧ (len = 0 ∨ (e.va < va + len ∧ va < e.va + e.leaf.size)))) ∧
  ∀ x, x ≠ o → Sparse.get {} t.owners x = Sparse.get {} d.owners x

/-- A register of BAR0 that keeps what is written, at its offset (R388, R391, R396, R397). -/
inductive PlainReg : Nat → DWord → (Func → Func) → Prop
  | fqBase (w) : PlainReg 0x1000 w fun x => { x with fq := { x.fq with base := dw (w.toNat / 4096 * 4096) } }
  | fqRidx (w) : PlainReg 0x1018 w fun x => { x with fq := { x.fq with ridx := bits w.toNat 31 0 } }
  | hova (w) : PlainReg 0x1040 w fun x => { x with ho := { x.ho with hova := w } }
  | holen (w) : PlainReg 0x1048 w fun x => { x with ho := { x.ho with holen := w } }
  | hosw (w) : PlainReg 0x1050 w fun x => { x with ho := { x.ho with hosw := w } }
  | hkey (w) : PlainReg 0x1078 w fun x => { x with hkey := bits w.toNat 9 0 }
  | arg0 (w) : PlainReg 0x1088 w fun x => { x with oc := { x.oc with arg0 := w } }
  | arg1 (w) : PlainReg 0x1090 w fun x => { x with oc := { x.oc with arg1 := w } }
  | fdl0 (w) : 1000 ≤ bits w.toNat 29 0 → bits w.toNat 29 0 ≤ 1000000000 → PlainReg 0x2000 w fun x => { x with fdl0 := bits w.toNat 29 0 }
  | fdl1 (w) : 1000 ≤ bits w.toNat 29 0 → bits w.toNat 29 0 ≤ 1000000000 → PlainReg 0x2008 w fun x => { x with fdl1 := bits w.toNat 29 0 }
  | fdl2 (w) : 1000 ≤ bits w.toNat 29 0 → bits w.toNat 29 0 ≤ 1000000000 → PlainReg 0x2010 w fun x => { x with fdl2 := bits w.toNat 29 0 }
  | fdl3 (w) : 1000 ≤ bits w.toNat 29 0 → bits w.toNat 29 0 ≤ 1000000000 → PlainReg 0x2018 w fun x => { x with fdl3 := bits w.toNat 29 0 }
  | fqto (w) : 1000 ≤ bits w.toNat 23 0 → bits w.toNat 23 0 ≤ 10000000 →
      PlainReg 0x1028 w fun x => { x with fq := { x.fq with timeout := bits w.toNat 23 0 } }

/-- A register whose write is an event of its own (R388, R391, R394, R397, R400, R403). -/
inductive EventReg : Nat → Nat → DWord → Instr → Prop
  | fqcfg1 (fn w) : w.getLsbD 16 = true → EventReg fn 0x1008 w (.fqcfgEnable fn w)
  | fqcfg0 (fn w) : w.getLsbD 16 = false → EventReg fn 0x1008 w (.fqcfgDisable fn w)
  | retry (fn w) : bits w.toNat 33 32 = 1 → EventReg fn 0x1020 w (.fqreplyRetry fn (bits w.toNat 31 0))
  | fail (fn w) : bits w.toNat 33 32 = 2 → EventReg fn 0x1020 w (.fqreplyFail fn (bits w.toNat 31 0))
  | h2d (fn w) : w.getLsbD 10 = false → EventReg fn 0x1058 w (.hoctlH2d fn w)
  | d2h (fn w) : w.getLsbD 10 = true → EventReg fn 0x1058 w (.hoctlD2h fn w)
  | create (fn w) : bits w.toNat 11 10 = 1 → EventReg fn 0x1080 w (.ocmdCreate fn w)
  | destroy (fn w) : bits w.toNat 11 10 = 2 → EventReg fn 0x1080 w (.ocmdDestroy fn w)
  | inval (fn w) : bits w.toNat 11 10 = 3 → EventReg fn 0x1080 w (.ocmdInval fn w)
  | psetup (w) : EventReg 0 0x1100 w (.psetup w)
  | ptear (w) : EventReg 0 0x1108 w (.ptear w)
  | report (fn w) : bits w.toNat 63 60 = 1 → EventReg fn 0x1140 w (.areqReport fn w)
  | certificate (fn w) : bits w.toNat 63 60 = 2 → EventReg fn 0x1140 w (.areqCertificate fn w)
  | rtinv (fn w) : EventReg fn 0x2028 w (.rtinv fn w)

end Sys2Proof.Claims

open Sys2Proof Sys2Proof.Machine Sys2Proof.Claims

/-- R387, R388, R391, R394, R418: records go into the fault ring and are answered or time out; owner and partition commands take
effect, and their status follows. That the effect stands before the status is the model's choice (log 12). When an event occurs is the
model's agenda (log 4), and the choices that firmware makes are its operands (log 12). -/
def Obligations.FaultRecordsAndCommandsOfTheHost : Prop :=
  (∀ fn tag, EventActs (.fqreplyRetry fn tag) (fun _ => True) fun d t =>
    (¬ TagOut d fn tag → t = d) ∧
    (TagOut d fn tag → (∀ c, c ∈ d.colls → c.parked ≠ some tag) → TagEnds d t fn tag ∧ t.failed = d.failed)) ∧
  (∀ fn tag, EventActs (.fqreplyFail fn tag) (fun _ => True) fun d t =>
    (¬ TagOut d fn tag → t = d) ∧
    (TagOut d fn tag → (∀ c, c ∈ d.colls → c.parked ≠ some tag) → TagEnds d t fn tag ∧ ∃ x, x ∈ d.tagsOut ∧ x.tag = tag ∧ x.fn = fn ∧
      t.failed = d.failed ++ [⟨x.owner, x.block64, x.cause, tag⟩])) ∧
  (∀ fn (w : DWord), EventActs (.fqcfgEnable fn w) (fun _ => fn < 16 ∧ w.getLsbD 16 = true) fun d t =>
    ∀ q, q = (fnAt d fn).fq → ∀ ok, ok = (4 ≤ bits w.toNat 3 0 ∧ q.base.toNat < 2 ^ 39 ∧
        (w.getLsbD 4 = true ∨ inPartition d fn q.base.toNat (64 * 2 ^ bits w.toNat 3 0) = true)) →
      (ok → OneFn d t fn fun x => { x with fq :=
        { q with log2n := bits w.toNat 3 0, host := w.getLsbD 4, vec := bits w.toNat 15 5, enabled := true, widx := 0, ridx := 0 } }) ∧
      (¬ ok → (∀ c, c ∈ d.colls → c.parked = none) → (fnAt t fn).fq =
        { q with log2n := bits w.toNat 3 0, host := w.getLsbD 4, vec := bits w.toNat 15 5, enabled := false, waiting := [] })) ∧
  (∀ fn (w : DWord), EventActs (.fqcfgDisable fn w) (fun _ => fn < 16 ∧ w.getLsbD 16 = false) fun d t =>
    (∀ c, c ∈ d.colls → c.parked = none) → ∀ q, q = (fnAt d fn).fq → (fnAt t fn).fq =
      { q with log2n := bits w.toNat 3 0, host := w.getLsbD 4, vec := bits w.toNat 15 5, enabled := false, waiting := [] } ∧
      ∀ r, r ∈ (fnAt d fn).fq.waiting → r.term = false → TagOut d fn r.tag → ¬ TagOut t fn r.tag) ∧
  (∀ i term fn, (i = .faultRecordPost fn ∧ term = false) ∨
      (i = .terminationRecord fn ∧ term = true) →
    EventActs i (fun d => ∃ r, HeadFits d fn term r) fun d t => ∀ r q, HeadFits d fn term r → q = (fnAt d fn).fq →
      (fnAt t fn).fq = { q with widx := (q.widx + 1) % 2 ^ 32, waiting := q.waiting.drop 1 } ∧
      (term = true → t.tagsOut = d.tagsOut) ∧
      (term = false → t.tagsOut = d.tagsOut.map fun x => if x.tag = r.tag then { x with posted := some d.time } else x) ∧
      (r.bytes.length = 64 → q.base.toNat % 4096 = 0 → ∀ a, a = (if q.host then 2 ^ 39 else 0) + q.base.toNat +
          64 * (q.widx % 2 ^ q.log2n) →
        homeBytes t (fnKey d fn) a 64 = r.bytes.take 48 ++ bytesOf (q.widx % 2 ^ 16) 2 ++ r.bytes.drop 50)) ∧
  (∀ fn tag, EventActs (.faultTimeout fn tag)
    (fun d => ∀ q, q = (fnAt d fn).fq →
      (tag = 0 → ∃ r, q.waiting.find? (fun x => x.term) = some r ∧ r.since + 1000 * q.timeout ≤ d.time) ∧
      (tag ≠ 0 → (∃ r, r ∈ q.waiting ∧ r.term = false ∧ r.tag = tag ∧ r.since + 1000 * q.timeout ≤ d.time) ∨
        ∃ x at', x ∈ d.tagsOut ∧ x.tag = tag ∧ x.fn = fn ∧ x.posted = some at' ∧ at' + 1000 * q.timeout ≤ d.time))
    fun d t => (tag = 0 → ∃ e, e ∈ t.errors ∧ e.kind = 10) ∧
      (tag ≠ 0 → TagOut d fn tag → (∀ c, c ∈ d.colls → c.parked ≠ some tag) → TagEnds d t fn tag ∧
        ∃ f, f ∈ t.failed ∧ f.tag = tag)) ∧
  (∀ i op, OwnerOp i op → ∀ fn (w : DWord),
    EventActs (i fn w) (fun _ => fn < 16 ∧ bits w.toNat 11 10 = op) fun d t => ∀ x o, x = (fnAt d fn).oc → o = bits w.toNat 9 0 →
      (x.stat = 1 → OneFn d t fn fun y => { y with oc := { y.oc with cause := 2 } }) ∧
      (x.stat ≠ 1 → ∃ c, (fnAt t fn).oc = { x with stat := 1, cause := 0, cmd := some (op, o), result := c } ∧
        OwnerCause d fn op o w.toNat c ∧ (c = 0 → OwnerDone d t fn op o w.toNat) ∧ (c ≠ 0 → t = { d with funcs := t.funcs }))) ∧
  (∀ fn, EventActs (.ownerCommandEnd fn) (fun d => (fnAt d fn).oc.stat = 1) fun d t =>
    OneFn d t fn fun x => { x with oc := { x.oc with
      stat := if x.oc.result = 0 then 2 else 3, cause := x.oc.result, cmd := none } }) ∧
  (∀ w : DWord, EventActs (.psetup w) (fun _ => True) fun d t => (d.pstat = 1 → t = d) ∧
    (d.pstat ≠ 1 → t.pstat = 1 ∧ t.pcause = 0 ∧ ∃ stat cause, t.pcmd = some (false, w.toNat, stat, cause) ∧
      (w.toNat % 256 ≠ 0 ∨ populated w.toNat 256 = false → stat = 3 ∧ cause = 2 ∧ t.parts = d.parts) ∧
      (w.toNat % 256 = 0 → populated w.toNat 256 = true → ∀ b, b = homeBytes d (fnKey d 0) w.toNat 256 →
        (∀ p, checkPartition d b = .ok p → stat = 2 ∧ cause = 0 ∧ t.parts = d.parts ++ [p] ∧ created t p.ownBase = true ∧
          (fnAt t p.part).hkey = p.ownBase ∧ 2 ≤ p.ownCnt ∧ p.ownBase + p.ownCnt ≤ 1024 ∧
          (∀ r, r ∈ p.mems → r.1 % 2 ^ 16 = 0 ∧ r.2 % 2 ^ 16 = 0) ∧
          ∀ x, x ∈ d.parts → x.part ≠ p.part ∧ x.clusters &&& p.clusters = 0 ∧
            (x.ownBase + x.ownCnt ≤ p.ownBase ∨ p.ownBase + p.ownCnt ≤ x.ownBase)) ∧
        (∀ c, checkPartition d b = .error c → stat = 3 ∧ cause = c ∧ t.parts = d.parts)))) ∧
  (∀ (w : DWord) n, n = bits w.toNat 3 0 → EventActs (.ptear w) (fun _ => True) fun d t => (d.pstat = 1 → t = d) ∧
    (d.pstat ≠ 1 → t.pstat = 1 ∧ t.pcause = 0 ∧ t.pcmd = some (true, n, 2, 0) ∧ (∀ p, p ∈ t.parts → p.part ≠ n) ∧
      (∀ p, p ∈ d.parts → p.part ≠ n → ∃ q, q ∈ t.parts ∧ q.part = p.part) ∧
      ∀ p i, partOfFn d n = some p → i < p.ownCnt → created t (p.ownBase + i) = false)) ∧
  EventActs .partitionCommandEnd (fun d => d.pcmd ≠ none) fun d t =>
    ∀ tear arg stat cause, d.pcmd = some (tear, arg, stat, cause) → t = { d with pstat := stat, pcause := cause, pcmd := none }

/-- R6, R348, R353, R395-R397, R400, R403, R438: the host hands lines over, asks for reports, reads and writes through the window,
drops range entries, unmasks vectors and writes registers. When an event occurs is the
model's agenda (log 4), and the choices that firmware makes are its operands (log 12). -/
def Obligations.HostReachesMemoryAndRegisters : Prop :=
  (∀ i dir fn (w : DWord), (i = .hoctlH2d fn w ∧ dir = false) ∨
      (i = .hoctlD2h fn w ∧ dir = true) →
    EventActs i (fun _ => fn < 16 ∧ w.getLsbD 10 = dir) fun d t => ∀ h o, h = (fnAt d fn).ho → o = bits w.toNat 9 0 →
      (h.busy = true → OneFn d t fn fun x => { x with ho := { x.ho with lost := true } }) ∧
      (h.busy = false → ∃ c, (fnAt t fn).ho = { h with busy := true, owner := o, d2h := dir, code := c } ∧
        (handoverOk d fn o h = false → c = 2 ∧ t = { d with funcs := t.funcs }) ∧
        (handoverOk d fn o h = true → handoverXlat d o h.hova.toNat = none → c = 2 ∧ t = { d with funcs := t.funcs }) ∧
        (handoverOk d fn o h = true → h.holen.toNat = 128 → ∀ pa, handoverXlat d o h.hova.toNat = some pa → c = 1 ∧
          (∀ x, x ∈ t.dirty → x.sector / 4 ≠ pa / 128) ∧
          (dir = false → ∀ x, x ∈ t.l1 ++ t.cc ++ t.rdc → x.line ≠ pa / 128) ∧
          (isHost (128 * (pa / 128)) = true → ∀ x, x ∈ t.l2host → x.line = pa / 128 → dir = true ∧ x.owed = [])))) ∧
  (∀ fn, EventActs (.handoverEnd fn) (fun d => (fnAt d fn).ho.busy = true) fun d t => ∀ h, h = (fnAt d fn).ho →
    (fnAt t fn).ho = { h with busy := false } ∧
    ∀ pa, fnOwns d fn h.owner = true → created d h.owner = true → h.hosw.toNat % 8 = 0 →
      handoverXlat d h.owner h.hosw.toNat = some pa → pa % 8 = 0 →
      homeBytes t (fnKey d fn) pa 8 = bytesOf (h.code + 2 ^ 16 * (d.time % 2 ^ 48)) 8) ∧
  (∀ i kind fn (w : DWord), (i = .areqReport fn w ∧ kind = 1) ∨
      (i = .areqCertificate fn w ∧ kind = 2) →
    EventActs i (fun _ => fn < 16 ∧ bits w.toNat 63 60 = kind) fun d t => ∀ va, va = bits w.toNat 56 0 →
      (partOfFn d fn = none ∨ bits w.toNat 59 57 ≠ 0 ∨ va % 2048 ≠ 0 → OneFn d t fn fun x => { x with astat := 3 }) ∧
      ∀ p, partOfFn d fn = some p → bits w.toNat 59 57 = 0 → va % 2048 = 0 →
        (∀ x, engRead d p.ownBase va 0x30 none = .error x → OneFn d t fn fun x => { x with astat := 3 }) ∧
        ∀ b bad e, engRead d p.ownBase va 0x30 none = .ok (b, bad) →
          engWrite d p.ownBase va (if kind = 1 then signReport (reportBody d p (b.drop 16)) else certificateBytes) none = .ok e →
          OneFn e t fn fun x => { x with astat := 2 }) ∧
  (∀ fn (w : DWord), EventActs (.rtinv fn w) (fun _ => fn < 16) fun d t => t = { d with rangeCache := t.rangeCache } ∧
    ∀ c, c ∈ t.rangeCache ↔ c ∈ d.rangeCache ∧ ¬ (c.part = fn ∧ (w.getLsbD 10 = true ∨ c.src = bits w.toNat 9 0))) ∧
  (∀ fn off n, EventActs (.bar2Read fn off n) (fun _ => fn < 16) fun d t =>
    (windowBytes d fn off n = none → t = { d with bar2Out := none :: d.bar2Out }) ∧
    ∀ l key, key = keyOf d (fnAt d fn).hkey → windowBytes d fn off n = some l →
      (∀ a, a ∈ l → poisoned d a 1 = false ∧ ∀ x, savedByte d a = some x → x.1 = key) →
      t = { d with bar2Out := some (l.map fun a => ((savedByte d a).map (·.2)).getD (homeByte d key a)) :: d.bar2Out }) ∧
  (∀ fn off bytes, EventActs (.bar2Write fn off bytes) (fun _ => fn < 16) fun d t =>
    (windowBytes d fn off bytes.length = none → t = d) ∧
    ∀ l, windowBytes d fn off bytes.length = some l → l.Nodup → ∀ (i : Nat) a x, l[i]? = some a → bytes[i]? = some x →
      homeByte t (keyOf d (fnAt d fn).hkey) a = x) ∧
  (∀ fn v, EventActs (.msixUnmask fn v) (fun d => fn < 16 ∧ (v = 2048 ∨ liveVector d fn v = true)) fun d t =>
    ∀ x y, x = Sparse.get {} (fnAt d fn).vectors v → y = Sparse.get {} (fnAt t fn).vectors v →
      (v ≠ 2048 → x.pending = true → (fnAt d fn).fmask = false → t.interrupts = d.interrupts ++ [(x.addr, x.data)] ∧
        y = { x with masked := false, pending := false }) ∧
      (v ≠ 2048 → x.pending = false ∨ (fnAt d fn).fmask = true → t.interrupts = d.interrupts ∧ y = { x with masked := false }) ∧
      (v = 2048 → (fnAt t fn).fmask = false ∧ ∀ u, (Sparse.get {} (fnAt t fn).vectors u).pending = true →
        (Sparse.get {} (fnAt t fn).vectors u).masked = true)) ∧
  (∀ fn off (w : DWord), EventActs (.registerWrite fn off w) (fun _ => fn ≤ 16) fun d t =>
    (fn < 16 → off % 8 ≠ 0 → t = d) ∧ (∀ f, fn < 16 → PlainReg off w f → OneFn d t fn f) ∧
    (fn = 16 → d.recovery = true ∨ off % 8 ≠ 0 ∨ 8192 ≤ off → t = d) ∧
    (fn = 16 → d.recovery = false → off % 8 = 0 → off < 8192 → t = { d with routes := t.routes, pkg := t.pkg } ∧
      (∀ k, k ≠ off / 8 → Sparse.get {} t.routes k = Sparse.get {} d.routes k) ∧
      (∀ r : Route, r = Sparse.get {} t.routes (off / 8) → r.nport = bits w.toNat 18 16 ∧ r.hops = bits w.toNat 21 19 ∧
        r.own = w.getLsbD 22 ∧ r.ports = [bits w.toNat 3 0, bits w.toNat 7 4, bits w.toNat 11 8, bits w.toNat 15 12]) ∧
      t.pkg = if w.getLsbD 22 then off / 8 else d.pkg)) ∧
  ∀ fn off w i, EventReg fn off w i → fn < 16 → ∀ s : State, exec (.registerWrite fn off w) s = exec i s
namespace Sys2Proof.Claims

open Sys2Proof Sys2Proof.Machine

/-- Of the package only monitor u changes, as f says. -/
def OneMonitor (d t : Dev) (u : Nat) (f : Monitor → Monitor) : Prop :=
  t = { d with monitors := t.monitors } ∧ Sparse.get {} t.monitors u = f (Sparse.get {} d.monitors u) ∧
  ∀ v, v ≠ u → Sparse.get {} t.monitors v = Sparse.get {} d.monitors v

/-- Island i has the greatest number of f, and no lower index has it (R426). -/
def FirstGreatest (f : Nat → Nat) (i : Nat) : Prop := i < 112 ∧ ∀ j, j < 112 → f j ≤ f i ∧ (f j = f i → i ≤ j)

/-- What a package reset leaves (R423, R430): no block, launch, partition or owner, links that train; the images of the first slots
accepted are booted, and without one for each of the three the package stays in recovery. -/
def PackageReset (d t : Dev) : Prop :=
  t.blocks = [] ∧ t.launches = [] ∧ t.parts = [] ∧ t.owners = [] ∧ t.funcs = [] ∧ t.jobs = [] ∧ t.consists = [] ∧ t.dirty = [] ∧
  t.time = d.time ∧ t.pkg = d.pkg ∧ t.flash = d.flash ∧
  (∀ p, p < 16 → (portAt t p).live = false ∧ (portAt t p).retraining = true) ∧
  ∀ ok : Nat → Nat → Bool, (∀ img slot, ok img slot = imageOk d.flash img (slotImage d.flash img slot)) →
    (t.recovery = true ↔ ∃ img, img < 3 ∧ ok img 0 = false ∧ ok img 1 = false) ∧
    (t.recovery = false → t.booted = (List.range 3).map fun img =>
      (slotImage d.flash img (if ok img 0 then 0 else 1)).digest) ∧
    (t.recovery = false → ∀ c, c = slotImage d.flash 2 (if ok 2 0 then 0 else 1) → t.sidings = c.sidings ∧
      (1000000 ≤ c.slice → c.slice ≤ 1000000000 → t.timeSlice = c.slice))

end Sys2Proof.Claims

open Sys2Proof Sys2Proof.Machine Sys2Proof.Claims

/-- R423, R425, R426, R428, R430: monitors capture, islands step, corrected errors are counted, resets leave what survives them, and
images are placed in flash. That MIN starts at its highest value is the model's choice (log 7). When an event occurs is the
model's agenda (log 4), and the choices that firmware makes are its operands (log 12). -/
def Obligations.HealthAndResets : Prop :=
  (∀ u (w : DWord), EventActs (.monitorStart u w) (fun _ => u < 128 ∧ w.getLsbD 45 = true) fun d t =>
    (d.recovery = true → t = d) ∧
    (d.recovery = false → OneMonitor d t u fun _ =>
      { src := bits w.toNat 7 0, inst := bits w.toNat 19 8, base := bits w.toNat 39 20, shift := bits w.toNat 44 40, run := true,
        min := 2 ^ 32 - 1, max := 0, count := 0, sum := 0, t0 := d.time, t1 := 0, hist := [] })) ∧
  (∀ u (w : DWord), EventActs (.monitorStop u w) (fun _ => u < 128 ∧ w.getLsbD 45 = false) fun d t =>
    (d.recovery = true → t = d) ∧
    (d.recovery = false → OneMonitor d t u fun m =>
      { m with src := bits w.toNat 7 0, inst := bits w.toNat 19 8, base := bits w.toNat 39 20, shift := bits w.toNat 44 40, run := false,
               t1 := if m.run then d.time else m.t1 })) ∧
  (∀ u x, EventActs (.monitorSample u x)
    (fun d => ∀ m, m = Sparse.get {} d.monitors u → u < 128 ∧ m.run = true ∧ 1 ≤ m.src ∧ m.src ≤ 7 ∧ x < 2 ^ 32)
    fun d t => t = { d with monitors := t.monitors } ∧
      (∀ v, v ≠ u → Sparse.get {} t.monitors v = Sparse.get {} d.monitors v) ∧
      ∀ m n, m = Sparse.get {} d.monitors u → n = Sparse.get {} t.monitors u →
        n = { m with min := min m.min x, max := max m.max x, count := min (m.count + 1) (2 ^ 64 - 1),
                     sum := min (m.sum + x) (2 ^ 64 - 1), hist := n.hist } ∧
        ∀ bin, Sparse.get 0 n.hist bin = if bin = (if x < m.base then 0 else min 15 (1 + (x - m.base) / 2 ^ m.shift))
          then min (Sparse.get 0 m.hist bin + 1) (2 ^ 32 - 1) else Sparse.get 0 m.hist bin) ∧
  (∀ hot cold powers temps supply, EventActs (.islandEvaluation hot cold powers temps supply)
    (fun _ => powers.length = 112 ∧ temps.length = 112 ∧ ¬ (hot = true ∧ cold = true)) fun d t =>
      ∀ above : Nat → Nat → Prop, (∀ c i, above c i ↔ i < 112 ∧ 8 * c < nth 0 temps i) →
        (supply = true ∨ (∃ i, above 115 i) → PackageReset d t ∧ t.mem = d.mem) ∧
        (supply = false → (∀ i, ¬ above 115 i) →
          ((∃ i, above 105 i) → (∀ i, i < 112 → stepOf t i = 9) ∧ ∃ e, e ∈ t.errors ∧ e.kind = 7) ∧
          ((∀ i, ¬ above 105 i) → t = { d with steps := t.steps, errors := t.errors, errorsLost := t.errorsLost } ∧
            (hot = true ∨ (∃ i, above 95 i) → ∀ i,
              ((above 95 i ∨ (hot = true ∧ FirstGreatest (nth 0 powers) i)) ∧ stepOf d i < 9 → stepOf t i = stepOf d i + 1 ∧
                ∃ e, e ∈ t.errors ∧ e.kind = 6) ∧
              (¬ (above 95 i ∨ (hot = true ∧ FirstGreatest (nth 0 powers) i)) ∨ 9 ≤ stepOf d i → stepOf t i = stepOf d i)) ∧
            (hot = false → (∀ i, ¬ above 95 i) →
              (cold = true → (∀ x, x ∈ temps → x < 720) → ∀ i, FirstGreatest (stepOf d) i →
                t = { d with steps := t.steps } ∧ ∀ j, stepOf t j = if j = i then stepOf d i - 1 else stepOf d j) ∧
              (cold = false ∨ (∃ x, x ∈ temps ∧ 720 ≤ x) → t = d))))) ∧
  (∀ u n, EventActs (.correctedErrorReport u n)
    (fun d => n ≠ 0 ∧ (Sparse.get 0 d.corrected u = 0 ∨ Sparse.get 0 d.corrected u + 1000000 ≤ d.time + 1)) fun d t =>
    t = { d with corrected := t.corrected, errors := t.errors, errorsLost := t.errorsLost } ∧
    Sparse.get 0 t.corrected u = d.time + 1 ∧ t.errors.getLast? = some ⟨d.time, 1, 0xFF, u, n, 0⟩) ∧
  EventActs .warmReset (fun _ => True) (fun d t => PackageReset d t ∧ t.mem = d.mem ∧ t.keys = d.keys ∧ t.bad = d.bad) ∧
  EventActs .coldReset (fun _ => True) (fun d t => PackageReset d t ∧ t.keys = [] ∧
    ∀ a, Memory.read t.mem a = if isHost a then Memory.read d.mem a else 0) ∧
  EventActs .pfFlr (fun _ => True) (fun _ t => (∀ p, p ∈ t.parts → 16 ≤ p.part) ∧ t.funcs = [] ∧ t.pstat = 0 ∧ t.pcause = 0 ∧
    t.pcmd = none) ∧
  (∀ f, EventActs (.vfFlr f) (fun _ => 1 ≤ f ∧ f ≤ 15) fun d t => (∀ p, p ∈ t.parts → p.part ≠ f) ∧
    (∀ p, p ∈ d.parts → p.part ≠ f → ∃ q, q ∈ t.parts ∧ q.part = p.part) ∧
    ∀ p i, partOfFn d f = some p → i < p.ownCnt → created t (p.ownBase + i) = false) ∧
  ∀ (img : Fin 3) slot v dig sig sl sid, EventActs (.imageWrite img slot v dig sig ⟨sl, sid⟩) (fun _ => True) fun d t =>
    t = { d with flash := t.flash } ∧ t.flash.minVersion = d.flash.minVersion ∧
    slotImage t.flash img.val (b2n slot) = ⟨v, dig, sig, sl, sid⟩ ∧
    ∀ k, k ≠ 2 * img.val + b2n slot → Sparse.get {} t.flash.images k = Sparse.get {} d.flash.images k
namespace Sys2Proof.Claims

open Sys2Proof Sys2Proof.Machine

/-- The words of a group's clause that one step runs: the slot stands ready at word x of its issued clause, with nothing to wait
for, no trap and no pre-emption pending (R22, R162). -/
def StandsAt (s : State) (x : Word) : Prop :=
  s.running = true ∧ s.slot.wait = .none ∧ (s.grp.preempt = none ∨ s.grp.ctx.inh = true) ∧ s.grp.live ≠ 0 ∧
  ∃ c, s.slot.clause = some c ∧ c.addr = s.clauseAddr ∧ c.words[s.slotIdx]? = some x

/-- The stream stands ready at word x of the clause it has fetched (R126). -/
def StreamAt (s : State) (x : Word) : Prop :=
  s.agenda = [] ∧ s.focused = true ∧ s.onStream = true ∧ s.streamRuns = true ∧ s.seq.wait = .none ∧
  ∃ ws, s.seq.words = some ws ∧ ws[s.seq.idx]? = some x

/-- Every register that the instruction names is allocated (R34). -/
def Allocated (sh : Shape) (i : Instr) : Prop :=
  (∀ r, r ∈ i.vnames → r < sh.vregs) ∧ (∀ r, r ∈ i.snames → r < sh.sregs) ∧ ∀ r, r ∈ i.anames → r < sh.accs

/-- The trap of a word that cannot be executed (R51, R52). -/
def DecodeTrap (s : State) (c : Cause) : State :=
  s.raise { cause := c, mask := s.part, path := s.wholePath, info0 := s.wordInfo }

/-- The guard that the low four bits of a UR word name (R33). -/
def guardBits (w : Nat) : QGuard := if w / 2 % 8 = 7 then .always else .on (Fin.ofNat 7 (w / 2 % 8)) (w % 2 == 1)

/-- The guard bits are legal: QG = 7 needs QN = 0 (R33). -/
def GuardLegal (w : Nat) : Prop := w / 2 % 8 = 7 → w % 2 = 0

end Sys2Proof.Claims

open Sys2Proof Sys2Proof.Machine Sys2Proof.Claims

/-- R31, R40-R50: words written out from the encodings of every class decode to the instruction they stand for; reserved words and
bad operands are refused by name (R39). -/
def Obligations.WordsOfTheSpecDecode : Prop :=
  decode 0x000C30CA = .ok (.iadd 24 48 (.v 101)) ∧ decode 0x0CE198C8 = .ok (.dcmp .ueq 3 24 (.v 100)) ∧
  decode 0x100C30C6 = .ok (.iaddImm 24 48 0xC6) ∧ decode 0x28C30C0B = .ok (.vsel 24 48 96 true 3) ∧
  decode 0x3330B2C6 = .ok (.movh 24 0xB2C6) ∧ decode 0x4418612A = .ok (.atomAdd 24 48 .pkg .rel true) ∧
  decode 0x578C3016 = .ok (.unpk 24 48 1 3) ∧ decode 0x6079B2C6 = .ok (.brDiv 3 true 0x9B2C6) ∧
  decode 0x70305300 = .ok (.rstv 24 10 48) ∧ decode 0x800A5AC9 = .ok (.sadd 10 22 44 (.on 4 true)) ∧
  decode 0x900A5AC6 = .ok (.saddImm 10 22 0x2C6) ∧ decode 0xA12AB2C6 = .ok (.smovk 10 2 0xB2C6) ∧
  decode 0xB4E17FFF = .ok (.loop .always 5 0x3FFF) ∧ decode 0xC014B5C6 = .ok (.sldB64 10 22 0x5C6) ∧
  decode 0xD00A0106 = .ok (.srd 10 0x106) ∧ decode 0xE14A5806 = .ok (.cpySlice 10 22 6) ∧
  decode 0xF16C8D00 = .ok (.mma 22 17 40) ∧ decode 0xF426B2C6 = .ok (.kbraDec 6 0xB2C6) ∧
  decode 0xFFFFFFFF = .error .illegalInstruction ∧ decode 0x0CE399CA = .error .illegalOperand ∧
  decode 0x00000081 = .error .illegalOperand ∧ decode 0x0D000001 = .error .illegalInstruction

/-- R22, R31-R50: every well-formed instruction that has a word is read back from it, with every operand at every value. -/
def Obligations.EncodedInstructionsDecodeBack : Prop :=
  ∀ i w, i.wf = true → encode i = some w → w < 2 ^ 32 ∧ decode w = .ok i

/-- R39: no two words stand for one instruction, and no bit of a word is dropped; what decodes is well formed. -/
def Obligations.DecodedWordsEncodeBack : Prop :=
  ∀ w i, w < 2 ^ 32 → decode w = .ok i → i.wf = true ∧ encode i = some w

/-- R22, R31, R34, R51, R52: with no turn on the agenda (log 4), a step runs the instruction to which the word at the issuing slot or
the stream decodes; a word that cannot be executed traps or halts; an event of the agenda occurs in its turn. -/
def Obligations.AStepRunsTheDecodedInstruction : Prop :=
  (∀ s x, s.agenda = [] → StandsAt s x →
    (∀ i, decode x.toNat = .ok i → x.toNat / 2 ^ 28 ≠ 15 → Allocated s.blk.shape i → step s = exec i s) ∧
    (∀ i, decode x.toNat = .ok i → x.toNat / 2 ^ 28 ≠ 15 → ¬ Allocated s.blk.shape i →
      step s = .next (DecodeTrap s cILLEGAL_OPERAND)) ∧
    (decode x.toNat = .error .illegalOperand → x.toNat / 2 ^ 28 ≠ 15 → step s = .next (DecodeTrap s cILLEGAL_OPERAND)) ∧
    (decode x.toNat = .error .illegalInstruction ∨ x.toNat / 2 ^ 28 = 15 → step s = .next (DecodeTrap s cILLEGAL_INSTRUCTION))) ∧
  (∀ s x, StreamAt s x →
    (∀ i, decode x.toNat = .ok i → x.toNat / 2 ^ 28 = 15 → Allocated s.blk.shape i → step s = exec i s) ∧
    (decode x.toNat = .error .illegalInstruction ∨ x.toNat / 2 ^ 28 ≠ 15 → step s = .next (s.halt cILLEGAL_INSTRUCTION 0))) ∧
  (∀ (s : State) b g k rest t x i, s.agenda = .run b g k :: rest → ({ s with agenda := rest } : State).focus b g k = some t →
    StandsAt t x → decode x.toNat = .ok i → x.toNat / 2 ^ 28 ≠ 15 → Allocated t.blk.shape i → step s = exec i t) ∧
  ∀ (s : State) i rest, s.agenda = .event i :: rest → encode i = none → step s = exec i { s with agenda := rest }

/-- R28, R236, R238: an instruction with nothing pending on its operands is not held up; a read of a pending register stalls and a
flag that its clause did not wait for counts once; a held register is awaited, consumed, refused or protected. -/
def Obligations.OperandsAreAwaited : Prop :=
  (∀ (s : State) T rd wr, s.grp.pend = [] → s.grp.holds = [] → s.grp.tags = [] → s.grp.stags = [] → s.badNames T (rd ++ wr) = 0 →
    s.blocked T rd wr = none ∧ s.consume T rd = s) ∧
  ∀ (d a : VReg) (s : State), s.renamed = false → s.part ≠ 0 →
    (s.grp.holds = [] →
      ((∃ e L, e ∈ s.grp.pend ∧ L < 32 ∧ inM s.part L = true ∧ 32 * a.val + L ∈ e.vkeys) →
        ∃ t, exec (.mov d a) s = .next t ∧ ChangesOnly [.paths, .meters] s t ∧
          t.slot = { s.slot with wait := .register, denied := 0, urgent := false } ∧
          ∀ c, Sparse.get 0 t.dev.flagMiss c = Sparse.get 0 s.dev.flagMiss c + b2n (decide (c = s.blk.core ∧ s.slot.wait ≠ .register ∧
            ∃ e, e ∈ s.grp.pend ∧ (12 ≤ e.flag ∨ bitOf s.header e.flag = false) ∧
              ∃ k, k ∈ e.vkeys ∧ k / 32 = a.val ∧ inM s.part (k % 32) = true))) ∧
      ((∀ e L, e ∈ s.grp.pend → L < 32 → inM s.part L = true → 32 * a.val + L ∉ e.vkeys) →
        (∃ e L, e ∈ s.grp.pend ∧ L < 32 ∧ inM s.part L = true ∧ 32 * d.val + L ∈ e.vkeys) →
        ∃ t, exec (.mov d a) s = .next t ∧ ChangesOnly [.paths] s t ∧
          t.slot = { s.slot with wait := .register, denied := 0, urgent := false })) ∧
    (∀ h, s.grp.holdOf a = some h →
      (h.conf ≠ 0 → ∃ m q, TakenFor s s.part m q ∧ exec (.mov d a) s = .next ((s.onGrp fun g => g.endHold a).raise
        { cause := cREMOTE_CONFLICT, mask := m, path := q, info0 := 1, info1 := dw a.val, info2 := h.conf.setWidth 64
          info3 := dw h.stamp })) ∧
      (h.conf = 0 → h.held = true → h.hmask &&& ~~~ h.arr ≠ 0 → ∃ t, exec (.mov d a) s = .next t ∧ ChangesOnly [.paths] s t ∧
        t.slot = { s.slot with wait := .held a.val, denied := 0, urgent := false }) ∧
      (h.conf = 0 → h.held = true → h.hmask &&& ~~~ h.arr = 0 → s.grp.pend = [] → s.grp.tags = [] →
        s.grp.holdOf d = none ∨ d = a → Completes (.mov d a) s fun u => ChangesOnly [.vec, .holds, .caches] s u ∧
          u.grp.holds = s.grp.holds.filter (fun x => x.reg ≠ a.val) ∧
          u.dev = acquireAt s.dev s.blk.core s.blk.cluster .sys ∧
          VecResult s u s.part d 1 fun L _ x => x = s.rv L a)) ∧
    ∀ h, s.grp.holdOf a = none → s.grp.holdOf d = some h → ∃ m q, TakenFor s s.part m q ∧ exec (.mov d a) s = .next (s.raise
      { cause := cREMOTE_CONFLICT, mask := m, path := q, info0 := 4, info1 := dw d.val })

/-- R89: `movs` copies the low word of a uniform register into every lane taking part; a nonzero A is ILLEGAL_INSTRUCTION, BS = 0 or
B[6] = 1 ILLEGAL_OPERAND, and there is no LI form. -/
def Obligations.MovsCopiesAUniformRegister : Prop :=
  (∀ (d : VReg) (b : SReg) (s : State), s.blocked s.part [.s b 1] [.v d 1] = none →
    Completes (.movs d b) s fun u => ChangesOnly [.vec] s u ∧
      VecResult s u s.part d 1 fun _ _ x => x = (s.rs b).extractLsb' 0 32) ∧
  ∀ w, (w / 2 ^ 22 = 53 →
      (w / 2 ^ 8 % 2 ^ 7 ≠ 0 → decode w = .error .illegalInstruction) ∧
      (w / 2 ^ 8 % 2 ^ 7 = 0 → w % 2 = 0 ∨ w / 2 ^ 7 % 2 = 1 → decode w = .error .illegalOperand) ∧
      (w / 2 ^ 8 % 2 ^ 7 = 0 → w % 2 = 1 → w / 2 ^ 7 % 2 = 0 → ∃ (d : VReg) (b : SReg), d.val = w / 2 ^ 15 % 2 ^ 7 ∧
        b.val = w / 2 % 2 ^ 6 ∧ decode w = .ok (.movs d b))) ∧
    (w / 2 ^ 22 = 64 + 53 → decode w = .error .illegalInstruction)

/-- R99: `smov`, `spopc` and `sclz` copy and count a uniform register under their guard, and their B must be 0. -/
def Obligations.UniformCopyAndCounts : Prop :=
  (∀ (d a : SReg) (g : QGuard) (s : State), GuardHolds s g → s.blocked 1 [.s a 1] [.s d 1] = none →
    (Completes (.smov d a g) s fun u => ChangesOnly [.uni] s u ∧ UniResult s u d (s.rs a)) ∧
    (Completes (.spopc d a g) s fun u => ChangesOnly [.uni] s u ∧
      UniResult s u d (dw ((List.range 64).filter fun i => (s.rs a).getLsbD i).length)) ∧
    (Completes (.sclz d a g) s fun u => ChangesOnly [.uni] s u ∧ ∃ n, n ≤ 64 ∧ UniResult s u d (dw n) ∧
      (∀ i, i < n → (s.rs a).getLsbD (63 - i) = false) ∧ (n < 64 → (s.rs a).getLsbD (63 - n) = true) ∧ (s.rs a = 0 → n = 64))) ∧
  (∀ (d a : SReg) (g : QGuard) (s : State), ¬ GuardHolds s g → exec (.smov d a g) s = .next s.advance ∧
    exec (.spopc d a g) s = .next s.advance ∧ exec (.sclz d a g) s = .next s.advance) ∧
  ∀ w fn, w / 2 ^ 28 = 8 → w / 2 ^ 22 % 64 = fn → fn = 16 ∨ fn = 17 ∨ fn = 18 →
    (w / 2 ^ 4 % 2 ^ 6 ≠ 0 → decode w = .error .illegalInstruction) ∧
    (w / 2 ^ 4 % 2 ^ 6 = 0 → GuardLegal w → ∃ d a : SReg, d.val = w / 2 ^ 16 % 2 ^ 6 ∧ a.val = w / 2 ^ 10 % 2 ^ 6 ∧
      (fn = 16 → decode w = .ok (.smov d a (guardBits w))) ∧ (fn = 17 → decode w = .ok (.spopc d a (guardBits w))) ∧
      (fn = 18 → decode w = .ok (.sclz d a (guardBits w))))

/-- R100: `sgetv` takes the register of the lowest lane active in the slot, on the path that the clause names, whatever the guard
of the clause selects; with no such lane it writes 0. A and B[0] number the register, and one that is not allocated is
ILLEGAL_OPERAND at decode. -/
def Obligations.LowestLaneIsRead : Prop :=
  (∀ (d a : SReg) (x : Bool) (g : QGuard) (s : State), GuardHolds s g →
    (s.onPath = 0 → s.blocked 1 [] [.s d 1] = none →
      Completes (.sgetv d a x g) s fun u => ChangesOnly [.uni] s u ∧ UniResult s u d 0) ∧
    ∀ L, L < 32 → inM s.onPath L = true → (∀ M, M < L → inM s.onPath M = false) →
      s.blocked (BitVec.ofNat 32 (2 ^ L)) [.v (a.val + 64 * b2n x) 1] [.s d 1] = none →
      Completes (.sgetv d a x g) s fun u =>
        ChangesOnly [.uni] (s.consume (BitVec.ofNat 32 (2 ^ L)) [.v (a.val + 64 * b2n x) 1]) u ∧
        UniResult s u d ((s.rv L (a.val + 64 * b2n x)).setWidth 64)) ∧
  ∀ w (sh : Shape), w / 2 ^ 22 = 532 → w < 2 ^ 32 →
    (w / 2 ^ 5 % 2 ^ 5 ≠ 0 → decode w = .error .illegalInstruction) ∧
    (w / 2 ^ 5 % 2 ^ 5 = 0 → GuardLegal w → ∃ d a : SReg, d.val = w / 2 ^ 16 % 2 ^ 6 ∧ a.val = w / 2 ^ 10 % 2 ^ 6 ∧
      decode w = .ok (.sgetv d a (w / 2 ^ 4 % 2 == 1) (guardBits w)) ∧
      (sh.vregs ≤ a.val + 64 * (w / 2 ^ 4 % 2) → slotInstr sh false (BitVec.ofNat 32 w) = .error .illegalOperand))

/-- What reset leaves (21 R388-R395, R353, R425): no block, launch or partition, queues off, vectors masked, deadlines and timeouts at
their values. -/
def Obligations.ResetLeavesTheStatedValues : Prop :=
  ∀ s, s = State.reset → s.agenda = [] ∧ s.focused = false ∧ s.dev.blocks = [] ∧ s.dev.launches = [] ∧ s.dev.parts = [] ∧
    s.dev.mem = [] ∧ s.dev.time = 0 ∧ s.dev.pstat = 0 ∧ s.dev.errors = [] ∧ s.dev.tagsOut = [] ∧ s.dev.timeSlice = 20000000 ∧ s.dev.sidings = 6 ∧
    (∀ f, (fnAt s.dev f).fdl0 = 20000 ∧ (fnAt s.dev f).fdl1 = 20000 ∧ (fnAt s.dev f).fdl2 = 20000 ∧ (fnAt s.dev f).fdl3 = 20000 ∧
      (fnAt s.dev f).fq.enabled = false ∧ (fnAt s.dev f).fq.timeout = 100000 ∧ (fnAt s.dev f).oc.stat = 0 ∧
      (fnAt s.dev f).ho.busy = false ∧ (fnAt s.dev f).astat = 0 ∧ (∀ q, (queueOf s.dev f q).state = 0) ∧
      ∀ v, (Sparse.get {} (fnAt s.dev f).vectors v).masked = true ∧ (Sparse.get {} (fnAt s.dev f).vectors v).pending = false) ∧
    ∀ u, Sparse.get {} s.dev.monitors u = {} ∧ stepOf s.dev u = 0

/-- Reset meets both invariants. -/
def Obligations.ResetMeetsTheInvariants : Prop := State.reset.Inv ∧ State.reset.WholePages

/-- Every step keeps home memory in its canonical form, whatever turn the agenda holds. -/
def Obligations.EveryStepKeepsMemoryCanonical : Prop := ∀ s t : State, s.Inv → step s = .next t → t.Inv

/-- R381, R384: a walk gives whole pages at aligned addresses, the page that holds the address; every step keeps a translation cache
of whole pages. -/
def Obligations.EveryStepKeepsWholePages : Prop :=
  (∀ d o va l base lvl e, walk d o va = .leaf l base lvl e → WholePage l ∧ base = va / l.size * l.size) ∧
  ∀ s t : State, s.WholePages → step s = .next t → t.WholePages
end

