-- ==== Sys2Proof/Laws/Events.lean ====
section
/-! SUPPORT. Events and the focus: giving up the focus once is giving it up, and an event that does not occur changes
nothing (log 4). -/

namespace Sys2Proof.Machine

/-- An event finds no group in focus. -/
@[simp] theorem State.unfocus_focused (s : State) : s.unfocus.focused = false := by
  unfold State.unfocus
  split
  · rfl
  · simp_all

/-- Giving up the focus once is giving it up. -/
@[simp] theorem State.unfocus_unfocus (s : State) : s.unfocus.unfocus = s.unfocus := by
  rw [State.unfocus, if_neg (by simp)]

/-- An event that does not occur leaves the machine as it is, before or after the focus is given up. -/
@[simp] theorem State.noEvent_unfocus (s : State) : s.unfocus.noEvent = .next s.unfocus := by simp [State.noEvent]

end Sys2Proof.Machine
end

