-- ==== Sys2Proof/Laws/Exec.lean ====
section
/-! SUPPORT. Dispatch, one equation for each instruction, so that no proof unfolds exec. -/

namespace Sys2Proof.Machine

open Sys2Proof

theorem exec_iadd {d a b s} : exec (.iadd d a b) s = execIadd d a b s := rfl
theorem exec_iaddImm {d a imm s} : exec (.iaddImm d a imm) s = execIaddImm d a imm s := rfl
theorem exec_isub {d a b s} : exec (.isub d a b) s = execIsub d a b s := rfl
theorem exec_isubImm {d a imm s} : exec (.isubImm d a imm) s = execIsubImm d a imm s := rfl
theorem exec_iadds {d a b s} : exec (.iadds d a b) s = execIadds d a b s := rfl
theorem exec_iaddsImm {d a imm s} : exec (.iaddsImm d a imm) s = execIaddsImm d a imm s := rfl
theorem exec_iaddsn {d a b s} : exec (.iaddsn d a b) s = execIaddsn d a b s := rfl
theorem exec_iaddsnImm {d a imm s} : exec (.iaddsnImm d a imm) s = execIaddsnImm d a imm s := rfl
theorem exec_imul {d a b s} : exec (.imul d a b) s = execImul d a b s := rfl
theorem exec_imulImm {d a imm s} : exec (.imulImm d a imm) s = execImulImm d a imm s := rfl
theorem exec_imulh {d a b s} : exec (.imulh d a b) s = execImulh d a b s := rfl
theorem exec_imulhn {d a b s} : exec (.imulhn d a b) s = execImulhn d a b s := rfl
theorem exec_imin {d a b s} : exec (.imin d a b) s = execImin d a b s := rfl
theorem exec_iminImm {d a imm s} : exec (.iminImm d a imm) s = execIminImm d a imm s := rfl
theorem exec_imax {d a b s} : exec (.imax d a b) s = execImax d a b s := rfl
theorem exec_imaxImm {d a imm s} : exec (.imaxImm d a imm) s = execImaxImm d a imm s := rfl
theorem exec_iminn {d a b s} : exec (.iminn d a b) s = execIminn d a b s := rfl
theorem exec_iminnImm {d a imm s} : exec (.iminnImm d a imm) s = execIminnImm d a imm s := rfl
theorem exec_imaxn {d a b s} : exec (.imaxn d a b) s = execImaxn d a b s := rfl
theorem exec_imaxnImm {d a imm s} : exec (.imaxnImm d a imm) s = execImaxnImm d a imm s := rfl
theorem exec_iabsd {d a b s} : exec (.iabsd d a b) s = execIabsd d a b s := rfl
theorem exec_and {d a b s} : exec (.and d a b) s = execAnd d a b s := rfl
theorem exec_andImm {d a imm s} : exec (.andImm d a imm) s = execAndImm d a imm s := rfl
theorem exec_or {d a b s} : exec (.or d a b) s = execOr d a b s := rfl
theorem exec_orImm {d a imm s} : exec (.orImm d a imm) s = execOrImm d a imm s := rfl
theorem exec_xor {d a b s} : exec (.xor d a b) s = execXor d a b s := rfl
theorem exec_xorImm {d a imm s} : exec (.xorImm d a imm) s = execXorImm d a imm s := rfl
theorem exec_andn {d a b s} : exec (.andn d a b) s = execAndn d a b s := rfl
theorem exec_andnImm {d a imm s} : exec (.andnImm d a imm) s = execAndnImm d a imm s := rfl
theorem exec_shl {d a b s} : exec (.shl d a b) s = execShl d a b s := rfl
theorem exec_shlImm {d a imm s} : exec (.shlImm d a imm) s = execShlImm d a imm s := rfl
theorem exec_shr {d a b s} : exec (.shr d a b) s = execShr d a b s := rfl
theorem exec_shrImm {d a imm s} : exec (.shrImm d a imm) s = execShrImm d a imm s := rfl
theorem exec_sar {d a b s} : exec (.sar d a b) s = execSar d a b s := rfl
theorem exec_sarImm {d a imm s} : exec (.sarImm d a imm) s = execSarImm d a imm s := rfl
theorem exec_rotl {d a b s} : exec (.rotl d a b) s = execRotl d a b s := rfl
theorem exec_rotlImm {d a imm s} : exec (.rotlImm d a imm) s = execRotlImm d a imm s := rfl
theorem exec_popc {d a s} : exec (.popc d a) s = execPopc d a s := rfl
theorem exec_clz {d a s} : exec (.clz d a) s = execClz d a s := rfl
theorem exec_clzSgn {d a s} : exec (.clzSgn d a) s = execClzSgn d a s := rfl
theorem exec_brev {d a s} : exec (.brev d a) s = execBrev d a s := rfl
theorem exec_bfe {d a b s} : exec (.bfe d a b) s = execBfe d a b s := rfl
theorem exec_bfen {d a b s} : exec (.bfen d a b) s = execBfen d a b s := rfl
theorem exec_bfi {d a b s} : exec (.bfi d a b) s = execBfi d a b s := rfl
theorem exec_icmp {c p a b s} : exec (.icmp c p a b) s = execIcmp c p a b s := rfl
theorem exec_icmpImm {c p a imm s} : exec (.icmpImm c p a imm) s = execIcmpImm c p a imm s := rfl
theorem exec_fadd {d a b s} : exec (.fadd d a b) s = execFadd d a b s := rfl
theorem exec_fsub {d a b s} : exec (.fsub d a b) s = execFsub d a b s := rfl
theorem exec_fmul {d a b s} : exec (.fmul d a b) s = execFmul d a b s := rfl
theorem exec_fmin {d a b s} : exec (.fmin d a b) s = execFmin d a b s := rfl
theorem exec_fmax {d a b s} : exec (.fmax d a b) s = execFmax d a b s := rfl
theorem exec_fcmp {c p a b s} : exec (.fcmp c p a b) s = execFcmp c p a b s := rfl
theorem exec_fabs {d a s} : exec (.fabs d a) s = execFabs d a s := rfl
theorem exec_fabsH2 {d a s} : exec (.fabsH2 d a) s = execFabsH2 d a s := rfl
theorem exec_fabsD {d a s} : exec (.fabsD d a) s = execFabsD d a s := rfl
theorem exec_fneg {d a s} : exec (.fneg d a) s = execFneg d a s := rfl
theorem exec_fnegH2 {d a s} : exec (.fnegH2 d a) s = execFnegH2 d a s := rfl
theorem exec_fnegD {d a s} : exec (.fnegD d a) s = execFnegD d a s := rfl
theorem exec_frnd {d a s} : exec (.frnd d a) s = execFrnd d a s := rfl
theorem exec_frndD {d a s} : exec (.frndD d a) s = execFrndD d a s := rfl
theorem exec_ffmad {d a b s} : exec (.ffmad d a b) s = execFfmad d a b s := rfl
theorem exec_fscl {d a b s} : exec (.fscl d a b) s = execFscl d a b s := rfl
theorem exec_hadd2 {d a b s} : exec (.hadd2 d a b) s = execHadd2 d a b s := rfl
theorem exec_hmul2 {d a b s} : exec (.hmul2 d a b) s = execHmul2 d a b s := rfl
theorem exec_hfmad2 {d a b s} : exec (.hfmad2 d a b) s = execHfmad2 d a b s := rfl
theorem exec_hmin2 {d a b s} : exec (.hmin2 d a b) s = execHmin2 d a b s := rfl
theorem exec_hmax2 {d a b s} : exec (.hmax2 d a b) s = execHmax2 d a b s := rfl
theorem exec_dadd {d a b s} : exec (.dadd d a b) s = execDadd d a b s := rfl
theorem exec_dmul {d a b s} : exec (.dmul d a b) s = execDmul d a b s := rfl
theorem exec_dfmad {d a b s} : exec (.dfmad d a b) s = execDfmad d a b s := rfl
theorem exec_dcmp {c p a b s} : exec (.dcmp c p a b) s = execDcmp c p a b s := rfl
theorem exec_mov {d a s} : exec (.mov d a) s = execMov d a s := rfl
theorem exec_movB64 {d a s} : exec (.movB64 d a) s = execMovB64 d a s := rfl
theorem exec_movs {d b s} : exec (.movs d b) s = execMovs d b s := rfl
theorem exec_ffmadc {d a b c s} : exec (.ffmadc d a b c) s = execFfmadc d a b c s := rfl
theorem exec_imuladd {d a b c s} : exec (.imuladd d a b c) s = execImuladd d a b c s := rfl
theorem exec_vsel {d a b n p s} : exec (.vsel d a b n p) s = execVsel d a b n p s := rfl
theorem exec_itadd {d a b c s} : exec (.itadd d a b c) s = execItadd d a b c s := rfl
theorem exec_movi {d h imm s} : exec (.movi d h imm) s = execMovi d h imm s := rfl
theorem exec_movk {d h imm s} : exec (.movk d h imm) s = execMovk d h imm s := rfl
theorem exec_movsx {d imm s} : exec (.movsx d imm) s = execMovsx d imm s := rfl
theorem exec_movh {d imm s} : exec (.movh d imm) s = execMovh d imm s := rfl
theorem exec_ld {d a f z c s} : exec (.ld d a f z c) s = execLd d a f z c s := rfl
theorem exec_st {d a f z c s} : exec (.st d a f z c) s = execSt d a f z c s := rfl
theorem exec_ldAcq {d a sr z s} : exec (.ldAcq d a sr z) s = execLdAcq d a sr z s := rfl
theorem exec_stRel {d a sr z s} : exec (.stRel d a sr z) s = execStRel d a sr z s := rfl
theorem exec_lds {d a f z c s} : exec (.lds d a f z c) s = execLds d a f z c s := rfl
theorem exec_sts {d a f z c s} : exec (.sts d a f z c) s = execSts d a f z c s := rfl
theorem exec_ldc {d a f z c s} : exec (.ldc d a f z c) s = execLdc d a f z c s := rfl
theorem exec_ldro {d a f z c s} : exec (.ldro d a f z c) s = execLdro d a f z c s := rfl
theorem exec_atomAdd {d a sr o z s} : exec (.atomAdd d a sr o z) s = execAtomAdd d a sr o z s := rfl
theorem exec_atomMin {d a sr o z s} : exec (.atomMin d a sr o z) s = execAtomMin d a sr o z s := rfl
theorem exec_atomMax {d a sr o z s} : exec (.atomMax d a sr o z) s = execAtomMax d a sr o z s := rfl
theorem exec_atomMinn {d a sr o z s} : exec (.atomMinn d a sr o z) s = execAtomMinn d a sr o z s := rfl
theorem exec_atomMaxn {d a sr o z s} : exec (.atomMaxn d a sr o z) s = execAtomMaxn d a sr o z s := rfl
theorem exec_atomAnd {d a sr o z s} : exec (.atomAnd d a sr o z) s = execAtomAnd d a sr o z s := rfl
theorem exec_atomOr {d a sr o z s} : exec (.atomOr d a sr o z) s = execAtomOr d a sr o z s := rfl
theorem exec_atomXor {d a sr o z s} : exec (.atomXor d a sr o z) s = execAtomXor d a sr o z s := rfl
theorem exec_atomExch {d a sr o z s} : exec (.atomExch d a sr o z) s = execAtomExch d a sr o z s := rfl
theorem exec_atomCas {d a sr o z s} : exec (.atomCas d a sr o z) s = execAtomCas d a sr o z s := rfl
theorem exec_atomFadd {d a sr o s} : exec (.atomFadd d a sr o) s = execAtomFadd d a sr o s := rfl
theorem exec_redAdd {d a sr o z s} : exec (.redAdd d a sr o z) s = execRedAdd d a sr o z s := rfl
theorem exec_redFadd {d a sr o s} : exec (.redFadd d a sr o) s = execRedFadd d a sr o s := rfl
theorem exec_redMin {d a sr o z s} : exec (.redMin d a sr o z) s = execRedMin d a sr o z s := rfl
theorem exec_redMax {d a sr o z s} : exec (.redMax d a sr o z) s = execRedMax d a sr o z s := rfl
theorem exec_redOr {d a sr o z s} : exec (.redOr d a sr o z) s = execRedOr d a sr o z s := rfl
theorem exec_atomsAdd {d a sr o s} : exec (.atomsAdd d a sr o) s = execAtomsAdd d a sr o s := rfl
theorem exec_atomsCas {d a sr o s} : exec (.atomsCas d a sr o) s = execAtomsCas d a sr o s := rfl
theorem exec_atomsExch {d a sr o s} : exec (.atomsExch d a sr o) s = execAtomsExch d a sr o s := rfl
theorem exec_atomsFadd {d a sr o s} : exec (.atomsFadd d a sr o) s = execAtomsFadd d a sr o s := rfl
theorem exec_pf {a f z c s} : exec (.pf a f z c) s = execPf a f z c s := rfl
theorem exec_atomScAdd {d a sr z s} : exec (.atomScAdd d a sr z) s = execAtomScAdd d a sr z s := rfl
theorem exec_atomScExch {d a sr z s} : exec (.atomScExch d a sr z) s = execAtomScExch d a sr z s := rfl
theorem exec_atomScCas {d a sr z s} : exec (.atomScCas d a sr z) s = execAtomScCas d a sr z s := rfl
theorem exec_lxgAt {d a b s} : exec (.lxgAt d a b) s = execLxgAt d a b s := rfl
theorem exec_lxgBack {d a b s} : exec (.lxgBack d a b) s = execLxgBack d a b s := rfl
theorem exec_lxgFwd {d a b s} : exec (.lxgFwd d a b) s = execLxgFwd d a b s := rfl
theorem exec_lxgFlip {d a b s} : exec (.lxgFlip d a b) s = execLxgFlip d a b s := rfl
theorem exec_gpredAny {n x a s} : exec (.gpredAny n x a) s = execGpredAny n x a s := rfl
theorem exec_gpredAll {n x a s} : exec (.gpredAll n x a) s = execGpredAll n x a s := rfl
theorem exec_gpredMask {d x a s} : exec (.gpredMask d x a) s = execGpredMask d x a s := rfl
theorem exec_gpeerEq {d a s} : exec (.gpeerEq d a) s = execGpeerEq d a s := rfl
theorem exec_gpeerUni {d a s} : exec (.gpeerUni d a) s = execGpeerUni d a s := rfl
theorem exec_gredAdd {d a s} : exec (.gredAdd d a) s = execGredAdd d a s := rfl
theorem exec_gredFadd {d a s} : exec (.gredFadd d a) s = execGredFadd d a s := rfl
theorem exec_gredMin {d a k s} : exec (.gredMin d a k) s = execGredMin d a k s := rfl
theorem exec_gredMax {d a k s} : exec (.gredMax d a k) s = execGredMax d a k s := rfl
theorem exec_gredAnd {d a s} : exec (.gredAnd d a) s = execGredAnd d a s := rfl
theorem exec_gredOr {d a s} : exec (.gredOr d a) s = execGredOr d a s := rfl
theorem exec_gscanAdd {d a s} : exec (.gscanAdd d a) s = execGscanAdd d a s := rfl
theorem exec_gscanAddExcl {d a s} : exec (.gscanAddExcl d a) s = execGscanAddExcl d a s := rfl
theorem exec_gscanFadd {d a s} : exec (.gscanFadd d a) s = execGscanFadd d a s := rfl
theorem exec_gscanFaddExcl {d a s} : exec (.gscanFaddExcl d a) s = execGscanFaddExcl d a s := rfl
theorem exec_rcp {d a s} : exec (.rcp d a) s = execRcp d a s := rfl
theorem exec_rsq {d a s} : exec (.rsq d a) s = execRsq d a s := rfl
theorem exec_sqrt {d a s} : exec (.sqrt d a) s = execSqrt d a s := rfl
theorem exec_ex2 {d a s} : exec (.ex2 d a) s = execEx2 d a s := rfl
theorem exec_lg2 {d a s} : exec (.lg2 d a) s = execLg2 d a s := rfl
theorem exec_sin {d a s} : exec (.sin d a) s = execSin d a s := rfl
theorem exec_cos {d a s} : exec (.cos d a) s = execCos d a s := rfl
theorem exec_tanh {d a s} : exec (.tanh d a) s = execTanh d a s := rfl
theorem exec_fdiv {d a b s} : exec (.fdiv d a b) s = execFdiv d a b s := rfl
theorem exec_cvtf {d a t s} : exec (.cvtf d a t) s = execCvtf d a t s := rfl
theorem exec_cvti {d a t s} : exec (.cvti d a t) s = execCvti d a t s := rfl
theorem exec_cvth2 {d a b s} : exec (.cvth2 d a b) s = execCvth2 d a b s := rfl
theorem exec_cvtb4 {d a s} : exec (.cvtb4 d a) s = execCvtb4 d a s := rfl
theorem exec_cvtb4Q {d a s} : exec (.cvtb4Q d a) s = execCvtb4Q d a s := rfl
theorem exec_unpk {d a k e s} : exec (.unpk d a k e) s = execUnpk d a k e s := rfl
theorem exec_cvtdF32 {d a s} : exec (.cvtdF32 d a) s = execCvtdF32 d a s := rfl
theorem exec_cvtdF64 {d a s} : exec (.cvtdF64 d a) s = execCvtdF64 d a s := rfl
theorem exec_cvtdfI {d a t s} : exec (.cvtdfI d a t) s = execCvtdfI d a t s := rfl
theorem exec_cvtdfF {d a t s} : exec (.cvtdfF d a t) s = execCvtdfF d a t s := rfl
theorem exec_qnt {d a s} : exec (.qnt d a) s = execQnt d a s := rfl
theorem exec_plop {d o x a y b s} : exec (.plop d o x a y b) s = execPlop d o x a y b s := rfl
theorem exec_p2v {d s} : exec (.p2v d) s = execP2v d s := rfl
theorem exec_v2p {n a b s} : exec (.v2p n a b) s = execV2p n a b s := rfl
theorem exec_sysv {d b s} : exec (.sysv d b) s = execSysv d b s := rfl
theorem exec_vmask {d b s} : exec (.vmask d b) s = execVmask d b s := rfl
theorem exec_brDiv {p n o s} : exec (.brDiv p n o) s = execBrDiv p n o s := rfl
theorem exec_bmeld {p n s} : exec (.bmeld p n) s = execBmeld p n s := rfl
theorem exec_emeld {s} : exec .emeld s = execEmeld s := rfl
theorem exec_rejoinSet {o s} : exec (.rejoinSet o) s = execRejoinSet o s := rfl
theorem exec_rejoin {s} : exec .rejoin s = execRejoin s := rfl
theorem exec_exit {s} : exec .exit s = execExit s := rfl
theorem exec_hold {v s} : exec (.hold v) s = execHold v s := rfl
theorem exec_trapP {p n c s} : exec (.trapP p n c) s = execTrapP p n c s := rfl
theorem exec_bpt {c s} : exec (.bpt c) s = execBpt c s := rfl
theorem exec_rstv {d sr t s} : exec (.rstv d sr t) s = execRstv d sr t s := rfl
theorem exec_coll {p a sr s} : exec (.coll p a sr) s = execColl p a sr s := rfl
theorem exec_sadd {d a b g s} : exec (.sadd d a b g) s = execSadd d a b g s := rfl
theorem exec_saddImm {d a imm s} : exec (.saddImm d a imm) s = execSaddImm d a imm s := rfl
theorem exec_ssub {d a b g s} : exec (.ssub d a b g) s = execSsub d a b g s := rfl
theorem exec_ssubImm {d a imm s} : exec (.ssubImm d a imm) s = execSsubImm d a imm s := rfl
theorem exec_smul {d a b g s} : exec (.smul d a b g) s = execSmul d a b g s := rfl
theorem exec_smulImm {d a imm s} : exec (.smulImm d a imm) s = execSmulImm d a imm s := rfl
theorem exec_smulh {d a b g s} : exec (.smulh d a b g) s = execSmulh d a b g s := rfl
theorem exec_smin {d a b g s} : exec (.smin d a b g) s = execSmin d a b g s := rfl
theorem exec_sminImm {d a imm s} : exec (.sminImm d a imm) s = execSminImm d a imm s := rfl
theorem exec_smax {d a b g s} : exec (.smax d a b g) s = execSmax d a b g s := rfl
theorem exec_smaxImm {d a imm s} : exec (.smaxImm d a imm) s = execSmaxImm d a imm s := rfl
theorem exec_sminn {d a b g s} : exec (.sminn d a b g) s = execSminn d a b g s := rfl
theorem exec_sminnImm {d a imm s} : exec (.sminnImm d a imm) s = execSminnImm d a imm s := rfl
theorem exec_smaxn {d a b g s} : exec (.smaxn d a b g) s = execSmaxn d a b g s := rfl
theorem exec_smaxnImm {d a imm s} : exec (.smaxnImm d a imm) s = execSmaxnImm d a imm s := rfl
theorem exec_sand {d a b g s} : exec (.sand d a b g) s = execSand d a b g s := rfl
theorem exec_sandImm {d a imm s} : exec (.sandImm d a imm) s = execSandImm d a imm s := rfl
theorem exec_sor {d a b g s} : exec (.sor d a b g) s = execSor d a b g s := rfl
theorem exec_sorImm {d a imm s} : exec (.sorImm d a imm) s = execSorImm d a imm s := rfl
theorem exec_sxor {d a b g s} : exec (.sxor d a b g) s = execSxor d a b g s := rfl
theorem exec_sxorImm {d a imm s} : exec (.sxorImm d a imm) s = execSxorImm d a imm s := rfl
theorem exec_sshl {d a b g s} : exec (.sshl d a b g) s = execSshl d a b g s := rfl
theorem exec_sshlImm {d a imm s} : exec (.sshlImm d a imm) s = execSshlImm d a imm s := rfl
theorem exec_sshr {d a b g s} : exec (.sshr d a b g) s = execSshr d a b g s := rfl
theorem exec_sshrImm {d a imm s} : exec (.sshrImm d a imm) s = execSshrImm d a imm s := rfl
theorem exec_ssar {d a b g s} : exec (.ssar d a b g) s = execSsar d a b g s := rfl
theorem exec_ssarImm {d a imm s} : exec (.ssarImm d a imm) s = execSsarImm d a imm s := rfl
theorem exec_ssetp {c q a b g s} : exec (.ssetp c q a b g) s = execSsetp c q a b g s := rfl
theorem exec_ssetpImm {c q a imm s} : exec (.ssetpImm c q a imm) s = execSsetpImm c q a imm s := rfl
theorem exec_ssel {d a b q x s} : exec (.ssel d a b q x) s = execSsel d a b q x s := rfl
theorem exec_smov {d a g s} : exec (.smov d a g) s = execSmov d a g s := rfl
theorem exec_spopc {d a g s} : exec (.spopc d a g) s = execSpopc d a g s := rfl
theorem exec_sclz {d a g s} : exec (.sclz d a g) s = execSclz d a g s := rfl
theorem exec_saddw {d a b g s} : exec (.saddw d a b g) s = execSaddw d a b g s := rfl
theorem exec_saddwImm {d a imm s} : exec (.saddwImm d a imm) s = execSaddwImm d a imm s := rfl
theorem exec_sgetv {d a x g s} : exec (.sgetv d a x g) s = execSgetv d a x g s := rfl
theorem exec_qlop {d o x a y b g s} : exec (.qlop d o x a y b g) s = execQlop d o x a y b g s := rfl
theorem exec_q2s {d g s} : exec (.q2s d g) s = execQ2s d g s := rfl
theorem exec_s2q {a g s} : exec (.s2q a g) s = execS2q a g s := rfl
theorem exec_smovi {d h imm s} : exec (.smovi d h imm) s = execSmovi d h imm s := rfl
theorem exec_smovk {d h imm s} : exec (.smovk d h imm) s = execSmovk d h imm s := rfl
theorem exec_smovsx {d imm s} : exec (.smovsx d imm) s = execSmovsx d imm s := rfl
theorem exec_sadr {d imm s} : exec (.sadr d imm) s = execSadr d imm s := rfl
theorem exec_bra {g o s} : exec (.bra g o) s = execBra g o s := rfl
theorem exec_call {g o s} : exec (.call g o) s = execCall g o s := rfl
theorem exec_ret {g s} : exec (.ret g) s = execRet g s := rfl
theorem exec_brx {g x s} : exec (.brx g x) s = execBrx g x s := rfl
theorem exec_loop {g c o s} : exec (.loop g c o) s = execLoop g c o s := rfl
theorem exec_sldB64 {d a o s} : exec (.sldB64 d a o) s = execSldB64 d a o s := rfl
theorem exec_sldB32 {d a o s} : exec (.sldB32 d a o) s = execSldB32 d a o s := rfl
theorem exec_sstB64 {d a o s} : exec (.sstB64 d a o) s = execSstB64 d a o s := rfl
theorem exec_sstB32 {d a o s} : exec (.sstB32 d a o) s = execSstB32 d a o s := rfl
theorem exec_sldc {d a o s} : exec (.sldc d a o) s = execSldc d a o s := rfl
theorem exec_slds {d a o s} : exec (.slds d a o) s = execSlds d a o s := rfl
theorem exec_ssts {d a o s} : exec (.ssts d a o) s = execSsts d a o s := rfl
theorem exec_satomAdd {d a s} : exec (.satomAdd d a) s = execSatomAdd d a s := rfl
theorem exec_satomCas {d a s} : exec (.satomCas d a) s = execSatomCas d a s := rfl
theorem exec_satomExch {d a s} : exec (.satomExch d a) s = execSatomExch d a s := rfl
theorem exec_srd {d n s} : exec (.srd d n) s = execSrd d n s := rfl
theorem exec_swr {sr n s} : exec (.swr sr n) s = execSwr sr n s := rfl
theorem exec_fenceAcq {r sr s} : exec (.fenceAcq r sr) s = execFenceAcq r sr s := rfl
theorem exec_fenceRel {r sr s} : exec (.fenceRel r sr) s = execFenceRel r sr s := rfl
theorem exec_fenceAr {r sr s} : exec (.fenceAr r sr) s = execFenceAr r sr s := rfl
theorem exec_fenceSc {r sr s} : exec (.fenceSc r sr) s = execFenceSc r sr s := rfl
theorem exec_fenceLayout {sr s} : exec (.fenceLayout sr) s = execFenceLayout sr s := rfl
theorem exec_icinv {sr s} : exec (.icinv sr) s = execIcinv sr s := rfl
theorem exec_fmtset {imm s} : exec (.fmtset imm) s = execFmtset imm s := rfl
theorem exec_fmtsetr {sr s} : exec (.fmtsetr sr) s = execFmtsetr sr s := rfl
theorem exec_trap {c s} : exec (.trap c) s = execTrap c s := rfl
theorem exec_rft {s} : exec .rft s = execRft s := rfl
theorem exec_yldDone {s} : exec .yldDone s = execYldDone s := rfl
theorem exec_yield {s} : exec .yield s = execYield s := rfl
theorem exec_trig {s} : exec .trig s = execTrig s := rfl
theorem exec_nameget {d s} : exec (.nameget d) s = execNameget d s := rfl
theorem exec_nameput {s} : exec .nameput s = execNameput s := rfl
theorem exec_nameq {x s} : exec (.nameq x) s = execNameq x s := rfl
theorem exec_mmap {sr p s} : exec (.mmap sr p) s = execMmap sr p s := rfl
theorem exec_mclr {x s} : exec (.mclr x) s = execMclr x s := rfl
theorem exec_setmm {sr s} : exec (.setmm sr) s = execSetmm sr s := rfl
theorem exec_objRead {sr p s} : exec (.objRead sr p) s = execObjRead sr p s := rfl
theorem exec_objPriv {sr p s} : exec (.objPriv sr p) s = execObjPriv sr p s := rfl
theorem exec_objrel {sr s} : exec (.objrel sr) s = execObjrel sr s := rfl
theorem exec_barArr {n s} : exec (.barArr n) s = execBarArr n s := rfl
theorem exec_barWait {n s} : exec (.barWait n) s = execBarWait n s := rfl
theorem exec_barSync {n s} : exec (.barSync n) s = execBarSync n s := rfl
theorem exec_barInit {e n s} : exec (.barInit e n) s = execBarInit e n s := rfl
theorem exec_barExpect {b n s} : exec (.barExpect b n) s = execBarExpect b n s := rfl
theorem exec_cpySlice {c x n s} : exec (.cpySlice c x n) s = execCpySlice c x n s := rfl
theorem exec_cpyxSlice {c x n s} : exec (.cpyxSlice c x n) s = execCpyxSlice c x n s := rfl
theorem exec_mcst {c h n s} : exec (.mcst c h n) s = execMcst c h n s := rfl
theorem exec_lbufReg {h l n s} : exec (.lbufReg h l n) s = execLbufReg h l n s := rfl
theorem exec_lbufFree {h s} : exec (.lbufFree h) s = execLbufFree h s := rfl
theorem exec_lbufDrop {h s} : exec (.lbufDrop h) s = execLbufDrop h s := rfl
theorem exec_fxfer {n a x k s} : exec (.fxfer n a x k) s = execFxfer n a x k s := rfl
theorem exec_arrcSet {v k s} : exec (.arrcSet v k) s = execArrcSet v k s := rfl
theorem exec_arrcWait {k s} : exec (.arrcWait k) s = execArrcWait k s := rfl
theorem exec_collForm {d r s} : exec (.collForm d r) s = execCollForm d r s := rfl
theorem exec_collWait {d c s} : exec (.collWait d c) s = execCollWait d c s := rfl
theorem exec_collAbort {c s} : exec (.collAbort c) s = execCollAbort c s := rfl
theorem exec_collReform {d r s} : exec (.collReform d r) s = execCollReform d r s := rfl
theorem exec_fork {r s} : exec (.fork r) s = execFork r s := rfl
theorem exec_joinw {d s} : exec (.joinw d) s = execJoinw d s := rfl
theorem exec_vattrQ {d a s} : exec (.vattrQ d a) s = execVattrQ d a s := rfl
theorem exec_vattrRsv {d a s} : exec (.vattrRsv d a) s = execVattrRsv d a s := rfl
theorem exec_mxStart {e x y s} : exec (.mxStart e x y) s = execMxStart e x y s := rfl
theorem exec_mbarArr {n s} : exec (.mbarArr n) s = execMbarArr n s := rfl
theorem exec_mbarWait {n s} : exec (.mbarWait n) s = execMbarWait n s := rfl
theorem exec_mxacq {p e h s} : exec (.mxacq p e h) s = execMxacq p e h s := rfl
theorem exec_mxrel {s} : exec .mxrel s = execMxrel s := rfl
theorem exec_tclm {p n c s} : exec (.tclm p n c) s = execTclm p n c s := rfl
theorem exec_trel {n c s} : exec (.trel n c) s = execTrel n c s := rfl
theorem exec_tld {n l c s} : exec (.tld n l c) s = execTld n l c s := rfl
theorem exec_tldSp {n l c s} : exec (.tldSp n l c) s = execTldSp n l c s := rfl
theorem exec_mma {d a b s} : exec (.mma d a b) s = execMma d a b s := rfl
theorem exec_mmas {d a b s} : exec (.mmas d a b) s = execMmas d a b s := rfl
theorem exec_accz {d n s} : exec (.accz d n) s = execAccz d n s := rfl
theorem exec_accst {d l c s} : exec (.accst d l c) s = execAccst d l c s := rfl
theorem exec_accld {d l c s} : exec (.accld d l c) s = execAccld d l c s := rfl
theorem exec_mfmt {e f b a s} : exec (.mfmt e f b a) s = execMfmt e f b a s := rfl
theorem exec_dmap {n a s} : exec (.dmap n a) s = execDmap n a s := rfl
theorem exec_mxbarArr {n s} : exec (.mxbarArr n) s = execMxbarArr n s := rfl
theorem exec_mxbarWait {n s} : exec (.mxbarWait n) s = execMxbarWait n s := rfl
theorem exec_kmovi {d h imm s} : exec (.kmovi d h imm) s = execKmovi d h imm s := rfl
theorem exec_kadd {d a imm s} : exec (.kadd d a imm) s = execKadd d a imm s := rfl
theorem exec_kaddReg {d a b s} : exec (.kaddReg d a b) s = execKaddReg d a b s := rfl
theorem exec_kbraKq {p o s} : exec (.kbraKq p o) s = execKbraKq p o s := rfl
theorem exec_kbraNkq {p o s} : exec (.kbraNkq p o) s = execKbraNkq p o s := rfl
theorem exec_kbra {o s} : exec (.kbra o) s = execKbra o s := rfl
theorem exec_kbraDec {d o s} : exec (.kbraDec d o) s = execKbraDec d o s := rfl
theorem exec_mend {s} : exec .mend s = execMend s := rfl
theorem exec_clauseIssue {s} : exec .clauseIssue s = execClauseIssue s := rfl
theorem exec_candidateUrgent {s} : exec .candidateUrgent s = execCandidateUrgent s := rfl
theorem exec_countedOpComplete {k s} : exec (.countedOpComplete k) s = execCountedOpComplete k s := rfl
theorem exec_memoryAck {k s} : exec (.memoryAck k) s = execMemoryAck k s := rfl
theorem exec_trapEntry {s} : exec .trapEntry s = execTrapEntry s := rfl
theorem exec_terminationRecord {fn s} : exec (.terminationRecord fn) s = execTerminationRecord fn s := rfl
theorem exec_groupEnd {s} : exec .groupEnd s = execGroupEnd s := rfl
theorem exec_blockRetire {b s} : exec (.blockRetire b) s = execBlockRetire b s := rfl
theorem exec_matrixRestoreSlots {b s} : exec (.matrixRestoreSlots b) s = execMatrixRestoreSlots b s := rfl
theorem exec_qkick {fn q w s} : exec (.qkick fn q w) s = execQkick fn q w s := rfl
theorem exec_queueEntryRead {fn q s} : exec (.queueEntryRead fn q) s = execQueueEntryRead fn q s := rfl
theorem exec_queueDrainResume {fn q s} : exec (.queueDrainResume fn q) s = execQueueDrainResume fn q s := rfl
theorem exec_qrestart {fn q w s} : exec (.qrestart fn q w) s = execQrestart fn q w s := rfl
theorem exec_qcfgEnable {fn q w s} : exec (.qcfgEnable fn q w) s = execQcfgEnable fn q w s := rfl
theorem exec_qcfgDisable {fn q w s} : exec (.qcfgDisable fn q w) s = execQcfgDisable fn q w s := rfl
theorem exec_launchBind {l e lev record blins clusters s} : exec (.launchBind l e lev record blins clusters) s = execLaunchBind l e lev record blins clusters s := rfl
theorem exec_clusterClaim {cl e n s} : exec (.clusterClaim cl e n) s = execClusterClaim cl e n s := rfl
theorem exec_blockPlace {b core s} : exec (.blockPlace b core) s = execBlockPlace b core s := rfl
theorem exec_workDonation {thief victim e s} : exec (.workDonation thief victim e) s = execWorkDonation thief victim e s := rfl
theorem exec_donatedBlockArrival {b ok s} : exec (.donatedBlockArrival b ok) s = execDonatedBlockArrival b ok s := rfl
theorem exec_launchComplete {l s} : exec (.launchComplete l) s = execLaunchComplete l s := rfl
theorem exec_eprioAging {e s} : exec (.eprioAging e) s = execEprioAging e s := rfl
theorem exec_timeSliceExpiry {b s} : exec (.timeSliceExpiry b) s = execTimeSliceExpiry b s := rfl
theorem exec_preemptRequest {b reason s} : exec (.preemptRequest b reason) s = execPreemptRequest b reason s := rfl
theorem exec_watchdogExpiry {b s} : exec (.watchdogExpiry b) s = execWatchdogExpiry b s := rfl
theorem exec_blockSave {b s} : exec (.blockSave b) s = execBlockSave b s := rfl
theorem exec_blockResume {b core s} : exec (.blockResume b core) s = execBlockResume b core s := rfl
theorem exec_parkingEviction {b s} : exec (.parkingEviction b) s = execParkingEviction b s := rfl
theorem exec_savepoolTimeout {l s} : exec (.savepoolTimeout l) s = execSavepoolTimeout l s := rfl
theorem exec_migrationComplete {b save s} : exec (.migrationComplete b save) s = execMigrationComplete b save s := rfl
theorem exec_migrationAbandon {b s} : exec (.migrationAbandon b) s = execMigrationAbandon b s := rfl
theorem exec_rstvHomeCheck {k s} : exec (.rstvHomeCheck k) s = execRstvHomeCheck k s := rfl
theorem exec_rstvApply {k s} : exec (.rstvApply k) s = execRstvApply k s := rfl
theorem exec_rstvStatus {k s} : exec (.rstvStatus k) s = execRstvStatus k s := rfl
theorem exec_rstvTimeout {id s} : exec (.rstvTimeout id) s = execRstvTimeout id s := rfl
theorem exec_fxferClaim {k s} : exec (.fxferClaim k) s = execFxferClaim k s := rfl
theorem exec_fxferDataPacket {k s} : exec (.fxferDataPacket k) s = execFxferDataPacket k s := rfl
theorem exec_fxferStatus {id s} : exec (.fxferStatus id) s = execFxferStatus id s := rfl
theorem exec_remoteRequestArrive {k s} : exec (.remoteRequestArrive k) s = execRemoteRequestArrive k s := rfl
theorem exec_remoteResponseArrive {k s} : exec (.remoteResponseArrive k) s = execRemoteResponseArrive k s := rfl
theorem exec_remoteDeadlineExpiry {id s} : exec (.remoteDeadlineExpiry id) s = execRemoteDeadlineExpiry id s := rfl
theorem exec_fabricPacketArrive {p budget hop s} : exec (.fabricPacketArrive p budget hop) s = execFabricPacketArrive p budget hop s := rfl
theorem exec_pinnedPacketReturned {p s} : exec (.pinnedPacketReturned p) s = execPinnedPacketReturned p s := rfl
theorem exec_linkReplay {port s} : exec (.linkReplay port) s = execLinkReplay port s := rfl
theorem exec_linkRetrain {port s} : exec (.linkRetrain port) s = execLinkRetrain port s := rfl
theorem exec_linkDeath {port s} : exec (.linkDeath port) s = execLinkDeath port s := rfl
theorem exec_linken {port s} : exec (.linken port) s = execLinken port s := rfl
theorem exec_dirtySectorTimeout {cl sector s} : exec (.dirtySectorTimeout cl sector) s = execDirtySectorTimeout cl sector s := rfl
theorem exec_copyJobExecute {j s} : exec (.copyJobExecute j) s = execCopyJobExecute j s := rfl
theorem exec_multicastSend {j s} : exec (.multicastSend j) s = execMulticastSend j s := rfl
theorem exec_childStart {b imm core s} : exec (.childStart b imm core) s = execChildStart b imm core s := rfl
theorem exec_childMerge {b s} : exec (.childMerge b) s = execChildMerge b s := rfl
theorem exec_formArrive {k s} : exec (.formArrive k) s = execFormArrive k s := rfl
theorem exec_formationLimitExpiry {die cid s} : exec (.formationLimitExpiry die cid) s = execFormationLimitExpiry die cid s := rfl
theorem exec_consistGone {k s} : exec (.consistGone k) s = execConsistGone k s := rfl
theorem exec_collPieceArrive {k s} : exec (.collPieceArrive k) s = execCollPieceArrive k s := rfl
theorem exec_collResultArrive {k s} : exec (.collResultArrive k) s = execCollResultArrive k s := rfl
theorem exec_collRetransmit {id s} : exec (.collRetransmit id) s = execCollRetransmit id s := rfl
theorem exec_collProbe {c s} : exec (.collProbe c) s = execCollProbe c s := rfl
theorem exec_collNoticeArrive {k s} : exec (.collNoticeArrive k) s = execCollNoticeArrive k s := rfl
theorem exec_collLimitExpiry {c s} : exec (.collLimitExpiry c) s = execCollLimitExpiry c s := rfl
theorem exec_fqreplyRetry {fn tag s} : exec (.fqreplyRetry fn tag) s = execFqreplyRetry fn tag s := rfl
theorem exec_fqreplyFail {fn tag s} : exec (.fqreplyFail fn tag) s = execFqreplyFail fn tag s := rfl
theorem exec_fqcfgEnable {fn w s} : exec (.fqcfgEnable fn w) s = execFqcfgEnable fn w s := rfl
theorem exec_fqcfgDisable {fn w s} : exec (.fqcfgDisable fn w) s = execFqcfgDisable fn w s := rfl
theorem exec_faultRecordPost {fn s} : exec (.faultRecordPost fn) s = execFaultRecordPost fn s := rfl
theorem exec_faultTimeout {fn tag s} : exec (.faultTimeout fn tag) s = execFaultTimeout fn tag s := rfl
theorem exec_ocmdCreate {fn w s} : exec (.ocmdCreate fn w) s = execOcmdCreate fn w s := rfl
theorem exec_ocmdDestroy {fn w s} : exec (.ocmdDestroy fn w) s = execOcmdDestroy fn w s := rfl
theorem exec_ocmdInval {fn w s} : exec (.ocmdInval fn w) s = execOcmdInval fn w s := rfl
theorem exec_ownerCommandEnd {fn s} : exec (.ownerCommandEnd fn) s = execOwnerCommandEnd fn s := rfl
theorem exec_psetup {w s} : exec (.psetup w) s = execPsetup w s := rfl
theorem exec_ptear {w s} : exec (.ptear w) s = execPtear w s := rfl
theorem exec_hoctlH2d {fn w s} : exec (.hoctlH2d fn w) s = execHoctlH2d fn w s := rfl
theorem exec_hoctlD2h {fn w s} : exec (.hoctlD2h fn w) s = execHoctlD2h fn w s := rfl
theorem exec_handoverEnd {fn s} : exec (.handoverEnd fn) s = execHandoverEnd fn s := rfl
theorem exec_areqReport {fn w s} : exec (.areqReport fn w) s = execAreqReport fn w s := rfl
theorem exec_areqCertificate {fn w s} : exec (.areqCertificate fn w) s = execAreqCertificate fn w s := rfl
theorem exec_rtinv {fn w s} : exec (.rtinv fn w) s = execRtinv fn w s := rfl
theorem exec_bar2Read {fn off n s} : exec (.bar2Read fn off n) s = execBar2Read fn off n s := rfl
theorem exec_bar2Write {fn off bytes s} : exec (.bar2Write fn off bytes) s = execBar2Write fn off bytes s := rfl
theorem exec_msixUnmask {fn v s} : exec (.msixUnmask fn v) s = execMsixUnmask fn v s := rfl
theorem exec_registerWrite {fn off w s} : exec (.registerWrite fn off w) s = execRegisterWrite fn off w s := rfl
theorem exec_monitorStart {u w s} : exec (.monitorStart u w) s = execMonitorStart u w s := rfl
theorem exec_monitorStop {u w s} : exec (.monitorStop u w) s = execMonitorStop u w s := rfl
theorem exec_monitorSample {u x s} : exec (.monitorSample u x) s = execMonitorSample u x s := rfl
theorem exec_islandEvaluation {hotPower cold powers temps supply s} : exec (.islandEvaluation hotPower cold powers temps supply) s = execIslandEvaluation hotPower cold powers temps supply s := rfl
theorem exec_correctedErrorReport {u n s} : exec (.correctedErrorReport u n) s = execCorrectedErrorReport u n s := rfl
theorem exec_warmReset {s} : exec .warmReset s = execWarmReset s := rfl
theorem exec_coldReset {s} : exec .coldReset s = execColdReset s := rfl
theorem exec_pfFlr {s} : exec .pfFlr s = execPfFlr s := rfl
theorem exec_vfFlr {f s} : exec (.vfFlr f) s = execVfFlr f s := rfl
theorem exec_imageWrite {img slot version digest sig sets s} : exec (.imageWrite img slot version digest sig sets) s = execImageWrite img slot version digest sig sets s := rfl
theorem exec_migrationBegin {b pkg s} : exec (.migrationBegin b pkg) s = execMigrationBegin b pkg s := rfl
theorem exec_linkRetrainComplete {port ok s} : exec (.linkRetrainComplete port ok) s = execLinkRetrainComplete port ok s := rfl
theorem exec_collPieceDeadline {c rank s} : exec (.collPieceDeadline c rank) s = execCollPieceDeadline c rank s := rfl
theorem exec_noticeResend {id s} : exec (.noticeResend id) s = execNoticeResend id s := rfl
theorem exec_partitionCommandEnd {s} : exec .partitionCommandEnd s = execPartitionCommandEnd s := rfl

end Sys2Proof.Machine
end

