-- ==== Sys2Proof/Laws/Masks.lean ====
section
/-! SUPPORT. Lane masks: which lanes a mask built from a predicate holds, and the induction over the lanes of a mask. -/

namespace Sys2Proof.Machine

open Sys2Proof

theorem getLsbD_pow (L i : Nat) (h : i < 32) : (BitVec.ofNat 32 (2 ^ L)).getLsbD i = decide (i = L) := by
  simp only [BitVec.getLsbD_ofNat, Nat.testBit_two_pow, h, decide_true, Bool.true_and]
  by_cases e : L = i <;> simp [e, eq_comm]

/-- Induction over the first n lanes of a mask. -/
theorem foldLanes_induct {α : Type} (P : Nat → α → Prop) (g : α → Nat → α) (x : α) (n : Nat) (h0 : P 0 x)
    (hs : ∀ L y, L < n → P L y → P (L + 1) (g y L)) : P n ((List.range n).foldl g x) := by
  induction n with
  | zero => exact h0
  | succ n ih =>
    rw [List.range_succ, List.foldl_append]
    exact hs n _ (by omega) (ih fun L y h => hs L y (by omega))

/-- Induction over the lanes of a mask in increasing order (R270). -/
theorem forLanes_induct {α : Type} (P : Nat → α → Prop) (T : Mask) (f : Nat → α → α) (x : α) (h0 : P 0 x)
    (hs : ∀ L y, L < 32 → P L y → P (L + 1) (if inM T L then f L y else y)) : P 32 (forLanes T f x) :=
  foldLanes_induct P (fun x L => if inM T L then f L x else x) x 32 h0 hs

theorem below_succ (p : Nat → Bool) (n i : Nat) (hp : p n = true) :
    ((decide (i < n) && p i) || decide (i = n)) = (decide (i < n + 1) && p i) := by
  by_cases e : i = n
  · subst e; simp [hp]
  · have : i < n + 1 ↔ i < n := by omega
    simp [e, this]

theorem below_succ' (p : Nat → Bool) (n i : Nat) (hp : p n = false) :
    (decide (i < n) && p i) = (decide (i < n + 1) && p i) := by
  by_cases e : i = n
  · subst e; simp [hp]
  · have : i < n + 1 ↔ i < n := by omega
    simp [this]

/-- The lanes of a mask built from a predicate. -/
theorem inM_maskOf (p : Nat → Bool) (L : Nat) (h : L < 32) : inM (maskOf p) L = p L := by
  have := foldLanes_induct (fun n (m : Mask) => ∀ i, i < 32 → inM m i = (decide (i < n) && p i))
    (fun m L => if p L then m ||| BitVec.ofNat 32 (2 ^ L) else m) 0 32 (by intro i _; simp [inM])
    (by
      intro n m hn ih i hi
      split
      · simp only [inM, BitVec.getLsbD_or, getLsbD_pow _ _ hi]
        have := ih i hi
        simp only [inM] at this
        rw [this]
        exact below_succ p n i (by simp_all)
      · rw [ih i hi]
        exact below_succ' p n i (by simp_all))
  have := this L h
  simpa [maskOf, h] using this

theorem maskOf_getLsbD (p : Nat → Bool) (L : Nat) (h : L < 32) : (maskOf p).getLsbD L = p L := inM_maskOf p L h

/-- A mask is its lanes. -/
theorem maskOf_inM (m : Mask) : maskOf (inM m) = m := by
  apply BitVec.eq_of_getLsbD_eq
  intro i hi
  exact maskOf_getLsbD _ i hi

theorem mem_lanesOf (m : Mask) (L : Nat) : L ∈ lanesOf m ↔ L < 32 ∧ inM m L = true := by
  simp [lanesOf]

/-- One lane of a mask set. -/
theorem inM_setLane (m : Mask) (L M : Nat) (b : Bool) (h : M < 32) :
    inM (setLane m L b) M = if M = L then b else inM m M := by
  unfold setLane inM
  cases b
  · rw [if_neg (by decide), BitVec.getLsbD_and, BitVec.getLsbD_not, getLsbD_pow _ _ h]
    by_cases e : M = L <;> simp [e, h]
  · rw [if_pos rfl, BitVec.getLsbD_or, getLsbD_pow _ _ h]
    by_cases e : M = L <;> simp [e]

end Sys2Proof.Machine
end

