-- ==== Sys2Proof/Laws/State.lean ====
section
/-! SUPPORT. What each named update of a state does to each field, so that no later proof unfolds a record update. -/

namespace Sys2Proof.Machine

open Sys2Proof

variable (s : State)

/-! ## onGrp -/

@[simp] theorem State.onGrp_agenda (f : Group → Group) : (s.onGrp f).agenda = s.agenda := rfl
@[simp] theorem State.onGrp_rota (f : Group → Group) : (s.onGrp f).rota = s.rota := rfl
@[simp] theorem State.onGrp_focused (f : Group → Group) : (s.onGrp f).focused = s.focused := rfl
@[simp] theorem State.onGrp_onStream (f : Group → Group) : (s.onGrp f).onStream = s.onStream := rfl
@[simp] theorem State.onGrp_k (f : Group → Group) : (s.onGrp f).k = s.k := rfl
@[simp] theorem State.onGrp_grp (f : Group → Group) : (s.onGrp f).grp = f s.grp := rfl
@[simp] theorem State.onGrp_blk (f : Group → Group) : (s.onGrp f).blk = s.blk := rfl
@[simp] theorem State.onGrp_dev (f : Group → Group) : (s.onGrp f).dev = s.dev := rfl

/-! ## onBlk -/

@[simp] theorem State.onBlk_agenda (f : Block → Block) : (s.onBlk f).agenda = s.agenda := rfl
@[simp] theorem State.onBlk_rota (f : Block → Block) : (s.onBlk f).rota = s.rota := rfl
@[simp] theorem State.onBlk_focused (f : Block → Block) : (s.onBlk f).focused = s.focused := rfl
@[simp] theorem State.onBlk_onStream (f : Block → Block) : (s.onBlk f).onStream = s.onStream := rfl
@[simp] theorem State.onBlk_k (f : Block → Block) : (s.onBlk f).k = s.k := rfl
@[simp] theorem State.onBlk_grp (f : Block → Block) : (s.onBlk f).grp = s.grp := rfl
@[simp] theorem State.onBlk_blk (f : Block → Block) : (s.onBlk f).blk = f s.blk := rfl
@[simp] theorem State.onBlk_dev (f : Block → Block) : (s.onBlk f).dev = s.dev := rfl

/-! ## onDev -/

@[simp] theorem State.onDev_agenda (f : Dev → Dev) : (s.onDev f).agenda = s.agenda := rfl
@[simp] theorem State.onDev_rota (f : Dev → Dev) : (s.onDev f).rota = s.rota := rfl
@[simp] theorem State.onDev_focused (f : Dev → Dev) : (s.onDev f).focused = s.focused := rfl
@[simp] theorem State.onDev_onStream (f : Dev → Dev) : (s.onDev f).onStream = s.onStream := rfl
@[simp] theorem State.onDev_k (f : Dev → Dev) : (s.onDev f).k = s.k := rfl
@[simp] theorem State.onDev_grp (f : Dev → Dev) : (s.onDev f).grp = s.grp := rfl
@[simp] theorem State.onDev_blk (f : Dev → Dev) : (s.onDev f).blk = s.blk := rfl
@[simp] theorem State.onDev_dev (f : Dev → Dev) : (s.onDev f).dev = f s.dev := rfl

/-! ## onSlot -/

@[simp] theorem State.onSlot_agenda (f : Slot → Slot) : (s.onSlot f).agenda = s.agenda := rfl
@[simp] theorem State.onSlot_rota (f : Slot → Slot) : (s.onSlot f).rota = s.rota := rfl
@[simp] theorem State.onSlot_focused (f : Slot → Slot) : (s.onSlot f).focused = s.focused := rfl
@[simp] theorem State.onSlot_onStream (f : Slot → Slot) : (s.onSlot f).onStream = s.onStream := rfl
@[simp] theorem State.onSlot_k (f : Slot → Slot) : (s.onSlot f).k = s.k := rfl
@[simp] theorem State.onSlot_grp (f : Slot → Slot) : (s.onSlot f).grp = s.grp.onSlot s.k f := rfl
@[simp] theorem State.onSlot_blk (f : Slot → Slot) : (s.onSlot f).blk = s.blk := rfl
@[simp] theorem State.onSlot_dev (f : Slot → Slot) : (s.onSlot f).dev = s.dev := rfl

/-! ## waitFor -/

@[simp] theorem State.waitFor_agenda (w : Wait) : (s.waitFor w).agenda = s.agenda := rfl
@[simp] theorem State.waitFor_rota (w : Wait) : (s.waitFor w).rota = s.rota := rfl
@[simp] theorem State.waitFor_focused (w : Wait) : (s.waitFor w).focused = s.focused := rfl
@[simp] theorem State.waitFor_onStream (w : Wait) : (s.waitFor w).onStream = s.onStream := rfl
@[simp] theorem State.waitFor_k (w : Wait) : (s.waitFor w).k = s.k := rfl
@[simp] theorem State.waitFor_grp (w : Wait) : (s.waitFor w).grp = s.grp.onSlot s.k fun x => { x with wait := w, denied := 0, urgent := false } := rfl
@[simp] theorem State.waitFor_blk (w : Wait) : (s.waitFor w).blk = s.blk := rfl
@[simp] theorem State.waitFor_dev (w : Wait) : (s.waitFor w).dev = s.dev := rfl

/-! ## ws -/

@[simp] theorem State.ws_agenda (r : Nat) (x : DWord) : (s.ws r x).agenda = s.agenda := rfl
@[simp] theorem State.ws_rota (r : Nat) (x : DWord) : (s.ws r x).rota = s.rota := rfl
@[simp] theorem State.ws_focused (r : Nat) (x : DWord) : (s.ws r x).focused = s.focused := rfl
@[simp] theorem State.ws_onStream (r : Nat) (x : DWord) : (s.ws r x).onStream = s.onStream := rfl
@[simp] theorem State.ws_k (r : Nat) (x : DWord) : (s.ws r x).k = s.k := rfl
@[simp] theorem State.ws_grp (r : Nat) (x : DWord) : (s.ws r x).grp = s.grp.setS r x := rfl
@[simp] theorem State.ws_blk (r : Nat) (x : DWord) : (s.ws r x).blk = s.blk := rfl
@[simp] theorem State.ws_dev (r : Nat) (x : DWord) : (s.ws r x).dev = s.dev := rfl

/-! ## wq -/

@[simp] theorem State.wq_agenda (q : Nat) (b : Bool) : (s.wq q b).agenda = s.agenda := rfl
@[simp] theorem State.wq_rota (q : Nat) (b : Bool) : (s.wq q b).rota = s.rota := rfl
@[simp] theorem State.wq_focused (q : Nat) (b : Bool) : (s.wq q b).focused = s.focused := rfl
@[simp] theorem State.wq_onStream (q : Nat) (b : Bool) : (s.wq q b).onStream = s.onStream := rfl
@[simp] theorem State.wq_k (q : Nat) (b : Bool) : (s.wq q b).k = s.k := rfl
@[simp] theorem State.wq_grp (q : Nat) (b : Bool) : (s.wq q b).grp = { s.grp with q := if b then s.grp.q ||| BitVec.ofNat 8 (2 ^ q) else s.grp.q &&& ~~~ BitVec.ofNat 8 (2 ^ q) } := rfl
@[simp] theorem State.wq_blk (q : Nat) (b : Bool) : (s.wq q b).blk = s.blk := rfl
@[simp] theorem State.wq_dev (q : Nat) (b : Bool) : (s.wq q b).dev = s.dev := rfl

/-! ## wv -/

@[simp] theorem State.wv_agenda (T : Mask) (r : Nat) (f : Nat → Word) : (s.wv T r f).agenda = s.agenda := rfl
@[simp] theorem State.wv_rota (T : Mask) (r : Nat) (f : Nat → Word) : (s.wv T r f).rota = s.rota := rfl
@[simp] theorem State.wv_focused (T : Mask) (r : Nat) (f : Nat → Word) : (s.wv T r f).focused = s.focused := rfl
@[simp] theorem State.wv_onStream (T : Mask) (r : Nat) (f : Nat → Word) : (s.wv T r f).onStream = s.onStream := rfl
@[simp] theorem State.wv_k (T : Mask) (r : Nat) (f : Nat → Word) : (s.wv T r f).k = s.k := rfl
@[simp] theorem State.wv_grp (T : Mask) (r : Nat) (f : Nat → Word) : (s.wv T r f).grp = forLanes T (fun L g => g.setV (s.vkey L r) (f L)) s.grp := rfl
@[simp] theorem State.wv_blk (T : Mask) (r : Nat) (f : Nat → Word) : (s.wv T r f).blk = s.blk := rfl
@[simp] theorem State.wv_dev (T : Mask) (r : Nat) (f : Nat → Word) : (s.wv T r f).dev = s.dev := rfl

/-! ## wv2 -/

@[simp] theorem State.wv2_agenda (T : Mask) (r : Nat) (f : Nat → DWord) : (s.wv2 T r f).agenda = s.agenda := rfl
@[simp] theorem State.wv2_rota (T : Mask) (r : Nat) (f : Nat → DWord) : (s.wv2 T r f).rota = s.rota := rfl
@[simp] theorem State.wv2_focused (T : Mask) (r : Nat) (f : Nat → DWord) : (s.wv2 T r f).focused = s.focused := rfl
@[simp] theorem State.wv2_onStream (T : Mask) (r : Nat) (f : Nat → DWord) : (s.wv2 T r f).onStream = s.onStream := rfl
@[simp] theorem State.wv2_k (T : Mask) (r : Nat) (f : Nat → DWord) : (s.wv2 T r f).k = s.k := rfl
@[simp] theorem State.wv2_grp (T : Mask) (r : Nat) (f : Nat → DWord) : (s.wv2 T r f).grp = forLanes T (fun L g => (g.setV (s.vkey L r) ((f L).setWidth 32)).setV (s.vkey L (r + 1))
      ((f L >>> 32).setWidth 32)) s.grp := rfl
@[simp] theorem State.wv2_blk (T : Mask) (r : Nat) (f : Nat → DWord) : (s.wv2 T r f).blk = s.blk := rfl
@[simp] theorem State.wv2_dev (T : Mask) (r : Nat) (f : Nat → DWord) : (s.wv2 T r f).dev = s.dev := rfl

/-! ## wp -/

@[simp] theorem State.wp_agenda (T : Mask) (p : Nat) (f : Nat → Bool) : (s.wp T p f).agenda = s.agenda := rfl
@[simp] theorem State.wp_rota (T : Mask) (p : Nat) (f : Nat → Bool) : (s.wp T p f).rota = s.rota := rfl
@[simp] theorem State.wp_focused (T : Mask) (p : Nat) (f : Nat → Bool) : (s.wp T p f).focused = s.focused := rfl
@[simp] theorem State.wp_onStream (T : Mask) (p : Nat) (f : Nat → Bool) : (s.wp T p f).onStream = s.onStream := rfl
@[simp] theorem State.wp_k (T : Mask) (p : Nat) (f : Nat → Bool) : (s.wp T p f).k = s.k := rfl
@[simp] theorem State.wp_grp (T : Mask) (p : Nat) (f : Nat → Bool) : (s.wp T p f).grp = forLanes T (fun L g => g.setP (s.pname L p) L (f L)) s.grp := rfl
@[simp] theorem State.wp_blk (T : Mask) (p : Nat) (f : Nat → Bool) : (s.wp T p f).blk = s.blk := rfl
@[simp] theorem State.wp_dev (T : Mask) (p : Nat) (f : Nat → Bool) : (s.wp T p f).dev = s.dev := rfl

/-! ## raiseFlags -/

@[simp] theorem State.raiseFlags_agenda (f : BitVec 5) : (s.raiseFlags f).agenda = s.agenda := rfl
@[simp] theorem State.raiseFlags_rota (f : BitVec 5) : (s.raiseFlags f).rota = s.rota := rfl
@[simp] theorem State.raiseFlags_focused (f : BitVec 5) : (s.raiseFlags f).focused = s.focused := rfl
@[simp] theorem State.raiseFlags_onStream (f : BitVec 5) : (s.raiseFlags f).onStream = s.onStream := rfl
@[simp] theorem State.raiseFlags_k (f : BitVec 5) : (s.raiseFlags f).k = s.k := rfl
@[simp] theorem State.raiseFlags_grp (f : BitVec 5) : (s.raiseFlags f).grp = s.grp.onSlot s.k fun x => { x with fpstat := x.fpstat ||| f } := rfl
@[simp] theorem State.raiseFlags_blk (f : BitVec 5) : (s.raiseFlags f).blk = s.blk := rfl
@[simp] theorem State.raiseFlags_dev (f : BitVec 5) : (s.raiseFlags f).dev = s.dev := rfl

/-! ## Registers of a group -/

variable (g : Group)

@[simp] theorem Group.setV_idx (key : Nat) (x : Word) : (g.setV key x).idx = g.idx := rfl
@[simp] theorem Group.setV_v (key : Nat) (x : Word) : (g.setV key x).v = Sparse.put 0 g.v key x := rfl
@[simp] theorem Group.setV_s (key : Nat) (x : Word) : (g.setV key x).s = g.s := rfl
@[simp] theorem Group.setV_p (key : Nat) (x : Word) : (g.setV key x).p = g.p := rfl
@[simp] theorem Group.setV_q (key : Nat) (x : Word) : (g.setV key x).q = g.q := rfl
@[simp] theorem Group.setV_flags (key : Nat) (x : Word) : (g.setV key x).flags = g.flags := rfl
@[simp] theorem Group.setV_slot0 (key : Nat) (x : Word) : (g.setV key x).slot0 = g.slot0 := rfl
@[simp] theorem Group.setV_slot1 (key : Nat) (x : Word) : (g.setV key x).slot1 = g.slot1 := rfl
@[simp] theorem Group.setV_stack (key : Nat) (x : Word) : (g.setV key x).stack = g.stack := rfl
@[simp] theorem Group.setV_live (key : Nat) (x : Word) : (g.setV key x).live = g.live := rfl
@[simp] theorem Group.setV_mm (key : Nat) (x : Word) : (g.setV key x).mm = g.mm := rfl
@[simp] theorem Group.setV_meld (key : Nat) (x : Word) : (g.setV key x).meld = g.meld := rfl
@[simp] theorem Group.setV_mapA (key : Nat) (x : Word) : (g.setV key x).mapA = g.mapA := rfl
@[simp] theorem Group.setV_mapB (key : Nat) (x : Word) : (g.setV key x).mapB = g.mapB := rfl
@[simp] theorem Group.setV_mapPA (key : Nat) (x : Word) : (g.setV key x).mapPA = g.mapPA := rfl
@[simp] theorem Group.setV_mapPB (key : Nat) (x : Word) : (g.setV key x).mapPB = g.mapPB := rfl
@[simp] theorem Group.setV_rsstat (key : Nat) (x : Word) : (g.setV key x).rsstat = g.rsstat := rfl
@[simp] theorem Group.setV_pname (key : Nat) (x : Word) : (g.setV key x).pname = g.pname := rfl
@[simp] theorem Group.setV_trap (key : Nat) (x : Word) : (g.setV key x).trap = g.trap := rfl
@[simp] theorem Group.setV_ctx (key : Nat) (x : Word) : (g.setV key x).ctx = g.ctx := rfl
@[simp] theorem Group.setV_reports (key : Nat) (x : Word) : (g.setV key x).reports = g.reports := rfl
@[simp] theorem Group.setV_trapReq (key : Nat) (x : Word) : (g.setV key x).trapReq = g.trapReq := rfl
@[simp] theorem Group.setV_preempt (key : Nat) (x : Word) : (g.setV key x).preempt = g.preempt := rfl
@[simp] theorem Group.setV_triggered (key : Nat) (x : Word) : (g.setV key x).triggered = g.triggered := rfl
@[simp] theorem Group.setV_ended (key : Nat) (x : Word) : (g.setV key x).ended = g.ended := rfl
@[simp] theorem Group.setV_yielded (key : Nat) (x : Word) : (g.setV key x).yielded = g.yielded := rfl
@[simp] theorem Group.setV_holds (key : Nat) (x : Word) : (g.setV key x).holds = g.holds := rfl
@[simp] theorem Group.setV_pend (key : Nat) (x : Word) : (g.setV key x).pend = g.pend := rfl
@[simp] theorem Group.setV_tags (key : Nat) (x : Word) : (g.setV key x).tags = Sparse.erase g.tags key := rfl
@[simp] theorem Group.setV_stags (key : Nat) (x : Word) : (g.setV key x).stags = g.stags := rfl
@[simp] theorem Group.setV_barPhase (key : Nat) (x : Word) : (g.setV key x).barPhase = g.barPhase := rfl
@[simp] theorem Group.setV_mbarPhase (key : Nat) (x : Word) : (g.setV key x).mbarPhase = g.mbarPhase := rfl
@[simp] theorem Group.setV_rstvSeq (key : Nat) (x : Word) : (g.setV key x).rstvSeq = g.rstvSeq := rfl
@[simp] theorem Group.setV_age (key : Nat) (x : Word) : (g.setV key x).age = g.age := rfl

@[simp] theorem Group.setS_idx (r : Nat) (x : DWord) : (g.setS r x).idx = g.idx := rfl
@[simp] theorem Group.setS_v (r : Nat) (x : DWord) : (g.setS r x).v = g.v := rfl
@[simp] theorem Group.setS_s (r : Nat) (x : DWord) : (g.setS r x).s = Sparse.put 0 g.s r x := rfl
@[simp] theorem Group.setS_p (r : Nat) (x : DWord) : (g.setS r x).p = g.p := rfl
@[simp] theorem Group.setS_q (r : Nat) (x : DWord) : (g.setS r x).q = g.q := rfl
@[simp] theorem Group.setS_flags (r : Nat) (x : DWord) : (g.setS r x).flags = g.flags := rfl
@[simp] theorem Group.setS_slot0 (r : Nat) (x : DWord) : (g.setS r x).slot0 = g.slot0 := rfl
@[simp] theorem Group.setS_slot1 (r : Nat) (x : DWord) : (g.setS r x).slot1 = g.slot1 := rfl
@[simp] theorem Group.setS_stack (r : Nat) (x : DWord) : (g.setS r x).stack = g.stack := rfl
@[simp] theorem Group.setS_live (r : Nat) (x : DWord) : (g.setS r x).live = g.live := rfl
@[simp] theorem Group.setS_mm (r : Nat) (x : DWord) : (g.setS r x).mm = g.mm := rfl
@[simp] theorem Group.setS_meld (r : Nat) (x : DWord) : (g.setS r x).meld = g.meld := rfl
@[simp] theorem Group.setS_mapA (r : Nat) (x : DWord) : (g.setS r x).mapA = g.mapA := rfl
@[simp] theorem Group.setS_mapB (r : Nat) (x : DWord) : (g.setS r x).mapB = g.mapB := rfl
@[simp] theorem Group.setS_mapPA (r : Nat) (x : DWord) : (g.setS r x).mapPA = g.mapPA := rfl
@[simp] theorem Group.setS_mapPB (r : Nat) (x : DWord) : (g.setS r x).mapPB = g.mapPB := rfl
@[simp] theorem Group.setS_rsstat (r : Nat) (x : DWord) : (g.setS r x).rsstat = g.rsstat := rfl
@[simp] theorem Group.setS_pname (r : Nat) (x : DWord) : (g.setS r x).pname = g.pname := rfl
@[simp] theorem Group.setS_trap (r : Nat) (x : DWord) : (g.setS r x).trap = g.trap := rfl
@[simp] theorem Group.setS_ctx (r : Nat) (x : DWord) : (g.setS r x).ctx = g.ctx := rfl
@[simp] theorem Group.setS_reports (r : Nat) (x : DWord) : (g.setS r x).reports = g.reports := rfl
@[simp] theorem Group.setS_trapReq (r : Nat) (x : DWord) : (g.setS r x).trapReq = g.trapReq := rfl
@[simp] theorem Group.setS_preempt (r : Nat) (x : DWord) : (g.setS r x).preempt = g.preempt := rfl
@[simp] theorem Group.setS_triggered (r : Nat) (x : DWord) : (g.setS r x).triggered = g.triggered := rfl
@[simp] theorem Group.setS_ended (r : Nat) (x : DWord) : (g.setS r x).ended = g.ended := rfl
@[simp] theorem Group.setS_yielded (r : Nat) (x : DWord) : (g.setS r x).yielded = g.yielded := rfl
@[simp] theorem Group.setS_holds (r : Nat) (x : DWord) : (g.setS r x).holds = g.holds := rfl
@[simp] theorem Group.setS_pend (r : Nat) (x : DWord) : (g.setS r x).pend = g.pend := rfl
@[simp] theorem Group.setS_tags (r : Nat) (x : DWord) : (g.setS r x).tags = g.tags := rfl
@[simp] theorem Group.setS_stags (r : Nat) (x : DWord) : (g.setS r x).stags = Sparse.erase g.stags r := rfl
@[simp] theorem Group.setS_barPhase (r : Nat) (x : DWord) : (g.setS r x).barPhase = g.barPhase := rfl
@[simp] theorem Group.setS_mbarPhase (r : Nat) (x : DWord) : (g.setS r x).mbarPhase = g.mbarPhase := rfl
@[simp] theorem Group.setS_rstvSeq (r : Nat) (x : DWord) : (g.setS r x).rstvSeq = g.rstvSeq := rfl
@[simp] theorem Group.setS_age (r : Nat) (x : DWord) : (g.setS r x).age = g.age := rfl

@[simp] theorem Group.setP_idx (p L : Nat) (b : Bool) : (g.setP p L b).idx = g.idx := rfl
@[simp] theorem Group.setP_v (p L : Nat) (b : Bool) : (g.setP p L b).v = g.v := rfl
@[simp] theorem Group.setP_s (p L : Nat) (b : Bool) : (g.setP p L b).s = g.s := rfl
@[simp] theorem Group.setP_p (p L : Nat) (b : Bool) : (g.setP p L b).p = Sparse.upd 0 g.p p fun m => setLane m L b := rfl
@[simp] theorem Group.setP_q (p L : Nat) (b : Bool) : (g.setP p L b).q = g.q := rfl
@[simp] theorem Group.setP_flags (p L : Nat) (b : Bool) : (g.setP p L b).flags = g.flags := rfl
@[simp] theorem Group.setP_slot0 (p L : Nat) (b : Bool) : (g.setP p L b).slot0 = g.slot0 := rfl
@[simp] theorem Group.setP_slot1 (p L : Nat) (b : Bool) : (g.setP p L b).slot1 = g.slot1 := rfl
@[simp] theorem Group.setP_stack (p L : Nat) (b : Bool) : (g.setP p L b).stack = g.stack := rfl
@[simp] theorem Group.setP_live (p L : Nat) (b : Bool) : (g.setP p L b).live = g.live := rfl
@[simp] theorem Group.setP_mm (p L : Nat) (b : Bool) : (g.setP p L b).mm = g.mm := rfl
@[simp] theorem Group.setP_meld (p L : Nat) (b : Bool) : (g.setP p L b).meld = g.meld := rfl
@[simp] theorem Group.setP_mapA (p L : Nat) (b : Bool) : (g.setP p L b).mapA = g.mapA := rfl
@[simp] theorem Group.setP_mapB (p L : Nat) (b : Bool) : (g.setP p L b).mapB = g.mapB := rfl
@[simp] theorem Group.setP_mapPA (p L : Nat) (b : Bool) : (g.setP p L b).mapPA = g.mapPA := rfl
@[simp] theorem Group.setP_mapPB (p L : Nat) (b : Bool) : (g.setP p L b).mapPB = g.mapPB := rfl
@[simp] theorem Group.setP_rsstat (p L : Nat) (b : Bool) : (g.setP p L b).rsstat = g.rsstat := rfl
@[simp] theorem Group.setP_pname (p L : Nat) (b : Bool) : (g.setP p L b).pname = g.pname := rfl
@[simp] theorem Group.setP_trap (p L : Nat) (b : Bool) : (g.setP p L b).trap = g.trap := rfl
@[simp] theorem Group.setP_ctx (p L : Nat) (b : Bool) : (g.setP p L b).ctx = g.ctx := rfl
@[simp] theorem Group.setP_reports (p L : Nat) (b : Bool) : (g.setP p L b).reports = g.reports := rfl
@[simp] theorem Group.setP_trapReq (p L : Nat) (b : Bool) : (g.setP p L b).trapReq = g.trapReq := rfl
@[simp] theorem Group.setP_preempt (p L : Nat) (b : Bool) : (g.setP p L b).preempt = g.preempt := rfl
@[simp] theorem Group.setP_triggered (p L : Nat) (b : Bool) : (g.setP p L b).triggered = g.triggered := rfl
@[simp] theorem Group.setP_ended (p L : Nat) (b : Bool) : (g.setP p L b).ended = g.ended := rfl
@[simp] theorem Group.setP_yielded (p L : Nat) (b : Bool) : (g.setP p L b).yielded = g.yielded := rfl
@[simp] theorem Group.setP_holds (p L : Nat) (b : Bool) : (g.setP p L b).holds = g.holds := rfl
@[simp] theorem Group.setP_pend (p L : Nat) (b : Bool) : (g.setP p L b).pend = g.pend := rfl
@[simp] theorem Group.setP_tags (p L : Nat) (b : Bool) : (g.setP p L b).tags = g.tags := rfl
@[simp] theorem Group.setP_stags (p L : Nat) (b : Bool) : (g.setP p L b).stags = g.stags := rfl
@[simp] theorem Group.setP_barPhase (p L : Nat) (b : Bool) : (g.setP p L b).barPhase = g.barPhase := rfl
@[simp] theorem Group.setP_mbarPhase (p L : Nat) (b : Bool) : (g.setP p L b).mbarPhase = g.mbarPhase := rfl
@[simp] theorem Group.setP_rstvSeq (p L : Nat) (b : Bool) : (g.setP p L b).rstvSeq = g.rstvSeq := rfl
@[simp] theorem Group.setP_age (p L : Nat) (b : Bool) : (g.setP p L b).age = g.age := rfl

/-! ## Slots -/

@[simp] theorem Group.slot_onSlot_self (k : Bool) (f : Slot → Slot) : (g.onSlot k f).slot k = f (g.slot k) := by
  cases k <;> rfl

@[simp] theorem Group.slot_onSlot_other (k : Bool) (f : Slot → Slot) : (g.onSlot k f).slot (!k) = g.slot (!k) := by
  cases k <;> rfl

@[simp] theorem Group.onSlot_idx (k : Bool) (f : Slot → Slot) : (g.onSlot k f).idx = g.idx := by cases k <;> rfl
@[simp] theorem Group.onSlot_v (k : Bool) (f : Slot → Slot) : (g.onSlot k f).v = g.v := by cases k <;> rfl
@[simp] theorem Group.onSlot_s (k : Bool) (f : Slot → Slot) : (g.onSlot k f).s = g.s := by cases k <;> rfl
@[simp] theorem Group.onSlot_p (k : Bool) (f : Slot → Slot) : (g.onSlot k f).p = g.p := by cases k <;> rfl
@[simp] theorem Group.onSlot_q (k : Bool) (f : Slot → Slot) : (g.onSlot k f).q = g.q := by cases k <;> rfl
@[simp] theorem Group.onSlot_flags (k : Bool) (f : Slot → Slot) : (g.onSlot k f).flags = g.flags := by cases k <;> rfl
@[simp] theorem Group.onSlot_stack (k : Bool) (f : Slot → Slot) : (g.onSlot k f).stack = g.stack := by cases k <;> rfl
@[simp] theorem Group.onSlot_live (k : Bool) (f : Slot → Slot) : (g.onSlot k f).live = g.live := by cases k <;> rfl
@[simp] theorem Group.onSlot_mm (k : Bool) (f : Slot → Slot) : (g.onSlot k f).mm = g.mm := by cases k <;> rfl
@[simp] theorem Group.onSlot_meld (k : Bool) (f : Slot → Slot) : (g.onSlot k f).meld = g.meld := by cases k <;> rfl
@[simp] theorem Group.onSlot_mapA (k : Bool) (f : Slot → Slot) : (g.onSlot k f).mapA = g.mapA := by cases k <;> rfl
@[simp] theorem Group.onSlot_mapB (k : Bool) (f : Slot → Slot) : (g.onSlot k f).mapB = g.mapB := by cases k <;> rfl
@[simp] theorem Group.onSlot_mapPA (k : Bool) (f : Slot → Slot) : (g.onSlot k f).mapPA = g.mapPA := by cases k <;> rfl
@[simp] theorem Group.onSlot_mapPB (k : Bool) (f : Slot → Slot) : (g.onSlot k f).mapPB = g.mapPB := by cases k <;> rfl
@[simp] theorem Group.onSlot_rsstat (k : Bool) (f : Slot → Slot) : (g.onSlot k f).rsstat = g.rsstat := by cases k <;> rfl
@[simp] theorem Group.onSlot_pname (k : Bool) (f : Slot → Slot) : (g.onSlot k f).pname = g.pname := by cases k <;> rfl
@[simp] theorem Group.onSlot_trap (k : Bool) (f : Slot → Slot) : (g.onSlot k f).trap = g.trap := by cases k <;> rfl
@[simp] theorem Group.onSlot_ctx (k : Bool) (f : Slot → Slot) : (g.onSlot k f).ctx = g.ctx := by cases k <;> rfl
@[simp] theorem Group.onSlot_reports (k : Bool) (f : Slot → Slot) : (g.onSlot k f).reports = g.reports := by cases k <;> rfl
@[simp] theorem Group.onSlot_trapReq (k : Bool) (f : Slot → Slot) : (g.onSlot k f).trapReq = g.trapReq := by cases k <;> rfl
@[simp] theorem Group.onSlot_preempt (k : Bool) (f : Slot → Slot) : (g.onSlot k f).preempt = g.preempt := by cases k <;> rfl
@[simp] theorem Group.onSlot_triggered (k : Bool) (f : Slot → Slot) : (g.onSlot k f).triggered = g.triggered := by cases k <;> rfl
@[simp] theorem Group.onSlot_ended (k : Bool) (f : Slot → Slot) : (g.onSlot k f).ended = g.ended := by cases k <;> rfl
@[simp] theorem Group.onSlot_yielded (k : Bool) (f : Slot → Slot) : (g.onSlot k f).yielded = g.yielded := by cases k <;> rfl
@[simp] theorem Group.onSlot_holds (k : Bool) (f : Slot → Slot) : (g.onSlot k f).holds = g.holds := by cases k <;> rfl
@[simp] theorem Group.onSlot_pend (k : Bool) (f : Slot → Slot) : (g.onSlot k f).pend = g.pend := by cases k <;> rfl
@[simp] theorem Group.onSlot_tags (k : Bool) (f : Slot → Slot) : (g.onSlot k f).tags = g.tags := by cases k <;> rfl
@[simp] theorem Group.onSlot_stags (k : Bool) (f : Slot → Slot) : (g.onSlot k f).stags = g.stags := by cases k <;> rfl
@[simp] theorem Group.onSlot_barPhase (k : Bool) (f : Slot → Slot) : (g.onSlot k f).barPhase = g.barPhase := by cases k <;> rfl
@[simp] theorem Group.onSlot_mbarPhase (k : Bool) (f : Slot → Slot) : (g.onSlot k f).mbarPhase = g.mbarPhase := by cases k <;> rfl
@[simp] theorem Group.onSlot_rstvSeq (k : Bool) (f : Slot → Slot) : (g.onSlot k f).rstvSeq = g.rstvSeq := by cases k <;> rfl
@[simp] theorem Group.onSlot_age (k : Bool) (f : Slot → Slot) : (g.onSlot k f).age = g.age := by cases k <;> rfl

@[simp] theorem State.slot_onSlot (f : Slot → Slot) : (s.onSlot f).slot = f s.slot := by
  simp [State.slot]

end Sys2Proof.Machine
end

