-- ==== Sys2Proof/Laws/Tables.lean ====
section
/-! SUPPORT. Finite tables and home memory: read after write, and that every operation keeps the canonical form. -/

namespace Sys2Proof.Machine

open Sys2Proof

variable {α : Type}

/-! ## Read after write -/

theorem Sparse.get_erase_self (d : α) (t : Table α) (k : Nat) : Sparse.get d (Sparse.erase t k) k = d := by
  induction t with
  | nil => rfl
  | cons e t ih =>
    by_cases h : e.1 = k
    · simpa [Sparse.erase, h] using ih
    · have h' : k ≠ e.1 := fun x => h x.symm
      simpa [Sparse.erase, h, h', Sparse.get] using ih

theorem Sparse.get_erase_other (d : α) (t : Table α) (k j : Nat) (h : j ≠ k) :
    Sparse.get d (Sparse.erase t k) j = Sparse.get d t j := by
  induction t with
  | nil => rfl
  | cons e t ih =>
    by_cases hk : e.1 = k
    · have : j ≠ e.1 := fun x => h (x.trans hk)
      simpa [Sparse.erase, hk, Sparse.get, this, h] using ih
    · by_cases hj : j = e.1
      · subst hj; simp [Sparse.erase, hk, Sparse.get]
      · simpa [Sparse.erase, hk, Sparse.get, hj] using ih

theorem Sparse.get_ins (d : α) (t : Table α) (k j : Nat) (x : α) :
    Sparse.get d (Sparse.ins k x t) j = if j = k then x else Sparse.get d t j := by
  induction t with
  | nil => simp [Sparse.ins, Sparse.get]
  | cons e t ih =>
    obtain ⟨i, y⟩ := e
    simp only [Sparse.ins]
    split
    · simp [Sparse.get]
    · split
      · subst i; by_cases h : j = k <;> simp [Sparse.get, h]
      · by_cases h : j = i
        · have : j ≠ k := by omega
          simp [Sparse.get, h]; omega
        · simp [Sparse.get, h, ih]

variable [DecidableEq α]

/-- A read after a write to the same key gives the value written, and a write leaves every other key alone. -/
theorem Sparse.get_put (d : α) (t : Table α) (k j : Nat) (x : α) :
    Sparse.get d (Sparse.put d t k x) j = if j = k then x else Sparse.get d t j := by
  unfold Sparse.put
  split
  · by_cases h : j = k
    · subst h; simp [Sparse.get_erase_self, *]
    · simp [Sparse.get_erase_other, h]
  · exact Sparse.get_ins d t k j x

@[simp] theorem Sparse.get_put_self (d : α) (t : Table α) (k : Nat) (x : α) :
    Sparse.get d (Sparse.put d t k x) k = x := by simp [Sparse.get_put]

@[simp] theorem Sparse.get_put_other (d : α) (t : Table α) (k j : Nat) (x : α) (h : j ≠ k) :
    Sparse.get d (Sparse.put d t k x) j = Sparse.get d t j := by simp [Sparse.get_put, h]

@[simp] theorem Sparse.get_upd_self (d : α) (t : Table α) (k : Nat) (f : α → α) :
    Sparse.get d (Sparse.upd d t k f) k = f (Sparse.get d t k) := by simp [Sparse.upd]

/-! ## The canonical form -/

omit [DecidableEq α] in
theorem Sparse.rising_mono (t : Table α) (lo hi : Nat) (h : lo ≤ hi) (w : Sparse.rising hi t = true) :
    Sparse.rising lo t = true := by
  cases t with
  | nil => rfl
  | cons e t => simp [Sparse.rising] at w ⊢; exact ⟨by omega, w.2⟩

omit [DecidableEq α] in
theorem Sparse.rising_filter (t : Table α) (p : Nat × α → Bool) (lo : Nat) (w : Sparse.rising lo t = true) :
    Sparse.rising lo (t.filter p) = true := by
  induction t generalizing lo with
  | nil => rfl
  | cons e t ih =>
    simp only [Sparse.rising, Bool.and_eq_true, decide_eq_true_eq] at w
    by_cases h : p e
    · simp only [List.filter_cons, h, if_true, Sparse.rising, Bool.and_eq_true, decide_eq_true_eq]
      exact ⟨w.1, ih _ w.2⟩
    · simp only [List.filter_cons, h]
      exact ih lo (Sparse.rising_mono t lo _ (by omega) w.2)

omit [DecidableEq α] in
theorem Sparse.rising_ins (t : Table α) (k lo : Nat) (x : α) (h : lo ≤ k) (w : Sparse.rising lo t = true) :
    Sparse.rising lo (Sparse.ins k x t) = true := by
  induction t generalizing lo with
  | nil => simp [Sparse.ins, Sparse.rising, h]
  | cons e t ih =>
    obtain ⟨j, y⟩ := e
    simp only [Sparse.rising, Bool.and_eq_true, decide_eq_true_eq] at w
    simp only [Sparse.ins]
    split
    · simp only [Sparse.rising, Bool.and_eq_true, decide_eq_true_eq]
      exact ⟨h, by omega, w.2⟩
    · split
      · subst j
        simp only [Sparse.rising, Bool.and_eq_true, decide_eq_true_eq]
        exact ⟨h, w.2⟩
      · simp only [Sparse.rising, Bool.and_eq_true, decide_eq_true_eq]
        exact ⟨w.1, ih _ (by omega) w.2⟩

omit [DecidableEq α] in
theorem Sparse.mem_ins (t : Table α) (k : Nat) (x : α) (e : Nat × α) (h : e ∈ Sparse.ins k x t) :
    e = (k, x) ∨ e ∈ t := by
  induction t with
  | nil => simpa [Sparse.ins] using h
  | cons f t ih =>
    obtain ⟨j, y⟩ := f
    simp only [Sparse.ins] at h
    split at h
    · simpa using h
    · split at h
      · simp only [List.mem_cons] at h ⊢; tauto
      · simp only [List.mem_cons] at h ⊢
        rcases h with h | h
        · exact .inr (.inl h)
        · rcases ih h with h | h <;> tauto

/-- A filter keeps the canonical form. -/
theorem Sparse.wf_filter (d : α) (t : Table α) (p : Nat × α → Bool) (w : Sparse.wf d t = true) :
    Sparse.wf d (t.filter p) = true := by
  simp only [Sparse.wf, Bool.and_eq_true, List.all_eq_true] at w ⊢
  exact ⟨Sparse.rising_filter t p 0 w.1, fun e h => w.2 e (List.mem_of_mem_filter h)⟩

/-- A write keeps the canonical form. -/
theorem Sparse.wf_put (d : α) (t : Table α) (k : Nat) (x : α) (w : Sparse.wf d t = true) :
    Sparse.wf d (Sparse.put d t k x) = true := by
  unfold Sparse.put
  split
  · exact Sparse.wf_filter d t _ w
  · rename_i hx
    simp only [Sparse.wf, Bool.and_eq_true, List.all_eq_true] at w ⊢
    refine ⟨Sparse.rising_ins t k 0 x (by omega) w.1, fun e h => ?_⟩
    rcases Sparse.mem_ins t k x e h with h | h
    · subst h; simpa using hx
    · exact w.2 e h

/-! ## Home memory -/

theorem Memory.read_write (m : Memory) (a b : Nat) (x : Byte) :
    Memory.read (Memory.write m a x) b = if b = a then x else Memory.read m b := Sparse.get_put _ m a b x

theorem Memory.wf_write (m : Memory) (a : Nat) (x : Byte) (w : Memory.wf m = true) :
    Memory.wf (Memory.write m a x) = true := Sparse.wf_put _ m a x w

theorem Memory.wf_filter (m : Memory) (p : Nat × Byte → Bool) (w : Memory.wf m = true) :
    Memory.wf (m.filter p) = true := Sparse.wf_filter _ m p w

/-- Any list of writes keeps the canonical form. -/
theorem Memory.wf_writes {β : Type} (l : List β) (a : β → Nat) (x : β → Byte) (m : Memory) (w : Memory.wf m = true) :
    Memory.wf (l.foldl (fun m e => Memory.write m (a e) (x e)) m) = true := by
  induction l generalizing m with
  | nil => exact w
  | cons e l ih => exact ih _ (Memory.wf_write m _ _ w)

end Sys2Proof.Machine
end

