-- ==== Sys2Proof/Laws/Regs.lean ====
section
/-! SUPPORT. What a write of lanes does: the words or bits it writes, and that nothing else changes. -/

namespace Sys2Proof.Machine

open Sys2Proof

variable (s : State)

/-! ## Keys -/

theorem State.vkey_lane (L r M q : Nat) (hL : L < 32) (hM : M < 32) (h : s.vkey L r = s.vkey M q) : L = M := by
  unfold State.vkey at h
  omega

theorem State.vkey_name (L r q : Nat) : s.vkey L r = s.vkey L q ↔ s.vname L r = s.vname L q := by
  unfold State.vkey
  omega

/-! ## One word a lane -/

theorem Group.forLanes_setV_only (g : Group) (T : Mask) (key : Nat → Nat) (x : Nat → Word) :
    ∃ v t, forLanes T (fun L g => g.setV (key L) (x L)) g = { g with v := v, tags := t } := by
  refine forLanes_induct (fun _ (y : Group) => ∃ v t, y = { g with v := v, tags := t }) T _ g ⟨_, _, rfl⟩ ?_
  rintro L y _ ⟨v, t, rfl⟩
  split
  · exact ⟨_, _, rfl⟩
  · exact ⟨_, _, rfl⟩

/-- What the lanes written before lane n hold, and what stands elsewhere. -/
theorem Group.forLanes_setV_get (g : Group) (T : Mask) (key : Nat → Nat) (x : Nat → Word)
    (hk : ∀ L M, L < 32 → M < 32 → key L = key M → L = M) (k : Nat) :
    (∀ L, L < 32 → inM T L = true → k = key L →
      Sparse.get 0 (forLanes T (fun L g => g.setV (key L) (x L)) g).v k = x L) ∧
    ((∀ L, L < 32 → inM T L = true → k ≠ key L) →
      Sparse.get 0 (forLanes T (fun L g => g.setV (key L) (x L)) g).v k = Sparse.get 0 g.v k) := by
  have := forLanes_induct (fun n (y : Group) =>
      (∀ L, L < 32 → L < n → inM T L = true → k = key L → Sparse.get 0 y.v k = x L) ∧
      ((∀ L, L < 32 → L < n → inM T L = true → k ≠ key L) → Sparse.get 0 y.v k = Sparse.get 0 g.v k))
    T (fun L g => g.setV (key L) (x L)) g ⟨fun L _ h => absurd h (by omega), fun _ => rfl⟩ (by
      rintro n y hn ⟨h1, h2⟩
      split
      · rename_i hT
        refine ⟨fun L hL hLn hTL e => ?_, fun h => ?_⟩
        · by_cases c : L = n
          · subst c; simp [e]
          · have : k ≠ key n := fun e' => c (hk L n hL hn (e.symm.trans e'))
            simpa [this] using h1 L hL (by omega) hTL e
        · have : k ≠ key n := h n hn (by omega) hT
          simpa [this] using h2 fun L hL hLn => h L hL (by omega)
      · rename_i hT
        refine ⟨fun L hL hLn hTL e => ?_, fun h => h2 fun L hL hLn => h L hL (by omega)⟩
        by_cases c : L = n
        · subst c; exact absurd hTL hT
        · exact h1 L hL (by omega) hTL e)
  exact ⟨fun L hL => this.1 L hL hL, fun h => this.2 fun L hL _ => h L hL⟩

theorem State.wv_only (T : Mask) (r : Nat) (f : Nat → Word) : ChangesOnly [.vec] s (s.wv T r f) := by
  obtain ⟨v, t, h⟩ := s.grp.forLanes_setV_only T (fun L => s.vkey L r) f
  simp only [ChangesOnly, List.foldl, Part.copy, State.wv, h]

/-- A write of one register: the lanes of T hold f, and every other register word is as it was (R30, R187). -/
theorem State.wv_result (T : Mask) (r : Nat) (f : Nat → Word) :
    VecResult s (s.wv T r f) T r 1 fun L _ x => x = f L := by
  have := s.grp.forLanes_setV_get T (fun L => s.vkey L r) f (fun L M hL hM => s.vkey_lane L r M r hL hM)
  refine ⟨fun L hL hT i hi => ?_, fun k h => (this k).2 fun L hL hT => ?_⟩
  · obtain rfl : i = 0 := by omega
    exact (this _).1 L hL hT rfl
  · simpa using h L hL hT 0 (by omega)

/-! ## A pair a lane -/

theorem Group.forLanes_pair_only (g : Group) (T : Mask) (k0 k1 : Nat → Nat) (x0 x1 : Nat → Word) :
    ∃ v t, forLanes T (fun L g => (g.setV (k0 L) (x0 L)).setV (k1 L) (x1 L)) g = { g with v := v, tags := t } := by
  refine forLanes_induct (fun _ (y : Group) => ∃ v t, y = { g with v := v, tags := t }) T _ g ⟨_, _, rfl⟩ ?_
  rintro L y _ ⟨v, t, rfl⟩
  split
  · exact ⟨_, _, rfl⟩
  · exact ⟨_, _, rfl⟩

theorem Group.forLanes_pair_get (g : Group) (T : Mask) (k0 k1 : Nat → Nat) (x0 x1 : Nat → Word)
    (h00 : ∀ L M, L < 32 → M < 32 → k0 L = k0 M → L = M) (h11 : ∀ L M, L < 32 → M < 32 → k1 L = k1 M → L = M)
    (h01 : ∀ L M, L < 32 → M < 32 → inM T L = true → k0 L ≠ k1 M) (k : Nat) :
    let y := forLanes T (fun L g => (g.setV (k0 L) (x0 L)).setV (k1 L) (x1 L)) g
    (∀ L, L < 32 → inM T L = true → k = k0 L → Sparse.get 0 y.v k = x0 L) ∧
    (∀ L, L < 32 → inM T L = true → k = k1 L → Sparse.get 0 y.v k = x1 L) ∧
    ((∀ L, L < 32 → inM T L = true → k ≠ k0 L ∧ k ≠ k1 L) → Sparse.get 0 y.v k = Sparse.get 0 g.v k) := by
  have := forLanes_induct (fun n (y : Group) =>
      (∀ L, L < 32 → L < n → inM T L = true → k = k0 L → Sparse.get 0 y.v k = x0 L) ∧
      (∀ L, L < 32 → L < n → inM T L = true → k = k1 L → Sparse.get 0 y.v k = x1 L) ∧
      ((∀ L, L < 32 → L < n → inM T L = true → k ≠ k0 L ∧ k ≠ k1 L) → Sparse.get 0 y.v k = Sparse.get 0 g.v k))
    T (fun L g => (g.setV (k0 L) (x0 L)).setV (k1 L) (x1 L)) g
    ⟨fun L _ h => absurd h (by omega), fun L _ h => absurd h (by omega), fun _ => rfl⟩ (by
      rintro n y hn ⟨h1, h2, h3⟩
      split
      · rename_i hT
        refine ⟨fun L hL hLn hTL e => ?_, fun L hL hLn hTL e => ?_, fun h => ?_⟩
        · have c1 : k ≠ k1 n := e ▸ h01 L n hL hn hTL
          by_cases c : L = n
          · subst c; simp [e ▸ c1, e]
          · have : k ≠ k0 n := fun e' => c (h00 L n hL hn (e.symm.trans e'))
            simpa [this, c1] using h1 L hL (by omega) hTL e
        · by_cases c : L = n
          · subst c; simp [e]
          · have c1 : k ≠ k1 n := fun e' => c (h11 L n hL hn (e.symm.trans e'))
            have : k ≠ k0 n := fun e' => h01 n L hn hL hT (e'.symm.trans e)
            simpa [this, c1] using h2 L hL (by omega) hTL e
        · have := h n hn (by omega) hT
          simpa [this.1, this.2] using h3 fun L hL hLn => h L hL (by omega)
      · rename_i hT
        refine ⟨fun L hL hLn hTL e => ?_, fun L hL hLn hTL e => ?_, fun h => h3 fun L hL hLn => h L hL (by omega)⟩
        · by_cases c : L = n
          · subst c; exact absurd hTL hT
          · exact h1 L hL (by omega) hTL e
        · by_cases c : L = n
          · subst c; exact absurd hTL hT
          · exact h2 L hL (by omega) hTL e)
  exact ⟨fun L hL => this.1 L hL hL, fun L hL => this.2.1 L hL hL, fun h => this.2.2 fun L hL _ => h L hL⟩

theorem State.wv2_only (T : Mask) (r : Nat) (f : Nat → DWord) : ChangesOnly [.vec] s (s.wv2 T r f) := by
  obtain ⟨v, t, h⟩ := s.grp.forLanes_pair_only T (fun L => s.vkey L r) (fun L => s.vkey L (r + 1))
    (fun L => (f L).setWidth 32) (fun L => (f L >>> 32).setWidth 32)
  simp only [ChangesOnly, List.foldl, Part.copy, State.wv2, h]

/-- A write of a pair whose two names are two registers: low word first (R35, R187). -/
theorem State.wv2_result (T : Mask) (r : Nat) (f : Nat → DWord)
    (hr : ∀ L, L < 32 → inM T L = true → s.vname L r ≠ s.vname L (r + 1)) :
    VecResult s (s.wv2 T r f) T r 2 fun L i x => x = if i = 0 then (f L).setWidth 32 else (f L >>> 32).setWidth 32 := by
  have := s.grp.forLanes_pair_get T (fun L => s.vkey L r) (fun L => s.vkey L (r + 1))
    (fun L => (f L).setWidth 32) (fun L => (f L >>> 32).setWidth 32)
    (fun L M hL hM => s.vkey_lane L r M r hL hM) (fun L M hL hM => s.vkey_lane L (r + 1) M (r + 1) hL hM)
    (fun L M hL hM hT e => by
      have := s.vkey_lane L r M (r + 1) hL hM e
      subst this
      exact hr L hL hT ((s.vkey_name L r (r + 1)).1 e))
  refine ⟨fun L hL hT i hi => ?_, fun k h => (this k).2.2 fun L hL hT => ⟨h L hL hT 0 (by omega), h L hL hT 1 (by omega)⟩⟩
  obtain rfl | rfl : i = 0 ∨ i = 1 := by omega
  · exact (this _).1 L hL hT rfl
  · exact (this _).2.1 L hL hT rfl

/-! ## A predicate bit a lane -/

theorem State.wp_only (T : Mask) (p : Nat) (f : Nat → Bool) : ChangesOnly [.pred] s (s.wp T p f) := by
  have : ∃ v, forLanes T (fun L g => g.setP (s.pname L p) L (f L)) s.grp = { s.grp with p := v } := by
    refine forLanes_induct (fun _ (y : Group) => ∃ v, y = { s.grp with p := v }) T _ s.grp ⟨_, rfl⟩ ?_
    rintro L y _ ⟨v, rfl⟩
    split
    · exact ⟨_, rfl⟩
    · exact ⟨_, rfl⟩
  obtain ⟨v, h⟩ := this
  simp only [ChangesOnly, List.foldl, Part.copy, State.wp, h]

/-- A write of one predicate: the lanes of T hold f, and every other bit is as it was (R30, R187). -/
theorem State.wp_result (T : Mask) (p : Nat) (f : Nat → Bool) :
    PredResult s (s.wp T p f) T p fun L b => b = f L := by
  have key := forLanes_induct (fun n (y : Group) => ∀ q L, L < 32 →
      inM (Sparse.get 0 y.p q) L = if L < n ∧ inM T L = true ∧ q = s.pname L p then f L else s.predBit q L)
    T (fun L g => g.setP (s.pname L p) L (f L)) s.grp (fun q L _ => by simp [State.predBit]) (by
      intro n y hn ih q L hL
      by_cases hT : inM T n = true
      · rw [if_pos hT, Group.setP_p]
        by_cases hq : q = s.pname n p
        · subst hq
          rw [Sparse.get_upd_self, inM_setLane _ _ _ _ hL, ih _ L hL]
          by_cases c : L = n
          · subst c; simp [hT]
          · have : L < n + 1 ↔ L < n := by omega
            simp [c, this]
        · rw [Sparse.upd, Sparse.get_put_other _ _ _ _ _ hq, ih q L hL]
          by_cases c : L = n
          · subst c; simp [hq]
          · have : L < n + 1 ↔ L < n := by omega
            simp [this]
      · rw [if_neg hT, ih q L hL]
        by_cases c : L = n
        · subst c; simp [hT]
        · have : L < n + 1 ↔ L < n := by omega
          simp [this])
  refine ⟨fun L hL hT => ?_, fun q L hL h => ?_⟩
  · have := key (s.pname L p) L hL
    rw [if_pos ⟨hL, hT, rfl⟩] at this
    exact this
  · have := key q L hL
    rw [if_neg (by tauto)] at this
    exact this

/-! ## Uniform registers -/

theorem State.ws_only (r : Nat) (x : DWord) : ChangesOnly [.uni] s (s.ws r x) := rfl

theorem State.ws_result (r : Nat) (x : DWord) : UniResult s (s.ws r x) r x := by
  refine ⟨?_, fun q h => ?_⟩ <;> simp [State.rs, *]

theorem State.wq_only (q : Nat) (b : Bool) : ChangesOnly [.upred] s (s.wq q b) := rfl

end Sys2Proof.Machine
end

