-- ==== Sys2Proof/Laws/Ops.lean ====
section
/-! SUPPORT. What each shared operation does, said once: an instruction whose operands are ready, the consumption of hold
entries, the move to the next instruction, an operation counted. -/

namespace Sys2Proof.Machine

open Sys2Proof

variable (s : State)

/-! ## Group updates in folds -/

theorem Group.foldl_endHold_only {β : Type} (l : List β) (x : β → Nat) (g : Group) :
    ∃ h, l.foldl (fun g e => g.endHold (x e)) g = { g with holds := h } := by
  induction l generalizing g with
  | nil => exact ⟨_, rfl⟩
  | cons e l ih => obtain ⟨h, e'⟩ := ih (g.endHold (x e)); exact ⟨h, by rw [List.foldl_cons, e']; rfl⟩

/-! ## consume (R238) -/

/-- Nothing but hold entries and cached lines changes when an operand consumes its entry (R238). -/
theorem State.consume_only (T : Mask) (rd : List Opnd) : ChangesOnly [.holds, .caches] s (s.consume T rd) := by
  unfold State.consume ChangesOnly
  simp only [List.foldl, Part.copy]
  split
  · rfl
  · obtain ⟨h, e⟩ := Group.foldl_endHold_only ((s.regsOf T rd).filter fun e => s.grp.holds.any fun h => h.reg = e.2 && h.complete)
      (fun e => e.2) s.grp
    rw [e]; rfl

theorem State.consume_form (T : Mask) (rd : List Opnd) :
    ∃ h d, s.consume T rd = { s with grp := { s.grp with holds := h }, dev := d } :=
  ⟨_, _, s.consume_only T rd⟩

@[simp] theorem State.consume_blk (T : Mask) (rd : List Opnd) : (s.consume T rd).blk = s.blk := by
  obtain ⟨h, d, e⟩ := s.consume_form T rd; rw [e]

@[simp] theorem State.consume_k (T : Mask) (rd : List Opnd) : (s.consume T rd).k = s.k := by
  obtain ⟨h, d, e⟩ := s.consume_form T rd; rw [e]

@[simp] theorem State.consume_slot (T : Mask) (rd : List Opnd) : (s.consume T rd).slot = s.slot := by
  obtain ⟨h, d, e⟩ := s.consume_form T rd; rw [e]; rfl

@[simp] theorem State.consume_part (T : Mask) (rd : List Opnd) : (s.consume T rd).part = s.part := by
  obtain ⟨h, d, e⟩ := s.consume_form T rd; rw [e]; rfl

@[simp] theorem State.consume_vkey (T : Mask) (rd : List Opnd) : (s.consume T rd).vkey = s.vkey := by
  obtain ⟨h, d, e⟩ := s.consume_form T rd; rw [e]; rfl

@[simp] theorem State.consume_vname (T : Mask) (rd : List Opnd) : (s.consume T rd).vname = s.vname := by
  obtain ⟨h, d, e⟩ := s.consume_form T rd; rw [e]; rfl

@[simp] theorem State.consume_pname (T : Mask) (rd : List Opnd) : State.pname (s.consume T rd) = State.pname s := by
  obtain ⟨h, d, e⟩ := s.consume_form T rd; rw [e]; rfl

@[simp] theorem State.consume_rv (T : Mask) (rd : List Opnd) : (s.consume T rd).rv = s.rv := by
  obtain ⟨h, d, e⟩ := s.consume_form T rd; rw [e]; rfl

@[simp] theorem State.consume_rv2 (T : Mask) (rd : List Opnd) : (s.consume T rd).rv2 = s.rv2 := by
  obtain ⟨h, d, e⟩ := s.consume_form T rd; rw [e]; rfl

@[simp] theorem State.consume_rp (T : Mask) (rd : List Opnd) : (s.consume T rd).rp = s.rp := by
  obtain ⟨h, d, e⟩ := s.consume_form T rd; rw [e]; rfl

@[simp] theorem State.consume_rs (T : Mask) (rd : List Opnd) : (s.consume T rd).rs = s.rs := by
  obtain ⟨h, d, e⟩ := s.consume_form T rd; rw [e]; rfl

@[simp] theorem State.consume_rq (T : Mask) (rd : List Opnd) : (s.consume T rd).rq = s.rq := by
  obtain ⟨h, d, e⟩ := s.consume_form T rd; rw [e]; rfl

@[simp] theorem State.consume_rb (T : Mask) (rd : List Opnd) : (s.consume T rd).rb = s.rb := by
  funext L b; cases b <;> simp [State.rb]

@[simp] theorem State.consume_rb2 (T : Mask) (rd : List Opnd) : (s.consume T rd).rb2 = s.rb2 := by
  funext L b; cases b <;> simp [State.rb2]

@[simp] theorem State.consume_vec (T : Mask) (rd : List Opnd) : (s.consume T rd).vec = s.vec := by
  obtain ⟨h, d, e⟩ := s.consume_form T rd; rw [e]; rfl

@[simp] theorem State.consume_predBit (T : Mask) (rd : List Opnd) : (s.consume T rd).predBit = s.predBit := by
  obtain ⟨h, d, e⟩ := s.consume_form T rd; rw [e]; rfl

/-! ## Operands that are ready (R28, R187) -/

theorem State.withOperands_ready (T : Mask) (rd wr : List Opnd) (f : State → Res) (h : s.blocked T rd wr = none) :
    s.withOperands T rd wr f = f (s.consume T rd) := by
  simp [State.withOperands, h]

/-- A lane instruction whose operands are ready has its effect and goes on. -/
theorem State.laneOp_ready (rd wr : List Opnd) (f : State → State) (h : s.blocked s.part rd wr = none) :
    s.laneOp rd wr f = .next (f (s.consume s.part rd)).advance := s.withOperands_ready _ _ _ _ h

/-- A uniform instruction whose operands are ready has its effect and goes on. -/
theorem State.uniOp_ready (rd wr : List Opnd) (f : State → State) (h : s.blocked 1 rd wr = none) :
    s.uniOp rd wr f = .next (f (s.consume 1 rd)).advance := s.withOperands_ready _ _ _ _ h

theorem State.counted_ready (a : Bool) (T : Mask) (rd wr : List Opnd) (f : State → Res) (h : s.blocked T rd wr = none)
    (hf : s.flagFull a = false) : s.counted a T rd wr f = f (s.consume T rd) := by
  simp [State.counted, State.withOperands, h, hf]

/-- Ready operands that form pairs are named as a run (R187). -/
theorem State.ready_names (T : Mask) (rd wr : List Opnd) (h : s.blocked T rd wr = none) (hT : T ≠ 0) :
    s.badNames T (rd ++ wr) = 0 := by
  unfold State.blocked at h
  rw [if_neg hT] at h
  split at h
  · cases h
  · rename_i c
    exact eq_of_beq (by simpa [bne] using c)

theorem foldl_or_zero {β : Type} (l : List β) (f : β → Mask) (m : Mask) (h : l.foldl (fun m o => m ||| f o) m = 0) :
    m = 0 ∧ ∀ o ∈ l, f o = 0 := by
  induction l generalizing m with
  | nil => exact ⟨h, by simp⟩
  | cons e l ih =>
    obtain ⟨h1, h2⟩ := ih _ h
    have h3 : m = 0 ∧ f e = 0 := by
      constructor <;> ext i hi <;> have := congrArg (fun x => BitVec.getLsbD x i) h1 <;> simp at this <;> simp_all
    exact ⟨h3.1, by simpa using ⟨h3.2, h2⟩⟩

/-- The registers of an operand of several registers are a run from an even one (R187). -/
theorem State.badNames_run (T : Mask) (os : List Opnd) (r n : Nat) (h : s.badNames T os = 0) (hm : .v r n ∈ os) (hn : 2 ≤ n)
    (L i : Nat) (hL : L < 32) (hT : inM T L = true) (hi : i < n) : s.vname L (r + i) = s.vname L r + i := by
  have h0 : s.badRun T r n = 0 := by
    have hf : s.badNames T os = os.foldl (fun m o => m ||| match o with
        | .v r n => s.badRun T r n
        | .p _ | .s _ _ => 0) 0 := by
      unfold State.badNames
      congr 1
      funext m o
      cases o <;> simp
    rw [hf] at h
    exact (foldl_or_zero os _ 0 h).2 _ hm
  unfold State.badRun at h0
  by_cases hr : s.renamed = true
  · rw [if_neg (by simp [hr]; omega)] at h0
    have := inM_maskOf (fun L => inM T L && (s.vname L r % 2 = 1 ||
      (List.range n).any fun i => s.vname L (r + i) != s.vname L r + i)) L hL
    rw [h0, hT, Bool.true_and, show inM 0 L = false by simp [inM]] at this
    have := (Bool.or_eq_false_iff.1 this.symm).2
    rw [List.any_eq_false] at this
    simpa using this i (by simpa using hi)
  · simp [State.vname, hr]

/-- Two names of a ready pair are two registers. -/
theorem State.ready_pair (T : Mask) (rd wr : List Opnd) (r : Nat) (h : s.blocked T rd wr = none) (hm : .v r 2 ∈ rd ++ wr)
    (L : Nat) (hL : L < 32) (hT : inM T L = true) : s.vname L r ≠ s.vname L (r + 1) := by
  have hT0 : T ≠ 0 := by rintro rfl; simp [inM] at hT
  have := s.badNames_run T (rd ++ wr) r 2 (s.ready_names T rd wr h hT0) hm (by omega) L 1 hL hT (by omega)
  omega

end Sys2Proof.Machine
end

