-- ==== Sys2Proof/Laws/Lane.lean ====
section
/-! SUPPORT. What the shapes of lane and uniform instructions do once their operands are ready: the result, and that nothing
else changes; facts about bits and wrapped numbers. -/

namespace Sys2Proof.Machine

open Sys2Proof

variable (s : State)

/-! ## Results seen from before the operands were consumed -/

theorem VecResult.rebase {t u : State} {T : Mask} {d n : Nat} {P : Nat → Nat → Word → Prop} (h : VecResult t u T d n P)
    (hv : t.vec = s.vec) (hk : t.vkey = s.vkey) : VecResult s u T d n P := by
  simpa [VecResult, hv, hk] using h

theorem VecResult.mono {s u : State} {T : Mask} {d n : Nat} {P Q : Nat → Nat → Word → Prop} (h : VecResult s u T d n P)
    (hpq : ∀ L, L < 32 → ∀ i, i < n → ∀ x, P L i x → Q L i x) : VecResult s u T d n Q :=
  ⟨fun L hL hT i hi => hpq L hL i hi _ (h.1 L hL hT i hi), h.2⟩

theorem PredResult.rebase {t u : State} {T : Mask} {p : Nat} {P : Nat → Bool → Prop} (h : PredResult t u T p P)
    (hv : t.predBit = s.predBit) (hk : State.pname t = State.pname s) : PredResult s u T p P := by
  simpa [PredResult, hv, hk] using h

theorem PredResult.mono {s u : State} {T : Mask} {p : Nat} {P Q : Nat → Bool → Prop} (h : PredResult s u T p P)
    (hpq : ∀ L, L < 32 → ∀ x, P L x → Q L x) : PredResult s u T p Q :=
  ⟨fun L hL hT => hpq L hL _ (h.1 L hL hT), h.2⟩

/-! ## Shapes -/

/-- A lane instruction that writes one register. -/
theorem State.laneOp_word (rd : List Opnd) (d : VReg) (f : State → Nat → Word) (P : Nat → Word → Prop)
    (hb : s.blocked s.part rd [.v d 1] = none) (hf : ∀ L, L < 32 → P L (f (s.consume s.part rd) L)) :
    ∃ u, (s.laneOp rd [.v d 1] fun t => t.wv t.part d (f t)) = .next u.advance ∧
      ChangesOnly [.vec] (s.consume s.part rd) u ∧ VecResult s u s.part d 1 fun L _ x => P L x := by
  refine ⟨_, s.laneOp_ready rd _ _ hb, State.wv_only _ _ _ _, ?_⟩
  have := State.wv_result (s.consume s.part rd) s.part d (f (s.consume s.part rd))
  rw [State.consume_part]
  exact (VecResult.rebase s this (by simp) (by simp)).mono fun L hL i hi x h => h ▸ hf L hL

/-- A 32-bit source. -/
theorem State.lane1_word (d a : VReg) (f : Word → Word) (P : Word → Word → Prop)
    (hb : s.blocked s.part [.v a 1] [.v d 1] = none) (hf : ∀ x, P x (f x)) :
    ∃ u, s.lane1 d a f = .next u.advance ∧ ChangesOnly [.vec] (s.consume s.part [.v a 1]) u ∧
      VecResult s u s.part d 1 fun L _ x => P (s.rv L a) x :=
  s.laneOp_word _ d (fun t L => f (t.rv L a)) _ hb (by intro L _; simpa using hf _)

/-- A 32-bit source and a B operand. -/
theorem State.lane2_word (d a : VReg) (b : BOp) (f : Word → Word → Word) (P : Word → Word → Word → Prop)
    (hb : s.blocked s.part [.v a 1, opndB 1 b] [.v d 1] = none) (hf : ∀ x y, P x y (f x y)) :
    ∃ u, s.lane2 d a b f = .next u.advance ∧ ChangesOnly [.vec] (s.consume s.part [.v a 1, opndB 1 b]) u ∧
      VecResult s u s.part d 1 fun L _ x => P (s.rv L a) (s.rb L b) x :=
  s.laneOp_word _ d (fun t L => f (t.rv L a) (t.rb L b)) _ hb (by intro L _; simpa using hf _ _)

/-- A lane instruction that writes a pair. -/
theorem State.laneOp_pair (rd : List Opnd) (d : VReg) (f : State → Nat → DWord) (P : Nat → Nat → Word → Prop)
    (hb : s.blocked s.part rd [.v d 2] = none)
    (hf : ∀ L, L < 32 → P L 0 ((f (s.consume s.part rd) L).setWidth 32) ∧
      P L 1 ((f (s.consume s.part rd) L >>> 32).setWidth 32)) :
    ∃ u, (s.laneOp rd [.v d 2] fun t => t.wv2 t.part d (f t)) = .next u.advance ∧
      ChangesOnly [.vec] (s.consume s.part rd) u ∧ VecResult s u s.part d 2 P := by
  refine ⟨_, s.laneOp_ready rd _ _ hb, State.wv2_only _ _ _ _, ?_⟩
  have := State.wv2_result (s.consume s.part rd) s.part d (f (s.consume s.part rd)) (fun L hL hT => by
    simpa using s.ready_pair s.part rd [.v d 2] d hb (by simp) L hL hT)
  rw [State.consume_part]
  refine (VecResult.rebase s this (by simp) (by simp)).mono fun L hL i hi x h => ?_
  obtain rfl | rfl : i = 0 ∨ i = 1 := by omega
  · exact h ▸ (hf L hL).1
  · exact h ▸ (hf L hL).2

/-- A lane instruction that writes a predicate. -/
theorem State.laneOp_pred (rd : List Opnd) (p : PReg) (f : State → Nat → Bool) (P : Nat → Bool → Prop)
    (hb : s.blocked s.part rd [.p p] = none) (hf : ∀ L, L < 32 → P L (f (s.consume s.part rd) L)) :
    ∃ u, (s.laneOp rd [.p p] fun t => t.wp t.part p (f t)) = .next u.advance ∧
      ChangesOnly [.pred] (s.consume s.part rd) u ∧ PredResult s u s.part p P := by
  refine ⟨_, s.laneOp_ready rd _ _ hb, State.wp_only _ _ _ _, ?_⟩
  have := State.wp_result (s.consume s.part rd) s.part p (f (s.consume s.part rd))
  rw [State.consume_part]
  exact (PredResult.rebase s this (by simp) (by simp)).mono fun L hL x h => h ▸ hf L hL

/-! ## Bits and numbers -/

theorem bitOf_toNat {w : Nat} (a : BitVec w) (i : Nat) : bitOf a.toNat i = a.getLsbD i := by
  simp only [bitOf, BitVec.getLsbD, Nat.testBit_eq_decide_div_mod_eq]

theorem wrap32_toInt (i : Int) (h1 : -2147483648 ≤ i) (h2 : i < 2147483648) : (wrap32 i).toInt = i := by
  simp only [wrap32, BitVec.toInt_ofInt]
  exact Int.bmod_eq_of_le (by omega) (by omega)

end Sys2Proof.Machine
end

