-- ==== Sys2Proof/Laws/Save.lean ====
section
/-! SUPPORT. Home memory when a save area takes its bytes: the canonical form stays, and every other byte stays. -/

namespace Sys2Proof.Machine

open Sys2Proof

/-! ## Tables one after another -/

/-- A table whose keys all lie below another's is rising before it. -/
theorem Sparse.rising_append {α : Type} (s t : Table α) (lo hi : Nat) (h : lo ≤ hi) (ws : Sparse.rising lo s = true)
    (b : ∀ e, e ∈ s → e.1 < hi) (wt : Sparse.rising hi t = true) : Sparse.rising lo (s ++ t) = true := by
  induction s generalizing lo with
  | nil => exact Sparse.rising_mono t lo hi h wt
  | cons e s ih =>
    simp only [Sparse.rising, Bool.and_eq_true, decide_eq_true_eq, List.cons_append] at ws ⊢
    exact ⟨ws.1, ih _ (b e (by simp)) ws.2 fun x hx => b x (by simp [hx])⟩

/-- A rising table rises from any bound that its keys keep. -/
theorem Sparse.rising_from {α : Type} (t : Table α) (lo hi : Nat) (w : Sparse.rising lo t = true) (b : ∀ e, e ∈ t → hi ≤ e.1) :
    Sparse.rising hi t = true := by
  cases t with
  | nil => rfl
  | cons e t =>
    simp only [Sparse.rising, Bool.and_eq_true, decide_eq_true_eq] at w ⊢
    exact ⟨b e (by simp), w.2⟩

/-- The cells of consecutive bytes, those that read as an unlisted byte left out. -/
def spliceCells (lo n : Nat) (l : List Byte) : Memory :=
  (l.zipIdx n).filterMap fun e => if e.1 = Memory.empty then none else some (lo + e.2, e.1)

theorem spliceCells_mem (lo n : Nat) (l : List Byte) (e : Nat × Byte) (h : e ∈ spliceCells lo n l) :
    lo + n ≤ e.1 ∧ e.1 < lo + n + l.length ∧ e.2 ≠ Memory.empty := by
  simp only [spliceCells, List.mem_filterMap] at h
  obtain ⟨x, hx, he⟩ := h
  have hb := List.le_snd_of_mem_zipIdx hx
  have hl := List.snd_lt_add_of_mem_zipIdx hx
  split at he
  · cases he
  · rename_i hne
    cases he
    exact ⟨by simp only; omega, by simp only; omega, hne⟩

theorem spliceCells_rising (lo n : Nat) (l : List Byte) : Sparse.rising (lo + n) (spliceCells lo n l) = true := by
  induction l generalizing n with
  | nil => rfl
  | cons x l ih =>
    have h := ih (n + 1)
    by_cases hx : x = Memory.empty
    · simp only [spliceCells, List.zipIdx_cons, List.filterMap_cons, hx, if_true]
      exact Sparse.rising_mono _ _ _ (by omega) h
    · simp only [spliceCells, List.zipIdx_cons, List.filterMap_cons, hx, if_false, Sparse.rising, Bool.and_eq_true, decide_eq_true_eq]
      exact ⟨by omega, h⟩

/-- Bytes put in place at an address keep the canonical form. -/
theorem Memory.wf_splice (m : Memory) (lo : Nat) (l : List Byte) (w : Memory.wf m = true) : Memory.wf (Memory.splice m lo l) = true := by
  have hA := Memory.wf_filter m (fun c => decide (c.1 < lo)) w
  have hC := Memory.wf_filter m (fun c => decide (lo + l.length ≤ c.1)) w
  simp only [Memory.wf, Sparse.wf, Bool.and_eq_true, List.all_eq_true] at hA hC ⊢
  have hB : (l.zipIdx.filterMap fun e => if e.1 = Memory.empty then none else some (lo + e.2, e.1)) = spliceCells lo 0 l := rfl
  rw [Memory.splice, hB]
  refine ⟨?_, fun e he => ?_⟩
  · refine Sparse.rising_append _ _ 0 (lo + l.length) (by omega) (Sparse.rising_append _ _ 0 lo (by omega) hA.1 ?_ ?_) ?_ ?_
    · intro e he; simpa using (List.mem_filter.1 he).2
    · exact spliceCells_rising lo 0 l
    · intro e he
      rcases List.mem_append.1 he with he | he
      · have : e.1 < lo := by simpa using (List.mem_filter.1 he).2
        omega
      · exact (spliceCells_mem lo 0 l e he).2.1
    · exact Sparse.rising_from _ 0 _ hC.1 fun e he => by simpa using (List.mem_filter.1 he).2
  · rcases List.mem_append.1 he with he | he
    · rcases List.mem_append.1 he with he | he
      · exact hA.2 e he
      · simpa using (spliceCells_mem lo 0 l e he).2.2
    · exact hC.2 e he

/-- Storing a span of a save area keeps home memory canonical. -/
theorem storeSpan_wf (d : Dev) (b : Block) (s : Nat × Nat) (w : Memory.wf d.mem = true) : Memory.wf (storeSpan d b s).mem = true :=
  Memory.wf_splice _ _ _ w

theorem storeSpans_wf (d : Dev) (b : Block) (l : List (Nat × Nat)) (w : Memory.wf d.mem = true) :
    Memory.wf (l.foldl (fun d s => storeSpan d b s) d).mem = true := by
  induction l generalizing d with
  | nil => exact w
  | cons s l ih => exact ih _ (storeSpan_wf d b s w)

/-- So does a block that leaves its area. -/
theorem leaveArea_wf (d : Dev) (b : Block) (w : Memory.wf d.mem = true) : Memory.wf (leaveArea d b).mem = true := by
  unfold leaveArea
  split
  · exact storeSpans_wf d b _ w
  · exact w

end Sys2Proof.Machine
end

