-- ==== Sys2Proof/Tests/Slice0.lean ====
section
/-! SUPPORT. Tests of the model's own: words written out from the encoding tables of the spec, an ill-formed term for each
field rule, single steps with results taken from the rules, and for each statement with hypotheses a state and operands
that meet them. -/

set_option maxRecDepth 100000
set_option Elab.async false

namespace Sys2Proof.Tests

open Sys2Proof Sys2Proof.Machine Sys2Proof.Claims

/-! ## States for tests and witnesses -/

/-- All lanes. -/
def all32 : Mask := BitVec.allOnes 32

/-- A slot in the first instruction of a clause at 0x4000, with all lanes and a header that guards nothing. -/
def slotAt (header : Word) : Slot :=
  { pc := 0x4004, act := all32, clause := some ⟨0x4000, [header, 0, 0, 0, 0, 0, 0, 0], all32⟩ }

/-- A block with room for every register, resident on core 0. -/
def blockAt : Block :=
  { key := 0, state := .resident, shape := { vregs := 128, sregs := 64, accs := 32, scrb := 4096, groups := 1 } }

/-- A focused group whose slot 0 holds every lane: SETA and SETB 0, seven instructions. -/
def st0 : State :=
  { focused := true, grp := { slot0 := slotAt 0x70700000, live := all32 }, blk := blockAt }

/-- The same with vector registers. -/
def stV (v : Table Word) : State := { st0 with grp := { st0.grp with v := v } }

/-- The same with uniform registers. -/
def stS (v : Table DWord) : State := { st0 with grp := { st0.grp with s := v } }

/-- s5 holds x. -/
def stX (x : DWord) : State := stS [(5, x)]

/-- The same with FMT. -/
def stF (f : BitVec 16) : State := st0.onSlot fun x => { x with fmt := f }

/-- The group and slot after a step that goes on; the group before it where the step does not. -/
def grpAfter (i : Instr) (s : State) : Group :=
  match exec i s with
  | .next t => t.grp
  | .fault _ => s.grp
  | .refused _ => s.grp

/-- A page of this package at address 0 for owner 1, read, write and execute. -/
def pageAt (kind : PageKind) (pa : Nat) : Leaf := ⟨true, true, true, kind, 0, 1, pa, 2 ^ 16, 0, 0⟩
/-- st0 of owner 1 with that page in the translation cache. -/
def stMem : State :=
  { st0 with
    blk := { blockAt with shape := { blockAt.shape with owner := 1 } }
    dev := { tlb := [⟨1, 0, pageAt .ordinary 0x10000⟩] } }

/-- The answer is there and has the property. -/
def okAnd {ε α : Type} (x : Except ε α) (p : α → Bool) : Bool :=
  match x with
  | .ok a => p a
  | .error _ => false
theorem of_okAnd {ε α : Type} {x : Except ε α} {p : α → Bool} (h : okAnd x p = true) : ∃ a, x = .ok a ∧ p a = true := by
  cases x with
  | ok a => exact ⟨a, rfl, h⟩
  | error e => cases h
theorem ok_of {ε α : Type} {x : Except ε α} (h : okAnd x (fun _ => true) = true) : ∃ a, x = .ok a :=
  have ⟨a, e, _⟩ := of_okAnd h
  ⟨a, e⟩

theorem memReady_of {s : State} {setA : Bool} {a : Access} {rd wr : List Opnd} {va : Nat → Nat} (l : Leaf) (pa : Nat)
    (h : s.part ≠ 0 ∧ s.flagFull setA = false ∧ s.blocked s.part rd wr = none ∧
      (∀ L, L < 32 → va L % a.size = 0 ∧ s.rangeHit a.acc.writes false (va L) (va L + a.size) = false ∧
        s.checkVa a.acc (va L) = .ok l pa ∧ a.badSpace (.ok l pa) = false ∧ s.unsettled a (.ok l pa) = false) ∧
      (a.rel = some .sys → s.fabricBusy = false) ∧
      (a.acc.writes = true → okAnd (s.reserve (s.laneAccs a.acc s.part va)) (fun _ => true) = true) ∧
      (a.acq ≠ none → s.slot.micro = 0)) : MemReady s setA a rd wr va :=
  ⟨h.1, h.2.1, h.2.2.1, fun L hL _ => have e := h.2.2.2.1 L hL; ⟨e.1, e.2.1, l, pa, e.2.2⟩, h.2.2.2.2.1,
    fun w => ok_of (h.2.2.2.2.2.1 w), h.2.2.2.2.2.2⟩

theorem uniReady_of {s : State} {setA : Bool} {a : Access} {rd wr : List Opnd} {va : Nat} {l : Leaf} {pa : Nat}
    (h : s.flagFull setA = false ∧ s.blocked 1 rd wr = none ∧ va % a.size = 0 ∧
      s.rangeHit a.acc.writes false va (va + a.size) = false ∧ s.checkVa a.acc va = .ok l pa ∧ a.badSpace (.ok l pa) = false ∧
      s.unsettled a (.ok l pa) = false ∧ (a.acc.writes = true → okAnd (s.reserve [⟨0, va, l, pa⟩]) (fun _ => true) = true)) :
    UniReady s setA a rd wr va l pa :=
  ⟨h.1, h.2.1, h.2.2.1, h.2.2.2.1, h.2.2.2.2.1, h.2.2.2.2.2.1, h.2.2.2.2.2.2.1, fun w => ok_of (h.2.2.2.2.2.2.2 w)⟩

theorem allLocal_of {s : State} {a : Acc} {va : Nat → Nat} (l : Leaf) (pa : Nat) (ho : OwnPage l)
    (h : ∀ L, L < 32 → s.checkVa a (va L) = .ok l pa) : AllLocal s a va := by
  intro L l' pa' ⟨hL, _, e⟩
  rw [h L hL] at e
  cases e
  exact ho

theorem own_page : OwnPage (pageAt .ordinary 0x10000) := by
  refine ⟨by decide, by decide, ?_, ?_⟩ <;> decide

/-- A copy job of block 0's slot 0 that has ended its reading; it copies nothing. -/
def layoutAt : Layout :=
  { base := 0, ext := [1, 1, 1, 1, 1], str := [1, 1, 1, 1, 1], scale := 0, pad := 0, type := .n8, ilv := 1, spn := 0, scratch := false }
def cardAt : Card :=
  { src := 0, dst := 0, sorg := [0, 0, 0, 0, 0], dorg := [0, 0, 0, 0, 0], box := [1, 1, 1, 1, 1], split := 0, rm := 0, sat := false
    ow := 0, oh := 0, sx := 0, sy := 0, dx := 0, dy := 0, fw := 0, fh := 0, px := 0, py := 0 }
def jobAt : Job :=
  { id := 0, kind := .copy, engine := 0, block := 0, gidx := 0, pslot := 0, owner := 1, launch := 0, core := 0, cluster := 0
    cardAddr := 0, card := cardAt, src := layoutAt, dst := layoutAt, sel := 0, bar := 0, mode := 0, lo := [0, 0, 0, 0, 0]
    size := [1, 1, 1, 1, 1], count := 1, reads := [], writes := [] }
/-- A partition of owners 1 to 4 alone on the package, and the name of entry 0, generation 1, of package 0. -/
def partAt : Partition :=
  { part := 0, ownBase := 1, ownCnt := 4, vecBase := 0, vecCnt := 1, sidings := 16, clusters := 1, saveBase := 0x100000
    saveLen := 0x1000000, mems := [(0x10000, 0x200000)], rtBase := 0, pod := [0], digestOf := [] }
def nameAt : DWord := 1

/-! Records in memory: a record of n bytes whose fields are given by offset, width and value. -/

def recAt (n : Nat) (fs : List (Nat × Nat × Nat)) : List Byte :=
  (List.range n).map fun i => BitVec.ofNat 8 ((fs.map fun f => if f.1 ≤ i ∧ i < f.1 + f.2.1 then f.2.2 / 256 ^ (i - f.1) else 0).sum)
def cellsAt (a : Nat) (b : List Byte) : List Host.Cell := (b.zipIdx.filter fun e => e.1 != 0).map fun e => (a + e.2, e.1)

/-- A layout record of one row of 16 bytes at the address (R328). -/
def layoutBytes (base : Nat) : List Byte :=
  recAt 64 [(0, 8, base), (8, 3, 16), (11, 3, 1), (14, 3, 1), (17, 3, 1), (20, 3, 1), (0x17, 5, 1), (0x3C, 1, 5)]
/-- A card that copies that row, by the records at 0 and 0x40 (R331). -/
def cardBytes : List Byte :=
  recAt 128 [(0, 8, 0), (8, 8, 0x40), (0x30, 4, 16), (0x34, 4, 1), (0x38, 4, 1), (0x3C, 4, 1), (0x40, 4, 1)]
/-- A fork of two children on the block's die (R307), a consist of two members, die 0 of packages 0 and 1 (R359), and
the card of a reduction of 64 bytes (R362). -/
def forkBytes : List Byte := recAt 64 [(0, 8, 0x8000), (0x1E, 1, 2), (0x1F, 1, 1), (0x20, 1, 1), (0x21, 1, 8), (0x22, 1, 16)]
def consistBytes : List Byte := recAt 128 [(0, 2, 7), (2, 2, 2), (4, 4, 1000), (64, 2, 0), (66, 2, 1)]
def collBytes : List Byte := recAt 64 [(0, 2, 7), (2, 1, 0), (3, 1, 1), (4, 1, 7), (8, 4, 1), (0x10, 8, 64)]

/-- A launch of one level over a die. -/
def launchRecAt : LaunchRec :=
  { entry := 0x8000, handler := 0, args := 0, deps := [], twinq := 0, wdog := 5, levels := [⟨4, 2, false⟩], groups := 1, vregs := 8
    sregs := 16, accs := 0, prio := 0, pkeep := 0, scratch := 0, pscr := 0, strict := false, notify := false, owner := 1 }
def launchAt : Launch := { key := 0, fn := 0, q := 0, idx := 0, lr := launchRecAt, record := 0x200, done := 0x280 }

/-- stMem with those records: layouts at 0 and 0x40, the card at 0x80, the fork at 0x100, the consist at 0x140, the collective
card at 0x1C0, and s1, s2, s3, s4, s5 naming them. -/
def stRec : State :=
  { stMem with
    grp := { stMem.grp with s := [(1, 0x80), (2, 0x100), (3, 0x140), (4, 0x1C0), (5, 0)] }
    dev := { stMem.dev with
      parts := [{ partAt with pod := [0, 1] }]
      launches := [launchAt]
      mem := cellsAt 0x10000 (layoutBytes 0x8000 ++ layoutBytes 0x9000 ++ cardBytes ++ forkBytes ++ consistBytes ++ collBytes) } }

/-! ## Decoding: one word of each encodable instruction, written out field by field from the opcode table -/

theorem test_decode_class0_0 :
    decode 0x000C30CA = .ok (.iadd 24 48 (.v 101)) ∧
    decode 0x004C30CA = .ok (.isub 24 48 (.v 101)) ∧
    decode 0x008C30CA = .ok (.iadds 24 48 (.v 101)) ∧
    decode 0x00CC30CA = .ok (.iaddsn 24 48 (.v 101)) ∧
    decode 0x010C30CA = .ok (.imul 24 48 (.v 101)) ∧
    decode 0x014C30CA = .ok (.imulh 24 48 (.v 101)) ∧
    decode 0x018C3059 = .ok (.imulhn 24 48 (.s 44)) ∧
    decode 0x01CC30CA = .ok (.imin 24 48 (.v 101)) ∧
    decode 0x020C30CA = .ok (.imax 24 48 (.v 101)) ∧
    decode 0x024C30CA = .ok (.iminn 24 48 (.v 101)) ∧
    decode 0x028C30CA = .ok (.imaxn 24 48 (.v 101)) ∧
    decode 0x02CC30CA = .ok (.iabsd 24 48 (.v 101)) := by
  decide +kernel

theorem test_decode_class0_1 :
    decode 0x030C3059 = .ok (.and 24 48 (.s 44)) ∧
    decode 0x034C3059 = .ok (.or 24 48 (.s 44)) ∧
    decode 0x038C3059 = .ok (.xor 24 48 (.s 44)) ∧
    decode 0x03CC3059 = .ok (.andn 24 48 (.s 44)) ∧
    decode 0x040C3059 = .ok (.shl 24 48 (.s 44)) ∧
    decode 0x044C3059 = .ok (.shr 24 48 (.s 44)) ∧
    decode 0x048C3059 = .ok (.sar 24 48 (.s 44)) ∧
    decode 0x04CC3059 = .ok (.rotl 24 48 (.s 44)) ∧
    decode 0x050C3000 = .ok (.popc 24 48) ∧
    decode 0x054C3000 = .ok (.clz 24 48) ∧
    decode 0x054C3002 = .ok (.clzSgn 24 48) ∧
    decode 0x058C3000 = .ok (.brev 24 48) := by
  decide +kernel

theorem test_decode_class0_2 :
    decode 0x05CC3059 = .ok (.bfe 24 48 (.s 44)) ∧
    decode 0x060C30CA = .ok (.bfen 24 48 (.v 101)) ∧
    decode 0x064C3059 = .ok (.bfi 24 48 (.s 44)) ∧
    decode 0x069998CA = .ok (.icmp .lo 3 24 (.v 101)) ∧
    decode 0x080C30CA = .ok (.fadd 24 48 (.v 101)) ∧
    decode 0x084C3059 = .ok (.fsub 24 48 (.s 44)) ∧
    decode 0x088C30CA = .ok (.fmul 24 48 (.v 101)) ∧
    decode 0x08CC3059 = .ok (.fmin 24 48 (.s 44)) ∧
    decode 0x090C30CA = .ok (.fmax 24 48 (.v 101)) ∧
    decode 0x09619859 = .ok (.fcmp .ueq 3 24 (.s 44)) ∧
    decode 0x098C3000 = .ok (.fabs 24 48) ∧
    decode 0x098C3002 = .ok (.fabsH2 24 48) := by
  decide +kernel

theorem test_decode_class0_3 :
    decode 0x098C3004 = .ok (.fabsD 24 48) ∧
    decode 0x09CC3000 = .ok (.fneg 24 48) ∧
    decode 0x09CC3002 = .ok (.fnegH2 24 48) ∧
    decode 0x09CC3004 = .ok (.fnegD 24 48) ∧
    decode 0x0A0C3000 = .ok (.frnd 24 48) ∧
    decode 0x0A0C3002 = .ok (.frndD 24 48) ∧
    decode 0x0A4C30CA = .ok (.ffmad 24 48 (.v 101)) ∧
    decode 0x0A8C3059 = .ok (.fscl 24 48 (.s 44)) ∧
    decode 0x0ACC30CA = .ok (.hadd2 24 48 (.v 101)) ∧
    decode 0x0B0C3059 = .ok (.hmul2 24 48 (.s 44)) ∧
    decode 0x0B4C30CA = .ok (.hfmad2 24 48 (.v 101)) ∧
    decode 0x0B8C3059 = .ok (.hmin2 24 48 (.s 44)) := by
  decide +kernel

theorem test_decode_class0_4 :
    decode 0x0BCC30CA = .ok (.hmax2 24 48 (.v 101)) ∧
    decode 0x0C0C3059 = .ok (.dadd 24 48 (.s 44)) ∧
    decode 0x0C4C30C8 = .ok (.dmul 24 48 (.v 100)) ∧
    decode 0x0C8C3059 = .ok (.dfmad 24 48 (.s 44)) ∧
    decode 0x0CE198C8 = .ok (.dcmp .ueq 3 24 (.v 100)) ∧
    decode 0x0D0C3000 = .ok (.mov 24 48) ∧
    decode 0x0D0C3002 = .ok (.movB64 24 48) ∧
    decode 0x0D4C0015 = .ok (.movs 24 10) := by
  decide +kernel

theorem test_decode_class1_0 :
    decode 0x100C30C6 = .ok (.iaddImm 24 48 198) ∧
    decode 0x104C30C6 = .ok (.isubImm 24 48 198) ∧
    decode 0x108C30C6 = .ok (.iaddsImm 24 48 198) ∧
    decode 0x10CC30C6 = .ok (.iaddsnImm 24 48 198) ∧
    decode 0x110C30C6 = .ok (.imulImm 24 48 198) ∧
    decode 0x11CC30C6 = .ok (.iminImm 24 48 198) ∧
    decode 0x120C30C6 = .ok (.imaxImm 24 48 198) ∧
    decode 0x124C30C6 = .ok (.iminnImm 24 48 198) ∧
    decode 0x128C30C6 = .ok (.imaxnImm 24 48 198) ∧
    decode 0x130C30C6 = .ok (.andImm 24 48 198) ∧
    decode 0x134C30C6 = .ok (.orImm 24 48 198) ∧
    decode 0x138C30C6 = .ok (.xorImm 24 48 198) := by
  decide +kernel

theorem test_decode_class1_1 :
    decode 0x13CC30C6 = .ok (.andnImm 24 48 198) ∧
    decode 0x140C30C6 = .ok (.shlImm 24 48 198) ∧
    decode 0x144C30C6 = .ok (.shrImm 24 48 198) ∧
    decode 0x148C30C6 = .ok (.sarImm 24 48 198) ∧
    decode 0x14CC30C6 = .ok (.rotlImm 24 48 198) ∧
    decode 0x169998C6 = .ok (.icmpImm .lo 3 24 198) := by
  decide +kernel

theorem test_decode_class2 :
    decode 0x20C30C16 = .ok (.ffmadc 24 48 96 22) ∧
    decode 0x24C30C16 = .ok (.imuladd 24 48 96 22) ∧
    decode 0x28C30C0B = .ok (.vsel 24 48 96 true 3) ∧
    decode 0x2CC30C16 = .ok (.itadd 24 48 96 22) := by
  decide +kernel

theorem test_decode_class3 :
    decode 0x3031B2C6 = .ok (.movi 24 true 0xb2c6) ∧
    decode 0x3131B2C6 = .ok (.movk 24 true 0xb2c6) ∧
    decode 0x3230B2C6 = .ok (.movsx 24 0xb2c6) ∧
    decode 0x3330B2C6 = .ok (.movh 24 0xb2c6) := by
  decide +kernel

theorem test_decode_class4_0 :
    decode 0x40186169 = .ok (.ld 24 48 22 .b32 true) ∧
    decode 0x40986169 = .ok (.st 24 48 22 .b32 true) ∧
    decode 0x41186108 = .ok (.ldAcq 24 48 .pkg .b32) ∧
    decode 0x41986108 = .ok (.stRel 24 48 .pkg .b32) ∧
    decode 0x42186169 = .ok (.lds 24 48 22 .b32 true) ∧
    decode 0x42986169 = .ok (.sts 24 48 22 .b32 true) ∧
    decode 0x43186169 = .ok (.ldc 24 48 22 .b32 true) ∧
    decode 0x43986169 = .ok (.ldro 24 48 22 .b32 true) ∧
    decode 0x4418612A = .ok (.atomAdd 24 48 .pkg .rel true) ∧
    decode 0x4498612A = .ok (.atomMin 24 48 .pkg .rel true) ∧
    decode 0x4518612A = .ok (.atomMax 24 48 .pkg .rel true) ∧
    decode 0x4598612A = .ok (.atomMinn 24 48 .pkg .rel true) := by
  decide +kernel

theorem test_decode_class4_1 :
    decode 0x4618612A = .ok (.atomMaxn 24 48 .pkg .rel true) ∧
    decode 0x4698612A = .ok (.atomAnd 24 48 .pkg .rel true) ∧
    decode 0x4718612A = .ok (.atomOr 24 48 .pkg .rel true) ∧
    decode 0x4798612A = .ok (.atomXor 24 48 .pkg .rel true) ∧
    decode 0x4818612A = .ok (.atomExch 24 48 .pkg .rel true) ∧
    decode 0x4898612A = .ok (.atomCas 24 48 .pkg .rel true) ∧
    decode 0x49186128 = .ok (.atomFadd 24 48 .pkg .rel) ∧
    decode 0x4998612A = .ok (.redAdd 24 48 .pkg true true) ∧
    decode 0x4A186128 = .ok (.redFadd 24 48 .pkg true) ∧
    decode 0x4A98612A = .ok (.redMin 24 48 .pkg true true) ∧
    decode 0x4B18612A = .ok (.redMax 24 48 .pkg true true) ∧
    decode 0x4B98612A = .ok (.redOr 24 48 .pkg true true) := by
  decide +kernel

theorem test_decode_class4_2 :
    decode 0x4C186068 = .ok (.atomsAdd 24 48 true .rel) ∧
    decode 0x4C986068 = .ok (.atomsCas 24 48 true .rel) ∧
    decode 0x4D186068 = .ok (.atomsExch 24 48 true .rel) ∧
    decode 0x4D986068 = .ok (.atomsFadd 24 48 true .rel) ∧
    decode 0x4E003169 = .ok (.pf 24 22 .b32 true) ∧
    decode 0x4E98610A = .ok (.atomScAdd 24 48 .pkg true) ∧
    decode 0x4F18610A = .ok (.atomScExch 24 48 .pkg true) ∧
    decode 0x4F98610A = .ok (.atomScCas 24 48 .pkg true) := by
  decide +kernel

theorem test_decode_class5_0 :
    decode 0x500C30C0 = .ok (.lxgAt 24 48 96) ∧
    decode 0x504C30C0 = .ok (.lxgBack 24 48 96) ∧
    decode 0x508C30C0 = .ok (.lxgFwd 24 48 96) ∧
    decode 0x50CC30C0 = .ok (.lxgFlip 24 48 96) ∧
    decode 0x51018D00 = .ok (.gpredAny 3 true 5) ∧
    decode 0x51418D00 = .ok (.gpredAll 3 true 5) ∧
    decode 0x518C0B00 = .ok (.gpredMask 24 true 3) ∧
    decode 0x51CC3000 = .ok (.gpeerEq 24 48) ∧
    decode 0x520C3000 = .ok (.gpeerUni 24 48) ∧
    decode 0x524C3000 = .ok (.gredAdd 24 48) ∧
    decode 0x528C3000 = .ok (.gredFadd 24 48) ∧
    decode 0x52CC3002 = .ok (.gredMin 24 48 1) := by
  decide +kernel

theorem test_decode_class5_1 :
    decode 0x530C3002 = .ok (.gredMax 24 48 1) ∧
    decode 0x534C3000 = .ok (.gredAnd 24 48) ∧
    decode 0x538C3000 = .ok (.gredOr 24 48) ∧
    decode 0x53CC3000 = .ok (.gscanAdd 24 48) ∧
    decode 0x53CC3001 = .ok (.gscanAddExcl 24 48) ∧
    decode 0x540C3000 = .ok (.gscanFadd 24 48) ∧
    decode 0x540C3001 = .ok (.gscanFaddExcl 24 48) ∧
    decode 0x544C3000 = .ok (.rcp 24 48) ∧
    decode 0x548C3000 = .ok (.rsq 24 48) ∧
    decode 0x54CC3000 = .ok (.sqrt 24 48) ∧
    decode 0x550C3000 = .ok (.ex2 24 48) ∧
    decode 0x554C3000 = .ok (.lg2 24 48) := by
  decide +kernel

theorem test_decode_class5_2 :
    decode 0x558C3000 = .ok (.sin 24 48) ∧
    decode 0x55CC3000 = .ok (.cos 24 48) ∧
    decode 0x560C3000 = .ok (.tanh 24 48) ∧
    decode 0x564C30C0 = .ok (.fdiv 24 48 96) ∧
    decode 0x568C3004 = .ok (.cvtf 24 48 2) ∧
    decode 0x56CC3004 = .ok (.cvti 24 48 2) ∧
    decode 0x570C30C0 = .ok (.cvth2 24 48 96) ∧
    decode 0x574C3000 = .ok (.cvtb4 24 48) ∧
    decode 0x574C3001 = .ok (.cvtb4Q 24 48) ∧
    decode 0x578C3016 = .ok (.unpk 24 48 1 3) ∧
    decode 0x57CC3000 = .ok (.cvtdF32 24 48) ∧
    decode 0x57CC3001 = .ok (.cvtdF64 24 48) := by
  decide +kernel

theorem test_decode_class5_3 :
    decode 0x580C3004 = .ok (.cvtdfI 24 48 2) ∧
    decode 0x580C3005 = .ok (.cvtdfF 24 48 2) ∧
    decode 0x584C3000 = .ok (.qnt 24 48) ∧
    decode 0x58819D1C = .ok (.plop 3 1 true 5 true 6) ∧
    decode 0x58CC0000 = .ok (.p2v 24) ∧
    decode 0x5902982C = .ok (.v2p 5 24 22) ∧
    decode 0x5964000A = .ok (.sysv 72 5) ∧
    decode 0x59A40008 = .ok (.vmask 72 4) := by
  decide +kernel

theorem test_decode_class6 :
    decode 0x6079B2C6 = .ok (.brDiv 3 true 0x9b2c6) ∧
    decode 0x61700000 = .ok (.bmeld 3 true) ∧
    decode 0x62000000 = .ok (.emeld) ∧
    decode 0x6309B2C6 = .ok (.rejoinSet 0x9b2c6) ∧
    decode 0x64000000 = .ok (.rejoin) ∧
    decode 0x65000000 = .ok (.exit) ∧
    decode 0x66300000 = .ok (.hold 24) ∧
    decode 0x6770B2C6 = .ok (.trapP 3 true 0xb2c6) ∧
    decode 0x6800B2C6 = .ok (.bpt 0xb2c6) := by
  decide +kernel

theorem test_decode_class7 :
    decode 0x70305300 = .ok (.rstv 24 10 48) ∧
    decode 0x7130C0A0 = .ok (.coll 24 48 10) := by
  decide +kernel

theorem test_decode_class8_0 :
    decode 0x800A5AC9 = .ok (.sadd 10 22 44 (.on 4 true)) ∧
    decode 0x804A5AC9 = .ok (.ssub 10 22 44 (.on 4 true)) ∧
    decode 0x808A5AC9 = .ok (.smul 10 22 44 (.on 4 true)) ∧
    decode 0x80CA5AC9 = .ok (.smulh 10 22 44 (.on 4 true)) ∧
    decode 0x810A5AC8 = .ok (.smin 10 22 44 (.on 4 false)) ∧
    decode 0x814A5AC8 = .ok (.smax 10 22 44 (.on 4 false)) ∧
    decode 0x818A5AC8 = .ok (.sminn 10 22 44 (.on 4 false)) ∧
    decode 0x81CA5AC8 = .ok (.smaxn 10 22 44 (.on 4 false)) ∧
    decode 0x820A5AC8 = .ok (.sand 10 22 44 (.on 4 false)) ∧
    decode 0x824A5AC8 = .ok (.sor 10 22 44 (.on 4 false)) ∧
    decode 0x828A5AC8 = .ok (.sxor 10 22 44 (.on 4 false)) ∧
    decode 0x82CA5AC8 = .ok (.sshl 10 22 44 (.on 4 false)) := by
  decide +kernel

theorem test_decode_class8_1 :
    decode 0x830A5AC8 = .ok (.sshr 10 22 44 (.on 4 false)) ∧
    decode 0x834A5AC8 = .ok (.ssar 10 22 44 (.on 4 false)) ∧
    decode 0x83B22968 = .ok (.ssetp .lo 2 10 22 (.on 4 false)) ∧
    decode 0x83CA5AC5 = .ok (.ssel 10 22 44 2 true) ∧
    decode 0x840A5809 = .ok (.smov 10 22 (.on 4 true)) ∧
    decode 0x844A5808 = .ok (.spopc 10 22 (.on 4 false)) ∧
    decode 0x848A5809 = .ok (.sclz 10 22 (.on 4 true)) ∧
    decode 0x84CA5AC8 = .ok (.saddw 10 22 44 (.on 4 false)) ∧
    decode 0x850A5818 = .ok (.sgetv 10 22 true (.on 4 false)) ∧
    decode 0x854274E9 = .ok (.qlop 2 1 true 5 true 6 (.on 4 true)) ∧
    decode 0x858A0008 = .ok (.q2s 10 (.on 4 false)) ∧
    decode 0x85C02809 = .ok (.s2q 10 (.on 4 true)) := by
  decide +kernel

theorem test_decode_class9_0 :
    decode 0x900A5AC6 = .ok (.saddImm 10 22 0x2c6) ∧
    decode 0x904A5AC6 = .ok (.ssubImm 10 22 0x2c6) ∧
    decode 0x908A5AC6 = .ok (.smulImm 10 22 0x2c6) ∧
    decode 0x910A5AC6 = .ok (.sminImm 10 22 0x2c6) ∧
    decode 0x914A5AC6 = .ok (.smaxImm 10 22 0x2c6) ∧
    decode 0x918A5AC6 = .ok (.sminnImm 10 22 0x2c6) ∧
    decode 0x91CA5AC6 = .ok (.smaxnImm 10 22 0x2c6) ∧
    decode 0x920A5AC6 = .ok (.sandImm 10 22 0x2c6) ∧
    decode 0x924A5AC6 = .ok (.sorImm 10 22 0x2c6) ∧
    decode 0x928A5AC6 = .ok (.sxorImm 10 22 0x2c6) ∧
    decode 0x92CA5AC6 = .ok (.sshlImm 10 22 0x2c6) ∧
    decode 0x930A5AC6 = .ok (.sshrImm 10 22 0x2c6) := by
  decide +kernel

theorem test_decode_class9_1 :
    decode 0x934A5AC6 = .ok (.ssarImm 10 22 0x2c6) ∧
    decode 0x93B22AC6 = .ok (.ssetpImm .lo 2 10 0x2c6) ∧
    decode 0x94CA5AC6 = .ok (.saddwImm 10 22 0x2c6) := by
  decide +kernel

theorem test_decode_classA :
    decode 0xA02AB2C6 = .ok (.smovi 10 2 0xb2c6) ∧
    decode 0xA12AB2C6 = .ok (.smovk 10 2 0xb2c6) ∧
    decode 0xA228B2C6 = .ok (.smovsx 10 0xb2c6) ∧
    decode 0xA328B2C6 = .ok (.sadr 10 0xb2c6) := by
  decide +kernel

theorem test_decode_classB :
    decode 0xB089B2C6 = .ok (.bra (.on 4 false) 0x9b2c6) ∧
    decode 0xB199B2C6 = .ok (.call (.on 4 true) 0x9b2c6) ∧
    decode 0xB2800000 = .ok (.ret (.on 4 false)) ∧
    decode 0xB390000A = .ok (.brx (.on 4 true) 10) ∧
    decode 0xB482ACC6 = .ok (.loop (.on 4 false) 10 0x2cc6) := by
  decide +kernel

theorem test_decode_classC :
    decode 0xC014B5C6 = .ok (.sldB64 10 22 0x5c6) ∧
    decode 0xC094B5C6 = .ok (.sldB32 10 22 0x5c6) ∧
    decode 0xC114B5C6 = .ok (.sstB64 10 22 0x5c6) ∧
    decode 0xC194B5C6 = .ok (.sstB32 10 22 0x5c6) ∧
    decode 0xC214B5C6 = .ok (.sldc 10 22 0x5c6) ∧
    decode 0xC294B5C6 = .ok (.slds 10 22 0x5c6) ∧
    decode 0xC314B5C6 = .ok (.ssts 10 22 0x5c6) ∧
    decode 0xC394B000 = .ok (.satomAdd 10 22) ∧
    decode 0xC414B000 = .ok (.satomCas 10 22) ∧
    decode 0xC494B000 = .ok (.satomExch 10 22) := by
  decide +kernel

theorem test_decode_classD_0 :
    decode 0xD00A0106 = .ok (.srd 10 0x106) ∧
    decode 0xD04A001B = .ok (.swr 10 27) ∧
    decode 0xD0800084 = .ok (.fenceAcq 2 .pkg) ∧
    decode 0xD080008C = .ok (.fenceRel 2 .pkg) ∧
    decode 0xD0800094 = .ok (.fenceAr 2 .pkg) ∧
    decode 0xD080009B = .ok (.fenceSc 2 .die) ∧
    decode 0xD0C00004 = .ok (.fenceLayout .pkg) ∧
    decode 0xD1000004 = .ok (.icinv .pkg) ∧
    decode 0xD140B2C6 = .ok (.fmtset 0xb2c6) ∧
    decode 0xD18A0000 = .ok (.fmtsetr 10) ∧
    decode 0xD1C0B2C6 = .ok (.trap 0xb2c6) ∧
    decode 0xD2000000 = .ok (.rft) := by
  decide +kernel

theorem test_decode_classD_1 :
    decode 0xD2400000 = .ok (.yldDone) ∧
    decode 0xD2800000 = .ok (.yield) ∧
    decode 0xD2C00000 = .ok (.trig) ∧
    decode 0xD30A0000 = .ok (.nameget 10) ∧
    decode 0xD3400000 = .ok (.nameput) ∧
    decode 0xD38A0000 = .ok (.nameq 10) ∧
    decode 0xD3CA0001 = .ok (.mmap 10 true) ∧
    decode 0xD4000002 = .ok (.mclr 2) ∧
    decode 0xD44A0000 = .ok (.setmm 10) ∧
    decode 0xD48A0002 = .ok (.objRead 10 2) ∧
    decode 0xD48A000A = .ok (.objPriv 10 2) ∧
    decode 0xD4CA0000 = .ok (.objrel 10) := by
  decide +kernel

theorem test_decode_classE_0 :
    decode 0xE0000006 = .ok (.barArr 6) ∧
    decode 0xE0400006 = .ok (.barWait 6) ∧
    decode 0xE0800006 = .ok (.barSync 6) ∧
    decode 0xE0CA0006 = .ok (.barInit 10 6) ∧
    decode 0xE10A0006 = .ok (.barExpect 10 6) ∧
    decode 0xE14A5806 = .ok (.cpySlice 10 22 6) ∧
    decode 0xE18A5806 = .ok (.cpyxSlice 10 22 6) ∧
    decode 0xE1CA5806 = .ok (.mcst 10 22 6) ∧
    decode 0xE20A5806 = .ok (.lbufReg 10 22 6) ∧
    decode 0xE24A0000 = .ok (.lbufFree 10) ∧
    decode 0xE28A0000 = .ok (.lbufDrop 10) ∧
    decode 0xE2CA5AC6 = .ok (.fxfer 10 22 44 6) := by
  decide +kernel

theorem test_decode_classE_1 :
    decode 0xE30A0006 = .ok (.arrcSet 10 6) ∧
    decode 0xE3400006 = .ok (.arrcWait 6) ∧
    decode 0xE38A5800 = .ok (.collForm 10 22) ∧
    decode 0xE3CA5800 = .ok (.collWait 10 22) ∧
    decode 0xE40A0000 = .ok (.collAbort 10) ∧
    decode 0xE44A5800 = .ok (.collReform 10 22) ∧
    decode 0xE48A0000 = .ok (.fork 10) ∧
    decode 0xE4CA0000 = .ok (.joinw 10) ∧
    decode 0xE50A5800 = .ok (.vattrQ 10 22) ∧
    decode 0xE50A5801 = .ok (.vattrRsv 10 22) ∧
    decode 0xE54A5AC0 = .ok (.mxStart 10 22 44) ∧
    decode 0xE5800002 = .ok (.mbarArr 2) := by
  decide +kernel

theorem test_decode_classE_2 :
    decode 0xE5C00002 = .ok (.mbarWait 2) := by
  decide +kernel

theorem test_decode_classF_0 :
    decode 0xF01C0000 = .ok (.mxacq 1 3 false) ∧
    decode 0xF0400000 = .ok (.mxrel) ∧
    decode 0xF0A46400 = .ok (.tclm 2 17 36) ∧
    decode 0xF0C46400 = .ok (.trel 17 36) ∧
    decode 0xF1116A00 = .ok (.tld 17 6 10) ∧
    decode 0xF1116A40 = .ok (.tldSp 17 6 10) ∧
    decode 0xF16C8D00 = .ok (.mma 22 17 40) ∧
    decode 0xF1AC8D00 = .ok (.mmas 22 17 40) ∧
    decode 0xF1EC9000 = .ok (.accz 22 9) ∧
    decode 0xF22C6A00 = .ok (.accst 22 6 10) ∧
    decode 0xF26C6A00 = .ok (.accld 22 6 10) ∧
    decode 0xF2ACA632 = .ok (.mfmt 89 38 3 2) := by
  decide +kernel

theorem test_decode_classF_1 :
    decode 0xF2D16000 = .ok (.dmap 17 6) ∧
    decode 0xF3100000 = .ok (.mxbarArr 2) ∧
    decode 0xF3500000 = .ok (.mxbarWait 2) ∧
    decode 0xF39AB2C6 = .ok (.kmovi 6 2 0xb2c6) ∧
    decode 0xF3DA92C6 = .ok (.kadd 6 10 0x12c6) ∧
    decode 0xF3DAA800 = .ok (.kaddReg 6 10 4) ∧
    decode 0xF402B2C6 = .ok (.kbraKq 2 0xb2c6) ∧
    decode 0xF406B2C6 = .ok (.kbraNkq 2 0xb2c6) ∧
    decode 0xF410B2C6 = .ok (.kbra 0xb2c6) ∧
    decode 0xF426B2C6 = .ok (.kbraDec 6 0xb2c6) ∧
    decode 0xF4400000 = .ok (.mend) := by
  decide +kernel
/-! ## Well-formedness: an ill-formed term for each field rule, with the trap of R51 that the rule gives -/

theorem test_check_refuses_0 :
    Instr.check (.icmp .eq 7 0 (.v 0)) = some .illegalOperand ∧
    Instr.check (.icmpImm .eq 7 0 0) = some .illegalOperand ∧
    Instr.check (.fcmp .oeq 7 0 (.v 0)) = some .illegalOperand ∧
    Instr.check (.dcmp .oeq 7 0 (.v 0)) = some .illegalOperand ∧
    Instr.check (.dcmp .oeq 0 1 (.v 0)) = some .illegalOperand ∧
    Instr.check (.dcmp .oeq 0 0 (.v 1)) = some .illegalOperand ∧
    Instr.check (.fabsD 1 0) = some .illegalOperand ∧
    Instr.check (.fabsD 0 1) = some .illegalOperand ∧
    Instr.check (.fnegD 1 0) = some .illegalOperand ∧
    Instr.check (.fnegD 0 1) = some .illegalOperand ∧
    Instr.check (.frndD 1 0) = some .illegalOperand ∧
    Instr.check (.frndD 0 1) = some .illegalOperand ∧
    Instr.check (.dadd 1 0 (.v 0)) = some .illegalOperand ∧
    Instr.check (.dadd 0 1 (.v 0)) = some .illegalOperand ∧
    Instr.check (.dadd 0 0 (.v 1)) = some .illegalOperand ∧
    Instr.check (.dmul 1 0 (.v 0)) = some .illegalOperand ∧
    Instr.check (.dmul 0 1 (.v 0)) = some .illegalOperand ∧
    Instr.check (.dmul 0 0 (.v 1)) = some .illegalOperand ∧
    Instr.check (.dfmad 1 0 (.v 0)) = some .illegalOperand ∧
    Instr.check (.dfmad 0 1 (.v 0)) = some .illegalOperand ∧
    Instr.check (.dfmad 0 0 (.v 1)) = some .illegalOperand ∧
    Instr.check (.movB64 1 0) = some .illegalOperand ∧
    Instr.check (.movB64 0 1) = some .illegalOperand ∧
    Instr.check (.ld 0 1 0 .b32 false) = some .illegalOperand := by
  decide +kernel

theorem test_check_refuses_1 :
    Instr.check (.ld 1 0 0 .b64 false) = some .illegalOperand ∧
    Instr.check (.ld 2 0 0 .b128 false) = some .illegalOperand ∧
    Instr.check (.ldc 0 1 0 .b32 false) = some .illegalOperand ∧
    Instr.check (.ldc 1 0 0 .b64 false) = some .illegalOperand ∧
    Instr.check (.ldc 2 0 0 .b128 false) = some .illegalOperand ∧
    Instr.check (.ldro 0 1 0 .b32 false) = some .illegalOperand ∧
    Instr.check (.ldro 1 0 0 .b64 false) = some .illegalOperand ∧
    Instr.check (.ldro 2 0 0 .b128 false) = some .illegalOperand ∧
    Instr.check (.lds 1 0 0 .b64 false) = some .illegalOperand ∧
    Instr.check (.lds 2 0 0 .b128 false) = some .illegalOperand ∧
    Instr.check (.st 0 1 0 .b32 false) = some .illegalOperand ∧
    Instr.check (.st 1 0 0 .b64 false) = some .illegalOperand ∧
    Instr.check (.st 2 0 0 .b128 false) = some .illegalOperand ∧
    Instr.check (.st 0 0 0 .s8 false) = some .illegalOperand ∧
    Instr.check (.st 0 0 0 .s16 false) = some .illegalOperand ∧
    Instr.check (.sts 1 0 0 .b64 false) = some .illegalOperand ∧
    Instr.check (.sts 2 0 0 .b128 false) = some .illegalOperand ∧
    Instr.check (.sts 0 0 0 .s8 false) = some .illegalOperand ∧
    Instr.check (.ldAcq 0 1 .sys .b32) = some .illegalOperand ∧
    Instr.check (.ldAcq 1 0 .sys .b64) = some .illegalOperand ∧
    Instr.check (.ldAcq 0 0 .sys .b128) = some .illegalOperand ∧
    Instr.check (.stRel 0 1 .sys .b32) = some .illegalOperand ∧
    Instr.check (.stRel 1 0 .sys .b64) = some .illegalOperand ∧
    Instr.check (.stRel 0 0 .sys .b128) = some .illegalOperand := by
  decide +kernel

theorem test_check_refuses_2 :
    Instr.check (.stRel 0 0 .sys .s16) = some .illegalOperand ∧
    Instr.check (.pf 1 0 .b32 false) = some .illegalOperand ∧
    Instr.check (.atomAdd 0 1 .grp .rlx false) = some .illegalOperand ∧
    Instr.check (.atomAdd 1 0 .grp .rlx true) = some .illegalOperand ∧
    Instr.check (.atomMin 0 1 .grp .rlx false) = some .illegalOperand ∧
    Instr.check (.atomMin 1 0 .grp .rlx true) = some .illegalOperand ∧
    Instr.check (.atomMax 0 1 .grp .rlx false) = some .illegalOperand ∧
    Instr.check (.atomMax 1 0 .grp .rlx true) = some .illegalOperand ∧
    Instr.check (.atomMinn 0 1 .grp .rlx false) = some .illegalOperand ∧
    Instr.check (.atomMinn 1 0 .grp .rlx true) = some .illegalOperand ∧
    Instr.check (.atomMaxn 0 1 .grp .rlx false) = some .illegalOperand ∧
    Instr.check (.atomMaxn 1 0 .grp .rlx true) = some .illegalOperand ∧
    Instr.check (.atomAnd 0 1 .grp .rlx false) = some .illegalOperand ∧
    Instr.check (.atomAnd 1 0 .grp .rlx true) = some .illegalOperand ∧
    Instr.check (.atomOr 0 1 .grp .rlx false) = some .illegalOperand ∧
    Instr.check (.atomOr 1 0 .grp .rlx true) = some .illegalOperand ∧
    Instr.check (.atomXor 0 1 .grp .rlx false) = some .illegalOperand ∧
    Instr.check (.atomXor 1 0 .grp .rlx true) = some .illegalOperand ∧
    Instr.check (.atomExch 0 1 .grp .rlx false) = some .illegalOperand ∧
    Instr.check (.atomExch 1 0 .grp .rlx true) = some .illegalOperand ∧
    Instr.check (.atomCas 0 1 .grp .rlx false) = some .illegalOperand ∧
    Instr.check (.atomCas 1 0 .grp .rlx false) = some .illegalOperand ∧
    Instr.check (.atomCas 2 0 .grp .rlx true) = some .illegalOperand ∧
    Instr.check (.atomFadd 0 1 .grp .rlx) = some .illegalOperand := by
  decide +kernel

theorem test_check_refuses_3 :
    Instr.check (.redAdd 0 1 .grp false false) = some .illegalOperand ∧
    Instr.check (.redAdd 1 0 .grp false true) = some .illegalOperand ∧
    Instr.check (.redMin 0 1 .grp false false) = some .illegalOperand ∧
    Instr.check (.redMin 1 0 .grp false true) = some .illegalOperand ∧
    Instr.check (.redMax 0 1 .grp false false) = some .illegalOperand ∧
    Instr.check (.redMax 1 0 .grp false true) = some .illegalOperand ∧
    Instr.check (.redOr 0 1 .grp false false) = some .illegalOperand ∧
    Instr.check (.redOr 1 0 .grp false true) = some .illegalOperand ∧
    Instr.check (.redFadd 0 1 .grp false) = some .illegalOperand ∧
    Instr.check (.atomsCas 1 0 false .rlx) = some .illegalOperand ∧
    Instr.check (.atomScAdd 0 1 .grp false) = some .illegalOperand ∧
    Instr.check (.atomScAdd 1 0 .grp true) = some .illegalOperand ∧
    Instr.check (.atomScAdd 0 0 .sys false) = some .illegalOperand ∧
    Instr.check (.atomScExch 0 1 .grp false) = some .illegalOperand ∧
    Instr.check (.atomScExch 1 0 .grp true) = some .illegalOperand ∧
    Instr.check (.atomScExch 0 0 .sys false) = some .illegalOperand ∧
    Instr.check (.atomScCas 0 1 .grp false) = some .illegalOperand ∧
    Instr.check (.atomScCas 1 0 .grp false) = some .illegalOperand ∧
    Instr.check (.atomScCas 2 0 .grp true) = some .illegalOperand ∧
    Instr.check (.atomScCas 0 0 .sys false) = some .illegalOperand ∧
    Instr.check (.gpredAny 7 false 0) = some .illegalOperand ∧
    Instr.check (.gpredAll 7 false 0) = some .illegalOperand ∧
    Instr.check (.gredMin 0 0 3) = some .illegalInstruction ∧
    Instr.check (.gredMax 0 0 3) = some .illegalInstruction := by
  decide +kernel

theorem test_check_refuses_4 :
    Instr.check (.cvtf 0 1 2) = some .illegalOperand ∧
    Instr.check (.cvtf 0 1 3) = some .illegalOperand ∧
    Instr.check (.cvti 1 0 2) = some .illegalOperand ∧
    Instr.check (.cvti 1 0 3) = some .illegalOperand ∧
    Instr.check (.cvtb4 0 2) = some .illegalOperand ∧
    Instr.check (.cvtb4Q 0 4) = some .illegalOperand ∧
    Instr.check (.unpk 0 0 0 2) = some .illegalInstruction ∧
    Instr.check (.unpk 0 0 1 4) = some .illegalInstruction ∧
    Instr.check (.unpk 0 0 3 0) = some .illegalInstruction ∧
    Instr.check (.cvtdF32 0 1) = some .illegalOperand ∧
    Instr.check (.cvtdF64 1 0) = some .illegalOperand ∧
    Instr.check (.cvtdfI 0 1 0) = some .illegalOperand ∧
    Instr.check (.cvtdfI 1 0 2) = some .illegalOperand ∧
    Instr.check (.cvtdfF 1 0 0) = some .illegalOperand ∧
    Instr.check (.cvtdfF 0 1 2) = some .illegalOperand ∧
    Instr.check (.plop 7 0 false 0 false 0) = some .illegalOperand ∧
    Instr.check (.plop 7 3 false 0 false 0) = some .illegalOperand ∧
    Instr.check (.plop 0 3 false 0 true 0) = some .illegalInstruction ∧
    Instr.check (.plop 0 3 false 0 false 1) = some .illegalInstruction ∧
    Instr.check (.plop 0 4 false 0 false 0) = some .illegalInstruction ∧
    Instr.check (.v2p 7 0 0) = some .illegalOperand ∧
    Instr.check (.sysv 0 6) = some .illegalInstruction ∧
    Instr.check (.vmask 0 6) = some .illegalInstruction ∧
    Instr.check (.coll 0 1 0) = some .illegalOperand := by
  decide +kernel

theorem test_check_refuses_5 :
    Instr.check (.qlop 0 3 false 0 true 0 .always) = some .illegalInstruction ∧
    Instr.check (.qlop 0 3 false 0 false 1 .always) = some .illegalInstruction ∧
    Instr.check (.satomCas 1 0) = some .illegalOperand ∧
    Instr.check (.srd 0 0x00C) = some .illegalOperand ∧
    Instr.check (.srd 0 0x020) = some .illegalOperand ∧
    Instr.check (.srd 0 0x107) = some .illegalOperand ∧
    Instr.check (.srd 0 0x211) = some .illegalOperand ∧
    Instr.check (.swr 0 0x00C) = some .illegalOperand ∧
    Instr.check (.fenceAcq 0 .grp) = some .illegalOperand ∧
    Instr.check (.fenceRel 0 .grp) = some .illegalOperand ∧
    Instr.check (.fenceAr 0 .grp) = some .illegalOperand ∧
    Instr.check (.fenceSc 0 .grp) = some .illegalOperand ∧
    Instr.check (.fenceSc 1 .sys) = some .illegalOperand ∧
    Instr.check (.mclr 0) = some .illegalInstruction ∧
    Instr.check (.collWait 1 0) = some .illegalOperand ∧
    Instr.check (.mxacq 0 1 true) = some .illegalInstruction ∧
    Instr.check (.tclm 0 1 63) = some .illegalOperand ∧
    Instr.check (.trel 1 63) = some .illegalOperand ∧
    Instr.check (.tld 0 0 1) = some .illegalOperand ∧
    Instr.check (.tldSp 0 0 1) = some .illegalOperand ∧
    Instr.check (.mmas 0 0 63) = some .illegalOperand ∧
    Instr.check (.accst 0 0 1) = some .illegalOperand ∧
    Instr.check (.accld 0 0 1) = some .illegalOperand ∧
    Instr.check (.mfmt 0 0 9 0) = some .illegalInstruction := by
  decide +kernel

theorem test_check_refuses_6 :
    Instr.check (.mfmt 0 0 0 9) = some .illegalInstruction ∧
    Instr.check (.dmap 63 0) = some .illegalOperand := by
  decide +kernel

/-- 02, worked example: the words of the clause at 0x4000 decode to the instructions of the listing. -/
theorem test_worked_clause :
    decode 0x00028312 = .ok (.iadd 5 3 (.v 9)) ∧ decode 0x100306FD = .ok (.iaddImm 6 6 (-3)) ∧
    decode 0x08040505 = .ok (.fadd 8 5 (.s 2)) ∧ decode 0x90041010 = .ok (.saddImm 4 4 16) := by
  decide +kernel

/-- 02, table of neighbouring words: each is refused with the trap of the table. -/
theorem test_worked_refusals :
    decode 0x00008181 = .error .illegalOperand ∧ decode 0x18010201 = .error .illegalInstruction ∧
    decode 0x0D800000 = .error .illegalInstruction ∧ decode 0x0C02030C = .error .illegalOperand ∧
    slotInstr {} false 0xF0000000 = .error .illegalInstruction := by
  decide +kernel

/-- 02, worked example: the header is legal; with COUNT 0, and with SETA 15 beside a counted `ld`, it is not (R23). -/
theorem test_worked_headers :
    headerLegal [0x104FF000, 0x00028312, 0x100306FD, 0x08040505, 0x90041010, 0, 0, 0] = true ∧
    headerLegal [0x700FF000, 0, 0, 0, 0, 0, 0, 0] = false ∧
    headerLegal [0x702FF000, 0x00028312, 0x40000000, 0, 0, 0, 0, 0] = false := by
  decide +kernel
/-! ## Witnesses: hypotheses that hold together -/

theorem witness_IntegerMembersWriteTheirResult :
    IntOp .iadd (fun a b x => x = a + b) ∧ st0.blocked st0.part [.v 127 1, opndB 1 (.v 0)] [.v 127 1] = none ∧
    st0.blocked st0.part [.v 0 1, opndB 1 (.s 63)] [.v 0 1] = none ∧ IntOp .sar Sar ∧
    IntImm .imaxnImm (·.setWidth 32) Imaxn ∧ st0.blocked st0.part [.v 127 1] [.v 127 1] = none :=
  ⟨.iadd, by decide +kernel, by decide +kernel, .sar, .imaxn, by decide +kernel⟩

theorem witness_LaneMovesAndFieldsWriteTheirResult :
    (∃ P, LaneWord (.bfi 1 2 (.v 3)) [.v 2 1, opndB 1 (.v 3), .v 1 1] 1 P) ∧
    st0.blocked st0.part [.v 2 1, opndB 1 (.v 3), .v 1 1] [.v 1 1] = none ∧
    (∃ P, LaneWord (.p2v 127) [.p 0, .p 1, .p 2, .p 3, .p 4, .p 5, .p 6, .p 7] 127 P) ∧
    st0.blocked st0.part [.p 0, .p 1, .p 2, .p 3, .p 4, .p 5, .p 6, .p 7] [.v 127 1] = none ∧
    st0.blocked st0.part [.v 126 2] [.v 126 2] = none :=
  ⟨⟨_, .bfi ..⟩, by decide +kernel, ⟨_, .p2v ..⟩, by decide +kernel, by decide +kernel⟩

theorem witness_LanePredicateMembersWriteTheirBit :
    (∃ P, LanePred (.icmp .hs 6 127 (.s 63)) [.v 127 1, opndB 1 (.s 63)] 6 P) ∧
    st0.blocked st0.part [.v 127 1, opndB 1 (.s 63)] [.p 6] = none :=
  ⟨⟨_, .icmp ..⟩, by decide +kernel⟩

theorem witness_FloatArithmeticRoundsOnce :
    (∃ r, FloatWord (.ffmad 1 2 (.v 3)) [.v 2 1, opndB 1 (.v 3), .v 1 1] 1 r) ∧
    st0.blocked st0.part [.v 2 1, opndB 1 (.v 3), .v 1 1] [.v 1 1] = none ∧
    (∃ r, FloatPair (.dfmad 126 2 (.v 4)) [.v 2 2, opndB 2 (.v 4), .v 126 2] 126 r) ∧
    st0.blocked st0.part [.v 2 2, opndB 2 (.v 4), .v 126 2] [.v 126 2] = none :=
  ⟨⟨_, .ffmad ..⟩, by decide +kernel, ⟨_, .dfmad ..⟩, by decide +kernel⟩

theorem witness_FloatSelectionsAndComparisonsRaiseNothing :
    (∃ P, FloatMove (.fabsD 126 0) [.v 0 2] 126 2 P) ∧ st0.blocked st0.part [.v 0 2] [.v 126 2] = none ∧
    (∃ P, FloatCompare (.dcmp .uno 6 0 (.v 2)) [.v 0 2, opndB 2 (.v 2)] 6 P) ∧
    st0.blocked st0.part [.v 0 2, opndB 2 (.v 2)] [.p 6] = none :=
  ⟨⟨_, .fabsD ..⟩, by decide +kernel, ⟨_, .dcmp ..⟩, by decide +kernel⟩

theorem witness_RoundToIntegralReadsTheMode :
    fmtRM st0.slot.fmt = some .rne ∧ st0.blocked st0.part [.v 0 1] [.v 127 1] = none ∧
    st0.blocked st0.part [.v 0 2] [.v 126 2] = none ∧
    ReadsRM (.frnd 1 0) ∧ ReadsRM (.qnt 1 0) ∧ (∃ f, fmtRM (stF f).slot.fmt = none) :=
  ⟨by decide +kernel, by decide +kernel, by decide +kernel, .frnd .., .counted .rne _ _ _ _ _ (.qnt ..), by decide +kernel⟩

theorem witness_ConversionsIssueTheirResult :
    (∃ r, Exact (.fdiv 1 2 3) [.v 2 1, .v 3 1] 1 1 r) ∧ st0.blocked st0.part [.v 2 1, .v 3 1] [.v 1 1] = none ∧
    (∃ r, Exact (.unpk 127 0 1 3) [.v 0 1] 127 1 r) ∧ st0.flagFull true = false ∧
    (∃ P, Rounded .rne (.cvtb4Q 1 120) (eachV 120 8) 1 1 P) ∧ st0.blocked st0.part (eachV 120 8) [.v 1 1] = none ∧
    fmtRM st0.slot.fmt = some .rne :=
  ⟨⟨_, .fdiv ..⟩, by decide +kernel, ⟨_, .unpk ..⟩, by decide +kernel, ⟨_, .cvtb4Q ..⟩, by decide +kernel, by decide +kernel⟩

theorem witness_GroupOperationsIssueTheirResult :
    MembersOk st0 ∧ (∃ P, GroupWord (.lxgFlip 1 2 3) [.v 2 1, .v 3 1] 1 P) ∧
    st0.blocked st0.part [.v 2 1, .v 3 1] [.p 7, .v 1 1] = none ∧ st0.flagFull true = false ∧
    (∃ P, GroupPoll (.gpredAny 6 true 0) [.p 0] 6 P) ∧ st0.blocked st0.part [.p 0] [.p 7, .p 6] = none ∧
    (∃ r f, GroupSum (.gscanFadd 1 2) 1 2 r f) ∧ st0.blocked st0.part [.v 2 1] [.p 7, .v 1 1] = none :=
  ⟨.inr (by decide +kernel), ⟨_, .lxgFlip ..⟩, by decide +kernel, by decide +kernel, ⟨_, .any ..⟩, by decide +kernel,
    ⟨_, _, .gscanFadd ..⟩, by decide +kernel⟩

/-- st0 with MM of lane 0 alone, so that lanes outside MM take part. -/
def stMM : State := st0.onGrp fun g => { g with mm := 1 }

theorem witness_MemberMaskTrapsFirst :
    (∃ rd d P, GroupWord (.gredAdd 1 2) rd d P) ∧ (∃ rd n P, GroupPoll (.gpredAll 0 false 7) rd n P) ∧
    (∃ d a r f, GroupSum (.gredFadd 1 2) d a r f) ∧ ¬ MembersOk stMM :=
  ⟨⟨_, _, _, .gredAdd ..⟩, ⟨_, _, _, .all ..⟩, ⟨_, _, _, _, .gredFadd ..⟩, by unfold MembersOk; decide +kernel⟩

theorem witness_LaneCodesIssueTheirValue :
    (∃ P, LaneCode (.sysv 127 5) 127 P) ∧ (∃ P, LaneCode (.vmask 0 5) 0 P) ∧
    st0.blocked st0.part [] [.p 7, .v 127 1] = none ∧ st0.flagFull true = false ∧
    (∃ w, w / 2 ^ 28 = 5 ∧ w / 2 ^ 22 % 2 ^ 6 = 0x25 ∧ w / 2 ^ 8 % 2 ^ 7 = 0 ∧ w % 2 = 0 ∧ w / 2 % 2 ^ 7 = 5) ∧
    ∃ w, w / 2 ^ 28 = 5 ∧ w / 2 ^ 22 % 2 ^ 6 = 0x26 ∧ w / 2 % 2 ^ 7 = 6 :=
  ⟨⟨_, .path ..⟩, ⟨_, .mm ..⟩, by decide +kernel, by decide +kernel, ⟨0x5940000A, by decide⟩, ⟨0x5980000C, by decide⟩⟩

theorem witness_UniformMembersWriteTheirResult :
    GuardHolds st0 .always ∧ GuardHolds st0 (.on 6 true) ∧ UniOp2 .smulh Smulh ∧
    st0.blocked 1 [.s 63 1, .s 0 1] [.s 63 1] = none ∧ UniImm .sshrImm (·.setWidth 64) Sshr ∧
    st0.blocked 1 [.s 63 1] [.s 0 1] = none ∧ (∃ P, UniOne (.sclz 1 2) [.s 2 1] 1 P) ∧
    st0.blocked 1 [.s 2 1] [.s 1 1] = none ∧ (∃ P, UniFree (.smovk 63 3 0xFFFF) [.s 63 1] 63 P) ∧
    st0.blocked 1 [.s 63 1] [.s 63 1] = none :=
  ⟨trivial, by unfold GuardHolds; decide +kernel, .smulh, by decide +kernel, .sshr, by decide +kernel, ⟨_, .sclz ..⟩,
    by decide +kernel, ⟨_, .smovk ..⟩, by decide +kernel⟩

theorem witness_UniformPredicateMembersWriteTheirBit :
    (∃ P, UniPred (.ssetp .hs 7 0 63) [.s 0 1, .s 63 1] 7 P) ∧ GuardHolds st0 .always ∧
    st0.blocked 1 [.s 0 1, .s 63 1] [] = none ∧ st0.blocked 1 [.s 63 1] [] = none :=
  ⟨⟨_, .ssetp ..⟩, trivial, by decide +kernel, by decide +kernel⟩

theorem witness_FailedGuardHasNoEffect :
    Guarded (.s2q 3) ∧ Guarded (fun g => .loop g 3 4) ∧ ¬ GuardHolds st0 (.on 0 false) :=
  ⟨.s2q .., .loop .., by unfold GuardHolds; decide +kernel⟩

/-! Control flow: stD has p0 in the lower sixteen lanes, stU is an undivergent slot in its clause's last slot. -/

def stD : State := st0.onGrp fun g => { g with p := [(0, 0x0000FFFF)] }
def lower : Mask := 0x0000FFFF
/-- The other slot holds a path. -/
def stTwo : State := stD.onGrp fun g => { g with slot1 := { pc := 0x8004, act := 0 } }
def stBoth : State := (stD.onSlot fun x => { x with act := 0x00FFFFFF }).onGrp fun g =>
  { g with slot1 := { pc := 0x8004, act := 0xFF000000 } }
/-- A split stack of 64 entries. -/
def fullStack : List Path := List.replicate 64 { pcw := 0x9000, act := 0x80000000 }
def stFull : State := stBoth.onGrp fun g => { g with stack := fullStack }

theorem witness_SlotsMoveAndKeepAllElse :
    st0.slotIdx < st0.lastIdx ∧ st0.slotIdx = 1 ∧ st0.lastIdx = 7 ∧
    ∃ s : State, s.slot.due.tables = [.install false false 1 2] :=
  ⟨by decide +kernel, by decide +kernel, by decide +kernel,
    st0.onSlot fun x => { x with due := { tables := [.install false false 1 2] } }, by decide +kernel⟩

theorem witness_BranchesGoToTheirTarget :
    GuardHolds st0 .always ∧ st0.blocked 1 [] [.s 63 1] = none ∧ st0.blocked 1 [.s 63 1] [] = none ∧
    st0.rs 63 &&& 31 = 0 ∧ (stS [(63, 4)]).rs 63 &&& 31 ≠ 0 ∧ (stS [(63, 4)]).blocked 1 [.s 63 1] [] = none ∧
    st0.blocked 1 [.s 5 1] [.s 5 1] = none ∧ (stS [(5, 1)]).rs 5 - 1 = 0 :=
  ⟨trivial, by decide +kernel, by decide +kernel, by decide +kernel, by decide +kernel, by decide +kernel, by decide +kernel,
    by decide +kernel⟩

theorem witness_DivergenceSplitsTheSlot :
    stD.inRegion = false ∧ stD.blocked stD.part [.p 0] [] = none ∧ Chosen stD 0 false lower ∧ lower ≠ 0 ∧
    lower ≠ stD.slot.act ∧ (stD.grp.slot (!stD.k)).act = 0 ∧ Chosen stD 1 false 0 ∧
    Chosen stD 1 true all32 ∧ all32 = stD.slot.act ∧
    Chosen stBoth 0 false lower ∧ (stBoth.grp.slot (!stBoth.k)).act ≠ 0 ∧ stBoth.grp.stack.length < 64 ∧
    Chosen stFull 0 false lower ∧ (stFull.grp.slot (!stFull.k)).act ≠ 0 ∧ 64 ≤ stFull.grp.stack.length ∧
    stFull.inRegion = false ∧ lower ≠ stFull.slot.act := by
  unfold Chosen; decide +kernel

/-- A frame that waits for all lanes at the clause in execution; the slot holds the lower ones. -/
def frame : Path := { pcw := 0x4000, rjm := all32, waiting := true }
def stRj (other : Mask) (a : Mask) (below : List Path) : State :=
  (st0.onSlot fun x => { x with act := lower }).onGrp fun g =>
    { g with slot1 := { act := other }, stack := below ++ [{ frame with act := a }] }

theorem arrives_stRj (o a : Mask) (below : List Path) :
    Topmost (ArrivesAt (stRj o a below)) (stRj o a below).grp.stack below { frame with act := a } [] := by
  refine ⟨rfl, ⟨⟨rfl, ?_⟩, ?_⟩, by simp⟩
  · show lower &&& ~~~ all32 = 0
    decide
  · show (0x4000 : DWord) = (0x4004 : DWord) &&& ~~~ 31#64
    decide

theorem witness_RejoinGathersTheLanesOfItsFrame :
    (st0.inRegion = false ∧ st0.grp.stack.length < 64) ∧ (stFull.inRegion = false ∧ 64 ≤ stFull.grp.stack.length) ∧
    (∀ f, f ∈ st0.grp.stack → ¬ ArrivesAt st0 f) ∧
    (∀ o a below, Topmost (ArrivesAt (stRj o a below)) (stRj o a below).grp.stack below { frame with act := a } []) ∧
    ({ frame with act := 0xFFFF0000 } : Path).act ||| (stRj 0 0xFFFF0000 []).slot.act = frame.rjm ∧
    (∃ lo x up, Topmost (Encloses frame.rjm) [frame] lo x up) ∧ (∀ x, x ∈ ([] : List Path) → ¬ Encloses frame.rjm x) ∧
    (frame.act ||| (stRj 0xFFFF0000 0 []).slot.act ≠ frame.rjm ∧
      ((stRj 0xFFFF0000 0 []).grp.slot true).act ≠ 0) ∧
    (frame.act ||| (stRj 0 0 []).slot.act ≠ frame.rjm ∧ ((stRj 0 0 []).grp.slot true).act = 0 ∧
      ∀ y, y ∈ (stRj 0 0 []).grp.stack.drop (stRj 0 0 []).grp.stackBase → y.waiting = true) :=
  ⟨by decide +kernel, by decide +kernel, fun f h => by simp [st0] at h, arrives_stRj, by decide +kernel,
    ⟨[], frame, [], rfl, ⟨rfl, by decide +kernel⟩, by simp⟩, by simp, by decide +kernel, by decide +kernel⟩

/-- An open region whose path B has the upper lanes; MELD of the clause m. -/
def stM (m : Nat) : State :=
  (st0.onSlot fun _ => slotAt (BitVec.ofNat 32 (0x70700000 + m * 2 ^ 24))).onGrp fun g =>
    { g with meld := { bmask := 0xFFFF0000, active := true } }

theorem witness_MeldingTakesEffectAfterTheClause :
    (stD.grp.meld.active = false ∧ stD.blocked stD.part [.p 0] [] = none ∧ Chosen stD 0 false lower) ∧
    (stM 0).grp.meld.active = true ∧ ((stM 1).inRegion = true ∧ (stM 1).meldField < 2) ∧
    ((stM 2).inRegion = true ∧ 2 ≤ (stM 2).meldField) ∧ st0.inRegion = false ∧
    st0.blocked 1 [.s 7 1] [] = none ∧ (∀ j, j < 4 → badEntry st0.blk.shape.vregs (mapEntry (st0.rs 7) j) = false) ∧
    (∃ j, j < 4 ∧ badEntry st0.blk.shape.vregs (mapEntry ((stS [(7, 1)]).rs 7) j) = true) := by
  unfold Chosen
  exact ⟨by decide +kernel, by decide +kernel, by decide +kernel, by decide +kernel, by decide +kernel, by decide +kernel,
    by decide +kernel, 0, by decide +kernel⟩

theorem witness_ModeWritesChangeOneRegister :
    st0.pathOnly = false ∧ (stM 2).pathOnly = true ∧ st0.blocked 1 [.s 9 1] [] = none ∧ (st0.rs 9).toNat < 2 ^ 16 ∧
    2 ^ 16 ≤ ((stS [(9, 0x10000)]).rs 9).toNat ∧ ((stS [(9, 0x10000)]).rs 9).toNat < 2 ^ 32 ∧
    2 ^ 32 ≤ ((stS [(9, 0x100000000)]).rs 9).toNat ∧ (stS [(9, 0x100000000)]).blocked 1 [.s 9 1] [] = none := by
  decide +kernel

theorem witness_TrapInstructionsTrap :
    st0.blocked st0.part [.p 1] [] = none ∧ Chosen st0 1 false 0 ∧ Chosen stD 0 false lower ∧ lower ≠ 0 ∧
    (stM 0).part ≠ 0 ∧ (st0.onSlot fun x => { x with act := 0 }).part = 0 := by
  unfold Chosen; decide +kernel

/-- An operation in flight that flag 0 counts. -/
def busy : Pend := { id := 0, setA := true, flag := 0, slot := 0 }
def stBusy : State := st0.onGrp fun g => { g with pend := [busy], flags := [(0, 1)] }

theorem witness_TrapEntrySavesTheContext :
    stBusy.grp.pend ≠ [] ∧ (∃ s : State, s.grp.pend = [] ∧ s.grp.ctx.inh = false ∧ s.blk.shape.handler ≠ 0) :=
  ⟨by decide +kernel, { st0 with blk := { blockAt with shape := { blockAt.shape with handler := 0x8000 } } }, by decide +kernel⟩

/-- A handler that a trap entered, with cause c. -/
def stH (c : BitVec 8) : State := st0.onGrp fun g => { g with
  ctx := { slot0 := { pcw := 0x5004, act := lower }, slot1 := { pcw := 0x6004, act := ~~~ lower }, inh := true }
  trap := { cause := c, pc := 0x5004 } }

theorem witness_ReturnRestoresTheContext :
    st0.grp.ctx.inh = false ∧ ((stH 1).grp.ctx.inh = true ∧ (stH 1).grp.pend = []) ∧
    (let s := (stH 1).onGrp fun g => { g with pend := [busy] }; s.grp.ctx.inh = true ∧ s.grp.pend ≠ []) ∧
    ((stH 1).grp.ctx.slot0.act &&& (stH 1).grp.live ≠ 0 ∧ (stH 1).grp.ctx.slot1.act &&& (stH 1).grp.live ≠ 0) ∧
    ((stH cPREEMPT).grp.ctx.inh = true ∧ (stH cPREEMPT).grp.trap.cause = cPREEMPT) ∧ (stH 1).grp.trap.cause ≠ cPREEMPT := by
  decide +kernel

/-- The record of a fork of two children on the cluster's package, without log or traps. -/
def forkRecAt : ForkRec :=
  { entry := 0x8000, args := 0, log := 0, scratch := 0, logn := 0, nch := 2, domain := 0, groups := 1, vregs := 8
    sregs := 16, accs := 0, trapc := false, trapx := false }

/-- The open fork of block 0, with two children. -/
def forkAt : Fork := { block := 0, owner := 0, launch := 0, fr := forkRecAt }

theorem witness_ExitEndsTheLanesTakingPart :
    (st0.part ≠ 0 ∧ st0.report (fun r => decide (r.bit < 2) || st0.ownAccess r) = none ∧ st0.lastOfFork st0.part = false) ∧
    (∃ s : State, s.part ≠ 0 ∧ s.report (fun r => decide (r.bit < 2) || s.ownAccess r) = none ∧ s.lastOfFork s.part = true) ∧
    (∃ s : State, s.part ≠ 0 ∧ s.lastOfFork s.part = false ∧ s.slot.act &&& ~~~ s.part ≠ 0) :=
  ⟨by decide +kernel, ⟨{ st0 with dev := { forks := [forkAt] } }, by decide +kernel⟩,
    ⟨st0.onSlot fun x => { x with clause := x.clause.map fun c => { c with lanes := lower } }, by decide +kernel⟩⟩

/-- Eight hold entries. -/
def stEight : State := st0.onGrp fun g => { g with holds := (List.range 8).map fun i => ⟨i + 8, true, 1, 0, 0, 0⟩ }

theorem witness_HoldNotesTheLanes :
    (st0.onSlot fun x => { x with act := 0 }).part = 0 ∧ st0.part ≠ 0 ∧
    (∀ L, L < 32 → inM st0.part L = true → st0.vname L 5 = 5) ∧ (∀ h, h ∈ st0.grp.holds → h.reg ≠ 5) ∧
    st0.grp.holds.length < 8 ∧
    ((∀ h, h ∈ stEight.grp.holds → h.reg ≠ 5) ∧ 8 ≤ stEight.grp.holds.length) ∧
    ((⟨5, true, 1, 1, 0, 0⟩ : Hold).complete = true ∧ (⟨5, false, 0, 1, 0, 0⟩ : Hold).complete = false ∧
      (⟨5, true, 3, 1, 0, 0⟩ : Hold).complete = false) ∧
    ∃ s : State, ∃ L M, L < 32 ∧ M < 32 ∧ inM s.part L = true ∧ inM s.part M = true ∧ s.vname L 5 ≠ s.vname M 5 :=
  ⟨by decide +kernel, by decide +kernel, by decide +kernel, by decide +kernel, by decide +kernel, by decide +kernel,
    by decide +kernel, (stM 1).onGrp fun g => { g with mapB := [(5, 9)] }, 0, 31, by decide +kernel⟩

theorem witness_LoadsReadTheirBytes :
    LoadRow (.ld 124 0 0 .b128 false) (.plain false) none 124 0 0 .b128 ∧
    MemReady stMem true { acc := .read, size := 16, acq := none } [.v 0 2] [.v 124 4] (stMem.gva 0 0 .b128) ∧
    LoadRow (.ldAcq 126 0 .sys .b64) (.plain false) (some .sys) 126 0 0 .b64 ∧
    MemReady stMem true { acc := .read, size := 8, acq := some .sys } [.v 0 2] [.v 126 2] (stMem.gva 0 0 .b64) ∧
    LandsAt stMem .read (stMem.gva 0 0 .b128) 31 (pageAt .ordinary 0x10000) 0x10000 ∧
    (pageAt .ordinary 0x10000).kind ≠ .view ∧ 112 % 128 + 16 ≤ 128 :=
  ⟨.ld .., memReady_of (pageAt .ordinary 0x10000) 0x10000 (by decide +kernel), .ldAcq ..,
    memReady_of (pageAt .ordinary 0x10000) 0x10000 (by decide +kernel), by unfold LandsAt; decide +kernel, by decide,
    by decide⟩

theorem witness_StoresWriteTheirBytes :
    StoreRow (.stRel 126 0 .sys .b64) (some .sys) 126 0 0 .b64 ∧
    MemReady stMem false { acc := .write, size := 8, rel := some .sys } [.v 0 2, .v 126 2] [] (stMem.gva 0 0 .b64) ∧
    AllLocal stMem .write (stMem.gva 0 0 .b64) ∧ StoresAt stMem (stMem.gva 0 0 .b64) 8 31 7 0x10007 ∧
    (∀ M j, 31 < M → ¬ StoresAt stMem (stMem.gva 0 0 .b64) 8 M j 0x10007) :=
  ⟨.stRel .., memReady_of (pageAt .ordinary 0x10000) 0x10000 (by decide +kernel),
    allLocal_of _ 0x10000 own_page (by decide +kernel),
    ⟨by decide, pageAt .ordinary 0x10000, 0x10000, by unfold LandsAt; decide +kernel, by decide⟩,
    fun M j h e => by obtain ⟨_, l, p, ⟨hM, _⟩, _⟩ := e; omega⟩

/-- No byte is poisoned where no sector is. -/
theorem noPoison_of {s : State} {d : Dev} {va : Nat → Nat} {n pa : Nat} {l : Leaf}
    (h : ∀ L, L < 32 → s.checkVa .atomic (va L) = .ok l pa) (hp : poisoned d pa n = false) : NoPoison s d va n := by
  intro L l' pa' ⟨hL, _, e⟩
  rw [h L hL] at e
  cases e
  exact hp

theorem witness_AtomicsPerformAtTheHome :
    AtomRow (.atomScCas 124 0 .pkg true) .cas true .pkg .ar true 124 0 ∧
    MemReady stMem true (atomAccess .cas true .pkg .ar true) [.v 0 2, .v 124 (atomRegs .cas (atomBytes true))]
      [.v 124 (atomBytes true / 4)] (stMem.gva 0 0 .x8) ∧
    AllLocal stMem .atomic (stMem.gva 0 0 .x8) ∧
    NoPoison stMem (released stMem [.v 0 2, .v 124 (atomRegs .cas (atomBytes true))] (ordRel .ar .pkg)) (stMem.gva 0 0 .x8) 8 :=
  ⟨.scCas .., memReady_of (pageAt .ordinary 0x10000) 0x10000 (by decide +kernel),
    allLocal_of _ 0x10000 own_page (by decide +kernel),
    noPoison_of (l := pageAt .ordinary 0x10000) (pa := 0x10000) (by decide +kernel) (by decide +kernel)⟩

theorem witness_ReductionsPerformAtTheHome :
    RedRow (.redMax 126 0 .sys true true) .max true .sys true 126 0 ∧
    MemReady stMem false (atomAccess .max true .sys .rel false) [.v 0 2, .v 126 2] [] (stMem.gva 0 0 .x8) ∧
    AllLocal stMem .atomic (stMem.gva 0 0 .x8) ∧
    NoPoison stMem (released stMem [.v 0 2, .v 126 2] (some .sys)) (stMem.gva 0 0 .x8) 8 :=
  ⟨.max .., memReady_of (pageAt .ordinary 0x10000) 0x10000 (by decide +kernel),
    allLocal_of _ 0x10000 own_page (by decide +kernel),
    noPoison_of (l := pageAt .ordinary 0x10000) (pa := 0x10000) (by decide +kernel) (by decide +kernel)⟩

/-- Offsets at the last 16 and the last 4 bytes of the scratchpad. -/
def stTop : State := stV ((List.range 32).map fun L => (L, 4080))

theorem witness_ScratchpadMembersActOnTheBlockBytes :
    ScratchReady stTop true false 16 [.v 0 1] [.v 124 4] (stTop.sof 0 0 .b128) ∧
    (∀ L, L < 32 → inM stTop.part L = true → stTop.blk.spoison (stTop.sof 0 0 .b128 L).toNat 16 = false) ∧
    ScratchReady stTop false true 8 [.v 0 1, .v 126 2] [] (stTop.sof 0 1 .b64) ∧
    ScratchAtom .atomsCas .cas ∧ ScratchReady stTop true true 4 [.v 0 1, .v 126 (atomRegs .cas 4)] [.v 126 1] (stTop.sof 0 0 .x8) ∧
    (orderSensitive .cas = true → stTop.blk.shape.strict = true → stTop.alone = true) ∧
    (∀ L, L < 32 → inM stTop.part L = true → stTop.blk.spoison (stTop.sof 0 0 .x8 L).toNat 4 = false) :=
  ⟨by unfold ScratchReady; decide +kernel, by decide +kernel, by unfold ScratchReady; decide +kernel, .cas,
    by unfold ScratchReady; decide +kernel, by decide +kernel, by decide +kernel⟩

/-- All lanes at address 1 of the page, and at the first offset past the scratchpad. -/
def stOdd : State := { stMem with grp := { stMem.grp with v := (List.range 32).map fun L => (L, 1) } }
def stPast : State := stV ((List.range 32).map fun L => (L, 4096))
/-- A page of host memory, where no atomic goes. -/
def stHost : State := stMem.onDev fun d => { d with tlb := [⟨1, 0, pageAt .ordinary (2 ^ 39)⟩] }

theorem witness_FailedChecksTrapBeforeAnyLaneActs :
    (∃ b a rd wr va, LaneGlobal (.ld 2 0 0 .b32 false) b a rd wr va) ∧
    (stOdd.part ≠ 0 ∧ stOdd.flagFull true = false ∧ stOdd.blocked stOdd.part [.v 0 2] [.v 2 1] = none ∧
      (∀ L, L < 32 → (inM all32 L = true ↔ inM stOdd.part L = true ∧ stOdd.gva 0 0 .b32 L % 4 ≠ 0)) ∧ all32 ≠ 0) ∧
    (∃ b a rd wr va, LaneGlobal (.atomAdd 2 0 .sys .rlx false) b a rd wr va) ∧
    (∀ L, L < 32 → (inM all32 L = true ↔ inM stHost.part L = true ∧ (atomAccess .add false .sys .rlx false).badSpace
      (stHost.checkVa .atomic (stHost.gva 0 0 .x8 L)) = true)) ∧
    (∀ L, L < 32 → stHost.gva 0 0 .x8 L % 4 = 0 ∧ stHost.checkVa .atomic (stHost.gva 0 0 .x8 L) = .ok (pageAt .ordinary (2 ^ 39)) (2 ^ 39)) ∧
    (stPast.blocked stPast.part [.v 0 1] [.v 2 1] = none ∧
      ∀ L, L < 32 → stPast.sof 0 0 .b32 L % 4 = 0 ∧ (inM all32 L = true ↔ inM stPast.part L = true ∧
        (stPast.sof 0 0 .b32 L < 0 ∨ stPast.blk.shape.scrb < stPast.sof 0 0 .b32 L + sizeBytes .b32))) ∧
    (∃ b a rd wr va, LaneGlobal (.ldAcq 2 0 .sys .b32) b a rd wr va ∧ a.acq = some .sys) ∧
    (stMem.onSlot fun x => { x with micro := 1 }).slot.micro ≠ 0 :=
  ⟨⟨_, _, _, _, _, .load _ _ _ _ _ _ _ (.ld ..)⟩, by decide +kernel, ⟨_, _, _, _, _, .atomic _ _ _ _ _ _ _ _ (.add ..)⟩,
    by decide +kernel, by decide +kernel, by decide +kernel, ⟨_, _, _, _, _, .load _ _ _ _ _ _ _ (.ldAcq ..), rfl⟩,
    by decide +kernel⟩

theorem witness_PrefetchChangesNoByte : stMem.blocked stMem.part [.v 126 2] [] = none := by decide +kernel

theorem witness_UniformMemoryActsOnceForTheSlot :
    UniLoad .sldc .constant 8 ∧ (pageAt .ordinary 0x10000).kind ≠ .remote ∧ OwnPage (pageAt .ordinary 0x10000) ∧
    UniReady stMem true { acc := .read, size := 8 } [.s 63 1] [.s 62 1] (stMem.uva 63 1 8) (pageAt .ordinary 0x10000) 0x10008 ∧
    UniStore .sstB32 4 ∧
    UniReady stMem false { acc := .write, size := 4 } [.s 63 1, .s 62 1] [] (stMem.uva 63 3 4) (pageAt .ordinary 0x10000) 0x1000C ∧
    UniAtom .satomCas .cas ∧
    UniReady stMem true (atomAccess .cas true .pkg .rlx false) [.s 63 1, .s 62 2] [.s 62 1] (stMem.uva 63 0 8)
      (pageAt .ordinary 0x10000) 0x10000 ∧
    poisoned (dropLine stMem.dev stMem.blk.core stMem.blk.cluster (0x10000 / 128)) 0x10000 8 = false ∧
    (let s := stS [(63, 1)]; s.flagFull true = false ∧ s.blocked 1 [.s 63 1] [.s 62 1] = none ∧ s.uva 63 0 8 % 8 ≠ 0) := by
  exact ⟨.const, by decide, own_page, uniReady_of (by decide +kernel), .b32, uniReady_of (by decide +kernel), .cas,
    uniReady_of (by decide +kernel), by decide +kernel, by decide +kernel⟩

theorem witness_UniformScratchpadMembersActOnce :
    st0.uof 9 511 = ((4088 : Nat) : Int) ∧ 4088 % 8 = 0 ∧ 4088 + 8 ≤ st0.blk.shape.scrb ∧ st0.flagFull true = false ∧
    st0.blocked 1 [.s 9 1] [.s 62 1] = none ∧ st0.rangeHit false true 4088 4096 = false ∧ st0.blk.spoison 4088 8 = false ∧
    st0.flagFull false = false ∧ st0.blocked 1 [.s 9 1, .s 62 1] [] = none ∧ st0.rangeHit true true 4088 4096 = false := by
  decide +kernel

/-- The block's shape changed. -/
def State.withShape (s : State) (f : Shape → Shape) : State := s.onBlk fun b => { b with shape := f b.shape }

theorem witness_SystemRegistersReadTheirValue :
    (∃ f, SysRead (0x018 + 7) f) ∧ st0.blocked 1 [] [.s 63 1] = none ∧ (st0.blk.shape.strict = true → 0x019 ≠ 0x008) ∧
    (∃ f, SysRead 0x101 f) ∧ st0.slotBusy = false ∧
    (State.withShape st0 fun x => { x with strict := true }).blk.shape.strict = true ∧ stBusy.slotBusy = true :=
  ⟨⟨_, .lext 7 (by decide)⟩, by decide +kernel, by decide +kernel, ⟨_, .fpstat⟩, by decide +kernel, by decide +kernel,
    by decide +kernel⟩

theorem witness_SystemRegistersTakeTheirWrites :
    (SysWhole 0x100 0xFFFFFFFFFFFF0000 .fmt ∧ SwrReady st0 3 0x100 ∧ st0.rs 3 &&& 0xFFFFFFFFFFFF0000 = 0 ∧ st0.pathOnly = false) ∧
    (SysWhole (0x20A + 3) 0 .trap ∧ SwrReady (stH 1) 3 0x20D) ∧
    (SwrReady st0 3 0x118 ∧ st0.rs 3 &&& 0xFFFFFFFF8000F800 = 0) ∧ SwrReady st0 3 0x105 ∧ SwrReady st0 3 0x106 ∧
    SwrReady (stH 1) 3 0x210 ∧ st0.blocked 1 [.s 3 1] [] = none ∧ st0.grp.ctx.inh = false ∧
    (SysWhole 0x201 3 .trap ∧ (stS [(3, 1)]).rs 3 &&& 3 ≠ 0) ∧ (stM 3).pathOnly = true ∧ (stM 3).blocked 1 [.s 3 1] [] = none := by
  unfold SwrReady
  exact ⟨⟨.fmt, by decide +kernel⟩, ⟨.s 3 (by decide), by decide +kernel⟩, by decide +kernel, by decide +kernel,
    by decide +kernel, by decide +kernel, by decide +kernel, by decide +kernel, ⟨.pc, by decide +kernel⟩, by decide +kernel,
    by decide +kernel⟩

/-- A remote operation and a job of the slot. -/
def stFab : State := st0.onGrp fun g => { g with pend := [{ busy with ext := true, setA := false }] }
def stJob : State := st0.onDev fun d => { d with jobs := [jobAt] }

theorem witness_FencesOrderAtTheirScope :
    (∃ f, FenceRow (.fenceSc 7 .pkg) 7 f 1) ∧ st0.report (fenceRaises st0 7) = none ∧ FenceOpen st0 7 ∧
    (bitOf (7 : Fin 8) 2 = true ∧ stFab.fabricBusy = true) ∧
    (¬ (bitOf (2 : Fin 8) 2 = true ∧ stJob.fabricBusy = true) ∧ bitOf (2 : Fin 8) 1 = true ∧ stJob.slotJobs = true) ∧
    st0.remoteStores .sys = false ∧ stFab.remoteStores .sys = true ∧ st0.remoteReads = false ∧
    (st0.onGrp fun g => { g with pend := [{ busy with ext := true, setA := true }] }).remoteReads = true := by
  refine ⟨⟨_, .sc ..⟩, by decide +kernel, ?_, by decide +kernel, by decide +kernel, by decide +kernel, by decide +kernel,
    by decide +kernel, by decide +kernel⟩
  unfold FenceOpen
  decide +kernel

/-- A dirty byte of cluster 0 outside every object. -/
def dirtyAt : Dirty := { cluster := 0, sector := 0x800, key := 1, since := 0, bytes := [(31, 0x5A)] }
def devDirty : Dev := { dirty := [dirtyAt] }

theorem witness_AcquireDropsAndReleaseWritesBack :
    dirtyAt ∈ devDirty.dirty ∧ dirtyAt.cluster = 0 ∧ isHost (32 * dirtyAt.sector) = false ∧
    (∀ o, o ∈ devDirty.objs → o.cluster = 0 → o.priv = true → inObj o (dirtyAt.sector / 4) dirtyAt.key = false) ∧
    devDirty.dirty.Pairwise (fun y z => y.sector ≠ z.sector) ∧ (dirtyAt.bytes.map Prod.fst).Nodup ∧
    (31, 0x5A) ∈ dirtyAt.bytes ∧ 31 < 32 :=
  ⟨by decide +kernel, by decide, by decide +kernel, fun o h => by simp [devDirty] at h, by decide +kernel, by decide +kernel,
    by decide +kernel, by decide⟩

theorem witness_ObjectsEndByTheirRecord :
    st0.blocked 1 [.s 4 1] [] = none ∧ (∀ o, o ∈ st0.dev.objs → ¬ (o.block = st0.blk.key ∧ o.recAddr = st0.rs 4)) :=
  ⟨by decide +kernel, fun o h => by simp [st0] at h⟩


theorem witness_NamesAreTakenAndGivenUp :
    st0.blocked 1 [] [.s 4 1] = none ∧ st0.grp.pname = 0 ∧ (0 < 2 ^ 22 ∧ st0.dev.pkg < 1024 ∧
      (Sparse.get {} st0.dev.names 0).state = .free) ∧
    (∃ n : DWord, n ≠ 0 ∧ nameGen n ≠ 0 ∧ nameHome n = 0) ∧
    (st0.blocked 1 [.s 4 1] [.s 4 1] = none ∧ badName st0.dev st0.blk.shape.owner (st0.rs 4) = true) ∧
    (∃ s : State, s.blocked 1 [.s 4 1] [.s 4 1] = none ∧ badName s.dev s.blk.shape.owner (s.rs 4) = false ∧
      s.blk.shape.strict = false ∧ nameHome (s.rs 4) = s.dev.pkg ∧ s.chain = []) ∧
    (∃ s : State, s.blocked 1 [.s 4 1] [.s 4 1] = none ∧ badName s.dev s.blk.shape.owner (s.rs 4) = false ∧
      s.blk.shape.strict = false ∧ nameHome (s.rs 4) ≠ s.dev.pkg ∧ nameHome s.grp.pname ≠ s.dev.pkg ∧ s.grp.pname ≠ 0) ∧
    ∃ s : State, badName s.dev s.blk.shape.owner (s.rs 4) = false ∧ s.blk.shape.strict = true :=
  ⟨by decide +kernel, by decide, by decide +kernel, ⟨nameAt, by decide +kernel⟩, by decide +kernel,
    ⟨{ stMem with grp := { stMem.grp with s := [(4, nameAt)] }, dev := { parts := [partAt] } }, by decide +kernel⟩,
    ⟨{ stMem with grp := { stMem.grp with s := [(4, 2 ^ 38 + 1)], pname := 2 ^ 38 + 1 },
                  dev := { parts := [{ partAt with pod := [0, 1] }] } }, by decide +kernel⟩,
    { State.withShape stMem (fun x => { x with strict := true }) with
        grp := { stMem.grp with s := [(4, nameAt)] }, dev := { parts := [partAt] } }, by decide +kernel⟩

theorem witness_TriggerMarksTheGroup :
    st0.blk.child = none ∧ st0.fabricBusy = false ∧ st0.grp.triggered = false ∧ stFab.fabricBusy = true ∧
    (let s := st0.onBlk fun b => { b with child := some ⟨0, 0, 1, 2, 0⟩ }
     s.blk.child.isSome = true) ∧
    (∃ s : State, s.blk.child = none ∧ s.fabricBusy = false ∧ s.grp.triggered = false ∧
      ∃ g, g ∈ s.blk.groups ∧ g.triggered = false ∧ g.ended = false) :=
  ⟨by decide, by decide +kernel, by decide, by decide +kernel, by decide +kernel,
    st0.onBlk fun b => { b with groups := [{ idx := 1 }] }, by decide +kernel, by decide +kernel, by decide, { idx := 1 }, by decide +kernel⟩

/-- Barrier 15 expects e arrivals and has a; with bytes due, or BROKEN. -/
def stBar (x : Bar) : State := st0.onBlk fun b => { b with bars := [(15, x)] }

theorem witness_NamedBarriersCountTheirGroups :
    (BarOpen (stBar { expect := 1 }) 15 ∧ (stBar { expect := 1 }).report (stBar { expect := 1 }).ownAccess = none ∧
      ((stBar { expect := 1 }).blk.bar 15).arrived + 1 = ((stBar { expect := 1 }).blk.bar 15).expect) ∧
    (BarOpen (stBar { expect := 2 }) 15 ∧
      ((stBar { expect := 2 }).blk.bar 15).arrived + 1 ≠ ((stBar { expect := 2 }).blk.bar 15).expect) ∧
    ((stBar { expect := 2, arr := 1 }).breaks 15 = false ∧ inM ((stBar { expect := 2, arr := 1 }).blk.bar 15).arr 0 = true) ∧
    (st0.report (fun r => r.bit = 1 && r.bar = 15) = none ∧ st0.breaks 15 = false ∧
      Sparse.get 0 st0.grp.barPhase 15 ≠ (st0.blk.bar 15).phase.toNat + 1) ∧
    (let s := st0.onGrp fun g => { g with barPhase := [(15, 1)] }
     Sparse.get 0 s.grp.barPhase 15 = (s.blk.bar 15).phase.toNat + 1) ∧
    (st0.slot.micro = 0 ∧ st0.report (fun r => st0.ownAccess r || (r.bit = 1 && r.bar = 15)) = none) ∧
    (let s := st0.onSlot fun x => { x with micro := 1 }
     s.slot.micro ≠ 0 ∧ s.report (fun r => r.bit = 1 && r.bar = 15) = none) ∧
    ((stBar { broken := true }).grp.reports = [] ∧ (stBar { broken := true }).breaks 15 = true) := by
  unfold BarOpen
  decide +kernel

theorem witness_NamedBarriersAreSetUp :
    st0.blocked 1 [.s 5 1] [] = none ∧ (0 < ((stX 1024).rs 5).toNat ∧ ((stX 1024).rs 5).toNat ≤ 1024 ∧
      (stX 1024).barBusy 15 = false) ∧ 1024 < ((stX 1025).rs 5).toNat ∧ (st0.rs 5).toNat = 0 ∧
    (st0.blk.bar 15).pending + ((stX 134217727).rs 5).toInt = 2 ^ 27 - 1 ∧
    (st0.blk.bar 15).pending + ((stX (-134217728)).rs 5).toInt = -(2 ^ 27) ∧
    2 ^ 27 - 1 < (st0.blk.bar 15).pending + ((stX 134217728).rs 5).toInt ∧
    (let s := stBar { expect := 1, arrived := 1, pending := 4 }; (s.blk.bar 15).pending - 4 = 0 ∧
      (s.blk.bar 15).arrived = (s.blk.bar 15).expect) := by
  decide +kernel

theorem witness_MatrixBarriersCountTheirGroups :
    (st0.report st0.ownAccess = none ∧ inM (st0.blk.mbar 7).arr st0.grp.idx = false ∧ st0.grp.idx < 32 ∧
      st0.liveAll &&& ~~~ setLane (st0.blk.mbar 7).arr st0.grp.idx true = 0 ∧ st0.blk.seq.run = false) ∧
    (let s := st0.onBlk fun b => { b with groups := [{ idx := 1, live := 1 }] }
     s.liveAll &&& ~~~ setLane (s.blk.mbar 7).arr s.grp.idx true ≠ 0) ∧
    (let s := st0.onBlk fun b => { b with mbars := [(7, { arr := 1 })] }; inM (s.blk.mbar 7).arr s.grp.idx = true) ∧
    (st0.report (fun r => r.bit = 0) = none ∧ Sparse.get 0 st0.grp.mbarPhase 7 ≠ (st0.blk.mbar 7).phase.toNat + 1) ∧
    (let s := st0.onGrp fun g => { g with mbarPhase := [(7, 1)] }
     Sparse.get 0 s.grp.mbarPhase 7 = (s.blk.mbar 7).phase.toNat + 1) := by
  decide +kernel

/-! Commands of a group -/

/-- The state after n bytes at va are read on a page by path v. -/
def State.afterRead (s : State) (v : Via) (va n : Nat) (l : Leaf) (pa : Nat) : State :=
  { s with dev := (loadAt (keepLeaf s.dev s.blk.shape.owner va l) s.who v l va pa n).1 }
theorem lineRead_of {s : State} {v : Via} {va n pa : Nat} {l : Leaf} {b : List Byte}
    (h : s.hasRead va n = none ∧ s.checkVa .read va = .ok l pa ∧ l.kind ≠ .remote ∧
      (loadAt (keepLeaf s.dev s.blk.shape.owner va l) s.who v l va pa n).2 = (b, false)) :
    LineRead s v va n b (State.afterRead s v va n l pa) :=
  ⟨h.1, l, pa, _, h.2.1, h.2.2.1, Prod.ext rfl h.2.2.2, rfl⟩
/-- The page of stRec. -/
def recPage : Leaf := pageAt .ordinary 0x10000

theorem witness_RecordsAreReadThroughTheirCache :
    stRec.hasRead 0x80 128 = none ∧ stRec.checkVa .read 0x80 = .ok (pageAt .ordinary 0x10000) 0x10080 ∧ (pageAt .ordinary 0x10000).kind ≠ .remote ∧
    (loadAt stRec.dev stRec.who .record (pageAt .ordinary 0x10000) 0x80 0x10080 128).2 = (cardBytes, false) ∧
    (let s := stRec.onDev fun d => { d with bad := [(0x10080 / 32, true)] }
     (loadAt s.dev s.who .record (pageAt .ordinary 0x10000) 0x80 0x10080 64).2.2 = true) := by
  decide +kernel

theorem witness_ObjectsAreDeclaredOverTheirSpan :
    stRec.blocked 1 [.s 5 1] [] = none ∧ (stRec.rs 5).toNat % 64 = 0 ∧ ((stS [(5, 32)]).rs 5).toNat % 64 ≠ 0 ∧
    ∃ e : State × List Byte, stRec.onceRead 0 0 64 = .ok e ∧ ∃ r : Layout, parseLayout e.2 = .ok r ∧ r.scratch = false ∧
      e.1.onceBlocks 0 (blocks64 (r.span r.whole).1 (r.span r.whole).2) (vaOf (r.span r.whole).1) = none ∧
      (r.span r.whole).2 - 1 - (r.span r.whole).1 < 4 * 2 ^ 20 ∧
      (∀ l, l ∈ e.1.objectLines (blocks64 (r.span r.whole).1 (r.span r.whole).2 + 1) (vaOf (r.span r.whole).1 / 128)
        ((vaOf (r.span r.whole).1 + ((r.span r.whole).2 - (r.span r.whole).1).toNat + 127) / 128) → l.1.kind = .ordinary) := by
  refine ⟨by decide +kernel, by decide +kernel, by decide +kernel, ?_⟩
  obtain ⟨e, he, h⟩ := of_okAnd (show okAnd (stRec.onceRead 0 0 64) (fun e => okAnd (parseLayout e.2) fun r => decide (r.scratch = false ∧
      e.1.onceBlocks 0 (blocks64 (r.span r.whole).1 (r.span r.whole).2) (vaOf (r.span r.whole).1) = none ∧
      (r.span r.whole).2 - 1 - (r.span r.whole).1 < 4 * 2 ^ 20 ∧
      (∀ l, l ∈ e.1.objectLines (blocks64 (r.span r.whole).1 (r.span r.whole).2 + 1) (vaOf (r.span r.whole).1 / 128)
        ((vaOf (r.span r.whole).1 + ((r.span r.whole).2 - (r.span r.whole).1).toNat + 127) / 128) → l.1.kind = .ordinary))) = true
    by decide +kernel)
  obtain ⟨r, hr, h⟩ := of_okAnd h
  exact ⟨e, he, r, hr, of_decide_eq_true h⟩

theorem witness_JobCommandsReleaseOneJob :
    JobRow .cpySlice .copy ∧ CommandReady stRec [.s 1 1, .s 5 1] [] ∧
    ∃ c x y t, JobReady stRec .copy (stRec.rs 1) (stRec.rs 5) c x y t ∧ c.split < 5 := by
  refine ⟨.copy, by unfold CommandReady; decide +kernel, ?_⟩
  obtain ⟨⟨t', c⟩, he, h⟩ := of_okAnd (show okAnd (stRec.readCard .copy (stRec.rs 1)) (fun e => okAnd (e.1.readRecords .copy e.2) fun r =>
    decide ((r.1.jobChecks .copy (stRec.rs 1) e.2 r.2.1 r.2.2 (selectOf .copy r.1 (stRec.rs 5).toNat)).isNone = true ∧
      r.1.rangeFree = true ∧ e.2.split < 5)) = true by decide +kernel)
  obtain ⟨⟨t, x, y⟩, hr, h⟩ := of_okAnd h
  have h := of_decide_eq_true h
  exact ⟨c, x, y, t, ⟨⟨t', he, hr⟩, by simpa using h.1, h.2.1⟩, h.2.2⟩

/-- A launch with a die level, and a channel 3 of it on which block 0 is registered. -/
def chanAt : Channel := { id := 9, launch := 0, level := 0, inst := 0, ch := 3, len := 128, members := [0] }
def bufAt : LBuf := { chan := 9, sel := 0x10003, off := 0, len := 128, bar := 0, mode := 1, free := false }
/-- s1 names channel c in mode 1, s2 the channel in mode 0, s3 the last 128 bytes of the scratchpad, s4 a level that is not. -/
def stChan (c : Nat) : State :=
  { st0 with
    grp := { st0.grp with s := [(1, BitVec.ofNat 64 (0x10000 + c)), (2, BitVec.ofNat 64 c), (3, 0x8000000F80), (4, 0x10100)] }
    blk := { blockAt with lbufs := [bufAt] }
    dev := { launches := [launchAt], channels := [chanAt] } }
/-- A multicast of the channel that has performed and owes block 0 an arrival. -/
def castAt : Job := { jobAt with kind := .multicast, chan := 9, performed := true, arrivals := [(0, 0)] }

theorem witness_LandingBuffersAreRegistered :
    ((stChan 4).blocked 1 [.s 1 1, .s 3 1] [] = none ∧ (stChan 4).chanLegal ((stChan 4).rs 1).toNat [1, 2] = true ∧
      (stChan 4).findChan ((stChan 4).rs 1).toNat = none ∧ bufferLegal ((stChan 4).rs 3).toNat (stChan 4).blk.shape.scrb = true ∧
      (((stChan 4).rs 3).extractLsb' 32 20).toNat = 128 ∧ (stChan 4).blk.lbufs.length < 8) ∧
    ((stChan 4).blocked 1 [.s 4 1, .s 3 1] [] = none ∧ (stChan 4).chanLegal ((stChan 4).rs 4).toNat [1, 2] = false) ∧
    ((stChan 3).blocked 1 [.s 2 1] [] = none ∧ (stChan 3).chanLegal ((stChan 3).rs 2).toNat [0] = true ∧
      (stChan 3).findChan ((stChan 3).rs 2).toNat = some chanAt ∧ (stChan 3).member chanAt = true ∧
      (stChan 3).blk.lbufs = [] ++ bufAt :: [] ∧ bufAt.chan = chanAt.id ∧ (stChan 3).delivering chanAt = false) ∧
    ((stChan 3).onDev fun d => { d with jobs := [castAt] }).delivering chanAt = true ∧
    ((stChan 4).chanLegal ((stChan 4).rs 2).toNat [0] = true ∧ (stChan 4).findChan ((stChan 4).rs 2).toNat = none) := by
  decide +kernel

/-- s6 the name of entry 0 here, s7 a descriptor of 64 bytes at offset 0, s8 a name of a package outside the pod. -/
def stName : State :=
  { stRec with grp := { stRec.grp with s := [(5, 0), (6, nameAt), (7, 0x4000000), (8, 0xFFC000000001)] } }

theorem witness_RemoteStoresAndTransfersAreSent :
    CommandReady stName [.s 6 1] [] ∧ stName.blocked stName.part [.v 3 1] [] = none ∧ stName.part ≠ 0 ∧
    badName stName.dev stName.blk.shape.owner (stName.rs 6) = false ∧
    stName.accessBusy = false ∧ nameHome (stName.rs 6) = stName.dev.pkg ∧
    (let s := stName.onSlot fun x => { x with act := 0 }
     s.part = 0 ∧ CommandReady s [.s 6 1] []) ∧
    CommandReady stName [.s 6 1, .s 5 1, .s 7 1] [] ∧ (stName.xferChecks (stName.rs 6) (stName.rs 5) (stName.rs 7)).isNone = true ∧
    stName.rangeHit false false (stName.rs 5).toNat ((stName.rs 5).toNat + ((stName.rs 7).extractLsb' 20 20).toNat) = false ∧
    stName.accessBusy = false ∧ CommandReady stName [.s 8 1] [] ∧ badName stName.dev stName.blk.shape.owner (stName.rs 8) = true ∧
    CommandReady stName [.s 8 1, .s 5 1, .s 7 1] [] := by
  unfold CommandReady
  decide +kernel

/-- Counter 15 holds c against t, and s5 holds x. -/
def stCnt (c t : Nat) (x : DWord) : State := (stX x).onBlk fun b => { b with counters := [(15, { count := c, target := t })] }

theorem witness_ArrivalCountersAreSetAndAwaited :
    CommandReady (stCnt 0 0 5) [.s 5 1] [] ∧ ((stCnt 0 0 0x100000000).rs 5).extractLsb' 32 30 ≠ 0 ∧
    (((stCnt 1 2 0x4000000000000000).rs 5).extractLsb' 32 30 = 0 ∧ ((stCnt 1 2 0x4000000000000000).rs 5).getLsbD 62 = true ∧
      ((stCnt 1 2 0x4000000000000000).rs 5).getLsbD 63 = false ∧ ((stCnt 1 2 0x4000000000000000).blk.counter 15).count <
        ((stCnt 1 2 0x4000000000000000).blk.counter 15).target) ∧
    (((stCnt 2 2 0x4000000000000000).blk.counter 15).target ≤ ((stCnt 2 2 0x4000000000000000).blk.counter 15).count ∧
      ((stCnt 2 2 0).blk.counter 15).target ≠ 0) ∧ ((stCnt 0 0 5).blk.counter 15).target = 0 ∧
    ((stCnt 0 0 5).onSlot fun x => { x with micro := 1 }).slot.micro = 1 ∧ (stCnt 0 0 5).slot.micro ≠ 1 := by
  unfold CommandReady
  decide +kernel

/-- A formation that has answered with status 0, for a group that waits for it; and one that goes on. -/
def stForm (st : Option Nat) : State :=
  (stRec.onSlot fun x => { x with micro := 1 }).onDev fun d => { d with formDone := [⟨0, 0, 0, 7, st⟩] }

theorem witness_FormationsReturnTheirStatus :
    CommandReady stRec [.s 3 1] [.s 9 1] ∧ (CommandReady (stForm (some 0)) [.s 3 1] [.s 9 1] ∧ (stForm (some 0)).slot.micro = 1 ∧
      (stForm (some 0)).formResult = some ⟨0, 0, 0, 7, some 0⟩) ∧ (stForm none).formResult = some ⟨0, 0, 0, 7, none⟩ ∧
    stRec.slot.micro ≠ 1 ∧ ∃ t rec, ConsistReads stRec false (stRec.rs 3) rec t ∧
      (formStatus t.notRestartable.dev stRec.blk.shape.owner rec).2 = none := by
  refine ⟨by unfold CommandReady; decide +kernel, by unfold CommandReady; decide +kernel, by decide +kernel, by decide +kernel, ?_⟩
  let u := State.afterRead stRec (.plain false) 0x140 64 recPage 0x10140
  let w := u.noteRead 0x140 (consistBytes.take 64)
  refine ⟨(State.afterRead w (.plain false) 0x180 4 recPage 0x10180).noteRead 0x180 ((consistBytes.drop 64).take 4), _, ⟨consistBytes.take 64, [(consistBytes.drop 64).take 4], u, 2,
    by decide +kernel, lineRead_of (by decide +kernel), by decide +kernel, by decide +kernel,
    ⟨_, lineRead_of (l := recPage) (pa := 0x10180) (by decide +kernel), rfl⟩, by decide +kernel, by decide +kernel, ?_, rfl⟩,
    by decide +kernel⟩
  decide +kernel

/-- The consist of the card, ready here, with a rank here and one on package 1; lane 0 alone submits rank 0. -/
def consistAt : Consist :=
  { die := 0, cid := cidKey stRec.dev 1 7, owner := 1, part := 0, members := [(0, 0), (1, 0)], epoch := 1, state := .ready }
def stColl : State := (stRec.onSlot fun x => { x with act := 1 }).onDev fun d => { d with consists := [consistAt] }
/-- The same with the collective ended with status 0. -/
def stDone : State := stColl.onDev fun d => { d with colls :=
  [{ id := 0, die := 0, cid := consistAt.cid, epoch := 1, seq := 1, card := none, state := .done
     status := some { code := 0, failRank := 0, detRank := 0, chunks := 0, stime := 5 } }] }

/-- The states after the card is read. -/
def stCollRead : State := State.afterRead stColl (.plain false) 0x1C0 64 recPage 0x101C0
def stDoneRead : State := State.afterRead stDone (.plain false) 0x1C0 64 recPage 0x101C0
theorem read_card : LineRead stColl (.plain false) (stColl.rs 4).toNat 64 collBytes stCollRead :=
  lineRead_of (l := recPage) (pa := 0x101C0) (by decide +kernel)
theorem read_done : LineRead stDone (.plain false) (stDone.rs 4).toNat 64 collBytes stDoneRead :=
  lineRead_of (l := recPage) (pa := 0x101C0) (by decide +kernel)

theorem witness_CollectiveCommandsAreCounted :
    (let s := stColl.onSlot fun x => { x with act := 0 }
     CommandReady s [.s 4 1] [] ∧ s.part = 0) ∧
    (CommandReady stColl [.s 4 1] [] ∧ stColl.part ≠ 0 ∧ stColl.blocked stColl.part [.v 8 1, .v 10 2] [] = none ∧
      (stColl.rs 4).toNat % 64 = 0 ∧ stCollRead.cardConsist (recNat collBytes 0 2) = some consistAt ∧
      (∀ f, f ∈ collFields (some consistAt) collBytes → f.2 = true) ∧
      stCollRead.badRanks consistAt (parseColl collBytes).seq stColl.part (fun L => (stColl.rv L 8).toNat) = 0 ∧
      (∀ L, L < 32 → inM stColl.part L = true → (stColl.rv2 L 10).toNat % 4 = 0) ∧
      (stCollRead.bufferChecks (parseColl collBytes) consistAt.members.length stColl.part (fun L => (stColl.rv L 8).toNat)
        fun L => (stColl.rv2 L 10).toNat).isNone = true ∧ stCollRead.accessBusy = false) ∧
    (CommandReady stDone [.s 4 1] [.s 12 2] ∧ stDone.slot.wait = .none ∧ stDoneRead.cardConsist (recNat collBytes 0 2) = some consistAt ∧
      (collStatus stDoneRead.dev consistAt.cid consistAt.epoch (recNat collBytes 8 4)).isSome = true) ∧
    collStatus stCollRead.dev consistAt.cid consistAt.epoch (recNat collBytes 8 4) = none ∧
    (let s := stDone.onSlot fun x => { x with wait := .coll consistAt.cid 1 1 }
     CommandReady s [.s 4 1] [.s 12 2] ∧ s.slot.wait = .coll consistAt.cid 1 1 ∧ (collStatus s.dev consistAt.cid 1 1).isSome = true) ∧
    ((stX 8).rs 5).toNat % 64 ≠ 0 ∧ CommandReady (stX 8) [.s 5 1] [.s 12 2] ∧ CommandReady (stX 8) [.s 5 1] [] := by
  unfold CommandReady
  refine ⟨by decide +kernel, ?_, by decide +kernel, by decide +kernel, by decide +kernel, by decide +kernel, by decide +kernel,
    by decide +kernel⟩
  refine ⟨by decide +kernel, by decide +kernel, by decide +kernel, by decide +kernel, by decide +kernel, by decide +kernel,
    by decide +kernel, by decide +kernel, by decide +kernel, by decide +kernel⟩

/-- stRec while block 0 has an open fork, as a child of depth 8, and after a join. -/
def stForking : State := stRec.onDev fun d => { d with forks := [forkAt] }
def stJoined : State := stRec.onDev fun d => { d with joins := [(0, {})] }

def stForkRead : State := State.afterRead stRec (.plain false) 0x100 64 recPage 0x10100
def stJobs : State := stRec.onDev fun d => { d with jobs := [jobAt] }
theorem read_fork : LineRead stRec (.plain false) (stRec.rs 2).toNat 64 forkBytes stForkRead :=
  lineRead_of (l := recPage) (pa := 0x10100) (by decide +kernel)
theorem read_fork_jobs : LineRead stJobs (.plain false) (stJobs.rs 2).toNat 64 forkBytes
    (State.afterRead stJobs (.plain false) 0x100 64 recPage 0x10100) :=
  lineRead_of (l := recPage) (pa := 0x10100) (by decide +kernel)

theorem witness_ForksOpenAndJoin :
    CommandReady stRec [.s 2 1] [] ∧ stForking.forking = true ∧ stRec.forking = false ∧
    8 ≤ (((stRec.onBlk fun b => { b with child := some ⟨0, 0, 8, 2, 0⟩ }).blk.child.map (·.depth)).getD 0) ∧
    (stRec.blk.child.map (·.depth)).getD 0 < 8 ∧ (stRec.rs 2).toNat % 64 = 0 ∧ ((stX 32).rs 5).toNat % 64 ≠ 0 ∧
    ((∀ f, f ∈ forkFields stForkRead.confined forkBytes → f.2 = true) ∧ stForkRead.blockJobs = false ∧
      (parseFork forkBytes).domain = 1 ∧ (State.afterRead stJobs (.plain false) 0x100 64 recPage 0x10100).blockJobs = true) ∧
    CommandReady stRec [] [.s 9 1] ∧ (∀ j, j ∈ stRec.dev.joins → j.1 ≠ stRec.blk.key) ∧
    (stJoined.forking = false ∧ (∃ j, j ∈ stJoined.dev.joins ∧ j.1 = stJoined.blk.key) ∧ stJoined.lastJoin.trap = none) := by
  unfold CommandReady
  exact ⟨by decide +kernel, by decide +kernel, by decide +kernel, by decide +kernel, by decide +kernel, by decide +kernel,
    by decide +kernel, by decide +kernel, by decide +kernel, by decide +kernel, by decide +kernel, ⟨(0, {}), by decide +kernel⟩,
    by decide +kernel⟩

theorem witness_ViewAttributesAreReported :
    stRec.blocked 1 [.s 5 1] [.s 9 1] = none ∧ stRec.checkVa .read (stRec.rs 5).toNat = .ok recPage 0x10000 ∧
    stRec.blk.child = none ∧ stRec.pageToFetch [⟨0, 0, recPage.held, 0x10000⟩] = none ∧
    ((stRec.onDev fun x => keepLeaf x 1 0 recPage.held).makeRoom [⟨0, 0, recPage.held, 0x10000⟩]).isSome = true := by
  decide +kernel
/-! The matrix stream -/

/-- Records of the stream: bytes at 0, f32 at 0x240, a compressed one at 0x280. -/
def recF32 : List Byte :=
  recAt 64 [(0, 8, 0xA000), (8, 3, 2), (11, 3, 1), (14, 3, 1), (17, 3, 1), (20, 3, 1), (0x17, 5, 4), (0x3C, 1, 9)]
def recSparse : List Byte :=
  recAt 64 [(0, 8, 0xB000), (8, 3, 128), (11, 3, 1), (14, 3, 1), (17, 3, 1), (20, 3, 1), (0x17, 5, 1), (0x3C, 1, 4), (0x3E, 1, 1)]
def tagI8 : SlotTag := { kind := .i8, nz := 0, scaled := false, mapped := false }
/-- A stream with its home engine and tiles 1 to 4, of i8 data, 4 compressed; k3, k4 name the records at 0x240 and 0x280, k6 and k7
the origin at row 1. -/
def seqAt : Seq :=
  { pc := 0x4004, words := some [0x701FF000, 0], run := true, k := [(3, 0x240), (4, 0x280), (6, 0x100000000)], ka := 4, kb := 4
    res := .home, tiles := [(1, { tag := some tagI8 }), (2, { tag := some tagI8 }), (3, { tag := some tagI8 }),
      (4, { tag := some { tagI8 with nz := 8 } })] }
def stMx (f : Seq → Seq) : State :=
  { stRec with
    onStream := true
    blk := { stRec.blk with seq := f seqAt }
    dev := { stRec.dev with mem := cellsAt 0x10000 (layoutBytes 0x8000 ++ layoutBytes 0x9000 ++ cardBytes ++ forkBytes ++ consistBytes ++
      collBytes ++ recAt 64 [] ++ recF32 ++ recSparse) } }
def stOn : State := stMx id

theorem witness_SequencerRegistersAndBranches :
    stOn.seq.idx = 1 ∧ ¬ stOn.seq.idx < stOn.seq.last ∧ (1 : Fin 4).val ≠ 0 ∧ (stMx fun q => { q with kq := 2 }).seq.kq.getLsbD 1 = true ∧
    stOn.seq.kq.getLsbD 3 = false ∧ (stMx fun q => { q with k := [(5, 1)] }).seq.rk 5 = 1 ∧ stOn.seq.rk 5 ≠ 1 ∧
    (stMx fun q => { q with words := some [0x702FF000, 0, 0] }).seq.idx < (stMx fun q => { q with words := some [0x702FF000, 0, 0] }).seq.last := by
  decide +kernel

theorem witness_StreamsStartMeetAndEnd :
    CommandReady stOn [.s 1 1, .s 2 1, .s 3 1] [] ∧ stOn.blk.seq.run = true ∧ stRec.blk.seq.run = false ∧
    CommandReady stRec [.s 1 1, .s 2 1, .s 3 1] [] ∧ (stRec.rs 1).toNat % 32 = 0 ∧ ((stX 16).rs 5).toNat % 32 ≠ 0 ∧
    (stX 16).blk.seq.run = false ∧ (stOn.blk.mbar 7).seqArr = false ∧ stOn.liveAll &&& ~~~ (stOn.blk.mbar 7).arr ≠ 0 ∧
    (let s := stOn.onBlk fun b => { b with mbars := [(7, { arr := 1 })] }; s.liveAll &&& ~~~ (s.blk.mbar 7).arr = 0) ∧
    ((stOn.onBlk fun b => { b with mbars := [(7, { seqArr := true })] }).blk.mbar 7).seqArr = true ∧
    Sparse.get 0 stOn.seq.barPhase 7 ≠ (stOn.blk.mbar 7).phase.toNat + 1 ∧
    Sparse.get 0 (stMx fun q => { q with barPhase := [(7, 1)] }).seq.barPhase 7 = (stOn.blk.mbar 7).phase.toNat + 1 := by
  unfold CommandReady
  decide +kernel

/-- The stream without a reservation, and a neighbour core 1 that lends n tiles. -/
def stFree (n : Nat) : State := (stMx fun q => { q with res := .none, tiles := [] }).onDev fun d => { d with lent := [(1, n)] }

theorem witness_ReservationsAndSlotsAreTaken :
    (stFree 0).seq.res = .none ∧ (0 : Nat) = (stFree 0).blk.core % 4 ∧
    (1 ≠ (stFree 0).blk.core % 4 ∧ (stFree 0).blk.shape.accs + ((shapesOn (stFree 0).dev 1).map fun x => x.accs).sum +
      Sparse.get 0 (stFree 0).dev.lent 1 = 32) ∧
    32 < (stFree 1).blk.shape.accs + ((shapesOn (stFree 1).dev 1).map fun x => x.accs).sum + Sparse.get 0 (stFree 1).dev.lent 1 ∧
    (stMx fun q => { q with res := .neighbour 1 }).seq.res = .neighbour 1 ∧
    (stOn.seq.res ≠ .none ∧ stOn.blk.server = some 0 ∧ stOn.seq.claimed (3 + 0) = true) ∧
    (∀ j : Nat, j ≤ 59 → stOn.seq.claimed (5 + j) = false) ∧ slotsHeld stOn.dev 0 + stOn.seq.tiles.length + 59 + 1 ≤ 64 ∧
    restoreWaits stOn.dev 0 = false ∧
    64 < slotsHeld stOn.dev 0 + (stMx fun q => { q with tiles := q.tiles ++ [(5, {})] }).seq.tiles.length + 59 + 1 ∧
    stOn.seq.claimed (0 + 0) = false ∧ (∀ j : Nat, j ≤ 3 → stOn.seq.claimed (1 + j) = true) := by
  decide +kernel

theorem witness_TilesMoveThroughTheirRecords :
    stOn.seq.res ≠ .none ∧ stOn.seq.claimed 1 = true ∧
    (∃ e, stOn.mxRecord 0 0 tileKind = .ok e ∧ nth 0 e.2.2 0 % (e.2.1.type.kd : Int) = 0 ∧
      ∃ v, e.1.mxTake (denseTakes e.2.1 e.2.2) = .ok v ∧ ∃ w, v.1.mxTake (scaleTakes e.2.1 e.2.2 e.2.1.type.kd) = .ok w) ∧
    (∃ e, stOn.mxRecord 4 6 tileKind = .ok e ∧ e.2.1.type.nibble = false ∧ e.2.1.keep ≠ 0 ∧
      nth 0 e.2.2 0 % (2 * e.2.1.type.kd : Nat) = 0 ∧
      ∃ v, e.1.mxTake (runTakes e.2.1 e.2.2 0 8 fun l i j => 16 * l + 8 * i + j) = .ok v ∧
      ∃ w, v.1.mxTake (runTakes e.2.1 e.2.2 8 (e.2.1.keep * e.2.1.type.size)
        fun l i j => 64 * l + e.2.1.keep * e.2.1.type.size * i + j) = .ok w ∧
      ∃ y, w.1.mxTake (scaleTakes e.2.1 e.2.2 (2 * e.2.1.type.kd)) = .ok y) ∧
    (stOn.seq.tile 2 = some { tag := some tagI8 } ∧ (stOn.seq.rk 15).toNat % 8 = 0 ∧
      ∃ v, stOn.mxTake ((List.range 512).map fun i => ⟨i, .inr (((stOn.seq.rk 15).toNat + i) % 2 ^ 64, 1)⟩) = .ok v) ∧
    (∃ e, stOn.mxRecord 3 0 accKind = .ok e ∧
      (∃ v, e.1.mxTake ((accSpots e.2.1 e.2.2).map fun x => ⟨x.1, .inr (e.2.1.spot x.2)⟩) = .ok v) ∧
      ∃ ls, e.1.mxLeaves .write ((accSpots e.2.1 e.2.2).map fun x => e.2.1.spot x.2) = .ok ls ∧
        e.1.pageToFetch (ls.map fun x => ⟨0, x.2.1, x.1, x.2.2.1⟩) = none ∧
        e.1.makeRoom (ls.map fun x => ⟨0, x.2.1, x.1, x.2.2.1⟩) ≠ none ∧ (∀ x, x ∈ ls → x.1.kind ≠ .view)) := by
  refine ⟨by decide +kernel, by decide +kernel, ?_, ?_, ⟨by decide +kernel, by decide +kernel, ?_⟩, ?_⟩
  · obtain ⟨e, he, h⟩ := of_okAnd (show okAnd (stOn.mxRecord 0 0 tileKind) (fun e => decide (nth 0 e.2.2 0 % (e.2.1.type.kd : Int) = 0) &&
      okAnd (e.1.mxTake (denseTakes e.2.1 e.2.2)) fun v => okAnd (v.1.mxTake (scaleTakes e.2.1 e.2.2 e.2.1.type.kd)) fun _ => true) = true
      by decide +kernel)
    simp only [Bool.and_eq_true, decide_eq_true_eq] at h
    obtain ⟨v, hv, g⟩ := of_okAnd h.2
    obtain ⟨w, hw, _⟩ := of_okAnd g
    exact ⟨e, he, h.1, v, hv, w, hw⟩
  · obtain ⟨e, he, h⟩ := of_okAnd (show okAnd (stOn.mxRecord 4 6 tileKind) (fun e => decide (e.2.1.type.nibble = false ∧ e.2.1.keep ≠ 0 ∧
      nth 0 e.2.2 0 % (2 * e.2.1.type.kd : Nat) = 0) &&
      okAnd (e.1.mxTake (runTakes e.2.1 e.2.2 0 8 fun l i j => 16 * l + 8 * i + j)) fun v =>
      okAnd (v.1.mxTake (runTakes e.2.1 e.2.2 8 (e.2.1.keep * e.2.1.type.size)
        fun l i j => 64 * l + e.2.1.keep * e.2.1.type.size * i + j)) fun w =>
      okAnd (w.1.mxTake (scaleTakes e.2.1 e.2.2 (2 * e.2.1.type.kd))) fun _ => true) = true by decide +kernel)
    simp only [Bool.and_eq_true, decide_eq_true_eq] at h
    obtain ⟨v, hv, g⟩ := of_okAnd h.2
    obtain ⟨w, hw, g⟩ := of_okAnd g
    obtain ⟨y, hy, _⟩ := of_okAnd g
    exact ⟨e, he, h.1.1, h.1.2.1, h.1.2.2, v, hv, w, hw, y, hy⟩
  · obtain ⟨v, hv, _⟩ := of_okAnd (show okAnd (stOn.mxTake ((List.range 512).map fun i =>
      ⟨i, .inr (((stOn.seq.rk 15).toNat + i) % 2 ^ 64, 1)⟩)) (fun _ => true) = true by decide +kernel)
    exact ⟨v, hv⟩
  · obtain ⟨e, he, h⟩ := of_okAnd (show okAnd (stOn.mxRecord 3 0 accKind) (fun e =>
      okAnd (e.1.mxTake ((accSpots e.2.1 e.2.2).map fun x => ⟨x.1, .inr (e.2.1.spot x.2)⟩)) (fun _ => true) &&
      okAnd (e.1.mxLeaves .write ((accSpots e.2.1 e.2.2).map fun x => e.2.1.spot x.2)) fun ls =>
        decide (e.1.pageToFetch (ls.map fun x => ⟨0, x.2.1, x.1, x.2.2.1⟩) = none ∧
          (e.1.makeRoom (ls.map fun x => ⟨0, x.2.1, x.1, x.2.2.1⟩)).isSome = true ∧ (∀ x, x ∈ ls → x.1.kind ≠ .view))) = true
      by decide +kernel)
    simp only [Bool.and_eq_true] at h
    obtain ⟨v, hv, _⟩ := of_okAnd h.1
    obtain ⟨ls, hl, g⟩ := of_okAnd h.2
    have g := of_decide_eq_true g
    exact ⟨e, he, ⟨v, hv⟩, ls, hl, g.1, fun x => by rw [x] at g; simp at g, g.2.2⟩

theorem witness_MultipliesUpdateOneTile :
    stOn.seq.res ≠ .none ∧ FormatOf stOn .i8 .i8 .int ∧ SlotOf stOn 1 { tag := some tagI8 } tagI8 none ∧
    SlotOf stOn 2 { tag := some tagI8 } tagI8 none ∧ fitsTags stOn.seq .i8 .i8 .int tagI8 tagI8 = true ∧
    SlotOf stOn 4 { tag := some { tagI8 with nz := 8 } } { tagI8 with nz := 8 } none ∧
    fitsTags stOn.seq .i8 .i8 .int { tagI8 with nz := 8 } tagI8 = true ∧ (3 : TName).val = (2 : TName).val + 1 ∧
    stOn.seq.tile 3 = some { tag := some tagI8 } ∧ stOn.seq.tile 0 = none ∧ Elem.i8.nibble = false := by
  unfold FormatOf SlotOf
  decide +kernel

theorem witness_StreamHaltsReachEveryGroup :
    NeedsReservation (.accz 0 0) ∧ (stFree 0).seq.res = .none ∧ stOn.seq.res ≠ .none ∧ stOn.anyLive = true :=
  ⟨.accz .., by decide +kernel, by decide +kernel, by decide +kernel⟩

/-! Events: packages in which they are enabled -/

/-- The machine with nothing in focus. -/
def atRest (d : Dev) : State := { dev := d }
theorem atRest_dev (d : Dev) : (atRest d).unfocus.dev = d := rfl

/-- st0 before its clause issues, with code in memory: a legal header of one word, one with COUNT 0, one that waits on flag 0. -/
def stCode (h : Nat) : State :=
  (stMem.onSlot fun _ => { pc := 0x4004, act := all32 }).onDev fun d =>
    { d with mem := cellsAt 0x14000 (recAt 32 [(0, 4, h), (4, 4, 0x28312)]) }
/-- What a clause fetched from it gives. -/
def fetches (s : State) (p : Dev → List Word → Bool) : Bool :=
  match fetchClause s.dev s.blk s.clauseAddr s.slot.wait.tag with
  | .ok d ws => p d ws
  | .trap _ => false
  | .park _ _ _ => false

def handledAt (s : State) : State := s.onBlk fun b => { b with shape := { b.shape with handler := 0x9000 } }
/-- A trap that waits, and a group whose lanes have exited. -/
def stReq : State := (handledAt st0).onGrp fun g => { g with trapReq := some ⟨false, { cause := 1 }, false⟩ }
def stGone : State := st0.onGrp fun g => { g with live := 0, slot0 := {}, slot1 := {}, pname := nameAt }

/-- A block with one group that has ended, resident on core 0. -/
def endedBlock : Block := { blockAt with groups := [{ ended := true }] }

theorem witness_GroupsAndBlocksAdvance :
    ¬ (st0.running = true ∧ st0.latched = false ∧ st0.faultHeld = false) ∧
    ((stCode 0x70110000).running = true ∧ (stCode 0x70110000).latched = false ∧ (stCode 0x70110000).faultHeld = false) ∧
    fetchClause {} stMem.blk 0x4000 none = .trap cTRANSLATION ∧
    fetches (stCode 0x70010000) (fun _ ws => headerLegal ws == false) = true ∧
    fetches (stCode 0x70110000) (fun _ ws => headerLegal ws && bits (nth 0 ws 0).toNat 25 24 == 0 &&
      decide ((stCode 0x70110000).slotIdx ≤ bits (nth 0 ws 0).toNat 22 20 + bits (nth 0 ws 0).toNat 23 23) &&
      (stCode 0x70110000).waitsFlag (nth 0 ws 0).toNat == false && (stCode 0x70110000).guardPending (nth 0 ws 0).toNat == false) = true ∧
    ((stCode 0x70110001).onGrp fun g => { g with flags := [(0, 1)] }).waitsFlag 0x70110001 = true ∧
    (let s := st0.onSlot fun x => { x with denied := 3 }; s.running = true ∧ 3 ≤ s.slot.denied) ∧
    ¬ (st0.running = true ∧ 3 ≤ st0.slot.denied) ∧
    (stBusy.focused = true ∧ stBusy.grp.pend[0]? = some busy ∧ busy.setA = true ∧ busy.ext = false ∧
      ∀ x, x ∈ stBusy.grp.pend → x.id = busy.id → x = busy) ∧
    (∀ e, stFab.grp.pend[0]? = some e → stFab.focused = false ∨ e.setA ≠ false ∨ e.ext = true) ∧
    (stReq.focused = true ∧ stReq.grp.pend = [] ∧ stReq.grp.ctx.inh = false ∧ stReq.blk.shape.handler ≠ 0) ∧
    st0.grp.trapReq = none ∧
    (stGone.focused = true ∧ stGone.onStream = false ∧ stGone.grp.ended = false ∧ stGone.grp.live = 0 ∧ stGone.grp.pend = [] ∧
      stGone.grp.trapReq = none ∧ stGone.grp.pname ≠ 0 ∧ nameHome stGone.grp.pname = stGone.dev.pkg) ∧ st0.grp.live ≠ 0 ∧
    (findBlock { blocks := [endedBlock] } 0 = some endedBlock ∧ endedBlock.onCore = true ∧
      (∀ g, g ∈ endedBlock.groups → g.ended = true) ∧ endedBlock.seq.run = false ∧ scratchBusy { blocks := [endedBlock] } 0 = false) ∧
    (let b := { endedBlock with seq := { rstw := true, tiles := [(0, {})] } }
     b.onCore = true ∧ b.seq.rstw = true ∧ slotsHeld { blocks := [b] } b.core + b.seq.tiles.length ≤ 64) := by
  refine ⟨by decide +kernel, by decide +kernel, by decide +kernel, by decide +kernel, by decide +kernel, by decide +kernel,
    by decide +kernel, by decide +kernel, by decide +kernel, ?_, by decide +kernel, by decide +kernel, by decide +kernel,
    by decide +kernel, by decide +kernel, by decide +kernel⟩
  intro e h
  cases h
  exact .inr (.inr rfl)

/-- Queue 63 of function 0, and entries of it. -/
def queueAt : Queue := { base := 0x10000, log2n := 4, enabled := true, state := 1, widx := 1 }
def entryBytes (seq kind rec : Nat) : List Byte := recAt 32 [(0, 2, seq), (2, 1, kind), (8, 8, rec), (16, 8, 0x30000)]
def devQueue (x : Queue) (e : List Byte) : Dev :=
  { parts := [partAt], funcs := [(0, { queues := [(63, x)] })], owners := [(2, { created := true })]
    mem := cellsAt 0x10000 e ++ cellsAt 0x20000 (recAt 256 [(0, 8, 0x8000), (0x3C, 4, 5), (0x40, 4, 4), (0x44, 1, 2), (0x45, 1, 3),
      (0x80, 1, 1), (0x81, 1, 1), (0x82, 1, 8), (0x83, 1, 16), (0x94, 2, 2)]) }
/-- The same record with owner 0, which no owner of the partition has. -/
def devRefused : Dev := { devQueue queueAt (entryBytes 0 1 0x20000) with owners := [] }

theorem witness_LaunchQueuesAreServed :
    (15 < 16 ∧ 63 < 64 ∧ (0x10004 : DWord).getLsbD 16 = true ∧ (4 : DWord).getLsbD 16 = false ∧ bits (0x10004 : DWord).toNat 3 0 = 4 ∧
      bits (0x10003 : DWord).toNat 3 0 < 4) ∧
    (let x : Queue := { base := 0x10000 }; let d := devQueue x []
     (queueOf d 0 63).state = 0 ∧ (queueOf d 0 63).enabled = false ∧ d.recovery = false ∧ x.base.toNat < 2 ^ 39 ∧
      inPartition d 0 x.base.toNat (32 * 2 ^ 4) = true) ∧
    (let d := devQueue { base := 0x1000 } []; (queueOf d 0 63).base.toNat = 0x1000 ∧ inPartition d 0 0x1000 (32 * 2 ^ 4) = false) ∧
    (let d := devQueue queueAt []; (queueOf d 0 63).enabled = true ∧ (queueOf d 0 63).state ≠ 0) ∧
    (launchAt.detached = false ∧ launchAt.started = 0 ∧ launchAt.begun = false ∧ launchAt.state = .waiting ∧
      findLaunch { launches := [launchAt] } 0 = some launchAt) ∧
    (gap 16 queueAt.ridx ≤ 2 ^ queueAt.log2n ∧ 2 ^ queueAt.log2n < gap 17 queueAt.ridx) ∧
    (({ queueAt with state := 2 } : Queue).state ≥ 2 ∧ gap 0 queueAt.ridx < 2 ^ 31 ∧ 2 ^ 31 ≤ gap (2 ^ 31) queueAt.ridx) ∧
    (let d := devQueue queueAt (entryBytes 0 1 0x20000)
     (queueOf d 0 63).state = 1 ∧ (queueOf d 0 63).ridx ≠ (queueOf d 0 63).widx ∧ (queueOf d 0 63).drain = false ∧
      poisoned d (entryAt queueAt) 32 = false ∧ homeBytes d (fnKey d 0) (entryAt queueAt) 32 = entryBytes 0 1 0x20000 ∧
      entryAddrOk d 0 0x20000 256 = true ∧ entryAddrOk d 0 0x30000 16 = true ∧ FreshKeys d ∧ poisoned d 0x20000 256 = false ∧
      refusal d 0 (homeBytes d (fnKey d 0) 0x20000 256) = none) ∧
    refusal devRefused 0 (homeBytes devRefused (fnKey devRefused 0) 0x20000 256) = some 2 ∧
    (recNat (entryBytes 7 1 0x20000) 0 2 ≠ queueAt.ridx % 2 ^ 16 ∧ recNat (entryBytes 0 2 0) 2 1 = 2 ∧
      recNat (entryBytes 0 3 0) 2 1 ≠ 1 ∧ recNat (entryBytes 0 3 0) 2 1 ≠ 2) ∧
    entryAddrOk (devQueue queueAt []) 0 0x20020 256 = false ∧
    (let d := devQueue { queueAt with drain := true } []
     (queueOf d 0 63).drain = true ∧ ∀ l, l ∈ d.launches → l.fn = 0 → l.q = 63 → l.detached = false → l.state = .ended) := by
  unfold FreshKeys
  decide +kernel

/-- A launch of four blocks of owner 2 on the partition, bound by entry 255, with block 0 claimed for cluster 0. -/
def launchIn : Launch := { launchAt with lr := { launchRecAt with owner := 2 } }
def bindFull : Bind := { launch := 0, count := 4, clusters := 1, level := 0, state := 1 }
def devLaunch (x : Launch) (b : List (Nat × Bind)) (k : List Block) : Dev :=
  { parts := [partAt], owners := [(2, { created := true })], launches := [x], nextLaunch := 1, binds := b, blocks := k, nextBlock := 8 }
def shapeIn : Shape := launchIn.lr.shape 0
def blockOf (key blin : Nat) (st : BlockState) : Block :=
  { key := key, blin := blin, launch := 0, state := st, slotEntry := 255, shape := launchIn.lr.shape blin, saveLen := 4096 }
/-- Two clusters, two blocks claimed at cluster 0, nothing open. -/
def devGive : Dev :=
  { devLaunch launchIn [(255, { bindFull with clusters := 3, next := 4, state := 3 })] [blockOf 0 0 .unstarted, blockOf 1 1 .unstarted] with
    parts := [{ partAt with clusters := 3 }] }

theorem witness_LaunchesArePlacedAndCompleted :
    (let d := devLaunch launchIn [] []
     (bindAt d 255).state < 2 ∧ findLaunch (unbindEntry d 255) 0 = some launchIn ∧ launchIn.stub = false ∧ launchIn.state = .waiting ∧
      depsMet (unbindEntry d 255) launchIn = true ∧ 255 < 256 ∧ bindRange (unbindEntry d 255) launchIn 0 0 4 = true ∧
      bindClusters (unbindEntry d 255) launchIn 0 0 1 = true) ∧ 2 ≤ (bindAt devGive 255).state ∧
    (let d := devLaunch launchIn [(255, bindFull)] []
     (bindAt d 255).open = true ∧ (bindAt d 255).clusters.getLsbD 0 = true ∧ claimsAhead d 0 255 = false ∧
      (claimFrom d launchIn 255 0 4).isSome = true ∧ launchIn.lr.corLevels = none ∧ FreshKeys d) ∧
    (let d := devLaunch launchIn [(255, bindFull)] [blockOf 0 0 .unstarted]
     findBlock d 0 = some (blockOf 0 0 .unstarted) ∧ nextOn d 3 (blockOf 0 0 .unstarted) = true) ∧
    ((1 : Nat) ≠ 0 ∧ (bindAt devGive 255).state ≠ 0 ∧ (bindAt devGive 255).cor = false ∧ (bindAt devGive 255).clusters.getLsbD 1 = true ∧
      (bindAt devGive 255).clusters.getLsbD 0 = true ∧ donable devGive 0 1 ≠ [] ∧ idleCluster devGive 1 = true ∧
      ∀ b, b ∈ firstHalf (donable devGive 0 1) → findLaunch devGive b.launch = some launchIn ∧
        launchIn.allows devGive ((firstHalf (donable devGive 0 1)).map fun x => x.key) b.blin (4 * 1) = true) ∧
    findBlock (devLaunch launchIn [] [blockOf 0 0 .inTransit]) 0 = some (blockOf 0 0 .inTransit) ∧
    (let d := { devLaunch launchIn [(255, bindFull)] [] with time := 10000000 }
     bindReady d 255 = true ∧ (bindAt d 255).eprio < min 7 ((bindAt d 255).prio + (d.time - (bindAt d 255).since) / 10000000)) ∧
    (let x := { launchIn with retired := 4 }; let d := devLaunch x [] []
     findLaunch d 0 = some x ∧ launchBusy d 0 = false ∧ (∀ b, b ∈ d.blocks → b.launch ≠ 0) ∧ (∀ y, y ∈ x.shares → y.ended = true) ∧
      x.retired = blocksHere d x ∧ depsMet d x = true ∧ x.stub = false ∧ x.away = none ∧ x.done % 16 = 0) := by
  unfold FreshKeys
  decide +kernel

/-- Block 0 resident since time 0, another of the same priority ready for its cluster, and the time slice over. -/
def devSlice : Dev :=
  { devLaunch launchIn [(255, bindFull)] [blockOf 0 0 .resident] with time := 20000001 }
/-- A block that stops for its save, and one saved. -/
def stopping : Block := { blockOf 0 0 .preempting with stopped := true, preempt := some (2, 5000), groups := [{ live := 1 }] }
def savedBlock : Block := { blockOf 0 0 .saved with groups := [{ live := 1 }], saveAddr := 0x100000, saveLen := 4096, nres := 1 }
/-- Twelve groups in the partition of a core: block 0 waits at a counter on each of the four cores of the one cluster, so that no block
of its launch fits. -/
def waiting (k : Nat) : Group := { idx := k, live := 1, slot0 := { pc := 0x4004, act := 1, wait := .counter 0 } }
def wideShape : Shape := { shapeIn with groups := 32 }
def parkedAt (core : Nat) : Block :=
  { blockOf core core .parked with core := core, shape := wideShape, groups := (List.range 32).map waiting }
def wideLaunch : Launch :=
  { launchIn with
    lr := { launchRecAt with owner := 2, groups := 32, levels := [⟨5, 2, false⟩] }
    started := 4, state := .bound }
def devParked : Dev :=
  { devLaunch wideLaunch [(255, { bindFull with count := 5, next := 4, state := 2 })] [parkedAt 0, parkedAt 1, parkedAt 2, parkedAt 3] with
    parts := [partAt] }

theorem witness_BlocksAreSavedResumedAndMoved :
    (findBlock devSlice 0 = some (blockOf 0 0 .resident) ∧ (blockOf 0 0 .resident).onCore = true ∧
      sliceOver devSlice (blockOf 0 0 .resident) = true ∧ (blockOf 0 0 .resident).begun = true) ∧
    (let d := devLaunch launchIn [(254, { bindFull with prio := 7 }), (255, bindFull)] [blockOf 0 0 .resident]
     waitsFor d (blockOf 0 0 .resident) (fun p => decide (ownPrio d (blockOf 0 0 .resident) < p)) = true) ∧
    (let x := { blockOf 0 0 .preempting with groups := [{ live := 1 }], preempt := some (2, 5000) }
     x.state = .preempting ∧ x.stopped = false ∧ x.allYielded = false) ∧
    (let d := devLaunch launchIn [] [stopping]
     stopping.done = false ∧ stopping.stopped = true ∧ saveReady d stopping = true) ∧
    (let x := { stopping with stopped := false, groups := [{ live := 1, yielded := true }] }
     x.allYielded = true ∧ x.done = false ∧ saveReady (devLaunch launchIn [] [x]) x = true) ∧
    (let d := postReleases (devLaunch launchIn [(255, { bindFull with next := 4, state := 3 })] [savedBlock])
     findBlock d 0 = some savedBlock ∧ savedBlock.loc = d.pkg ∧ savedBlock.cor = false ∧ nextOn d 0 savedBlock = true ∧
      saveBad d savedBlock = false ∧ saveBad { d with bad := [(0x100000 / 32, true)] } savedBlock = true) ∧
    (findLaunch devParked 0 = some wideLaunch ∧ evictsFor devParked wideLaunch = true ∧
      evictable devParked wideLaunch (parkedAt 3) = true ∧ (parkedAt 3).child = none ∧
      ∀ y, y ∈ devParked.blocks → y.launch = 0 → y.child = none → (parkedAt 3).blin < y.blin → evictable devParked wideLaunch y = false) ∧
    (let x := { launchIn with poolSince := some 0 }
     let d := { devLaunch x [(255, bindFull)] [] with parts := [{ partAt with saveLen := 0 }], time := 1000000 }
     findLaunch d 0 = some x ∧ poolStuck d x = true ∧ 0 + 1000000 ≤ d.time) ∧
    (let l := { launchIn with lr := { launchRecAt with owner := 2, levels := [⟨1, 2, false⟩, ⟨2, 4, false⟩] } }
     mayMigrate { devLaunch l [] [savedBlock] with parts := [{ partAt with pod := [0, 1023] }] } savedBlock 1023 = true) ∧
    (let x := { savedBlock with state := .moving, moveTo := 1 }
     x.state = .moving ∧ (moveArea (devLaunch launchIn [] [x]) x 0x5000).isSome = true ∧ x.moveTo ≠ (devLaunch launchIn [] [x]).pkg) := by
  decide +kernel

/-! Names and the fabric: name 1 (home and place package 0, entry 0, GEN 1) held by the one group of block 0 -/

def heldBlock : Block := { blockAt with groups := [{ pname := nameAt }] }
def entryOf (st : NameState) : NameEntry := { state := st, gen := 1, owner := 1 }
def bodyStore (seq : Nat) (fwd : Bool) : PacketBody := .rstv 9 nameAt 5 3 [7, 8] 0 seq 50 fwd
/-- A packet of package 1, owner 1, that is late after 100 ns. -/
def packetOf (body : PacketBody) : Packet := ⟨1, 0, 1, 0, 100, body, PacketBody.setOf body false, false⟩
def devNames (e : NameEntry) (p : List PacketBody) : Dev :=
  { names := [(0, e)], inbox := p.map packetOf, blocks := [heldBlock], parts := [{ partAt with pod := [0, 1] }], time := 100 }
def outAt (purpose : Purpose) (deadline : Nat) : Outstanding :=
  { id := 9, purpose := purpose, block := 0, gidx := 0, pend := 0, deadline := deadline, target := 1 }
/-- Package 0 awaits a status of package 1. -/
def devOut (o : Outstanding) (p : List PacketBody) : Dev :=
  { inbox := p.map packetOf, blocks := [{ blockAt with groups := [{ pend := [{ busy with ext := true }] }] }], time := 100
    outstanding := [o] }

theorem witness_NamesReceiveStoresAndTransfers :
    ((entryOf .free).state = .free ∧ (entryOf .retired).gen = nameGen nameAt ∧ (entryOf .resident).owner ≠ 2 ∧
      Sparse.get {} (devNames (entryOf .moving) []).names (nameIndex nameAt) = entryOf .moving ∧ (0 : Nat) < 8 ∧ 7 < 8) ∧
    (let d := devNames (entryOf .resident) [bodyStore 0 false]
     d.inbox[0]? = some (packetOf (bodyStore 0 false)) ∧ ¬ (nextApplied d (1, 0, nameAt) < 0 ∧ d.time ≤ 50) ∧ d.time ≤ 100 ∧
      homeCheck d 1 nameAt = .go (entryOf .resident) ∧ (entryOf .resident).loc = d.pkg) ∧
    (let d := { devNames (entryOf .resident) [bodyStore 1 false] with time := 50 }
     nextApplied d (1, 0, nameAt) < 1 ∧ d.time ≤ 50) ∧
    (let d := { devNames (entryOf .resident) [bodyStore 1 false] with time := 101 }
     ¬ (nextApplied d (1, 0, nameAt) < 1 ∧ d.time ≤ 50) ∧ 100 < d.time) ∧
    homeCheck (devNames (entryOf .retired) []) 1 nameAt = .status 2 ∧
    (let d := devNames (entryOf .moving) []
     homeCheck d 1 nameAt = .defer ∧ d.deferCount < 65536 ∧ (entryOf .moving).deferred.length < 4096) ∧
    (let e := { entryOf .saved with loc := 1 }
     homeCheck (devNames e []) 1 nameAt = .go e ∧ e.loc ≠ (devNames e []).pkg) ∧
    (let d := devNames (entryOf .resident) [bodyStore 0 true]
     d.inbox[0]? = some (packetOf (bodyStore 0 true)) ∧ ¬ (nextApplied d (nameHome nameAt, 0, nameAt) < 0 ∧ d.time ≤ 50)) ∧
    -- delivery
    (let d := devNames (entryOf .resident) [bodyStore 0 true]
     (holderOf d nameAt).isSome = true ∧ holderOf d 2 = none ∧ findBlock d heldBlock.key = some heldBlock ∧ 5 < heldBlock.shape.vregs ∧
      heldBlock.shape.vregs ≤ 128 ∧ ({ pname := nameAt } : Group).holdOf 5 = none) ∧
    (let g : Group := { holds := (List.range 8).map fun r => ⟨r, false, 0, 1, 0, 0⟩ }
     8 ≤ g.holds.length ∧ g.holdOf 9 = none ∧ (3 : Mask) &&& 1 ≠ 0 ∧ g.holdOf 5 = some ⟨5, false, 0, 1, 0, 0⟩) ∧
    -- statuses, their timeout and the answers of a transfer
    (let d := devOut (outAt .rstv 100) [.status 9 0]
     findOut d 9 = some (outAt .rstv 100) ∧ d.inbox[0]? = some (packetOf (.status 9 0)) ∧ findOut d 8 = none) ∧
    (let o := outAt .rstv 99; let d := devOut o []
     findOut d 9 = some o ∧ o.purpose = .rstv ∧ o.deadline < d.time) ∧
    (let d := devNames (entryOf .resident) [.claim 9 nameAt 0 4096 3, .xend 9 nameAt]
     d.inbox[1]? = some (packetOf (.xend 9 nameAt)) ∧ d.inbox[0]? = some (packetOf (.claim 9 nameAt 0 4096 3)) ∧ d.time ≤ 100 ∧
      homeCheck d 1 nameAt = .go (entryOf .resident) ∧ findBlock d 0 = some heldBlock ∧ heldBlock.shape.scrb < 4096 + 1 ∧
      0 + 4096 ≤ heldBlock.shape.scrb) ∧
    (let d := devNames (entryOf .resident) [.xdata 9 nameAt 4000 3 [1, 2, 3] []]
     d.inbox[0]? = some (packetOf (.xdata 9 nameAt 4000 3 [1, 2, 3] [])) ∧ (holderOf d nameAt).isSome = true ∧
      (heldBlock.counter 3).released = false ∧ ({ target := 1, count := 1 } : Counter).released = true) ∧
    (let o := { outAt .transfer 100 with awaited := [0, 4096] }
     let d := devOut o [.grant 9 0 1, .grant 9 4 0, .xack 9 4096]
     (∃ p, p ∈ d.inbox ∧ answersTo 9 p = true) ∧ findOut d 9 = some o ∧ o.purpose = .transfer ∧ d.time ≤ o.deadline ∧
      d.inbox.find? (answersTo 9) = some (packetOf (.grant 9 0 1)) ∧
      d.inbox.tail.find? (answersTo 9) = some (packetOf (.grant 9 4 0)) ∧
      d.inbox.tail.tail.find? (answersTo 9) = some (packetOf (.xack 9 4096)) ∧ o.awaited.filter (fun x => x ≠ 4096) ≠ [] ∧
      [4096].filter (fun x => x ≠ 4096) = ([] : List Nat)) ∧
    (findOut (devOut (outAt .transfer 100) [.grant 8 0 1]) 8 = none ∧ answersTo 8 (packetOf (.grant 8 0 1)) = true) := by
  and_intros <;> decide +kernel

/-- Owner 1 of partition 0, created, with a page of its memory granted to owner 1 of package 1. -/
def grantAt : RangeEntry := { part := 0, src := 1, rd := true, wr := true, atomic := true, base := 1, last := 1, owner := 1 }
def devGrant (body : PacketBody) : Dev :=
  { inbox := [packetOf body], parts := [{ partAt with pod := [0, 1] }], owners := [(1, { created := true })], time := 100
    rangeCache := [⟨0, 1, [grantAt]⟩] }
/-- Port 3 toward package 1. -/
def devPort (p : Port) : Dev := { routes := [(1, { ports := [3], nport := 1, hops := 2 })], ports := [(3, p)], time := 20000 }
/-- A packet of package 2 for package 1, on its way through this one. -/
def passing (body : PacketBody) : Packet := ⟨2, 1, 1, 0, 100, body, PacketBody.setOf body false, false⟩
def collOf (st : CollState) : Coll :=
  { id := 4, die := 0, cid := 0x10007, epoch := 1, seq := 1, state := st
    subs := [{ rank := 0, buf := 0, owner := 1, card := 0, launch := 0 }] }
def consistOf (st : ConsistState) : Consist :=
  { die := 0, cid := 0x10007, owner := 1, part := 0, members := [(0, 0), (1, 0)], epoch := 1, state := st, digest := 5, forms := [0]
    limit := 100, pins := [(1, 3)] }
/-- This package's rank 0 of a consist with package 1, and its piece 6, sent to rank 1. -/
def pieceTo (rank dest : Nat) : PacketBody := .piece 6 7 1 1 rank dest 0 0 [1, 2, 3, 4] []
def sentPacket : Packet := ⟨0, 1, 1, 0, 20000, pieceTo 0 1, 2, false⟩
def sentOf : Sent := { id := 6, packet := sentPacket, coll := 4, deadline := 20000, resend := 5000 }
def devColl (p : Port) : Dev :=
  { devPort p with
    parts := [{ partAt with pod := [0, 1] }]
    consists := [consistOf .ready]
    colls := [collOf .active]
    sent := [sentOf] }

theorem witness_FabricServesRequestsAndLinks :
    (let d := devGrant (.request 9 .load 0x10000 4 [])
     d.inbox[0]? = some (packetOf (.request 9 .load 0x10000 4 [])) ∧ d.time ≤ 100 ∧
      partOf d 1 = some { partAt with pod := [0, 1] } ∧ partOf d 0 = none ∧
      rangesFor d { partAt with pod := [0, 1] } 1 = (d, [grantAt]) ∧ grantAt.passes .load 1 0x1FFFC 4 = true ∧
      grantAt.passes .load 1 0x1FFFE 4 = false ∧ grantAt.passes .load 2 0x10000 4 = false ∧ created d 1 = true ∧ created d 2 = false ∧
      populated 0x10000 4 = true ∧ poisoned d 0x10000 4 = false ∧ isHost 0x10000 = isHost (0x10000 + 4 - 1)) ∧
    poisoned { devGrant (.request 9 .load 0x10000 4 []) with bad := [(0x10000 / 32, true)] } 0x10000 4 = true ∧
    (let o := { outAt .access 100 with returns := true, keys := [32 * 5] }
     let d := devOut o [.response 9 0 [1, 2, 3, 4]]
     d.inbox[0]? = some (packetOf (.response 9 0 [1, 2, 3, 4])) ∧ findOut d 9 = some o ∧ d.time ≤ o.deadline ∧
      findBlock d o.block ≠ none ∧ o.keys.head? = some 160 ∧ 160 < 2 ^ 20 ∧ findOut d 8 = none) ∧
    (outAt .access 100).keys = [] ∧
    (let o := { outAt .access 99 with returns := false }; let d := devOut o []
     findOut d 9 = some o ∧ o.purpose = .access ∧ o.deadline < d.time) ∧
    (let d := devPort {}; let p : Packet := packetOf (.ack 6)
     2 + 3 ≤ 5 ∧ p.src ≠ d.pkg ∧ p.dst < 1024 ∧ p.dst = d.pkg ∧ p.dead = false ∧ takeNow d p = none ∧
      (takeNow d (packetOf (.launchBegun 0 0))).isSome = true) ∧
    (let d := devPort {}; let p : Packet := passing (.ack 6)
     p.src ≠ d.pkg ∧ p.dst < 1024 ∧ p.dst ≠ d.pkg ∧ p.dead = false ∧ PacketBody.pinnedCid p.body = none ∧
      p.body = .ack 6 ∧ liveListed d p.dst ≠ []) ∧
    (let p : Packet := passing (.form 7 2 5 0 1000)
     p.body = .form 7 2 5 0 1000 ∧ (liveListed (devPort {}) p.dst).head? = some 3) ∧
    (let d := { devPort {} with vias := [⟨1, 7, 2, 1, 3⟩] }; let p : Packet := passing (pieceTo 0 1)
     PacketBody.pinnedCid p.body = some 7 ∧ (portAt d 3).live = true ∧
      d.vias.find? (fun v => v.owner = p.owner && v.cid = 7 && v.src = p.src && v.dst = p.dst) = some ⟨1, 7, 2, 1, 3⟩) ∧
    (let d := { devPort { live := false } with vias := [⟨1, 7, 2, 1, 3⟩], routes := [(2, { ports := [4], nport := 1, hops := 2 })] }
     (portAt d 3).live = false ∧ liveListed d 2 ≠ []) ∧
    (sentPacket.src = (devColl {}).pkg ∧ sentPacket.dst ≠ (devColl {}).pkg ∧ PacketBody.pinned sentPacket.body = true ∧
      sentAs (devColl {}) { sentPacket with dead := true } = some sentOf ∧ PacketBody.destRank sentPacket.body = some 1 ∧
      findColl (devColl {}) 4 = some (collOf .active) ∧ (collOf .active).ended = false ∧
      (Machine.consistAt (devColl {}) (collOf .active).die (collOf .active).cid).isSome = true ∧
      sentAs (devPort {}) { sentPacket with dead := true } = none) ∧
    ((portAt (devPort {}) 3).live = true ∧ (portAt (devPort {}) 3).retraining = false ∧ (portAt (devPort {}) 3).fails = 0 ∧
      (portAt (devPort {}) 15).live = true) ∧
    (let x : Port := { fails := 8, firstFail := 10000 }; let d := devPort x
     (portAt d 3).live = true ∧ (portAt d 3).retraining = false ∧ 8 ≤ (portAt d 3).fails ∧ d.time ≤ x.firstFail + 10000) ∧
    (let x : Port := { fails := 8, firstFail := 10000, retraining := true, since := 15000 }; let d := devPort x
     (portAt d 3).live = true ∧ (portAt d 3).retraining = true ∧ (portAt d 3).firstFail + 10000 ≤ d.time ∧ d.colls = []) ∧
    (let d := devPort { fails := 8, firstFail := 10000, retraining := true, since := 18000 }
     (portAt d 3).retraining = true ∧ (portAt d 3).live = true ∧ d.time ≤ (portAt d 3).since + 2000 ∧
      d.time ≤ (portAt d 3).firstFail + 10000) ∧
    (let d := devPort { live := false }
     d.recovery = false ∧ (portAt d 3).live = false ∧ (portAt d 3).retraining = false) ∧
    (let d := devPort { live := false, retraining := true, since := 10000 }
     (portAt d 3).retraining = true ∧ (portAt d 3).live = false ∧ d.time ≤ (portAt d 3).since + 10000) ∧
    (let d := { devDirty with time := 50000 }
     (∃ x, x ∈ d.dirty ∧ x.cluster = 0 ∧ x.sector = 0x800 ∧ x.since + 50000 ≤ d.time ∧
       ∀ o, o ∈ d.objs → o.cluster = 0 → o.priv = true → inObj o (0x800 / 4) x.key = false) ∧
      d.dirty.filter (fun y => y.cluster = 0 && y.sector = 0x800) = [dirtyAt] ∧
      dirtyAt.kept d = false ∧ 0x1000 / 128 ≠ 0x800 / 4 ∧ dirtyAt.bytes = [] ++ (31, 0x5A) :: [] ∧
      ∀ e, e ∈ ([] : List (Nat × Byte)) → e.1 ≠ 31) := by
  and_intros <;> decide +kernel
/-! Jobs, forks and collectives -/

/-- One byte copied from 0x8000 to 0x9000 by owner 1, and the same into landing buffers. -/
def byteAt (a : Nat) : Layout := { layoutAt with base := a, ilv := 0 }
def byteJob : Job := { jobAt with src := byteAt 0x8000, dst := byteAt 0x9000 }
def castJob : Job :=
  { byteJob with kind := .multicast, chan := 9, dst := { byteAt 0 with scratch := true } }
def devJob (j : Job) : Dev :=
  { stMem.dev with jobs := [j], blocks := [{ blockAt with lbufs := [{ bufAt with mode := 0, free := true }] }], channels := [chanAt] }
/-- A fork of block 0 with two children, in each state, and its children. -/
def childOf (i : Nat) (st : ChildState) : Child := { idx := i, state := st }
def forkIn (st : ForkState) (c : List Child) : Fork :=
  { forkAt with owner := 1, fr := { forkAt.fr with nch := 2, domain := 1 }, state := st, children := c }
def devFork (f : Fork) : Dev :=
  { parts := [{ partAt with pod := [0, 1] }], blocks := [{ blockAt with shape := { blockAt.shape with owner := 1 } }], forks := [f]
    nextBlock := 1 }
/-- A page of the first child that wrote 5 over 0 in its first byte. -/
def pageOf (b : List (Nat × Byte)) : Shadow := { redop := 0, pa := 0x10000, bytes := b, dirt := [(0, true)] }
def forkMerge : Fork :=
  { forkIn .running [{ childOf 0 .ended with shadows := [(0, pageOf [(0, 5)])] }, childOf 1 .unstarted] with
    twins := [(0, { pageOf [] with dirt := [] })] }

theorem witness_JobsArePerformedAndForksJoined :
    ((devJob byteJob).jobs.find? (fun x => x.id = 0) = some byteJob ∧ byteJob.kind ≠ .multicast ∧ byteJob.waits (devJob byteJob) = false ∧
      held (devJob byteJob) byteJob = false ∧ trackerHolds (devJob byteJob) byteJob.id = true ∧ byteJob.dropped = false ∧ byteJob.performed = false ∧ byteJob.dst.scratch = false ∧
      byteJob.mode = 0) ∧
    OneElement (devJob byteJob) byteJob [0, 0, 0, 0, 0] 0x18000 ∧
    (∃ l, engXlat (devJob byteJob) byteJob.owner (vaOf (byteJob.dst.addr (addCoords byteJob.card.dorg [0, 0, 0, 0, 0]))) .write
      byteJob.parked = .ok (l, 0x19000) ∧ l.kind ≠ .view) ∧
    StatusAt (copied (devJob byteJob) byteJob 0x18000 0x19000 1) byteJob 0x10060 ∧ StatusAt (devJob castJob) castJob 0x10060 ∧
    (∀ i, i < byteJob.dst.type.size → (0x19000 + i) / 128 ≠ 0x10060 / 128) ∧
    (({ byteJob with dropped := true } : Job).dropped = true ∧ castAt.performed = true ∧ castAt.arrivals ≠ []) ∧
    OneElement (devJob castJob) castJob [0, 0, 0, 0, 0] 0x18000 ∧
    (let d := devJob castJob
     d.channels.find? (fun c => c.id = castJob.chan) = some chanAt ∧ castJob.kind = .multicast ∧ castJob.waits d = false ∧
      held d castJob = false ∧ trackerHolds d castJob.id = true ∧ (∀ b, b ∈ chanAt.members → receiverFree d chanAt.id b = true) ∧ chanAt.revoked = [] ∧
      castJob.dst.scratch = true ∧ castJob.mode = 0 ∧ (∀ r, r ∈ receivers d chanAt.id → r.2.mode = 0) ∧ receivers d chanAt.id ≠ [] ∧
      (∀ x, x ∈ d.jobs.takeWhile (fun x => x.id ≠ castJob.id) → x.kind = .multicast → x.chan = castJob.chan → x.performed = true)) ∧
    (let f := forkIn .running [childOf 0 .unstarted, childOf 1 .unstarted]; let d := devFork f
     forkOf d 0 = some f ∧ f.child 1 = some (childOf 1 .unstarted) ∧ f.mayStart (childOf 1 .unstarted) = true ∧
      f.mayRerun (childOf 1 .unstarted) = false ∧ orphansRun d f = false ∧ f.pkgOf d 1 = d.pkg) ∧
    (let f := forkIn .running [childOf 0 .unstarted]; let d := devFork f; let p := { blockAt with shape := { blockAt.shape with owner := 1 } }
     parentOf d f = some p ∧ p.key = 0 ∧ sameDomain f.fr.domain 1 p.core = true ∧ ownCluster d f.owner 1 = true ∧
      roomFor d 1 (childShape p.shape (launchKeeps d p) f.fr) = true ∧
      (takeSave d f.owner (childShape p.shape (launchKeeps d p) f.fr).saveBytes).isSome = true ∧ f.home = none) ∧
    (let f := { forkIn .running [childOf 0 .ended] with home := some (1, 0, 0) }; let d := devFork f
     forkOf d 0 = some f ∧ f.children = [childOf 0 .ended] ∧ (childOf 0 .ended).state = .ended ∧ childJobs d f.block 0 = false) ∧
    FreshKeys (devFork forkMerge) ∧
    (let f := forkIn .serial [childOf 0 .discarded, childOf 1 .discarded]
     f.mayRerun (childOf 0 .discarded) = true ∧ f.mayRerun (childOf 1 .discarded) = false ∧ f.mayStart (childOf 0 .discarded) = false) ∧
    (let f := { forkIn .running [childOf 0 .unstarted, childOf 1 .unstarted] with fr := { forkAt.fr with nch := 2, domain := 4 } }
     f.pkgOf (devFork f) 1 ≠ (devFork f).pkg) ∧
    (let d := devFork forkMerge; let p := { blockAt with shape := { blockAt.shape with owner := 1 } }; let sh := pageOf [(0, 5)]
     findBlock d 0 = some p ∧ forkOf d 0 = some forkMerge ∧ forkMerge.home = none ∧ orphansRun d forkMerge = false ∧
      childJobs d 0 0 = false ∧ forkMerge.state ≠ .joined ∧
      forkMerge.m < forkMerge.bound ∧
      forkMerge.child forkMerge.m = some { childOf 0 .ended with shadows := [(0, sh)] } ∧
      ({ childOf 0 .ended with shadows := [(0, sh)] } : Child).poisoned = false ∧ p.child = none ∧ isReduction sh.redop = false ∧
      sh.redop ≠ 13 ∧ (twinAt d 0 0).isSome = true ∧ ((0 : Nat) / 128, true) ∈ sh.dirt ∧ sh.read 0 ≠ ({ pageOf [] with dirt := [] } : Shadow).read 0 ∧
      homeByte ((viewOf d p).settle d sh) (keyOf d 1) sh.pa = ({ pageOf [] with dirt := [] } : Shadow).read 0) ∧
    (let f := { forkIn .running [childOf 0 .merged, childOf 1 .merged] with m := 2 }; let d := devFork f
     forkOf d 0 = some f ∧ (findBlock d 0).isSome = true ∧ orphansRun d f = false ∧ f.bound ≤ f.m ∧ f.fr.log = 0 ∧
      f.state ≠ .joined ∧ f.failb < 256 ∧ ∀ c, c ∈ f.children → c.idx < 256) := by
  unfold FreshKeys OneElement StatusAt
  refine ⟨?_, ⟨?_, ?_, ?_, ?_, ?_, ?_, ?_, ?_, ?_, ?_, pageAt .ordinary 0x10000, ?_, ?_, ?_⟩, ⟨pageAt .ordinary 0x10000, ?_, ?_⟩,
    ⟨?_, pageAt .ordinary 0x10000, ?_⟩, ⟨?_, pageAt .ordinary 0x10000, ?_⟩, ?_, ?_,
    ⟨?_, ?_, ?_, ?_, ?_, ?_, ?_, ?_, ?_, ?_, pageAt .ordinary 0x10000, ?_, ?_, ?_⟩, ?_⟩
  all_goals and_intros <;> decide +kernel

theorem witness_CollectivesFormExchangeAndAbort :
    -- formation
    (let d := { devColl {} with consists := [{ consistOf .forming with members := [(0, 0), (1, 0), (2, 0)] }] }
     let c := { consistOf .forming with members := [(0, 0), (1, 0), (2, 0)] }
     cidKey d 1 7 = 0x10007 ∧ heldHere d 0x10007 = some c ∧ heldHere d 0x10008 = none ∧ c.owner = 1 ∧ c.owner ≠ 2 ∧ c.state = .forming ∧
      c.digest ≠ 6 ∧ c.digest = 5 ∧ 1 ∉ c.forms ∧ c.forms.length + 1 < c.members.length) ∧
    (∃ p : Packet, p.body = .form 7 3 5 1 1000 ∧ (devColl {}).inbox.length = 0 ∧
      ({ devColl {} with inbox := [p] } : Dev).inbox[0]? = some p) ∧
    (let d := { devColl {} with consists := [consistOf .forming] }
     Machine.consistAt d 0 0x10007 = some (consistOf .forming) ∧ (consistOf .forming).limit ≠ 0 ∧ (consistOf .forming).limit ≤ d.time) ∧
    (consistOf .ready).state ≠ .forming ∧ pinsOf (devColl {}) [(0, 0), (1, 0)] = some [(1, 3)] ∧
    pinsOf (devColl { live := false }) [(0, 0), (1, 0)] = none ∧
    (packetOf (.gone 7 1)).body = .gone 7 1 ∧
    -- pieces, probes and results
    (let p := { packetOf (pieceTo 1 0) with deadline := 20000 }
     PacketBody.isPiece p.body = true ∧ Passes (devColl {}) p 7 1 (consistOf .ready) ∧
      consistOfRank (devColl {}) (consistOf .ready) 0 = some (consistOf .ready) ∧ (consistOf .ready).state ≠ .broken) ∧
    (collAt { devColl {} with colls := [collOf .done] } 0 0x10007 1 1 = some (collOf .done) ∧ (collOf .done).ended = true) ∧
    Discarded (devColl {}) { packetOf (pieceTo 1 0) with deadline := 20000 } 7 2 ∧
    Discarded (devColl {}) (packetOf (pieceTo 1 0)) 7 1 ∧
    (PacketBody.isPiece (.ack 6) = true ∧ PacketBody.isPiece (.probe 7 1 1 1 0) = true ∧ (collOf .active).subs ≠ []) ∧
    (let p := { packetOf (.result 6 7 1 1 1 0 0 0 [1, 2, 3, 4] []) with deadline := 20000 }
     Passes (devColl {}) p 7 1 (consistOf .ready)) ∧
    -- sent again; its port dies
    ((devColl {}).sent.find? (fun y => y.id = 6) = some sentOf ∧ sentOf.resend ≤ (devColl {}).time ∧ (devColl {}).time ≤ sentOf.deadline ∧
      sentOf.packet.body = pieceTo 0 1 ∧ findColl (devColl {}) sentOf.coll = some (collOf .active) ∧
      Machine.consistAt (devColl {}) 0 0x10007 = some (consistOf .ready) ∧ sentOf.packet.dst ≠ (devColl {}).pkg ∧
      (consistOf .ready).pins.find? (fun y => y.1 = sentOf.packet.dst) = some (1, 3) ∧ (portAt (devColl {}) 3).live = true ∧
      (portAt (devColl {}) 3).retraining = false ∧ (portAt (devColl { live := false }) 3).live = false ∧
      PacketBody.destRank sentOf.packet.body = some 1) ∧
    -- probes, limits, deadlines and notices
    (let card : CollCard := { cid := 7, op := 0, red := 0, clog := 7, pri := false, root := 0, seq := 1, limit := 1, count := 4 }
     let c := { collOf .active with card := some card, granted := [(0, 2)], paid := [(0, 0)] }
     let k := { consistOf .ready with members := [(0, 0), (0, 1)] }
     let d := { devColl {} with consists := [k], colls := [c], sent := [], time := 20000 }
     findColl d 4 = some c ∧ c.state = .active ∧ c.heard + deadlineOf d k.owner 3 ≤ d.time ∧ awaitedRanks d c k = [1] ∧
      (memberAt k 1).1 = d.pkg ∧ c.ended = false ∧ card.limit ≠ 0 ∧ c.started + 1000 * card.limit ≤ d.time) ∧
    (let d := { devColl {} with time := 20001 }
     sentOf ∈ d.sent ∧ sentOf.coll = 4 ∧ PacketBody.destRank sentOf.packet.body = some 1 ∧ sentOf.deadline < d.time ∧
      findColl d 4 = some (collOf .active) ∧ (Machine.consistAt d 0 0x10007).isSome = true ∧
      findColl { d with colls := [] } 4 = none) ∧
    (let p := { packetOf (.notice 6 7 1 1 2 1 1 50 0) with deadline := 20000 }
     Passes (devColl {}) p 7 1 (consistOf .ready) ∧ (consistOf .ready).state = .ready ∧
      collAt (devColl {}) 0 0x10007 1 1 = some (collOf .active) ∧ (collOf .active).ended = false) ∧
    (let x : Sent := { sentOf with packet := { sentPacket with body := .notice 6 7 1 1 2 1 1 50 0 } }
     x.packet.body = .notice 6 7 1 1 2 1 1 50 0 ∧ x.resend ≤ 20000 ∧ 20000 ≤ x.deadline ∧ x.deadline < 20001) := by
  unfold Passes Discarded
  refine ⟨?_, ⟨packetOf (.form 7 3 5 1 1000), ?_⟩, ?_, ?_, ?_, ?_, ?_, ?_, ?_, .inr (.inr ⟨consistOf .ready, ?_⟩), .inl ?_, ?_⟩
  all_goals and_intros <;> decide +kernel
/-! The host: function 0 serves owners 1 to 4, owner 1 created, its memory at 0x10000 mapped at address 0 -/

/-- A fault of 64 bytes and a termination, waiting since 0 in an enabled ring of 16 slots at 0x20000. -/
def ringRec (tag : Nat) (term : Bool) : RingRec := { tag := tag, term := term, bytes := List.replicate 64 0, since := 0 }
def ringAt (w : List RingRec) : FaultQ := { base := 0x20000, log2n := 4, enabled := true, waiting := w }
def devFn (f : Func) : Dev :=
  { parts := [partAt], owners := [(1, { created := true })], funcs := [(0, f)], time := 200000000
    tlb := [⟨1, 0, pageAt .ordinary 0x10000⟩] }
def tagAt (posted : Option Nat) : FaultTag := { tag := 5, fn := 0, owner := 1, block64 := 0, cause := 0, posted := posted }
/-- A partition record at 0x1000 in memory (part 1, owners 2 and 3, cluster 0, 1 GiB of each die, pod table at 0x2000). -/
def recordMem : List Host.Cell :=
  [⟨0x1000, 1⟩, ⟨0x1002, 2⟩, ⟨0x1004, 2⟩, ⟨0x1008, 1⟩, ⟨0x100A, 1⟩, ⟨0x100C, 1⟩, ⟨0x101A, 0x20⟩, ⟨0x1022, 0x10⟩, ⟨0x1033, 0x40⟩,
   ⟨0x103C, 0x20⟩, ⟨0x1043, 0x40⟩, ⟨0x104C, 0x40⟩, ⟨0x1053, 0x40⟩, ⟨0x105C, 0x60⟩, ⟨0x1063, 0x40⟩, ⟨0x1069, 0x20⟩, ⟨0x1072, 0x10⟩,
   ⟨0x2001, 0x80⟩]

def devRecord : Dev := { mem := recordMem }

theorem test_record_accepted :
    (checkPartition devRecord (homeBytes devRecord (fnKey devRecord 0) 0x1000 256)).toBool = true := by decide +kernel

theorem test_record_of_zeros_refused :
    (checkPartition devRecord (homeBytes devRecord (fnKey devRecord 0) 0x3000 256)).toBool = false := by decide +kernel

theorem witness_FaultRecordsAndCommandsOfTheHost :
    (let d := { devFn {} with tagsOut := [tagAt none] }
     (∃ x, x ∈ d.tagsOut ∧ x.tag = 5 ∧ x.fn = 0) ∧ d.colls = [] ∧ ∀ x, x ∈ d.tagsOut → x.tag ≠ 6) ∧
    (let w : DWord := 0x10004; let d := devFn { fq := { base := 0x20000 } }
     w.getLsbD 16 = true ∧ 4 ≤ bits w.toNat 3 0 ∧ (fnAt d 0).fq.base.toNat < 2 ^ 39 ∧ inPartition d 0 0x20000 (64 * 2 ^ 4) = true) ∧
    (let w : DWord := 0x10003; w.getLsbD 16 = true ∧ ¬ 4 ≤ bits w.toNat 3 0) ∧ (4 : DWord).getLsbD 16 = false ∧
    HeadFits (devFn { fq := ringAt [ringRec 5 false] }) 0 false (ringRec 5 false) ∧
    HeadFits (devFn { fq := ringAt [ringRec 0 true] }) 0 true (ringRec 0 true) ∧
    ((ringRec 5 false).bytes.length = 64 ∧ (ringAt []).base.toNat % 4096 = 0) ∧
    (let d := devFn { fq := ringAt [ringRec 0 true, ringRec 5 false] }; let q := ringAt [ringRec 0 true, ringRec 5 false]
     (fnAt d 0).fq = q ∧ q.waiting.find? (fun x => x.term) = some (ringRec 0 true) ∧ (ringRec 0 true).since + 1000 * q.timeout ≤ d.time ∧
      ringRec 5 false ∈ q.waiting) ∧
    (let d := { devFn { fq := ringAt [] } with tagsOut := [tagAt (some 0)] }
     (∃ x, x ∈ d.tagsOut ∧ x.tag = 5 ∧ x.fn = 0 ∧ x.posted = some 0) ∧ 0 + 1000 * (ringAt []).timeout ≤ d.time) ∧
    -- owner commands, one for each cause
    (let d := devFn { oc := { arg0 := 0x20000 } }
     bits 0x2401 63 13 ≠ 0 ∧ bits 0x402 63 13 = 0 ∧ bits 0x402 11 10 = 1 ∧ bits 0x402 9 0 = 2 ∧ fnOwns d 0 5 = false ∧
      fnOwns d 0 2 = true ∧ partOfFn d 0 = some partAt ∧ partAt.ownBase = 1 ∧ created d 2 = false ∧
      createOk d 0 (fnAt d 0).oc.arg0.toNat = true ∧ created d 1 = true ∧ (fnAt d 0).oc.stat ≠ 1 ∧
      invalOk (fnAt d 0).oc.arg0.toNat (fnAt d 0).oc.arg1.toNat = true) ∧
    (let d := { devFn {} with owners := [(2, { created := true })] }
     partAt.ownBase ≠ 2 ∧ created d 2 = true ∧ d.launches = []) ∧
    (fnAt (devFn { oc := { stat := 1, cmd := some (1, 2) } }) 0).oc.stat = 1 ∧
    -- partitions
    (devRecord.pstat ≠ 1 ∧ 0x1000 % 256 = 0 ∧ populated 0x1000 256 = true ∧ 0x1001 % 256 ≠ 0 ∧
      (checkPartition devRecord (homeBytes devRecord (fnKey devRecord 0) 0x1000 256)).toBool = true ∧
      (checkPartition devRecord (homeBytes devRecord (fnKey devRecord 0) 0x3000 256)).toBool = false) ∧
    ((devFn {}).pstat ≠ 1 ∧ bits 0 3 0 = 0 ∧ partOfFn (devFn {}) 0 = some partAt ∧ 0 < partAt.ownCnt) ∧
    ({ devFn {} with pcmd := some (true, 0, 2, 0) } : Dev).pcmd = some (true, 0, 2, 0) := by
  unfold HeadFits
  refine ⟨?_, ?_, ?_, ?_, ?_, ?_, ?_, ?_, ?_, ?_, ?_, ?_, ⟨?_, ?_, ?_, ?_, test_record_accepted, test_record_of_zeros_refused⟩, ?_, ?_⟩
  all_goals decide +kernel

/-- A write of an engine needs only that its blocks translate, whatever it writes. -/
theorem engWrite_of {d : Dev} {o va : Nat} {l : List Byte} {n : Nat} (hn : l.length = n)
    (h : okAnd (engRange d o va n .write none) (fun _ => true) = true) : ∃ e, engWrite d o va l none = .ok e := by
  obtain ⟨x, e⟩ := ok_of h
  exact ⟨_, by rw [engWrite, hn, e]; rfl⟩

/-- n bytes of a number are n. -/
theorem bytesOf_length (n : Nat) : ∀ x, (bytesOf x n).length = n := by
  induction n with
  | zero => intro x; rfl
  | succ n ih => intro x; simp [bytesOf, ih]

/-- A report and its signature fill 2 KiB. -/
theorem signReport_length (b : List Byte) : (signReport b).length = b.length + 0x600 := by
  simp [signReport, bytesOf_length]

/-- The partition with a digest of its record of 64 bytes. -/
def partDigest : Partition := { partAt with digestOf := List.replicate 64 0 }

theorem witness_HostReachesMemoryAndRegisters :
    (let w : DWord := 1; let v : DWord := 0x401
     w.getLsbD 10 = false ∧ v.getLsbD 10 = true ∧ bits w.toNat 9 0 = 1 ∧ bits v.toNat 9 0 = 1) ∧
    (let h : Handover := { hova := 0x100, holen := 128, hosw := 0x200 }; let d := devFn { ho := h }
     (fnAt d 0).ho = h ∧ h.busy = false ∧ handoverOk d 0 1 h = true ∧ h.holen.toNat = 128 ∧
      handoverXlat d 1 h.hova.toNat = some 0x10100 ∧ handoverOk d 0 2 h = false ∧ isHost (128 * (0x10100 / 128)) = false) ∧
    (let h : Handover := { hosw := 0x200, busy := true, owner := 1 }; let d := devFn { ho := h }
     (fnAt d 0).ho.busy = true ∧ fnOwns d 0 1 = true ∧ created d 1 = true ∧ h.hosw.toNat % 8 = 0 ∧
      handoverXlat d 1 h.hosw.toNat = some 0x10200 ∧ 0x10200 % 8 = 0) ∧
    isHost (128 * ((2 ^ 39 + 0x100) / 128)) = true ∧
    (let w : DWord := 0x1000000000000800
     bits w.toNat 63 60 = 1 ∧ bits w.toNat 59 57 = 0 ∧ bits w.toNat 56 0 = 0x800 ∧ 0x800 % 2048 = 0 ∧
      partOfFn (devFn {}) 0 = some partAt) ∧
    (∃ b bad e, engRead { devFn {} with parts := [partDigest] } 1 0x800 0x30 none = .ok (b, bad) ∧ b.length = 0x30 ∧
      engWrite { devFn {} with parts := [partDigest] } 1 0x800
        (signReport (reportBody { devFn {} with parts := [partDigest] } partDigest (b.drop 16))) none = .ok e) ∧
    (∃ c, c ∈ ({ devFn {} with rangeCache := [⟨0, 1, []⟩] } : Dev).rangeCache ∧ c.part = 0 ∧ c.src = bits (1 : DWord).toNat 9 0) ∧
    (let d := devFn { hkey := 1 }
     windowBytes d 0 0x1FFFFF 1 = some [0x20FFFF] ∧ windowBytes d 0 0x1FFFFF 2 = none ∧ ([0x20FFFF] : List Nat).Nodup ∧
      poisoned d 0x20FFFF 1 = false ∧ savedByte d 0x20FFFF = none) ∧
    (let d := devFn { vectors := [(0, { pending := true })] }
     liveVector d 0 0 = true ∧ (Sparse.get {} (fnAt d 0).vectors 0).pending = true ∧ (fnAt d 0).fmask = false ∧
      (Sparse.get {} (fnAt d 0).vectors 1).pending = false) ∧
    (∃ f, PlainReg 0x1000 0x123456 f) ∧ (∃ f, PlainReg 0x2018 1000000000 f) ∧
    (0x1001 % 8 ≠ 0 ∧ (devFn {}).recovery = false ∧ 8184 < 8192 ∧ 8184 % 8 = 0 ∧ 8184 / 8 = 1023) ∧
    (∃ i, EventReg 0 0x1008 0x10004 i) ∧ ∃ i, EventReg 15 0x1020 0x100000005 i := by
  refine ⟨by decide +kernel, by decide +kernel, by decide +kernel, by decide +kernel, by decide +kernel, ?_, by decide +kernel,
    by decide +kernel, by decide +kernel, ⟨_, .fqBase _⟩, ⟨_, .fdl3 _ (by decide +kernel) (by decide +kernel)⟩, by decide +kernel,
    ⟨_, .fqcfg1 _ _ (by decide +kernel)⟩, ⟨_, .retry _ _ (by decide +kernel)⟩⟩
  obtain ⟨⟨b, bad⟩, e, hb⟩ := of_okAnd (x := engRead { devFn {} with parts := [partDigest] } 1 0x800 0x30 none)
    (p := fun x => x.1.length == 0x30) (by decide +kernel)
  have hl : b.length = 0x30 := by simpa using hb
  obtain ⟨t, ht⟩ := engWrite_of (d := { devFn {} with parts := [partDigest] }) (o := 1) (va := 0x800) (n := 2048)
    (l := signReport (reportBody { devFn {} with parts := [partDigest] } partDigest (b.drop 16)))
    (by simp [signReport_length, reportBody, bytesOf_length, partDigest, hl]) (by decide +kernel)
  exact ⟨b, bad, t, e, hl, ht⟩
/-! Health, and the step -/

/-- 112 numbers, x at island i and y at the others. -/
def islandsOf (i x y : Nat) : List Nat := (List.range 112).map fun j => if j = i then x else y

theorem witness_HealthAndResets :
    (let w : DWord := 0x200000000001; w.getLsbD 45 = true ∧ (0 : DWord).getLsbD 45 = false ∧ 127 < 128) ∧
    (let d : Dev := { monitors := [(127, { src := 7, run := true })] }
     let m := Sparse.get {} d.monitors 127; m.run = true ∧ 1 ≤ m.src ∧ m.src ≤ 7 ∧ 2 ^ 32 - 1 < 2 ^ 32) ∧
    ((islandsOf 3 0 1).length = 112 ∧ (∃ i, i < 112 ∧ 8 * 115 < nth 0 (islandsOf 3 921 0) i) ∧
      (∀ i, i < 112 → ¬ 8 * 115 < nth 0 (islandsOf 3 920 0) i) ∧ (∃ i, i < 112 ∧ 8 * 105 < nth 0 (islandsOf 3 841 0) i) ∧
      (∀ i, i < 112 → ¬ 8 * 105 < nth 0 (islandsOf 3 840 0) i) ∧ (∃ i, i < 112 ∧ 8 * 95 < nth 0 (islandsOf 3 761 0) i) ∧
      (∀ i, i < 112 → ¬ 8 * 95 < nth 0 (islandsOf 3 760 0) i) ∧ (∀ x, x ∈ islandsOf 3 719 0 → x < 720) ∧
      (∃ x, x ∈ islandsOf 3 720 0 ∧ 720 ≤ x)) ∧
    FirstGreatest (nth 0 (islandsOf 111 5 0)) 111 ∧ FirstGreatest (nth 0 (islandsOf 3 5 5)) 0 ∧ FirstGreatest (stepOf {}) 0 ∧
    stepOf { steps := [(3, 9)] } 3 = 9 ∧ stepOf {} 3 < 9 ∧
    (let d : Dev := { corrected := [(5, 1)], time := 1000000 }
     Sparse.get 0 d.corrected 6 = 0 ∧ Sparse.get 0 d.corrected 5 + 1000000 ≤ d.time + 1) ∧
    (partOfFn { parts := [{ partAt with part := 15 }] } 15 = some { partAt with part := 15 } ∧ (0 : Nat) < partAt.ownCnt) ∧
    (let f : Flash := { images := [(2, { version := 3 })] }; slotImage f 1 0 = { version := 3 } ∧ 2 * 1 + 0 ≠ 2 * 1 + b2n true) ∧
    ({ version := 3, slice := 1000000 } : Image).slice ≤ 1000000000 := by
  unfold FirstGreatest
  and_intros <;> decide +kernel

/-- A group whose slot 0 stands at the given word of an issued clause, its guard true for every lane. -/
def stWord (x : Word) : State :=
  { focused := true, blk := blockAt
    grp := { slot0 := { slotAt 0 with clause := some ⟨0x4000, [0x70700000, x, 0, 0, 0, 0, 0, 0], all32⟩ }, live := all32 } }
/-- The same block with its group at rest, and a turn for it. -/
def stTurn (x : Word) : State :=
  { agenda := [.run 0 0 false], dev := { blocks := [{ blockAt with groups := [(stWord x).grp] }] } }
/-- A stream that stands at the given word. -/
def stStream (x : Word) : State :=
  { focused := true, onStream := true, blk := { blockAt with seq := { pc := 0x4000, run := true, words := some [x] } } }

theorem witness_AStepRunsTheDecodedInstruction :
    (∀ x, x ∈ [0x000C30CA, 0x00000081, 0xFFFFFFFF] → (stWord x).agenda = [] ∧ StandsAt (stWord x) x) ∧
    (decode 0x000C30CA = .ok (.iadd 24 48 (.v 101)) ∧ Allocated blockAt.shape (.iadd 24 48 (.v 101)) ∧
      ¬ Allocated { blockAt.shape with vregs := 101 } (.iadd 24 48 (.v 101)) ∧ 0x000C30CA / 2 ^ 28 ≠ 15) ∧
    (decode 0x00000081 = .error .illegalOperand ∧ 0x00000081 / 2 ^ 28 ≠ 15) ∧ decode 0xFFFFFFFF = .error .illegalInstruction ∧
    StreamAt (stStream 0xF16C8D00) 0xF16C8D00 ∧ decode 0xF16C8D00 = .ok (.mma 22 17 40) ∧
    Allocated blockAt.shape (.mma 22 17 40) ∧ StreamAt (stStream 0x000C30CA) 0x000C30CA ∧
    (∃ t, ({ stTurn 0x000C30CA with agenda := [] } : State).focus 0 0 false = some t ∧ StandsAt t 0x000C30CA) ∧
    ({ agenda := [.event .coldReset] } : State).agenda = .event .coldReset :: [] ∧ encode .coldReset = none := by
  unfold StandsAt StreamAt Allocated
  refine ⟨?_, by decide +kernel, by decide +kernel, by decide +kernel, ?_, by decide +kernel, by decide +kernel, ?_, ?_,
    by decide +kernel, by decide +kernel⟩
  · intro x hx
    fin_cases hx <;> exact ⟨rfl, by decide +kernel, by decide +kernel, by decide +kernel, by decide +kernel, _, rfl,
      by decide +kernel, by decide +kernel⟩
  · exact ⟨rfl, rfl, rfl, by decide +kernel, by decide +kernel, _, rfl, by decide +kernel⟩
  · exact ⟨rfl, rfl, rfl, by decide +kernel, by decide +kernel, _, rfl, by decide +kernel⟩
  · exact ⟨_, rfl, by decide +kernel, by decide +kernel, by decide +kernel, by decide +kernel, _, rfl, by decide +kernel, by decide +kernel⟩

theorem witness_EncodedInstructionsDecodeBack :
    (Instr.iadd 24 48 (.v 101)).wf = true ∧ encode (.iadd 24 48 (.v 101)) = some 0x000C30CA := by decide +kernel

theorem witness_DecodedWordsEncodeBack : 0x000C30CA < 2 ^ 32 ∧ decode 0x000C30CA = .ok (.iadd 24 48 (.v 101)) := by decide +kernel

/-- A held register of which lanes 0 and 1 are awaited. -/
def holdAt (r : Nat) (arr conf : Mask) : Hold := { reg := r, held := true, hmask := 3, arr := arr, conf := conf }
def stHold (h : List Hold) : State := st0.onGrp fun g => { g with holds := h }
def stWait (k : Nat) : State := st0.onGrp fun g => { g with pend := [{ busy with vkeys := [k] }] }

theorem witness_OperandsAreAwaited :
    (st0.grp.pend = [] ∧ st0.grp.holds = [] ∧ st0.grp.tags = [] ∧ st0.grp.stags = [] ∧ st0.badNames all32 ([.v 3 1] ++ [.v 4 1]) = 0) ∧
    (st0.renamed = false ∧ st0.part ≠ 0) ∧
    (let s := stWait (32 * 5 + 31)
     s.renamed = false ∧ s.part ≠ 0 ∧ s.grp.holds = [] ∧ { busy with vkeys := [32 * 5 + 31] } ∈ s.grp.pend ∧ inM s.part 31 = true ∧
      (∀ e, e ∈ s.grp.pend → ∀ L, L < 32 → 32 * 6 + L ∉ e.vkeys)) ∧
    ((stHold [holdAt 5 1 1]).grp.holdOf 5 = some (holdAt 5 1 1) ∧ (holdAt 5 1 1).conf ≠ 0) ∧
    ((stHold [holdAt 5 1 0]).grp.holdOf 5 = some (holdAt 5 1 0) ∧ (holdAt 5 1 0).held = true ∧
      (holdAt 5 1 0).hmask &&& ~~~ (holdAt 5 1 0).arr ≠ 0) ∧
    ((stHold [holdAt 5 3 0]).grp.holdOf 5 = some (holdAt 5 3 0) ∧ (holdAt 5 3 0).hmask &&& ~~~ (holdAt 5 3 0).arr = 0 ∧
      (stHold [holdAt 5 3 0]).grp.pend = [] ∧ (stHold [holdAt 5 3 0]).grp.tags = [] ∧ (stHold [holdAt 5 3 0]).grp.holdOf 6 = none) := by
  decide +kernel

theorem witness_MovsCopiesAUniformRegister :
    st0.blocked st0.part [.s 5 1] [.v 3 1] = none ∧ (0x0D400001 / 2 ^ 22 = 53 ∧ 0x0D400001 / 2 ^ 8 % 2 ^ 7 = 0 ∧
      0x0D400001 % 2 = 1 ∧ 0x0D400001 / 2 ^ 7 % 2 = 0) ∧ (0x0D400101 / 2 ^ 22 = 53 ∧ 0x0D400101 / 2 ^ 8 % 2 ^ 7 ≠ 0) ∧
    (0x0D400000 / 2 ^ 22 = 53 ∧ 0x0D400000 % 2 = 0) ∧ 0x1D400001 / 2 ^ 22 = 64 + 53 := by decide +kernel

theorem witness_UniformCopyAndCounts :
    (GuardHolds st0 .always ∧ st0.blocked 1 [.s 5 1] [.s 3 1] = none) ∧ ¬ GuardHolds st0 (.on 3 false) ∧
    (0x8400000E / 2 ^ 28 = 8 ∧ 0x8400000E / 2 ^ 22 % 64 = 16 ∧ 0x8400000E / 2 ^ 4 % 2 ^ 6 = 0 ∧ 0x8400001E / 2 ^ 4 % 2 ^ 6 ≠ 0 ∧
      0x8480000E / 2 ^ 22 % 64 = 18) :=
  ⟨⟨trivial, by decide +kernel⟩, by unfold GuardHolds; decide +kernel, by decide +kernel⟩

theorem witness_LowestLaneIsRead :
    (GuardHolds st0 .always ∧ st0.onPath ≠ 0 ∧ inM st0.onPath 0 = true ∧ (∀ M, M < 0 → inM st0.onPath M = false) ∧
      st0.blocked (BitVec.ofNat 32 (2 ^ 0)) [.v (63 + 64 * b2n true) 1] [.s 3 1] = none) ∧
    (let s := st0.onSlot fun x => { x with act := 0 }; s.onPath = 0 ∧ s.blocked 1 [] [.s 3 1] = none) ∧
    (0x8500000E / 2 ^ 22 = 532 ∧ 0x8500000E < 2 ^ 32 ∧ 0x8500000E / 2 ^ 5 % 2 ^ 5 = 0 ∧ 0x8500002E / 2 ^ 5 % 2 ^ 5 ≠ 0) :=
  ⟨⟨trivial, by decide +kernel⟩, by decide +kernel, by decide +kernel⟩

theorem witness_EveryStepKeepsMemoryCanonical : ∃ s t, State.Inv s ∧ step s = .next t := by
  refine ⟨{ agenda := [.tick 1 1 []] }, _, by decide +kernel, rfl⟩

theorem witness_EveryStepKeepsWholePages :
    State.WholePages stMem ∧ ∃ s t, State.WholePages s ∧ step s = .next t := by
  refine ⟨?_, { agenda := [.tick 1 1 []] }, _, ?_, rfl⟩
  · intro t h
    simp only [stMem, List.mem_singleton] at h
    rw [h]
    exact ⟨by decide, by decide⟩
  · intro t h
    cases h

/-- The worked walk of R384: the load goes to die 1, quadrant 2, slice 32. -/
theorem test_fold_of_the_worked_walk :
    homeDie 0x2000450040 = 1 ∧ l2Slice 0x2000450040 = 32 ∧ quadrantOf 0x2000450040 = 2 := by decide

end Sys2Proof.Tests
end

/-! PROOFS. Home memory: what a store at home leaves for a later read under the same key, what it leaves alone, and what a
write-back leaves in the lists of dirty sectors and of host-window lines (12 R249-R252, R265, R266, 21 R397). -/

namespace Sys2Proof.Machine

open Sys2Proof

/-! ## Lists of writes to a table -/

section
variable {α β : Type} [DecidableEq α]

/-- A key that none of the writes names keeps its value. -/
theorem Sparse.get_puts_other (d : α) (l : List β) (key : β → Nat) (val : β → α) (t : Table α) (k : Nat)
    (h : ∀ e, e ∈ l → key e ≠ k) : Sparse.get d (l.foldl (fun t e => Sparse.put d t (key e) (val e)) t) k = Sparse.get d t k := by
  induction l generalizing t with
  | nil => rfl
  | cons e l ih =>
    rw [List.foldl_cons, ih _ fun x hx => h x (by simp [hx]), Sparse.get_put_other]
    exact fun hk => h e (by simp) hk.symm

/-- A key that one of the writes names, all of different keys, reads as the value written. -/
theorem Sparse.get_puts_mem (d : α) (l : List β) (key : β → Nat) (val : β → α) (t : Table α) (hl : (l.map key).Nodup) {e : β}
    (he : e ∈ l) : Sparse.get d (l.foldl (fun t e => Sparse.put d t (key e) (val e)) t) (key e) = val e := by
  induction l generalizing t with
  | nil => cases he
  | cons f l ih =>
    obtain ⟨hf, hl⟩ := List.nodup_cons.1 hl
    rcases List.mem_cons.1 he with rfl | he
    · rw [List.foldl_cons, Sparse.get_puts_other d l key val, Sparse.get_put_self]
      exact fun x hx hk => hf (List.mem_map.2 ⟨x, hx, hk⟩)
    · exact ih _ hl he

end

theorem Memory.read_writes_other {β : Type} (l : List β) (a : β → Nat) (x : β → Byte) (m : Memory) (k : Nat)
    (h : ∀ e, e ∈ l → a e ≠ k) : Memory.read (l.foldl (fun m e => Memory.write m (a e) (x e)) m) k = Memory.read m k :=
  Sparse.get_puts_other Memory.empty l a x m k h

theorem Memory.read_writes_mem {β : Type} (l : List β) (a : β → Nat) (x : β → Byte) (m : Memory) (hl : (l.map a).Nodup) {e : β}
    (he : e ∈ l) : Memory.read (l.foldl (fun m e => Memory.write m (a e) (x e)) m) (a e) = x e :=
  Sparse.get_puts_mem Memory.empty l a x m hl he

/-- The listed bytes of a range read as memory does. -/
theorem get_listed (m : Memory) (lo hi o : Nat) (h : lo + o < hi) : Sparse.get 0 (listed m lo hi) o = Memory.read m (lo + o) := by
  induction m with
  | nil => rfl
  | cons c m ih =>
    obtain ⟨a, x⟩ := c
    by_cases ha : lo ≤ a ∧ a < hi
    · have hk : o = a - lo ↔ lo + o = a := by omega
      simpa [listed, Memory.read, Sparse.get, ha, hk] using if_congr Iff.rfl rfl ih
    · have hk : lo + o ≠ a := by omega
      have hc : (decide (lo ≤ a) && decide (a < hi)) = false := by simpa using ha
      simpa [listed, Memory.read, Sparse.get, hc, hk] using ih

/-! ## What a store at home leaves alone -/

/-- e is d except in home memory, its keys and poison, the host-window lines in L2 and the remote-data caches (R250, R251). -/
def HomeOnly (d e : Dev) : Prop :=
  ∃ mem keys bad l2host rdc, e = { d with mem := mem, keys := keys, bad := bad, l2host := l2host, rdc := rdc }

theorem HomeOnly.refl (d : Dev) : HomeOnly d d := ⟨_, _, _, _, _, rfl⟩

theorem HomeOnly.trans {d e f : Dev} (h : HomeOnly d e) (g : HomeOnly e f) : HomeOnly d f := by
  obtain ⟨_, _, _, _, _, rfl⟩ := h
  obtain ⟨_, _, _, _, _, rfl⟩ := g
  exact ⟨_, _, _, _, _, rfl⟩

theorem HomeOnly.foldl {β : Type} (f : Dev → β → Dev) (hf : ∀ d x, HomeOnly d (f d x)) (l : List β) (d : Dev) :
    HomeOnly d (l.foldl f d) := by
  induction l generalizing d with
  | nil => exact .refl d
  | cons x l ih => exact (hf d x).trans (ih _)

theorem HomeOnly.funcs {d e : Dev} (h : HomeOnly d e) : e.funcs = d.funcs := by obtain ⟨_, _, _, _, _, rfl⟩ := h; rfl
theorem HomeOnly.dirty {d e : Dev} (h : HomeOnly d e) : e.dirty = d.dirty := by obtain ⟨_, _, _, _, _, rfl⟩ := h; rfl

theorem hostFill_homeOnly (d : Dev) (key line : Nat) : HomeOnly d (hostFill d key line) := by
  unfold hostFill
  split
  · exact ⟨_, _, _, _, _, rfl⟩
  · exact .refl d

theorem homeSector_homeOnly (d : Dev) (key s : Nat) (bs : List (Nat × Byte)) (c : Bool) : HomeOnly d (homeSector d key s bs c) := by
  unfold homeSector
  split
  · exact .trans (.trans ⟨_, _, _, _, _, rfl⟩ (hostFill_homeOnly { d with rdc := _ } key (s / 4))) ⟨_, _, _, _, _, rfl⟩
  · exact ⟨_, _, _, _, _, rfl⟩

theorem homeStore_homeOnly (d : Dev) (key pa : Nat) (bytes : List Byte) : HomeOnly d (homeStore d key pa bytes) :=
  HomeOnly.foldl _ (fun _ _ => homeSector_homeOnly ..) _ d

theorem hostStore_homeOnly (d : Dev) (pa : Nat) (bytes : List Byte) : HomeOnly d (hostStore d pa bytes) := ⟨_, _, _, _, _, rfl⟩

theorem systemStore_homeOnly (d : Dev) (key pa : Nat) (bytes : List Byte) : HomeOnly d (systemStore d key pa bytes) := by
  unfold systemStore
  split
  · exact hostStore_homeOnly ..
  · exact homeStore_homeOnly ..

theorem hostWriteLine_homeOnly (d : Dev) (c : CLine) : HomeOnly d (hostWriteLine d c) := ⟨_, _, _, _, _, rfl⟩

theorem hostWriteBack_homeOnly (d : Dev) (p : CLine → Bool) : HomeOnly d (hostWriteBack d p) :=
  HomeOnly.foldl _ hostWriteLine_homeOnly _ d

/-! ## Device bytes after a store at home -/

/-- Whether an address lies in the host window is the same for every byte of a sector. -/
theorem isHost_sector (a : Nat) : isHost (32 * (a / 32)) = isHost a := by
  simp only [isHost, bitOf, decide_eq_decide]
  omega

/-- Whether an address lies in the host window is the same for every byte of a line. -/
theorem isHost_line (a : Nat) : isHost (128 * (a / 128)) = isHost a := by
  simp only [isHost, bitOf, decide_eq_decide]
  omega

/-- A device sector after a write: its bytes, first as decryption makes them where another key wrote it, and its key. -/
theorem homeSector_device (d : Dev) (key s : Nat) (bs : List (Nat × Byte)) (c : Bool) (h : isHost (32 * s) = false) :
    ∃ base : List (Nat × Byte), (∀ e, e ∈ base → e.1 < 32) ∧
      (homeSector d key s bs c).mem = (base ++ bs).foldl (fun m e => Memory.write m (32 * s + e.1) e.2) d.mem ∧
      (homeSector d key s bs c).keys = Sparse.put 0 d.keys s key := by
  refine ⟨if foreignSector d key s then sectorBytes d key s else [], ?_, ?_, ?_⟩
  · intro e he
    split at he
    · rename_i hf
      simp only [sectorBytes, hf, if_true, List.mem_map, List.mem_range] at he
      obtain ⟨i, hi, rfl⟩ := he
      exact hi
    · cases he
  all_goals simp [homeSector, h, foreignSector, sectorBytes]

/-- A byte written to a device sector reads so under the key of the write. -/
theorem homeByte_homeSector_written (d : Dev) (key s : Nat) (bs : List (Nat × Byte)) (c : Bool) (h : isHost (32 * s) = false)
    (hl : (bs.map Prod.fst).Nodup) {e : Nat × Byte} (he : e ∈ bs) (ho : e.1 < 32) :
    homeByte (homeSector d key s bs c) key (32 * s + e.1) = e.2 := by
  obtain ⟨base, -, hm, hk⟩ := homeSector_device d key s bs c h
  have hs : (32 * s + e.1) / 32 = s := by omega
  have hh : isHost (32 * s + e.1) = false := by rw [← isHost_sector, hs, h]
  have hf : foreignSector (homeSector d key s bs c) key s = false := by simp [foreignSector, hk]
  have ha : (bs.map fun e => 32 * s + e.1).Nodup := by
    rw [show (fun e : Nat × Byte => 32 * s + e.1) = (32 * s + ·) ∘ Prod.fst from rfl, ← List.map_map]
    exact hl.map fun x y hxy => by simpa using hxy
  simp only [homeByte, hh, hs, hf, hm, List.foldl_append, Bool.false_eq_true, if_false]
  exact Memory.read_writes_mem bs (fun e => 32 * s + e.1) Prod.snd _ ha he

/-- A device byte of another sector is as it was, under every key. -/
theorem homeByte_homeSector_other (d : Dev) (key s k a : Nat) (bs : List (Nat × Byte)) (c : Bool) (h : isHost (32 * s) = false)
    (ha : isHost a = false) (hs : a / 32 ≠ s) (hb : ∀ e, e ∈ bs → e.1 < 32) :
    homeByte (homeSector d key s bs c) k a = homeByte d k a := by
  obtain ⟨base, hbase, hm, hk⟩ := homeSector_device d key s bs c h
  have hr : ∀ b, b / 32 = a / 32 → Memory.read (homeSector d key s bs c).mem b = Memory.read d.mem b := by
    intro b hb'
    rw [hm]
    refine Memory.read_writes_other _ (fun e => 32 * s + e.1) Prod.snd _ b fun e he => ?_
    have : e.1 < 32 := (List.mem_append.1 he).elim (hbase e) (hb e)
    omega
  have hk' : Sparse.get 0 (homeSector d key s bs c).keys (a / 32) = Sparse.get 0 d.keys (a / 32) := by simp [hk, hs]
  have hf : foreignSector (homeSector d key s bs c) k (a / 32) = foreignSector d k (a / 32) := by rw [foreignSector, hk', foreignSector]
  have hraw : sectorRaw (homeSector d key s bs c).mem (a / 32) = sectorRaw d.mem (a / 32) :=
    List.map_congr_left fun i hi => hr _ (by have := List.mem_range.1 hi; omega)
  simp only [homeByte, ha, hf, hk', hraw, hr a rfl, Bool.false_eq_true, if_false]

/-- Addressed bytes written sector by sector, as a store at home and the BAR2 window write them (R295, R396). -/
def storeSectors (d : Dev) (key : Nat) (secs : List Nat) (es : List (Nat × Byte)) : Dev :=
  secs.foldl (fun d s => homeSector d key s ((es.filter fun e => e.1 / 32 = s).map fun e => (e.1 % 32, e.2))) d

/-- Different addresses in one block of m bytes have different offsets. -/
theorem offsets_nodup (m : Nat) (es : List (Nat × Byte)) (k : Nat) (h : (es.map Prod.fst).Nodup) :
    ((es.filter fun e => e.1 / m = k).map fun e => e.1 % m).Nodup := by
  rw [List.Nodup, List.pairwise_map] at h ⊢
  refine (h.filter _).imp_of_mem fun {x y} hx hy hxy hm => hxy ?_
  have hx := (List.mem_filter.1 hx).2
  have hy := (List.mem_filter.1 hy).2
  simp only [decide_eq_true_eq] at hx hy
  rw [← Nat.div_add_mod x.1 m, ← Nat.div_add_mod y.1 m, hx, hy, hm]

/-- Bytes written at different device addresses read so under the key of the write, in every sector that is written. -/
theorem homeByte_storeSectors (d : Dev) (key : Nat) (secs : List Nat) (es : List (Nat × Byte)) (hl : (es.map Prod.fst).Nodup)
    (hh : ∀ s, s ∈ secs → isHost (32 * s) = false) {e : Nat × Byte} (he : e ∈ es) (hs : e.1 / 32 ∈ secs) :
    homeByte (storeSectors d key secs es) key e.1 = e.2 := by
  induction secs using List.reverseRecOn with
  | nil => cases hs
  | append_singleton secs s ih =>
    have hd := hh s (by simp)
    rw [storeSectors, List.foldl_append, List.foldl_cons, List.foldl_nil]
    by_cases h : e.1 / 32 = s
    · have hm : (e.1 % 32, e.2) ∈ (es.filter fun e => e.1 / 32 = s).map fun e => (e.1 % 32, e.2) :=
        List.mem_map.2 ⟨e, by simp [he, h], rfl⟩
      have ha : 32 * s + e.1 % 32 = e.1 := by omega
      have hn : (((es.filter fun e => e.1 / 32 = s).map fun e => (e.1 % 32, e.2)).map Prod.fst).Nodup := by
        rw [List.map_map]
        exact offsets_nodup 32 es s hl
      exact ha ▸ homeByte_homeSector_written _ key s _ _ hd hn hm (Nat.mod_lt _ (by decide))
    · have hm : e.1 / 32 ∈ secs := by simpa [h] using hs
      refine (homeByte_homeSector_other _ key s key e.1 _ _ hd ?_ h ?_).trans (ih (fun s hs => hh s (by simp [hs])) hm)
      · rw [← isHost_sector]
        exact hh _ hs
      · intro x hx
        obtain ⟨y, -, rfl⟩ := List.mem_map.1 hx
        exact Nat.mod_lt _ (by decide)

/-! ## Consecutive bytes -/

/-- Consecutive bytes with their addresses. -/
def addressed (pa : Nat) (bytes : List Byte) : List (Nat × Byte) := bytes.zipIdx.map fun e => (pa + e.2, e.1)

theorem addressed_nodup (pa : Nat) (bytes : List Byte) : ((addressed pa bytes).map Prod.fst).Nodup := by
  have h : (addressed pa bytes).map Prod.fst = (bytes.zipIdx.map Prod.snd).map (pa + ·) := by
    simp only [addressed, List.map_map]
    rfl
  rw [h, List.zipIdx_map_snd]
  exact List.Nodup.map (fun x y hxy => by simpa using hxy) (by simp [List.nodup_range'])

theorem mem_addressed (pa : Nat) (bytes : List Byte) (e : Nat × Byte) :
    e ∈ addressed pa bytes ↔ ∃ i, bytes[i]? = some e.2 ∧ e.1 = pa + i := by
  obtain ⟨a, x⟩ := e
  simp [addressed, List.mem_zipIdx_iff_getElem?, eq_comm (a := a)]

/-- Bytes at home are a list where each reads as its element. -/
theorem homeBytes_eq (d : Dev) (key pa : Nat) (bytes : List Byte) (h : ∀ e, e ∈ addressed pa bytes → homeByte d key e.1 = e.2) :
    homeBytes d key pa bytes.length = bytes := by
  refine List.ext_getElem (by simp [homeBytes]) fun i h1 h2 => ?_
  simpa [homeBytes] using h (pa + i, bytes[i]) ((mem_addressed ..).2 ⟨i, by simp, rfl⟩)

/-- Consecutive device bytes read as they were stored. -/
theorem homeBytes_homeStore (d : Dev) (key pa : Nat) (bytes : List Byte) (h : ∀ i, i < bytes.length → isHost (pa + i) = false) :
    homeBytes (homeStore d key pa bytes) key pa bytes.length = bytes := by
  rcases Nat.eq_zero_or_pos bytes.length with h0 | h0
  · rw [List.length_eq_zero_iff.1 h0]
    rfl
  have hst : homeStore d key pa bytes = storeSectors d key
      ((List.range ((pa + bytes.length + 31) / 32 - pa / 32)).map (pa / 32 + ·)) (addressed pa bytes) := by
    rw [storeSectors, List.foldl_map]
    rfl
  rw [hst]
  refine homeBytes_eq _ _ _ _ fun e he => homeByte_storeSectors _ _ _ _ (addressed_nodup ..) (fun s hs => ?_) he ?_
  · obtain ⟨i, hi, rfl⟩ := List.mem_map.1 hs
    have hi := List.mem_range.1 hi
    have := h (max pa (32 * (pa / 32 + i)) - pa) (by omega)
    rw [← isHost_sector] at this
    rwa [show (pa + (max pa (32 * (pa / 32 + i)) - pa)) / 32 = pa / 32 + i by omega] at this
  · obtain ⟨i, hi, ha⟩ := (mem_addressed ..).1 he
    have := (List.getElem?_eq_some_iff.1 hi).1
    exact List.mem_map.2 ⟨e.1 / 32 - pa / 32, by rw [List.mem_range]; omega, by omega⟩

/-- A copy of a line after the bytes of a write that fall into it. -/
theorem get_lineWrites (t : Table Byte) (line : Nat) (es : List (Nat × Byte)) (hn : (es.map Prod.fst).Nodup) {e : Nat × Byte}
    (he : e ∈ es) (hl : e.1 / 128 = line) :
    Sparse.get 0 (es.foldl (fun t e => if e.1 / 128 = line then Sparse.put 0 t (e.1 % 128) e.2 else t) t) (e.1 % 128) = e.2 := by
  have hf := List.foldl_filter (p := fun e : Nat × Byte => decide (e.1 / 128 = line))
    (f := fun t e => Sparse.put (0 : Byte) t (e.1 % 128) e.2) (l := es) (init := t)
  simp only [decide_eq_true_eq] at hf
  rw [← hf]
  exact Sparse.get_puts_mem 0 _ (fun e : Nat × Byte => e.1 % 128) Prod.snd _ (offsets_nodup 128 es line hn) (by simp [he, hl])

/-- A host byte that is written through reads so under every key (R397). -/
theorem homeByte_hostStore (d : Dev) (key pa : Nat) (bytes : List Byte) {e : Nat × Byte} (he : e ∈ addressed pa bytes)
    (hh : isHost e.1 = true) : homeByte (hostStore d pa bytes) key e.1 = e.2 := by
  have hm : Memory.read (hostStore d pa bytes).mem e.1 = e.2 :=
    Memory.read_writes_mem (addressed pa bytes) Prod.fst Prod.snd d.mem (addressed_nodup pa bytes) he
  have hline : isHost (128 * (e.1 / 128)) = true := by rw [isHost_line, hh]
  have hadd : 128 * (e.1 / 128) + e.1 % 128 = e.1 := by omega
  simp only [homeByte, homeLine, hh, hline, if_true]
  split
  case h_2 => rw [get_listed _ _ _ _ (by omega), hadd, hm]
  case h_1 c hc =>
    obtain ⟨x, hx, rfl⟩ := List.mem_map.1 (List.mem_of_find?_eq_some hc)
    have hl : x.line = e.1 / 128 := by
      have := List.find?_some hc
      simp only [Bool.and_eq_true, decide_eq_true_eq] at this
      exact this.1
    exact get_lineWrites x.data x.line (addressed pa bytes) (addressed_nodup ..) he hl.symm

/-- Consecutive bytes read as a system release stored them, where they lie on one side of the host window (R397). -/
theorem homeBytes_systemStore (d : Dev) (key pa : Nat) (bytes : List Byte) (h : ∀ i, i < bytes.length → isHost (pa + i) = isHost pa) :
    homeBytes (systemStore d key pa bytes) key pa bytes.length = bytes := by
  unfold systemStore
  split
  · rename_i hpa
    refine homeBytes_eq _ _ _ _ fun e he => homeByte_hostStore d key pa bytes he ?_
    obtain ⟨i, hi, ha⟩ := (mem_addressed ..).1 he
    rw [ha, h i (List.getElem?_eq_some_iff.1 hi).1, hpa]
  · rename_i hpa
    exact homeBytes_homeStore d key pa bytes fun i hi => by rw [h i hi]; simpa using hpa

/-! ## Write-back -/

/-- Two dirty sectors are the same sector of one cluster under one key. -/
def Dirty.same (x y : Dirty) : Bool := y.cluster = x.cluster && y.sector = x.sector && y.key = x.key

theorem writeBack_dirty (d : Dev) (x : Dirty) : (writeBack d x).dirty = dropFirst d.dirty x.same := by
  unfold writeBack
  simp only [(homeSector_homeOnly ..).dirty]
  rfl

theorem writeBack_funcs (d : Dev) (x : Dirty) : (writeBack d x).funcs = d.funcs := (homeSector_homeOnly ..).funcs

theorem writeBackIf_funcs (d : Dev) (p : Dirty → Bool) : (writeBackIf d p).funcs = d.funcs :=
  List.foldlRecOn (motive := fun e : Dev => e.funcs = d.funcs) _ _ rfl fun _ h _ _ => (writeBack_funcs ..).trans h

/-- Dropping the first sector like each selected one in turn leaves the others, where a choice does not tell like from like. -/
theorem foldl_dropFirst_same (p : Dirty → Bool) (hp : ∀ x y, x.same y = true → p y = p x) (l : List Dirty) :
    (l.filter p).foldl (fun t x => dropFirst t x.same) l = l.filter fun x => !p x := by
  have keep : ∀ (sel t : List Dirty) y, p y = false → (∀ x, x ∈ sel → p x = true) →
      sel.foldl (fun t x => dropFirst t x.same) (y :: t) = y :: sel.foldl (fun t x => dropFirst t x.same) t := by
    intro sel
    induction sel with
    | nil => intros; rfl
    | cons x sel ih =>
      intro t y hy hsel
      have hxy : x.same y = false := by
        by_contra h
        rw [Bool.not_eq_false] at h
        rw [hp x y h, hsel x (by simp)] at hy
        cases hy
      rw [List.foldl_cons, dropFirst, hxy]
      exact ih _ y hy fun z hz => hsel z (by simp [hz])
  induction l with
  | nil => rfl
  | cons y l ih =>
    by_cases hy : p y = true
    · have hs : y.same y = true := by simp [Dirty.same]
      simpa [hy, dropFirst, hs] using ih
    · rw [Bool.not_eq_true] at hy
      rw [List.filter_cons_of_neg (by simp [hy]), keep _ _ y hy fun x hx => (List.mem_filter.1 hx).2, ih]
      simp [hy]

/-- What a write-back of selected sectors leaves dirty, where the choice does not tell like from like. -/
theorem writeBackIf_dirty (d : Dev) (p : Dirty → Bool) (hp : ∀ x y, x.same y = true → p y = p x) :
    (writeBackIf d p).dirty = d.dirty.filter fun x => !p x := by
  rw [← foldl_dropFirst_same p hp, writeBackIf]
  generalize d.dirty.filter p = sel
  induction sel generalizing d with
  | nil => rfl
  | cons x sel ih => rw [List.foldl_cons, List.foldl_cons, ih, writeBack_dirty]

/-- After a flush of a line no dirty copy of it is left (R251, R397). -/
theorem flushLine_dirty (d : Dev) (line : Nat) : (flushLine d line).dirty = d.dirty.filter fun x => !decide (x.sector / 4 = line) :=
  writeBackIf_dirty d _ fun x y h => by
    simp only [Dirty.same, Bool.and_eq_true, decide_eq_true_eq] at h
    rw [h.1.2]

theorem flushLine_funcs (d : Dev) (line : Nat) : (flushLine d line).funcs = d.funcs := writeBackIf_funcs ..

/-- A host-window line that owes nothing more when a line like one of the list has been written back. -/
def CLine.paid (cs : List CLine) (x : CLine) : CLine :=
  if cs.any fun c => x.line = c.line && x.key = c.key then { x with owed := [] } else x

theorem hostWriteLines_l2host (cs : List CLine) (d : Dev) :
    (cs.foldl hostWriteLine d).l2host = d.l2host.map (CLine.paid cs) := by
  induction cs generalizing d with
  | nil => exact (List.map_id' _).symm
  | cons c cs ih =>
    rw [List.foldl_cons, ih, hostWriteLine]
    simp only [List.map_map]
    refine List.map_congr_left fun x _ => ?_
    by_cases h : x.line = c.line ∧ x.key = c.key <;> simp [CLine.paid, h]

/-- A line written back owes nothing to host memory (R397). -/
theorem hostWriteBack_paid (d : Dev) (line : Nat) (x : CLine) (hx : x ∈ (hostWriteBack d fun c => c.line = line).l2host)
    (hl : x.line = line) : x.owed = [] := by
  rw [hostWriteBack, hostWriteLines_l2host] at hx
  obtain ⟨y, hy, rfl⟩ := List.mem_map.1 hx
  have hyl : y.line = line := by
    rw [← hl, CLine.paid]
    split <;> rfl
  rw [CLine.paid, if_pos]
  exact List.any_eq_true.2 ⟨y, by simp [hy, hyl], by simp⟩

end Sys2Proof.Machine

/-! PROOFS. What the host does at a function (O47): handover, attestation, the BAR2 window, range entries, MSI-X vectors and
register writes (21 R395-R403, R438, 17 R348, R353). -/

namespace Sys2Proof.Machine

open Sys2Proof Sys2Proof.Claims

/-! ## Events outside the groups -/

/-- An event that changes the package by f where its condition holds, and does not occur elsewhere. -/
theorem eventActs_of_exec {i : Instr} {en : Dev → Prop} {eff : Dev → Dev → Prop} (f : Dev → Dev) [DecidablePred en]
    (hx : ∀ s : State, exec i s = if en s.unfocus.dev then .next (s.unfocus.onDev f) else .next s.unfocus)
    (he : ∀ d, en d → eff d (f d)) : EventActs i en eff := by
  rintro s _ rfl
  refine ⟨fun h => ⟨f s.unfocus.dev, ?_, he _ h⟩, fun h => ?_⟩
  · rw [hx, if_pos h]
    rfl
  · rw [hx, if_neg h]

/-- The partitions do not depend on the focus. -/
@[simp] theorem State.unfocus_parts (s : State) : s.unfocus.dev.parts = s.dev.parts := by
  unfold State.unfocus
  split <;> rfl

/-! ## A function's registers -/

theorem fnAt_modFn (d : Dev) (fn g : Nat) (f : Func → Func) : fnAt (modFn d fn f) g = if g = fn then f (fnAt d g) else fnAt d g := by
  by_cases h : g = fn
  · subst h
    simp [fnAt, modFn]
  · simp [fnAt, modFn, Sparse.upd, h]

@[simp] theorem fnAt_modFn_self (d : Dev) (fn : Nat) (f : Func → Func) : fnAt (modFn d fn f) fn = f (fnAt d fn) := by
  rw [fnAt_modFn, if_pos rfl]

theorem fnAt_congr {d e : Dev} (h : e.funcs = d.funcs) (fn : Nat) : fnAt e fn = fnAt d fn := by rw [fnAt, h, fnAt]

/-- A function's registers changed by f are a change of that function alone. -/
theorem oneFn_modFn (d : Dev) (fn : Nat) (f : Func → Func) : OneFn d (modFn d fn f) fn f :=
  ⟨rfl, fnAt_modFn_self .., fun g hg => by rw [fnAt_modFn, if_neg hg]⟩

/-! ## Handover (R397) -/

theorem handoverLine_funcs (d : Dev) (d2h : Bool) (line : Nat) : (handoverLine d d2h line).funcs = d.funcs := by
  unfold handoverLine
  dsimp only
  split
  · split
    · exact (hostWriteBack_homeOnly ..).funcs.trans (flushLine_funcs ..)
    · exact flushLine_funcs ..
  · exact flushLine_funcs ..

theorem handoverLines_funcs (o : Nat) (d2h : Bool) (n : Nat) (d : Dev) (va : Nat) :
    (handoverLines o d2h n d va).1.funcs = d.funcs := by
  induction n generalizing d va with
  | zero => rfl
  | succ n ih =>
    rw [handoverLines]
    split
    · rfl
    · exact (ih ..).trans (handoverLine_funcs ..)

/-- After the handover of a line no cluster holds it dirty. -/
theorem handoverLine_dirty (d : Dev) (d2h : Bool) (line : Nat) {x : Dirty} (hx : x ∈ (handoverLine d d2h line).dirty) :
    x.sector / 4 ≠ line := by
  have hd : (handoverLine d d2h line).dirty = (flushLine d line).dirty := by
    unfold handoverLine
    dsimp only
    split
    · split
      · exact (hostWriteBack_homeOnly ..).dirty
      · rfl
    · rfl
  rw [hd, flushLine_dirty] at hx
  simpa using (List.mem_filter.1 hx).2

/-- A line handed to the device is in no L1, cluster or remote-data cache. -/
theorem handoverLine_h2d (d : Dev) (line : Nat) {x : CLine}
    (hx : x ∈ (handoverLine d false line).l1 ++ (handoverLine d false line).cc ++ (handoverLine d false line).rdc) :
    x.line ≠ line := by
  simp only [handoverLine, Bool.false_eq_true, if_false, List.mem_append, List.mem_filter, decide_eq_true_eq] at hx
  obtain (⟨-, h⟩ | ⟨-, h⟩) | ⟨-, h⟩ := hx <;> exact h

/-- A host-window line that L2 keeps after a handover was handed to the host, and owes nothing. -/
theorem handoverLine_l2host (d : Dev) (d2h : Bool) (line : Nat) (hh : isHost (128 * line) = true) {x : CLine}
    (hx : x ∈ (handoverLine d d2h line).l2host) (hl : x.line = line) : d2h = true ∧ x.owed = [] := by
  cases d2h with
  | true =>
    simp only [handoverLine, hh, if_true] at hx
    exact ⟨rfl, hostWriteBack_paid _ _ _ hx hl⟩
  | false =>
    simp only [handoverLine, hh, Bool.false_eq_true, if_false, if_true, List.mem_filter, decide_eq_true_eq] at hx
    exact absurd hl hx.2

/-- The package and the code that a legal or illegal handover command gives. -/
def handoverRun (d : Dev) (fn w : Nat) : Dev × Nat :=
  let h := (fnAt d fn).ho
  if handoverOk d fn (bits w 9 0) h then
    handoverLines (bits w 9 0) (bitOf w 10) (h.holen.toNat / 128) d h.hova.toNat
  else (d, 2)

theorem writeHoctl_busy (d : Dev) (fn w : Nat) (h : (fnAt d fn).ho.busy = true) :
    writeHoctl d fn w = modFn d fn fun x => { x with ho := { x.ho with lost := true } } := by
  simp [writeHoctl, h]

theorem writeHoctl_idle (d : Dev) (fn w : Nat) (h : (fnAt d fn).ho.busy = false) :
    writeHoctl d fn w = modFn (handoverRun d fn w).1 fn fun x =>
      { x with ho := { x.ho with busy := true, owner := bits w 9 0, d2h := bitOf w 10, code := (handoverRun d fn w).2 } } := by
  simp [writeHoctl, handoverRun, h]

theorem handoverRun_illegal (d : Dev) (fn w : Nat) (h : handoverOk d fn (bits w 9 0) (fnAt d fn).ho = false) :
    handoverRun d fn w = (d, 2) := by simp [handoverRun, h]

/-- A legal command covers at least one line. -/
theorem handoverOk_lines {d : Dev} {fn o : Nat} {h : Handover} (hok : handoverOk d fn o h = true) :
    ∃ n, h.holen.toNat / 128 = n + 1 := by
  simp only [handoverOk, Bool.and_eq_true, decide_eq_true_eq] at hok
  obtain ⟨⟨-, hlen, -⟩, -⟩ := hok
  exact ⟨h.holen.toNat / 128 - 1, by omega⟩

/-- A legal command whose first line does not translate hands nothing over. -/
theorem handoverRun_untranslated (d : Dev) (fn w : Nat) (h : handoverOk d fn (bits w 9 0) (fnAt d fn).ho = true)
    (hx : handoverXlat d (bits w 9 0) (fnAt d fn).ho.hova.toNat = none) : handoverRun d fn w = (d, 2) := by
  obtain ⟨n, hn⟩ := handoverOk_lines h
  simp [handoverRun, h, hn, handoverLines, hx]

/-- A legal command of one line hands that line over. -/
theorem handoverRun_line (d : Dev) (fn w pa : Nat) (h : handoverOk d fn (bits w 9 0) (fnAt d fn).ho = true)
    (hl : (fnAt d fn).ho.holen.toNat = 128) (hx : handoverXlat d (bits w 9 0) (fnAt d fn).ho.hova.toNat = some pa) :
    handoverRun d fn w = (handoverLine d (bitOf w 10) (pa / 128), 1) := by
  simp [handoverRun, h, hl, handoverLines, hx]

theorem handoverRun_funcs (d : Dev) (fn w : Nat) : (handoverRun d fn w).1.funcs = d.funcs := by
  unfold handoverRun
  dsimp only
  split
  · exact handoverLines_funcs ..
  · rfl

theorem exec_hoctl {i : Instr} {dir : Bool} {fn : Nat} {w : DWord}
    (hi : (i = .hoctlH2d fn w ∧ dir = false) ∨ (i = .hoctlD2h fn w ∧ dir = true)) (s : State) :
    exec i s = if fn < 16 ∧ w.getLsbD 10 = dir then .next (s.unfocus.onDev fun d => writeHoctl d fn w.toNat) else .next s.unfocus := by
  obtain ⟨rfl, rfl⟩ | ⟨rfl, rfl⟩ := hi
  · simp [exec_hoctlH2d, execHoctlH2d, isFn, State.noEvent]
  · simp [exec_hoctlD2h, execHoctlD2h, isFn, State.noEvent]

/-- The status word of a handover is written as a system release where it can be reached. -/
theorem writeHosw_stores (d : Dev) (fn pa : Nat) (ho : fnOwns d fn (fnAt d fn).ho.owner = true)
    (hc : created d (fnAt d fn).ho.owner = true) (ha : (fnAt d fn).ho.hosw.toNat % 8 = 0)
    (hx : handoverXlat d (fnAt d fn).ho.owner (fnAt d fn).ho.hosw.toNat = some pa) :
    writeHosw d fn = systemStore d (fnKey d fn) pa (bytesOf ((fnAt d fn).ho.code + 2 ^ 16 * (d.time % 2 ^ 48)) 8) := by
  simp [writeHosw, ho, hc, ha, hx]

theorem writeHosw_homeOnly (d : Dev) (fn : Nat) : HomeOnly d (writeHosw d fn) := by
  unfold writeHosw
  dsimp only
  split
  · split
    · exact systemStore_homeOnly ..
    · exact .refl d
  · exact .refl d

theorem bytesOf_length (n : Nat) : ∀ x, (bytesOf x n).length = n := by
  induction n with
  | zero => exact fun _ => rfl
  | succ n ih => exact fun x => congrArg (· + 1) (ih _)

/-- What HANDOVER_END does to the package (R397). -/
def handoverEndDev (d : Dev) (fn : Nat) : Dev := modFn (writeHosw d fn) fn fun x => { x with ho := { x.ho with busy := false } }

theorem exec_handoverEnd_dev (fn : Nat) (s : State) : exec (.handoverEnd fn) s =
    if (fnAt s.unfocus.dev fn).ho.busy = true then .next (s.unfocus.onDev fun d => handoverEndDev d fn) else .next s.unfocus := by
  simp [exec_handoverEnd, execHandoverEnd, handoverEndDev]

/-- An aligned double word lies on one side of the host window. -/
theorem isHost_aligned8 (pa i : Nat) (ha : pa % 8 = 0) (hi : i < 8) : isHost (pa + i) = isHost pa := by
  simp only [isHost, bitOf, decide_eq_decide]
  omega

/-- After HANDOVER_END a status word that can be reached holds the code and the time (R397). -/
theorem homeBytes_handoverEndDev (d : Dev) (fn pa : Nat) (ho : fnOwns d fn (fnAt d fn).ho.owner = true)
    (hc : created d (fnAt d fn).ho.owner = true) (ha : (fnAt d fn).ho.hosw.toNat % 8 = 0)
    (hx : handoverXlat d (fnAt d fn).ho.owner (fnAt d fn).ho.hosw.toNat = some pa) (hpa : pa % 8 = 0) :
    homeBytes (handoverEndDev d fn) (fnKey d fn) pa 8 = bytesOf ((fnAt d fn).ho.code + 2 ^ 16 * (d.time % 2 ^ 48)) 8 := by
  have hb := homeBytes_systemStore d (fnKey d fn) pa (bytesOf ((fnAt d fn).ho.code + 2 ^ 16 * (d.time % 2 ^ 48)) 8)
    fun i hi => isHost_aligned8 pa i hpa (by rwa [bytesOf_length] at hi)
  rw [bytesOf_length, ← writeHosw_stores d fn pa ho hc ha hx] at hb
  exact hb

/-! ## Attestation (R403) -/

theorem oneFn_setAstat (d : Dev) (fn v : Nat) : OneFn d (setAstat d fn v) fn fun x => { x with astat := v } := oneFn_modFn ..

/-- A request without a partition, or with a bad field, fails. -/
theorem writeAreq_refused (d : Dev) (fn w : Nat) (h : partOfFn d fn = none ∨ bits w 59 57 ≠ 0 ∨ bits w 56 0 % 2048 ≠ 0) :
    writeAreq d fn w = setAstat d fn 3 := by
  unfold writeAreq
  dsimp only
  split
  · rfl
  · rename_i p hp
    rw [hp] at h
    rw [if_pos]
    obtain h | h | h := h
    · cases h
    · simp [h]
    · simp [h]

/-- A well-formed request writes what `attest` gives, or fails. -/
theorem writeAreq_attests (d : Dev) (fn w : Nat) {p : Partition} (hp : partOfFn d fn = some p) (hr : bits w 59 57 = 0)
    (ha : bits w 56 0 % 2048 = 0) (hk : bits w 63 60 = 1 ∨ bits w 63 60 = 2) :
    writeAreq d fn w = (attest d p (bits w 63 60) (bits w 56 0)).elim (setAstat d fn 3) fun e => setAstat e fn 2 := by
  simp only [writeAreq, hp]
  rw [if_neg (by simpa [hr, ha, or_iff_not_imp_left] using hk)]
  cases attest d p (bits w 63 60) (bits w 56 0) <;> rfl

/-- A buffer that cannot be read gets nothing. -/
theorem attest_unread {d : Dev} {p : Partition} {va : Nat} {x : EngFault} (kind : Nat)
    (h : engRead d p.ownBase va 0x30 none = .error x) : attest d p kind va = none := by simp [attest, h]

/-- A buffer that can be read and written gets the report or the certificate. -/
theorem attest_written {d e : Dev} {p : Partition} {kind va : Nat} {b : List Byte} {bad : Bool}
    (hr : engRead d p.ownBase va 0x30 none = .ok (b, bad))
    (hw : engWrite d p.ownBase va (if kind = 1 then signReport (reportBody d p (b.drop 16)) else certificateBytes) none = .ok e) :
    attest d p kind va = some e := by simp [attest, hr, hw]

theorem exec_areq {i : Instr} {kind fn : Nat} {w : DWord}
    (hi : (i = .areqReport fn w ∧ kind = 1) ∨ (i = .areqCertificate fn w ∧ kind = 2)) (s : State) :
    exec i s = if fn < 16 ∧ bits w.toNat 63 60 = kind then .next (s.unfocus.onDev fun d => writeAreq d fn w.toNat)
      else .next s.unfocus := by
  obtain ⟨rfl, rfl⟩ | ⟨rfl, rfl⟩ := hi
  · simp [exec_areqReport, execAreqReport, isFn, State.noEvent]
  · simp [exec_areqCertificate, execAreqCertificate, isFn, State.noEvent]

/-! ## The BAR2 window (R396) -/

/-- Bytes of the window: there are as many as asked for, each on a device address. -/
theorem windowBytes_some {d : Dev} {fn off n : Nat} {l : List Nat} (h : windowBytes d fn off n = some l) :
    l.length = n ∧ ∀ a, a ∈ l → isHost a = false := by
  unfold windowBytes at h
  split at h
  · cases h
  · dsimp only at h
    split at h
    · rename_i hc
      cases h
      simp only [Bool.and_eq_true, decide_eq_true_eq, List.all_eq_true] at hc
      obtain ⟨⟨-, hn⟩, hpop⟩ := hc
      refine ⟨hn, fun a ha => ?_⟩
      have := hpop a ha
      simp only [populated, Bool.or_eq_true, Bool.and_eq_true, decide_eq_true_eq] at this
      simp only [isHost, bitOf, decide_eq_false_iff_not]
      omega
    · cases h

/-- A byte of the window that is not poisoned, and in no save area under another key, reads without a change. -/
theorem windowRead_own (d : Dev) (key a : Nat) (hp : poisoned d a 1 = false) (hs : ∀ x, savedByte d a = some x → x.1 = key) :
    windowRead d key a = (d, [((savedByte d a).map (·.2)).getD (homeByte d key a)]) := by
  unfold windowRead
  simp only [hp, Bool.false_eq_true, if_false]
  cases h : savedByte d a with
  | none => simp [systemRead, hp, homeBytes]
  | some x => simp [hs x h]

/-- Such bytes one after another. -/
theorem windowReads_own (d : Dev) (key : Nat) (l : List Nat) (acc : List Byte)
    (h : ∀ a, a ∈ l → poisoned d a 1 = false ∧ ∀ x, savedByte d a = some x → x.1 = key) :
    l.foldl (fun (x : Dev × List Byte) a => ((windowRead x.1 key a).1, x.2 ++ (windowRead x.1 key a).2)) (d, acc) =
      (d, acc ++ l.map fun a => ((savedByte d a).map (·.2)).getD (homeByte d key a)) := by
  induction l generalizing acc with
  | nil => simp
  | cons a l ih =>
    obtain ⟨hp, hs⟩ := h a (by simp)
    rw [List.foldl_cons, windowRead_own d key a hp hs, ih _ fun b hb => h b (by simp [hb])]
    simp

/-- What a read through the window does to the package. -/
def bar2ReadDev (d : Dev) (fn off n : Nat) : Dev :=
  match windowBytes d fn off n with
  | none => { d with bar2Out := none :: d.bar2Out }
  | some l =>
    let r := l.foldl (fun (x : Dev × List Byte) a =>
      ((windowRead x.1 (keyOf d (fnAt d fn).hkey) a).1, x.2 ++ (windowRead x.1 (keyOf d (fnAt d fn).hkey) a).2)) (d, [])
    { r.1 with bar2Out := some r.2 :: r.1.bar2Out }

/-- What a write through the window does to the package. -/
def bar2WriteDev (d : Dev) (fn off : Nat) (bytes : List Byte) : Dev :=
  match windowBytes d fn off bytes.length with
  | none => d
  | some l => storeSectors d (keyOf d (fnAt d fn).hkey) (l.map (· / 32)).eraseDups (l.zip bytes)

theorem exec_bar2Read_dev (fn off n : Nat) (s : State) : exec (.bar2Read fn off n) s =
    if fn < 16 then .next (s.unfocus.onDev fun d => bar2ReadDev d fn off n) else .next s.unfocus := by
  simp only [exec_bar2Read, execBar2Read, isFn, State.noEvent, decide_eq_true_eq]
  congr 3
  funext d
  unfold bar2ReadDev
  cases windowBytes d fn off n <;> rfl

theorem exec_bar2Write_dev (fn off : Nat) (bytes : List Byte) (s : State) : exec (.bar2Write fn off bytes) s =
    if fn < 16 then .next (s.unfocus.onDev fun d => bar2WriteDev d fn off bytes) else .next s.unfocus := by
  have h : execBar2Write fn off bytes s =
      if isFn fn then .next (s.unfocus.onDev fun d => bar2WriteDev d fn off bytes) else s.noEvent := rfl
  simp only [exec_bar2Write, h, isFn, State.noEvent, decide_eq_true_eq]

/-- Bytes written through the window, each at an address of its own, read so under HKEY. -/
theorem homeByte_bar2WriteDev {d : Dev} {fn off i a : Nat} {bytes : List Byte} {l : List Nat} {x : Byte}
    (hl : windowBytes d fn off bytes.length = some l) (hn : l.Nodup) (ha : l[i]? = some a) (hx : bytes[i]? = some x) :
    homeByte (bar2WriteDev d fn off bytes) (keyOf d (fnAt d fn).hkey) a = x := by
  obtain ⟨hlen, hdev⟩ := windowBytes_some hl
  simp only [bar2WriteDev, hl]
  refine homeByte_storeSectors (e := (a, x)) d _ _ _ (by rwa [List.map_fst_zip hlen.le]) (fun s hs => ?_) ?_ ?_
  · obtain ⟨b, hb, rfl⟩ := List.mem_map.1 (List.mem_eraseDups.1 hs)
    exact (isHost_sector b).trans (hdev b hb)
  · exact List.mem_of_getElem? (List.getElem?_zip_eq_some.2 ⟨ha, hx⟩)
  · exact List.mem_eraseDups.2 (List.mem_map_of_mem (List.mem_of_getElem? ha))

/-! ## The MSI-X table (R438) -/

/-- Entry v of a function's table. -/
def vectorAt (d : Dev) (fn v : Nat) : Vector := Sparse.get {} (fnAt d fn).vectors v

theorem vectorAt_modVector (d : Dev) (fn v u : Nat) (f : Vector → Vector) :
    vectorAt (modVector d fn v f) fn u = if u = v then f (vectorAt d fn u) else vectorAt d fn u := by
  by_cases h : u = v
  · subst h
    simp [vectorAt, modVector]
  · simp [vectorAt, modVector, Sparse.upd, h]

@[simp] theorem fmask_modVector (d : Dev) (fn v : Nat) (f : Vector → Vector) :
    (fnAt (modVector d fn v f) fn).fmask = (fnAt d fn).fmask := by simp [modVector]

theorem sendPending_eq (d : Dev) (fn v : Nat) : sendPending d fn v =
    if (vectorAt d fn v).pending && !(vectorAt d fn v).masked && !(fnAt d fn).fmask then
      modVector { d with interrupts := d.interrupts ++ [((vectorAt d fn v).addr, (vectorAt d fn v).data)] } fn v
        fun x => { x with pending := false }
    else d := rfl

/-- A pending vector that nothing masks sends its message and is pending no longer. -/
theorem sendPending_sends (d : Dev) (fn v : Nat) (hp : (vectorAt d fn v).pending = true) (hm : (vectorAt d fn v).masked = false)
    (hf : (fnAt d fn).fmask = false) : sendPending d fn v = modVector
      { d with interrupts := d.interrupts ++ [((vectorAt d fn v).addr, (vectorAt d fn v).data)] } fn v
      fun x => { x with pending := false } := by
  rw [sendPending_eq, if_pos (by simp [hp, hm, hf])]

/-- A vector that is not pending, or that a mask holds, sends nothing. -/
theorem sendPending_holds (d : Dev) (fn v : Nat)
    (h : (vectorAt d fn v).pending = false ∨ (vectorAt d fn v).masked = true ∨ (fnAt d fn).fmask = true) :
    sendPending d fn v = d := by
  rw [sendPending_eq, if_neg]
  obtain h | h | h := h <;> simp [h]

/-- What sending does to a function's entries and mask: a vector that is pending still was so, with the mask it has, and the one
served is masked; the function mask stays. -/
theorem sendPending_entries (d : Dev) (fn v : Nat) (hf : (fnAt d fn).fmask = false) :
    (fnAt (sendPending d fn v) fn).fmask = false ∧
    ∀ u, (vectorAt (sendPending d fn v) fn u).pending = true → vectorAt (sendPending d fn v) fn u = vectorAt d fn u ∧
      (u = v → (vectorAt d fn u).masked = true) := by
  by_cases h : (vectorAt d fn v).pending = true ∧ (vectorAt d fn v).masked = false
  · rw [sendPending_sends d fn v h.1 h.2 hf]
    refine ⟨(fmask_modVector ..).trans hf, fun u hu => ?_⟩
    rw [vectorAt_modVector] at hu ⊢
    split at hu
    · cases hu
    · rename_i huv
      exact ⟨if_neg huv, fun e => absurd e huv⟩
  · have hs : (vectorAt d fn v).pending = false ∨ (vectorAt d fn v).masked = true := by
      rwa [not_and_or, Bool.not_eq_true, Bool.not_eq_false] at h
    rw [sendPending_holds d fn v (hs.imp_right .inl)]
    refine ⟨hf, fun u hu => ⟨rfl, ?_⟩⟩
    rintro rfl
    simpa [hu] using h

/-- Sending every vector of a list leaves none of them both pending and unmasked. -/
theorem sendPendings_entries (fn : Nat) (vs : List (Nat × Vector)) (d : Dev) (hf : (fnAt d fn).fmask = false) (e : Dev)
    (he : e = vs.foldl (fun d x => sendPending d fn x.1) d) :
    (fnAt e fn).fmask = false ∧ ∀ u, (vectorAt e fn u).pending = true → vectorAt e fn u = vectorAt d fn u ∧
      (u ∈ vs.map Prod.fst → (vectorAt d fn u).masked = true) := by
  induction vs generalizing d with
  | nil => subst he; exact ⟨hf, fun u _ => ⟨rfl, by simp⟩⟩
  | cons x vs ih =>
    obtain ⟨hf', hx⟩ := sendPending_entries d fn x.1 hf
    obtain ⟨hfe, hvs⟩ := ih (sendPending d fn x.1) hf' he
    refine ⟨hfe, fun u hu => ?_⟩
    obtain ⟨h1, h2⟩ := hvs u hu
    obtain ⟨h3, h4⟩ := hx u (h1 ▸ hu)
    refine ⟨h1.trans h3, fun hm => ?_⟩
    rcases List.mem_cons.1 hm with hm | hm
    · exact h4 hm
    · exact h3 ▸ h2 hm

/-- A key that does not read as the default is listed. -/
theorem Sparse.mem_keys_of_get_ne {α : Type} (d : α) (t : Table α) (k : Nat) (h : Sparse.get d t k ≠ d) : k ∈ t.map Prod.fst := by
  induction t with
  | nil => exact absurd rfl h
  | cons e t ih =>
    by_cases hk : k = e.1
    · simp [hk]
    · exact List.mem_cons_of_mem _ (ih (by simpa [Sparse.get, hk] using h))

/-- Once the function mask is cleared a vector that is still pending is masked. -/
theorem maskFunction_clear (d : Dev) (fn : Nat) : (fnAt (maskFunction d fn false) fn).fmask = false ∧
    ∀ u, (vectorAt (maskFunction d fn false) fn u).pending = true → (vectorAt (maskFunction d fn false) fn u).masked = true := by
  obtain ⟨hf, hv⟩ := sendPendings_entries fn (fnAt (modFn d fn fun x => { x with fmask := false }) fn).vectors
    (modFn d fn fun x => { x with fmask := false }) (by simp) _ rfl
  refine ⟨hf, fun u hu => ?_⟩
  obtain ⟨heq, hm⟩ := hv u hu
  change (vectorAt (maskFunction d fn false) fn u) = _ at heq
  rw [heq] at hu ⊢
  refine hm (Sparse.mem_keys_of_get_ne {} _ u fun h => ?_)
  rw [vectorAt, h] at hu
  cases hu

/-- What MSIX_UNMASK does to the package (R438). -/
def unmaskDev (d : Dev) (fn v : Nat) : Dev := if v = 2048 then maskFunction d fn false else maskVector d fn v false

theorem exec_msixUnmask_dev (fn v : Nat) (s : State) : exec (.msixUnmask fn v) s =
    if fn < 16 ∧ (v = 2048 ∨ liveVector s.unfocus.dev fn v = true) then .next (s.unfocus.onDev fun d => unmaskDev d fn v)
    else .next s.unfocus := by
  have hl : liveVector s.unfocus.dev fn v = liveVector s.dev fn v := by simp [liveVector, partOfFn]
  by_cases hfn : fn < 16
  · by_cases hv : v = 2048
    · simp [exec_msixUnmask, execMsixUnmask, isFn, unmaskDev, hfn, hv]
    · simp [exec_msixUnmask, execMsixUnmask, isFn, State.noEvent, unmaskDev, hl, hfn, hv]
  · simp [exec_msixUnmask, execMsixUnmask, isFn, State.noEvent, hfn]

/-- A vector that is unmasked sends its message where it is pending and the function mask is clear. -/
theorem unmask_sends (d : Dev) (fn v : Nat) (hp : (vectorAt d fn v).pending = true) (hf : (fnAt d fn).fmask = false) :
    (maskVector d fn v false).interrupts = d.interrupts ++ [((vectorAt d fn v).addr, (vectorAt d fn v).data)] ∧
    vectorAt (maskVector d fn v false) fn v = { vectorAt d fn v with masked := false, pending := false } := by
  have hv := vectorAt_modVector d fn v v fun x => { x with masked := false }
  rw [if_pos rfl] at hv
  rw [maskVector, sendPending_sends _ _ _ (by rw [hv]; exact hp) (by rw [hv]) (by simpa using hf), hv]
  refine ⟨rfl, ?_⟩
  rw [vectorAt_modVector, if_pos rfl]
  exact congrArg (fun x : Vector => { x with pending := false }) hv

/-- Otherwise it is unmasked and sends nothing. -/
theorem unmask_holds (d : Dev) (fn v : Nat) (h : (vectorAt d fn v).pending = false ∨ (fnAt d fn).fmask = true) :
    (maskVector d fn v false).interrupts = d.interrupts ∧
    vectorAt (maskVector d fn v false) fn v = { vectorAt d fn v with masked := false } := by
  have hv := vectorAt_modVector d fn v v fun x => { x with masked := false }
  rw [if_pos rfl] at hv
  rw [maskVector, sendPending_holds _ _ _ (by rw [hv]; exact h.imp_right fun hf => .inr (by simpa using hf))]
  exact ⟨rfl, hv⟩

/-! ## Register writes (R6, R395) -/

/-- What REGISTER_WRITE does to the package. -/
def registerWriteDev (d : Dev) (fn off : Nat) (w : DWord) : Dev := if fn < 16 then writeBar0 d fn off w else writeManagement d off w

theorem exec_registerWrite_dev (fn off : Nat) (w : DWord) (s : State) : exec (.registerWrite fn off w) s =
    if fn ≤ 16 then .next (s.unfocus.onDev fun d => registerWriteDev d fn off w) else .next s.unfocus := by
  unfold registerWriteDev
  rcases Nat.lt_trichotomy fn 16 with h | h | h
  · simp [exec_registerWrite, execRegisterWrite, isFn, h, h.le]
  · simp [exec_registerWrite, execRegisterWrite, isFn, h]
  · simp [exec_registerWrite, execRegisterWrite, isFn, h.not_gt, h.ne', h.not_ge]

/-- A register that keeps what is written changes that function's register alone (R388, R391, R396, R397). -/
theorem writeBar0_plain (d : Dev) (fn off : Nat) (w : DWord) (f : Func → Func) (h : PlainReg off w f) :
    OneFn d (writeBar0 d fn off w) fn f := by
  have hw : writeBar0 d fn off w = modFn d fn f := by
    cases h with
    | fqBase | fqRidx | hova | holen | hosw | hkey | arg0 | arg1 => rfl
    | fdl0 _ lo hi | fdl1 _ lo hi | fdl2 _ lo hi | fdl3 _ lo hi => simp [writeBar0, writeFabricReg, lo, hi]
    | fqto _ lo hi => simp [writeBar0, writeFaultReg, modFaultQ, lo, hi]
  rw [hw]
  exact oneFn_modFn ..

theorem writeManagement_ignored (d : Dev) (off : Nat) (w : DWord) (h : d.recovery = true ∨ off % 8 ≠ 0 ∨ 8192 ≤ off) :
    writeManagement d off w = d := by
  unfold writeManagement
  rw [if_pos]
  obtain h | h | h := h <;> simp [h]

theorem writeManagement_entry (d : Dev) (off : Nat) (w : DWord) (hr : d.recovery = false) (ha : off % 8 = 0) (ho : off < 8192) :
    writeManagement d off w = { d with
      routes := Sparse.put {} d.routes (off / 8) (routeOf w.toNat), pkg := if w.getLsbD 22 then off / 8 else d.pkg } := by
  unfold writeManagement
  rw [if_neg (by simp [hr, ha, ho])]
  simp only [routeOf, bitOf_toNat]

/-- A write of FQREPLY answers the tag as ACT says (R388). -/
theorem writeBar0_fqreply (d : Dev) (fn : Nat) (w : DWord) :
    (bits w.toNat 33 32 = 1 → writeBar0 d fn 0x1020 w = retryTag d fn (bits w.toNat 31 0)) ∧
    (bits w.toNat 33 32 = 2 → writeBar0 d fn 0x1020 w = failTag d fn (bits w.toNat 31 0)) :=
  ⟨fun h => by simp [writeBar0, writeFaultReg, h], fun h => by simp [writeBar0, writeFaultReg, h]⟩

theorem exec_ocmd {i : Nat → DWord → Instr} {op : Nat} (h : OwnerOp i op) (fn : Nat) (w : DWord) (s : State) : exec (i fn w) s =
    if fn < 16 ∧ bits w.toNat 11 10 = op then .next (s.unfocus.onDev fun d => writeOcmd d fn w.toNat) else .next s.unfocus := by
  have he : ocmdEvent op fn w s = if fn < 16 ∧ bits w.toNat 11 10 = op then .next (s.unfocus.onDev fun d => writeOcmd d fn w.toNat)
      else .next s.unfocus := by simp [ocmdEvent, isFn, State.noEvent]
  cases h <;> exact he

theorem exec_fqcfgEnable_dev (fn : Nat) (w : DWord) (s : State) : exec (.fqcfgEnable fn w) s =
    if fn < 16 ∧ w.getLsbD 16 = true then .next (s.unfocus.onDev fun d => writeFqcfg d fn w) else .next s.unfocus := by
  simp [exec_fqcfgEnable, execFqcfgEnable, State.noEvent]

theorem exec_fqcfgDisable_dev (fn : Nat) (w : DWord) (s : State) : exec (.fqcfgDisable fn w) s =
    if fn < 16 ∧ w.getLsbD 16 = false then .next (s.unfocus.onDev fun d => writeFqcfg d fn w) else .next s.unfocus := by
  simp [exec_fqcfgDisable, execFqcfgDisable, State.noEvent]

theorem exec_rtinv_dev (fn : Nat) (w : DWord) (s : State) : exec (.rtinv fn w) s =
    if fn < 16 then .next (s.unfocus.onDev fun d => writeRtinv d fn w.toNat) else .next s.unfocus := by
  simp [exec_rtinv, execRtinv, isFn, State.noEvent]

/-- A write of a register whose write is an event is that event (R388, R391, R394, R397, R400, R403). -/
theorem exec_registerWrite_event (fn off : Nat) (w : DWord) (i : Instr) (h : EventReg fn off w i) (hfn : fn < 16) (s : State) :
    exec (.registerWrite fn off w) s = exec i s := by
  rw [exec_registerWrite_dev, if_pos hfn.le]
  simp only [registerWriteDev, if_pos hfn]
  cases h with
  | fqcfg1 _ _ h => rw [exec_fqcfgEnable_dev, if_pos ⟨hfn, h⟩]; rfl
  | fqcfg0 _ _ h => rw [exec_fqcfgDisable_dev, if_pos ⟨hfn, h⟩]; rfl
  | retry _ _ h => simp only [(writeBar0_fqreply _ fn w).1 h]; rfl
  | fail _ _ h => simp only [(writeBar0_fqreply _ fn w).2 h]; rfl
  | h2d _ _ h => rw [exec_hoctl (.inl ⟨rfl, rfl⟩), if_pos ⟨hfn, h⟩]; rfl
  | d2h _ _ h => rw [exec_hoctl (.inr ⟨rfl, rfl⟩), if_pos ⟨hfn, h⟩]; rfl
  | create _ _ h => rw [exec_ocmd .create, if_pos ⟨hfn, h⟩]; rfl
  | destroy _ _ h => rw [exec_ocmd .destroy, if_pos ⟨hfn, h⟩]; rfl
  | inval _ _ h => rw [exec_ocmd .inval, if_pos ⟨hfn, h⟩]; rfl
  | psetup | ptear => rfl
  | report _ _ h => rw [exec_areq (.inl ⟨rfl, rfl⟩), if_pos ⟨hfn, h⟩]; rfl
  | certificate _ _ h => rw [exec_areq (.inr ⟨rfl, rfl⟩), if_pos ⟨hfn, h⟩]; rfl
  | rtinv => rw [exec_rtinv_dev, if_pos hfn]; rfl

/-! ## The statement -/

/-- Settles O47: each event of the host is its effect on the package, and each effect is what the lemmas above say of it. -/
theorem hostReachesMemoryAndRegisters : Obligations.HostReachesMemoryAndRegisters := by
  unfold Obligations.HostReachesMemoryAndRegisters
  refine ⟨fun i dir fn w hi => eventActs_of_exec _ (exec_hoctl hi) ?hoctl,
    fun fn => eventActs_of_exec _ (exec_handoverEnd_dev fn) ?handoverEnd,
    fun i kind fn w hi => eventActs_of_exec _ (exec_areq hi) ?areq, fun fn w => eventActs_of_exec _ (exec_rtinv_dev fn w) ?rtinv,
    fun fn off n => eventActs_of_exec _ (exec_bar2Read_dev fn off n) ?bar2Read,
    fun fn off bytes => eventActs_of_exec _ (exec_bar2Write_dev fn off bytes) ?bar2Write,
    fun fn v => eventActs_of_exec _ (exec_msixUnmask_dev fn v) ?msixUnmask,
    fun fn off w => eventActs_of_exec _ (exec_registerWrite_dev fn off w) ?registerWrite, exec_registerWrite_event⟩
  case hoctl =>
    rintro d ⟨-, hw⟩ h o rfl rfl
    have hbit : bitOf w.toNat 10 = dir := (bitOf_toNat w 10).trans hw
    refine ⟨fun hb => ?_, fun hb => ⟨(handoverRun d fn w.toNat).2, ?_⟩⟩
    · rw [writeHoctl_busy d fn _ hb]
      exact oneFn_modFn ..
    · rw [writeHoctl_idle d fn _ hb, hbit, fnAt_modFn_self, fnAt_congr (handoverRun_funcs ..)]
      refine ⟨rfl, fun hk => ?_, fun hk hx => ?_, fun hk hl pa hx => ?_⟩
      · rw [handoverRun_illegal d fn _ hk]
        exact ⟨rfl, rfl⟩
      · rw [handoverRun_untranslated d fn _ hk hx]
        exact ⟨rfl, rfl⟩
      · rw [handoverRun_line d fn _ pa hk hl hx, hbit]
        exact ⟨rfl, fun x => handoverLine_dirty d dir _, fun hd x hx => handoverLine_h2d d _ (by subst hd; exact hx),
          fun hh x => handoverLine_l2host d dir _ hh⟩
  case handoverEnd =>
    rintro d - h rfl
    exact ⟨by simp [handoverEndDev, fnAt_congr (writeHosw_homeOnly d fn).funcs], fun pa => homeBytes_handoverEndDev d fn pa⟩
  case areq =>
    rintro d ⟨-, rfl⟩ va rfl
    refine ⟨fun h => ?_, fun p hp hr ha => ?_⟩
    · rw [writeAreq_refused d fn _ h]
      exact oneFn_setAstat ..
    · have hk : bits w.toNat 63 60 = 1 ∨ bits w.toNat 63 60 = 2 := hi.imp And.right And.right
      rw [writeAreq_attests d fn _ hp hr ha hk]
      refine ⟨fun x hx => ?_, fun b bad e hread hwrite => ?_⟩
      · rw [attest_unread _ hx]
        exact oneFn_setAstat ..
      · rw [attest_written hread hwrite]
        exact oneFn_setAstat ..
  case rtinv =>
    rintro d -
    refine ⟨rfl, fun c => ?_⟩
    simp [writeRtinv, bitOf_toNat, imp_iff_not_or]
  case bar2Read =>
    rintro d -
    refine ⟨fun h => by simp only [bar2ReadDev, h], ?_⟩
    rintro l key rfl hl hown
    simp only [bar2ReadDev, hl, windowReads_own d _ l [] hown, List.nil_append]
  case bar2Write =>
    rintro d -
    exact ⟨fun h => by simp only [bar2WriteDev, h], fun l hl hn i a x ha hx => homeByte_bar2WriteDev hl hn ha hx⟩
  case msixUnmask =>
    rintro d - x y rfl rfl
    refine ⟨fun hv hp hf => ?_, fun hv h => ?_, ?_⟩
    · rw [unmaskDev, if_neg hv]
      exact unmask_sends d fn v hp hf
    · rw [unmaskDev, if_neg hv]
      exact unmask_holds d fn v h
    · rintro rfl
      exact maskFunction_clear d fn
  case registerWrite =>
    rintro d -
    unfold registerWriteDev
    refine ⟨fun hfn ho => ?_, fun f hfn hf => ?_, ?_, ?_⟩
    · rw [if_pos hfn, writeBar0, if_pos ho]
    · rw [if_pos hfn]
      exact writeBar0_plain d fn off w f hf
    · rintro rfl h
      exact writeManagement_ignored d off w h
    · rintro rfl hr ha ho
      rw [if_neg (Nat.lt_irrefl 16), writeManagement_entry d off w hr ha ho]
      refine ⟨rfl, fun k hk => Sparse.get_put_other {} d.routes _ k (routeOf w.toNat) hk, fun r hr => ?_, rfl⟩
      obtain rfl : r = routeOf w.toNat := hr.trans (Sparse.get_put_self {} d.routes _ (routeOf w.toNat))
      exact ⟨rfl, rfl, bitOf_toNat w 22, rfl⟩

end Sys2Proof.Machine

/-! PROOFS. The fields of instruction words: the code of every operand is a bounded number, and reading a field undoes
writing its code (02 R31-R33, R37, R38). -/

namespace Sys2Proof

/-! ## Codes as bounded numbers -/

/-- The B field of a B operand, seven bits (R32). -/
def bopFin (b : BOp) : Fin 128 :=
  ⟨bopField b, by cases b with | v r => exact r.isLt | s r => exact Nat.lt_trans r.isLt (by decide)⟩
/-- The BS bit of a B operand (R32). -/
def bsFin (b : BOp) : Fin 2 := ⟨bopBS b, by cases b <;> simp [bopBS]⟩
/-- The QG field of a guard (R33). -/
def guardQFin (g : QGuard) : Fin 8 :=
  ⟨guardQ g, by cases g with | always => decide | on q n => exact Nat.lt_trans q.isLt (by decide)⟩
/-- The QN bit of a guard (R33). -/
def guardNFin (g : QGuard) : Fin 2 := ⟨guardN g, by cases g with | always => decide | on q n => exact n.toNat_lt⟩
/-- The code of an integer condition (R37). -/
def condFin (c : Cond) : Fin 16 := ⟨condCode c, by cases c <;> decide⟩
/-- The code of a float condition (R37). -/
def fcondFin (c : FCond) : Fin 16 := ⟨fcondCode c, by cases c <;> decide⟩
/-- The code of a condition of `ssetp` (R38). -/
def scondFin (c : SCond) : Fin 8 := ⟨scondCode c, by cases c <;> decide⟩
/-- The SZ code of a size (R32). -/
def sizeFin (z : Size) : Fin 8 := ⟨sizeCode z, by cases z <;> decide⟩
/-- The code of a scope (R16). -/
def scopeFin (v : Scope) : Fin 8 := ⟨scopeCode v, by cases v <;> decide⟩
/-- The ORD code of an order (R32). -/
def ordFin (o : Ord) : Fin 4 := ⟨ordCode o, by cases o <;> decide⟩
/-- A bit. -/
def bitFin (b : Bool) : Fin 2 := ⟨b.toNat, b.toNat_lt⟩

/-- The code of an operand is its field. -/
theorem codes_eq_fields :
    (∀ b, bopField b = (bopFin b).val) ∧ (∀ b, bopBS b = (bsFin b).val) ∧ (∀ g, guardQ g = (guardQFin g).val) ∧
    (∀ g, guardN g = (guardNFin g).val) ∧ (∀ c, condCode c = (condFin c).val) ∧ (∀ c, fcondCode c = (fcondFin c).val) ∧
    (∀ c, scondCode c = (scondFin c).val) ∧ (∀ z, sizeCode z = (sizeFin z).val) ∧ (∀ v, scopeCode v = (scopeFin v).val) ∧
    (∀ o, ordCode o = (ordFin o).val) ∧ ∀ b : Bool, b.toNat = (bitFin b).val := by
  and_intros <;> exact fun _ => rfl

/-! ## Reading a field undoes writing its code -/

/-- A reading of a field that undoes its code and that its code undoes. -/
theorem code_iff {α : Type} {f : Nat → Option α} {g : α → Nat} (hfg : ∀ a, f (g a) = some a)
    (hgf : ∀ {n a}, f n = some a → g a = n) {n : Nat} {a : α} : f n = some a ↔ g a = n :=
  ⟨hgf, fun h => h ▸ hfg a⟩

theorem bopOf?_eq_some {x y : Nat} {b : BOp} :
    bopOf? (x % 128) (y % 2) = some b ↔ (bopFin b).val = x % 128 ∧ (bsFin b).val = y % 2 := by
  unfold bopOf?
  constructor
  · intro h
    split at h
    · cases h
      simp [bopFin, bsFin, bopField, bopBS, *]
    · split at h
      · cases h
        simp [bopFin, bsFin, bopField, bopBS]
        omega
      · cases h
  · rintro ⟨hx, hy⟩
    rw [← hx, ← hy]
    cases b <;> simp [bopFin, bsFin, bopField, bopBS]

theorem guardOf?_eq_some {x y : Nat} {g : QGuard} :
    guardOf? (x % 8) (y % 2) = some g ↔ (guardQFin g).val = x % 8 ∧ (guardNFin g).val = y % 2 := by
  unfold guardOf?
  constructor
  · intro h
    split at h
    · split at h
      · cases h
        exact ⟨Eq.symm ‹_›, Eq.symm ‹_›⟩
      · cases h
    · cases h
      refine ⟨Nat.mod_eq_of_lt (by omega), ?_⟩
      rcases Nat.mod_two_eq_zero_or_one y with h | h <;> simp [guardNFin, guardN, h]
  · rintro ⟨hx, hy⟩
    rw [← hx, ← hy]
    cases g with
    | always => rfl
    | on q n =>
      have hq : q.val ≠ 7 := by omega
      cases n <;> simp [guardQFin, guardNFin, guardQ, guardN, hq]

theorem condOf?_eq_some {n : Nat} {c : Cond} : condOf? n = some c ↔ (condFin c).val = n :=
  code_iff (g := condCode) (fun a => by cases a <;> rfl) fun h => by
    unfold condOf? at h
    split at h <;> cases h <;> rfl

theorem fcondOf?_eq_some {n : Nat} {c : FCond} : fcondOf? n = some c ↔ (fcondFin c).val = n :=
  code_iff (g := fcondCode) (fun a => by cases a <;> rfl) fun h => by
    unfold fcondOf? at h
    split at h <;> cases h <;> rfl

theorem sizeOf?_eq_some {n : Nat} {z : Size} : sizeOf? n = some z ↔ (sizeFin z).val = n :=
  code_iff (g := sizeCode) (fun a => by cases a <;> rfl) fun h => by
    unfold sizeOf? at h
    split at h <;> cases h <;> rfl

theorem scopeOf?_eq_some {n : Nat} {v : Scope} : scopeOf? n = some v ↔ (scopeFin v).val = n :=
  code_iff (g := scopeCode) (fun a => by cases a <;> rfl) fun h => by
    unfold scopeOf? at h
    split at h <;> cases h <;> rfl

theorem scondOf_eq_iff {x : Nat} {c : SCond} : scondOf (x % 8) = c ↔ (scondFin c).val = x % 8 := by
  have h : ∀ n, n < 8 → (scondOf n = c ↔ (scondFin c).val = n) := by
    intro n hn
    interval_cases n <;> cases c <;> decide
  exact h _ (Nat.mod_lt _ (by decide))

theorem ordOf_eq_iff {x : Nat} {o : Ord} : ordOf (x % 4) = o ↔ (ordFin o).val = x % 4 := by
  have h : ∀ n, n < 4 → (ordOf n = o ↔ (ordFin o).val = n) := by
    intro n hn
    interval_cases n <;> cases o <;> decide
  exact h _ (Nat.mod_lt _ (by decide))

theorem bit_eq_iff {x : Nat} {b : Bool} : (x % 2 == 1) = b ↔ (bitFin b).val = x % 2 := by
  rcases Nat.mod_two_eq_zero_or_one x with h | h <;> cases b <;> simp [bitFin, h]

theorem finOfNat_eq_iff {n x : Nat} {_ : NeZero n} {d : Fin n} : Fin.ofNat n x = d ↔ d.val = x % n := by
  rw [Fin.ext_iff, eq_comm]
  rfl

theorem bitVecOfNat_eq_iff {n x : Nat} {i : BitVec n} : BitVec.ofNat n x = i ↔ i.toNat = x % 2 ^ n := by
  rw [← BitVec.toNat_inj, BitVec.toNat_ofNat, eq_comm]

/-- A field reads as an operand just where it holds the operand's code. -/
theorem reads_iff_code :
    (∀ x y b, bopOf? (x % 128) (y % 2) = some b ↔ (bopFin b).val = x % 128 ∧ (bsFin b).val = y % 2) ∧
    (∀ x y g, guardOf? (x % 8) (y % 2) = some g ↔ (guardQFin g).val = x % 8 ∧ (guardNFin g).val = y % 2) ∧
    (∀ n c, condOf? n = some c ↔ (condFin c).val = n) ∧ (∀ n c, fcondOf? n = some c ↔ (fcondFin c).val = n) ∧
    (∀ n z, sizeOf? n = some z ↔ (sizeFin z).val = n) ∧ (∀ n v, scopeOf? n = some v ↔ (scopeFin v).val = n) ∧
    (∀ x c, scondOf (x % 8) = c ↔ (scondFin c).val = x % 8) ∧ (∀ x o, ordOf (x % 4) = o ↔ (ordFin o).val = x % 4) ∧
    (∀ x b, (x % 2 == 1) = b ↔ (bitFin b).val = x % 2) ∧
    (∀ (n x : Nat) (_ : NeZero n) (d : Fin n), Fin.ofNat n x = d ↔ d.val = x % n) ∧
    ∀ (n x : Nat) (i : BitVec n), BitVec.ofNat n x = i ↔ i.toNat = x % 2 ^ n :=
  ⟨fun _ _ _ => bopOf?_eq_some, fun _ _ _ => guardOf?_eq_some, fun _ _ => condOf?_eq_some, fun _ _ => fcondOf?_eq_some,
    fun _ _ => sizeOf?_eq_some, fun _ _ => scopeOf?_eq_some, fun _ _ => scondOf_eq_iff, fun _ _ => ordOf_eq_iff,
    fun _ _ => bit_eq_iff, fun _ _ _ _ => finOfNat_eq_iff, fun _ _ _ => bitVecOfNat_eq_iff⟩

/-- The code of what a field reads as is the field. -/
theorem codes_of_reads :
    (∀ x, (bitFin (x % 2 == 1)).val = x % 2) ∧ (∀ x, (ordFin (ordOf (x % 4))).val = x % 4) ∧
    (∀ x, (scondFin (scondOf (x % 8))).val = x % 8) ∧ (∀ (n x : Nat) (_ : NeZero n), (Fin.ofNat n x).val = x % n) ∧
    ∀ n x : Nat, (BitVec.ofNat n x).toNat = x % 2 ^ n :=
  ⟨fun _ => bit_eq_iff.1 rfl, fun _ => ordOf_eq_iff.1 rfl, fun _ => scondOf_eq_iff.1 rfl, fun _ _ _ => rfl,
    fun _ _ => BitVec.toNat_ofNat ..⟩

end Sys2Proof

/-! PROOFS. What decodes has the word that it was decoded from (O51; 02 R31, R39): class by class, every row of the table puts the
fields of its word together again. -/

namespace Sys2Proof

/-! ## Rows -/

/-- What a row gives, if it is an instruction, has the word w. -/
def HasWord (w : Nat) (r : Decoded) : Prop := ∀ i, r = .ok i → encode i = some w

theorem hasWord_ok {w : Nat} {i : Instr} : HasWord w (.ok i) ↔ encode i = some w := by simp [HasWord]

theorem hasWord_error {w : Nat} {e : DecodeError} : HasWord w (.error e) ↔ True := by simp [HasWord]

theorem hasWord_orElse {α : Type} {w : Nat} {x : Option α} {e : DecodeError} {f : α → Decoded} :
    HasWord w (orElse x e f) ↔ ∀ a, x = some a → HasWord w (f a) := by
  cases x <;> simp [orElse, HasWord]

theorem hasWord_ite {w : Nat} {c : Prop} {_ : Decidable c} {x y : Decoded} :
    HasWord w (if c then x else y) ↔ (c → HasWord w x) ∧ (¬ c → HasWord w y) := by
  split <;> simp [*]

/-- What a row must show for its word: each operand that it reads, and each check that it makes, is a hypothesis. -/
theorem hasWord_rules :
    (∀ w i, HasWord w (.ok i) ↔ encode i = some w) ∧ (∀ w e, HasWord w (.error e) ↔ True) ∧
    (∀ (α : Type) w (x : Option α) e f, HasWord w (orElse x e f) ↔ ∀ a, x = some a → HasWord w (f a)) ∧
    ∀ w (c : Prop) (_ : Decidable c) x y, HasWord w (if c then x else y) ↔ (c → HasWord w x) ∧ (¬ c → HasWord w y) :=
  ⟨fun _ _ => hasWord_ok, fun _ _ => hasWord_error, fun _ _ _ _ _ => hasWord_orElse, fun _ _ _ _ _ => hasWord_ite⟩

/-! ## Fields put together -/

/-- A field joins all the bits below it. -/
theorem join_low (x w k n : Nat) : x + w / k % n * k + w % k = x + w % (k * n) := by
  rw [Nat.mod_mul, Nat.mul_comm]
  omega

/-- A field joins the field below it. -/
theorem join_field {a b : Nat} (x w m n : Nat) (h : b * n = a) :
    x + w / a % m * a + w / b % n * b = x + w / b % (n * m) * b := by
  subst h
  rw [Nat.mod_mul, Nat.add_mul, ← Nat.div_div_eq_div_mul, Nat.mul_right_comm n, Nat.mul_comm n b, Nat.mul_comm (b * n)]
  omega

/-- A field joins the bits or the field below it. -/
theorem joins :
    (∀ x w k n : Nat, x + w / k % n * k + w % k = x + w % (k * n)) ∧
    ∀ a b x w m n : Nat, b * n = a → x + w / a % m * a + w / b % n * b = x + w / b % (n * m) * b :=
  ⟨join_low, fun _ _ => join_field⟩

/-! ## The classes

In each class the branches of its table are the rows; a row's word is the sum of its fields, which join into the whole word
(`try`: a row without operands has no field to join). -/

theorem hasWord_decodeLR {w : Nat} (hw : w / 268435456 = 0) : HasWord w (decodeLR w) := by
  unfold decodeLR
  split
  all_goals simp only [hasWord_rules, reads_iff_code, imp_true_iff, and_true, imp_and, and_imp]
  all_goals and_intros
  all_goals
    intros
    refine congrArg some ?_
    simp only [codes_eq_fields, codes_of_reads, joins, Nat.reduceMul, *]
    omega

theorem hasWord_decodeLI {w : Nat} (hw : w / 268435456 = 1) : HasWord w (decodeLI w) := by
  unfold decodeLI
  split
  all_goals simp only [hasWord_rules, reads_iff_code]
  all_goals
    intros
    refine congrArg some ?_
    simp only [codes_eq_fields, codes_of_reads, joins, Nat.reduceMul, Nat.reducePow, *]
    omega

theorem hasWord_decodeL4 {w : Nat} (hw : w / 268435456 = 2) : HasWord w (decodeL4 w) := by
  unfold decodeL4
  split
  all_goals simp only [hasWord_rules, imp_true_iff, and_true]
  all_goals
    intros
    refine congrArg some ?_
    simp only [codes_eq_fields, codes_of_reads, joins, Nat.reduceMul, *]
    omega

theorem hasWord_decodeLM {w : Nat} (hw : w / 268435456 = 3) : HasWord w (decodeLM w) := by
  unfold decodeLM
  split
  all_goals simp only [hasWord_rules, imp_true_iff, and_true]
  all_goals
    intros
    refine congrArg some ?_
    simp only [codes_eq_fields, codes_of_reads, joins, Nat.reduceMul, Nat.reducePow, *]
    omega

theorem hasWord_decodeLmem {w : Nat} (hw : w / 268435456 = 4) : HasWord w (decodeLmem w) := by
  unfold decodeLmem
  split
  all_goals simp only [hasWord_rules, reads_iff_code, imp_true_iff, and_true, and_imp]
  all_goals
    intros
    refine congrArg some ?_
    simp only [codes_eq_fields, codes_of_reads, joins, Nat.reduceMul, Nat.reducePow, *]
    omega

theorem hasWord_decodeLX {w : Nat} (hw : w / 268435456 = 5) : HasWord w (decodeLX w) := by
  unfold decodeLX
  split
  all_goals simp only [hasWord_rules, imp_true_iff, and_true, and_imp]
  all_goals and_intros
  all_goals
    intros
    refine congrArg some ?_
    simp only [codes_eq_fields, codes_of_reads, joins, Nat.reduceMul, *]
    omega

theorem hasWord_decodeLC {w : Nat} (hw : w / 268435456 = 6) : HasWord w (decodeLC w) := by
  unfold decodeLC
  split
  all_goals simp only [hasWord_rules, imp_true_iff, and_true]
  all_goals
    intros
    refine congrArg some ?_
    try simp only [codes_eq_fields, codes_of_reads, joins, Nat.reduceMul, Nat.reducePow, *]
    omega

theorem hasWord_decodeLE {w : Nat} (hw : w / 268435456 = 7) : HasWord w (decodeLE w) := by
  unfold decodeLE
  split
  all_goals simp only [hasWord_rules, imp_true_iff, and_true]
  all_goals
    intros
    refine congrArg some ?_
    simp only [codes_of_reads, joins, Nat.reduceMul, *]
    omega

theorem hasWord_decodeUR {w : Nat} (hw : w / 268435456 = 8) : HasWord w (decodeUR w) := by
  unfold decodeUR
  split
  all_goals simp only [hasWord_rules, reads_iff_code, imp_true_iff, and_true, and_imp]
  all_goals
    intros
    refine congrArg some ?_
    simp only [codes_eq_fields, codes_of_reads, joins, Nat.reduceMul, *]
    omega

theorem hasWord_decodeUI {w : Nat} (hw : w / 268435456 = 9) : HasWord w (decodeUI w) := by
  unfold decodeUI
  split
  all_goals simp only [hasWord_rules]
  all_goals
    refine congrArg some ?_
    simp only [codes_eq_fields, codes_of_reads, joins, Nat.reduceMul, Nat.reducePow, *]
    omega

theorem hasWord_decodeUM {w : Nat} (hw : w / 268435456 = 10) : HasWord w (decodeUM w) := by
  unfold decodeUM
  split
  all_goals simp only [hasWord_rules, imp_true_iff, and_true]
  all_goals
    intros
    refine congrArg some ?_
    simp only [codes_of_reads, joins, Nat.reduceMul, Nat.reducePow, *]
    omega

theorem hasWord_decodeUB {w : Nat} (hw : w / 268435456 = 11) : HasWord w (decodeUB w) := by
  unfold decodeUB
  split
  all_goals simp only [hasWord_rules, reads_iff_code, imp_true_iff, and_true, and_imp]
  all_goals
    intros
    refine congrArg some ?_
    simp only [codes_eq_fields, codes_of_reads, joins, Nat.reduceMul, Nat.reducePow, *]
    omega

theorem hasWord_decodeUmem {w : Nat} (hw : w / 268435456 = 12) : HasWord w (decodeUmem w) := by
  unfold decodeUmem
  split
  all_goals simp only [hasWord_rules, imp_true_iff, and_true]
  all_goals
    intros
    refine congrArg some ?_
    simp only [codes_of_reads, joins, Nat.reduceMul, Nat.reducePow, *]
    omega

theorem hasWord_decodeUsys {w : Nat} (hw : w / 268435456 = 13) : HasWord w (decodeUsys w) := by
  unfold decodeUsys
  split
  all_goals simp only [hasWord_rules, reads_iff_code, imp_true_iff, and_true, imp_and, and_imp]
  all_goals and_intros
  all_goals
    intros
    refine congrArg some ?_
    try simp only [codes_eq_fields, codes_of_reads, joins, Nat.reduceMul, Nat.reducePow, *]
    omega

theorem hasWord_decodeUE {w : Nat} (hw : w / 268435456 = 14) : HasWord w (decodeUE w) := by
  unfold decodeUE
  split
  all_goals simp only [hasWord_rules, imp_true_iff, and_true]
  all_goals and_intros
  all_goals
    intros
    refine congrArg some ?_
    simp only [codes_of_reads, joins, Nat.reduceMul, *]
    omega

theorem hasWord_decodeMX {w : Nat} (hw : w / 268435456 = 15) : HasWord w (decodeMX w) := by
  unfold decodeMX
  split
  all_goals simp only [hasWord_rules, imp_true_iff, and_true, imp_and, and_imp]
  all_goals and_intros
  all_goals
    intros
    refine congrArg some ?_
    try simp only [codes_eq_fields, codes_of_reads, joins, Nat.reduceMul, Nat.reducePow, *]
    omega

/-! ## All classes -/

theorem decodeRow_LR {w : Nat} (h : w / 268435456 = 0) : decodeRow w = decodeLR w := by rw [decodeRow, h]; rfl
theorem decodeRow_LI {w : Nat} (h : w / 268435456 = 1) : decodeRow w = decodeLI w := by rw [decodeRow, h]; rfl
theorem decodeRow_L4 {w : Nat} (h : w / 268435456 = 2) : decodeRow w = decodeL4 w := by rw [decodeRow, h]; rfl
theorem decodeRow_LM {w : Nat} (h : w / 268435456 = 3) : decodeRow w = decodeLM w := by rw [decodeRow, h]; rfl
theorem decodeRow_Lmem {w : Nat} (h : w / 268435456 = 4) : decodeRow w = decodeLmem w := by rw [decodeRow, h]; rfl
theorem decodeRow_LX {w : Nat} (h : w / 268435456 = 5) : decodeRow w = decodeLX w := by rw [decodeRow, h]; rfl
theorem decodeRow_LC {w : Nat} (h : w / 268435456 = 6) : decodeRow w = decodeLC w := by rw [decodeRow, h]; rfl
theorem decodeRow_LE {w : Nat} (h : w / 268435456 = 7) : decodeRow w = decodeLE w := by rw [decodeRow, h]; rfl
theorem decodeRow_UR {w : Nat} (h : w / 268435456 = 8) : decodeRow w = decodeUR w := by rw [decodeRow, h]; rfl
theorem decodeRow_UI {w : Nat} (h : w / 268435456 = 9) : decodeRow w = decodeUI w := by rw [decodeRow, h]; rfl
theorem decodeRow_UM {w : Nat} (h : w / 268435456 = 10) : decodeRow w = decodeUM w := by rw [decodeRow, h]; rfl
theorem decodeRow_UB {w : Nat} (h : w / 268435456 = 11) : decodeRow w = decodeUB w := by rw [decodeRow, h]; rfl
theorem decodeRow_Umem {w : Nat} (h : w / 268435456 = 12) : decodeRow w = decodeUmem w := by rw [decodeRow, h]; rfl
theorem decodeRow_Usys {w : Nat} (h : w / 268435456 = 13) : decodeRow w = decodeUsys w := by rw [decodeRow, h]; rfl
theorem decodeRow_UE {w : Nat} (h : w / 268435456 = 14) : decodeRow w = decodeUE w := by rw [decodeRow, h]; rfl
theorem decodeRow_MX {w : Nat} (h : w / 268435456 = 15) : decodeRow w = decodeMX w := by rw [decodeRow, h]; rfl

/-- What a word's row gives has the word. -/
theorem hasWord_decodeRow {w : Nat} (hw : w < 2 ^ 32) : HasWord w (decodeRow w) := by
  have hc : w / 268435456 < 16 := by omega
  generalize hq : w / 268435456 = c at hc
  interval_cases c
  · exact decodeRow_LR hq ▸ hasWord_decodeLR hq
  · exact decodeRow_LI hq ▸ hasWord_decodeLI hq
  · exact decodeRow_L4 hq ▸ hasWord_decodeL4 hq
  · exact decodeRow_LM hq ▸ hasWord_decodeLM hq
  · exact decodeRow_Lmem hq ▸ hasWord_decodeLmem hq
  · exact decodeRow_LX hq ▸ hasWord_decodeLX hq
  · exact decodeRow_LC hq ▸ hasWord_decodeLC hq
  · exact decodeRow_LE hq ▸ hasWord_decodeLE hq
  · exact decodeRow_UR hq ▸ hasWord_decodeUR hq
  · exact decodeRow_UI hq ▸ hasWord_decodeUI hq
  · exact decodeRow_UM hq ▸ hasWord_decodeUM hq
  · exact decodeRow_UB hq ▸ hasWord_decodeUB hq
  · exact decodeRow_Umem hq ▸ hasWord_decodeUmem hq
  · exact decodeRow_Usys hq ▸ hasWord_decodeUsys hq
  · exact decodeRow_UE hq ▸ hasWord_decodeUE hq
  · exact decodeRow_MX hq ▸ hasWord_decodeMX hq

/-- A word decodes to an instruction just where its row gives it and it breaks no field rule (R39). -/
theorem decode_eq_ok {w : Nat} {i : Instr} : decode w = .ok i ↔ decodeRow w = .ok i ∧ i.wf = true := by
  unfold decode checkRow Instr.wf
  rcases decodeRow w with (_ | _) | j
  · dsimp only
    split <;> simp
  · simp
  · dsimp only
    rcases hj : j.check with _ | e
    · simp only [Except.ok.injEq, iff_self_and]
      rintro rfl
      simp [hj]
    · simp only [reduceCtorEq, Except.ok.injEq, false_iff, not_and]
      rintro rfl
      simp [hj]

/-- Settles O51: the row gives a well-formed instruction whose word is put together from the fields again. -/
theorem decodedWordsEncodeBack : Obligations.DecodedWordsEncodeBack := by
  intro w i hw h
  obtain ⟨hrow, hwf⟩ := decode_eq_ok.1 h
  exact ⟨hwf, hasWord_decodeRow hw i hrow⟩

end Sys2Proof

/-! PROOFS. Every instruction that has a word is read back from it (O50; 02 R31, R39): the formats that many members share are
argued once, for the member's constructor and the row of the table that gives it; the other rows class by class. -/

namespace Sys2Proof

/-- The instruction has its row's word, and the row gives it back (R31). -/
def ReadsBack (i : Instr) : Prop := ∀ w, encode i = some w → w < 2 ^ 32 ∧ decodeRow w = .ok i

theorem orElse_eq_ok {α : Type} {x : Option α} {e : DecodeError} {f : α → Decoded} {i : Instr} :
    orElse x e f = .ok i ↔ ∃ a, x = some a ∧ f a = .ok i := by
  cases x <;> simp [orElse]

theorem ite_eq_ok {c : Prop} {_ : Decidable c} {x y : Decoded} {i : Instr} :
    (if c then x else y) = .ok i ↔ c ∧ x = .ok i ∨ ¬ c ∧ y = .ok i := ite_eq_iff

/-! ## The class of a word -/

/-- The bits above a field give the class. -/
theorem class_of_div {w k m q : Nat} (hk : k * m = 268435456) (h : w / k = q) : w / 268435456 = q / m := by
  rw [← hk, ← Nat.div_div_eq_div_mul, h]

/-- What is read back from the words of one class of 32-bit words. -/
theorem readsBack_of_class {w c : Nat} {i : Instr} (h : w / 268435456 = c) (hc : c < 16) (hd : decodeRow w = .ok i) :
    w < 2 ^ 32 ∧ decodeRow w = .ok i :=
  ⟨by omega, hd⟩

/-- Fields below a boundary do not reach the quotient there. -/
theorem div_of_add {base rest w k : Nat} (h : base + rest = w) (hk : base % k + rest < k) : w / k = base / k := by
  have hw : w = base % k + rest + k * (base / k) := by
    have := Nat.mod_add_div base k
    omega
  rw [hw, Nat.add_mul_div_left _ _ (by omega), Nat.div_eq_of_lt hk, Nat.zero_add]

/-! ## Shared formats -/

/-- Members of LR with a B operand (R32). -/
theorem readsBack_dab {base : Nat} {mk : VReg → VReg → BOp → Instr} {d a : VReg} {x : BOp}
    (he : encode (mk d a x) = some (base + d.val * 32768 + a.val * 256 + bopField x * 2 + bopBS x))
    (hb : base % 4194304 = 0 ∧ base / 4194304 / 64 < 16)
    (hr : ∀ w, w / 4194304 = base / 4194304 → decodeRow w = orElse (bopOf? (w / 2 % 128) (w % 2)) .illegalOperand fun b =>
      .ok (mk (Fin.ofNat 128 (w / 32768)) (Fin.ofNat 128 (w / 256)) b)) : ReadsBack (mk d a x) := by
  intro w h
  replace h := Option.some.inj (he.symm.trans h)
  simp only [codes_eq_fields] at h
  have hf : w / 4194304 = base / 4194304 := by omega
  have hx : bopOf? (w / 2 % 128) (w % 2) = some x := bopOf?_eq_some.2 (by omega)
  have hd : Fin.ofNat 128 (w / 32768) = d := finOfNat_eq_iff.2 (by omega)
  have ha : Fin.ofNat 128 (w / 256) = a := finOfNat_eq_iff.2 (by omega)
  refine readsBack_of_class (class_of_div (m := 64) rfl hf) hb.2 ?_
  rw [hr w hf, hx, hd, ha]
  rfl

/-- Members of LR and LX with two registers and a fixed low byte. -/
theorem readsBack_da {base : Nat} {mk : VReg → VReg → Instr} {d a : VReg}
    (he : encode (mk d a) = some (base + d.val * 32768 + a.val * 256))
    (hb : base % 4194304 < 256 ∧ base / 4194304 / 64 < 16)
    (hr : ∀ w, w / 4194304 = base / 4194304 → w % 256 = base % 256 →
      decodeRow w = .ok (mk (Fin.ofNat 128 (w / 32768)) (Fin.ofNat 128 (w / 256)))) : ReadsBack (mk d a) := by
  intro w h
  replace h := Option.some.inj (he.symm.trans h)
  have hf : w / 4194304 = base / 4194304 := by omega
  have hd : Fin.ofNat 128 (w / 32768) = d := finOfNat_eq_iff.2 (by omega)
  have ha : Fin.ofNat 128 (w / 256) = a := finOfNat_eq_iff.2 (by omega)
  refine readsBack_of_class (class_of_div (m := 64) rfl hf) hb.2 ?_
  rw [hr w hf (by omega), hd, ha]

/-- Members of LI with two registers. -/
theorem readsBack_dai {base : Nat} {mk : VReg → VReg → BitVec 8 → Instr} {d a : VReg} {i : BitVec 8}
    (he : encode (mk d a i) = some (base + d.val * 32768 + a.val * 256 + i.toNat))
    (hb : base % 4194304 = 0 ∧ base / 4194304 / 64 < 16)
    (hr : ∀ w, w / 4194304 = base / 4194304 →
      decodeRow w = .ok (mk (Fin.ofNat 128 (w / 32768)) (Fin.ofNat 128 (w / 256)) (BitVec.ofNat 8 w))) :
    ReadsBack (mk d a i) := by
  intro w h
  replace h := Option.some.inj (he.symm.trans h)
  have hf : w / 4194304 = base / 4194304 := by omega
  have hd : Fin.ofNat 128 (w / 32768) = d := finOfNat_eq_iff.2 (by omega)
  have ha : Fin.ofNat 128 (w / 256) = a := finOfNat_eq_iff.2 (by omega)
  have hi : BitVec.ofNat 8 w = i := bitVecOfNat_eq_iff.2 (by omega)
  refine readsBack_of_class (class_of_div (m := 64) rfl hf) hb.2 ?_
  rw [hr w hf, hd, ha, hi]

/-- Members of UR with three registers and a guard (R33). -/
theorem readsBack_stug {base : Nat} {mk : SReg → SReg → SReg → QGuard → Instr} {s t u : SReg} {g : QGuard}
    (he : encode (mk s t u g) = some (base + s.val * 65536 + t.val * 1024 + u.val * 16 + guardQ g * 2 + guardN g))
    (hb : base % 4194304 = 0 ∧ base / 4194304 / 64 < 16)
    (hr : ∀ w, w / 4194304 = base / 4194304 → decodeRow w = orElse (guardOf? (w / 2 % 8) (w % 2)) .illegalInstruction fun g =>
      .ok (mk (Fin.ofNat 64 (w / 65536)) (Fin.ofNat 64 (w / 1024)) (Fin.ofNat 64 (w / 16)) g)) :
    ReadsBack (mk s t u g) := by
  intro w h
  replace h := Option.some.inj (he.symm.trans h)
  simp only [codes_eq_fields] at h
  have hf : w / 4194304 = base / 4194304 := by omega
  have hg : guardOf? (w / 2 % 8) (w % 2) = some g := guardOf?_eq_some.2 (by omega)
  have hs : Fin.ofNat 64 (w / 65536) = s := finOfNat_eq_iff.2 (by omega)
  have ht : Fin.ofNat 64 (w / 1024) = t := finOfNat_eq_iff.2 (by omega)
  have hu : Fin.ofNat 64 (w / 16) = u := finOfNat_eq_iff.2 (by omega)
  refine readsBack_of_class (class_of_div (m := 64) rfl hf) hb.2 ?_
  rw [hr w hf, hg, hs, ht, hu]
  rfl

/-- Members of UI with two registers. -/
theorem readsBack_sti {base : Nat} {mk : SReg → SReg → BitVec 10 → Instr} {s t : SReg} {i : BitVec 10}
    (he : encode (mk s t i) = some (base + s.val * 65536 + t.val * 1024 + i.toNat))
    (hb : base % 4194304 = 0 ∧ base / 4194304 / 64 < 16)
    (hr : ∀ w, w / 4194304 = base / 4194304 →
      decodeRow w = .ok (mk (Fin.ofNat 64 (w / 65536)) (Fin.ofNat 64 (w / 1024)) (BitVec.ofNat 10 w))) :
    ReadsBack (mk s t i) := by
  intro w h
  replace h := Option.some.inj (he.symm.trans h)
  have hf : w / 4194304 = base / 4194304 := by omega
  have hs : Fin.ofNat 64 (w / 65536) = s := finOfNat_eq_iff.2 (by omega)
  have ht : Fin.ofNat 64 (w / 1024) = t := finOfNat_eq_iff.2 (by omega)
  have hi : BitVec.ofNat 10 w = i := bitVecOfNat_eq_iff.2 (by omega)
  refine readsBack_of_class (class_of_div (m := 64) rfl hf) hb.2 ?_
  rw [hr w hf, hs, ht, hi]

/-- Plain loads and stores (R268). -/
theorem readsBack_ld {base : Nat} {mk : VReg → VReg → BitVec 5 → Size → Bool → Instr} {d a : VReg} {i : BitVec 5} {z : Size}
    {n : Bool} (he : encode (mk d a i z n) =
      some (base + d.val * 65536 + a.val * 512 + i.toNat * 16 + sizeCode z * 2 + n.toNat))
    (hb : base % 8388608 = 0 ∧ base / 8388608 / 32 < 16)
    (hr : ∀ w, w / 8388608 = base / 8388608 → decodeRow w = orElse (sizeOf? (w / 2 % 8)) .illegalOperand fun z =>
      .ok (mk (Fin.ofNat 128 (w / 65536)) (Fin.ofNat 128 (w / 512)) (BitVec.ofNat 5 (w / 16)) z (w % 2 == 1))) :
    ReadsBack (mk d a i z n) := by
  intro w h
  replace h := Option.some.inj (he.symm.trans h)
  simp only [codes_eq_fields] at h
  have hf : w / 8388608 = base / 8388608 := by omega
  have hz : sizeOf? (w / 2 % 8) = some z := sizeOf?_eq_some.2 (by omega)
  have hd : Fin.ofNat 128 (w / 65536) = d := finOfNat_eq_iff.2 (by omega)
  have ha : Fin.ofNat 128 (w / 512) = a := finOfNat_eq_iff.2 (by omega)
  have hi : BitVec.ofNat 5 (w / 16) = i := bitVecOfNat_eq_iff.2 (by omega)
  have hn : (w % 2 == 1) = n := bit_eq_iff.2 (by omega)
  refine readsBack_of_class (class_of_div (m := 32) rfl hf) hb.2 ?_
  rw [hr w hf, hz, hd, ha, hi, hn]
  rfl

/-- Atomics at a scope with an order, of 32 and 64 bits (R276). -/
theorem readsBack_atom {base : Nat} {mk : VReg → VReg → Scope → Ord → Bool → Instr} {d a : VReg} {v : Scope} {o : Ord} {n : Bool}
    (he : encode (mk d a v o n) =
      some (base + d.val * 65536 + a.val * 512 + scopeCode v * 64 + ordCode o * 16 + n.toNat * 2))
    (hb : base % 8388608 = 8 ∧ base / 8388608 / 32 < 16)
    (hr : ∀ w, w / 8388608 = base / 8388608 → w % 2 = 0 → w / 4 % 4 = 2 →
      decodeRow w = orElse (scopeOf? (w / 64 % 8)) .illegalOperand fun v =>
        .ok (mk (Fin.ofNat 128 (w / 65536)) (Fin.ofNat 128 (w / 512)) v (ordOf (w / 16 % 4)) (w / 2 % 2 == 1))) :
    ReadsBack (mk d a v o n) := by
  intro w h
  replace h := Option.some.inj (he.symm.trans h)
  simp only [codes_eq_fields] at h
  have hf : w / 8388608 = base / 8388608 := by omega
  have hv : scopeOf? (w / 64 % 8) = some v := scopeOf?_eq_some.2 (by omega)
  have hd : Fin.ofNat 128 (w / 65536) = d := finOfNat_eq_iff.2 (by omega)
  have ha : Fin.ofNat 128 (w / 512) = a := finOfNat_eq_iff.2 (by omega)
  have ho : ordOf (w / 16 % 4) = o := ordOf_eq_iff.2 (by omega)
  have hn : (w / 2 % 2 == 1) = n := bit_eq_iff.2 (by omega)
  refine readsBack_of_class (class_of_div (m := 32) rfl hf) hb.2 ?_
  rw [hr w hf (by omega) (by omega), hv, hd, ha, ho, hn]
  rfl

/-! ## The rows

A row that is not of a shared format: its fields stay below its function code, and each is read back (`try`: a single field
stands by itself). -/

/-- The members without an operand. -/
theorem readsBack_noOperand :
    ReadsBack .emeld ∧ ReadsBack .rejoin ∧ ReadsBack .exit ∧ ReadsBack .rft ∧ ReadsBack .yldDone ∧ ReadsBack .yield ∧
    ReadsBack .trig ∧ ReadsBack .nameput ∧ ReadsBack .mxrel ∧ ReadsBack .mend := by
  and_intros
  all_goals
    rintro w ⟨⟩
    exact ⟨by decide, rfl⟩

/-- The members of LR with a B operand. -/
theorem readsBack_LR_dab :
    ∀ d a x, ReadsBack (.iadd d a x) ∧ ReadsBack (.isub d a x) ∧ ReadsBack (.iadds d a x) ∧ ReadsBack (.iaddsn d a x) ∧
    ReadsBack (.imul d a x) ∧ ReadsBack (.imulh d a x) ∧ ReadsBack (.imulhn d a x) ∧ ReadsBack (.imin d a x) ∧
    ReadsBack (.imax d a x) ∧ ReadsBack (.iminn d a x) ∧ ReadsBack (.imaxn d a x) ∧ ReadsBack (.iabsd d a x) ∧
    ReadsBack (.and d a x) ∧ ReadsBack (.or d a x) ∧ ReadsBack (.xor d a x) ∧ ReadsBack (.andn d a x) ∧
    ReadsBack (.shl d a x) ∧ ReadsBack (.shr d a x) ∧ ReadsBack (.sar d a x) ∧ ReadsBack (.rotl d a x) ∧
    ReadsBack (.bfe d a x) ∧ ReadsBack (.bfen d a x) ∧ ReadsBack (.bfi d a x) ∧ ReadsBack (.fadd d a x) ∧
    ReadsBack (.fsub d a x) ∧ ReadsBack (.fmul d a x) ∧ ReadsBack (.fmin d a x) ∧ ReadsBack (.fmax d a x) ∧
    ReadsBack (.ffmad d a x) ∧ ReadsBack (.fscl d a x) ∧ ReadsBack (.hadd2 d a x) ∧ ReadsBack (.hmul2 d a x) ∧
    ReadsBack (.hfmad2 d a x) ∧ ReadsBack (.hmin2 d a x) ∧ ReadsBack (.hmax2 d a x) ∧ ReadsBack (.dadd d a x) ∧
    ReadsBack (.dmul d a x) ∧ ReadsBack (.dfmad d a x) := by
  intro d a x
  and_intros
  all_goals
    exact readsBack_dab rfl (by decide) fun w h => by rw [decodeRow_LR (class_of_div (m := 64) rfl h), decodeLR, h]; rfl

/-- The members of LR with two registers. -/
theorem readsBack_LR_da :
    ∀ d a, ReadsBack (.popc d a) ∧ ReadsBack (.clz d a) ∧ ReadsBack (.clzSgn d a) ∧ ReadsBack (.brev d a) ∧
    ReadsBack (.fabs d a) ∧ ReadsBack (.fabsH2 d a) ∧ ReadsBack (.fabsD d a) ∧ ReadsBack (.fneg d a) ∧
    ReadsBack (.fnegH2 d a) ∧ ReadsBack (.fnegD d a) ∧ ReadsBack (.frnd d a) ∧ ReadsBack (.frndD d a) ∧ ReadsBack (.mov d a) ∧
    ReadsBack (.movB64 d a) := by
  intro d a
  and_intros
  all_goals
    exact readsBack_da rfl (by decide) fun w h hl => by rw [decodeRow_LR (class_of_div (m := 64) rfl h), decodeLR, h, hl]; rfl

/-- The members of LI with two registers. -/
theorem readsBack_LI_dai :
    ∀ d a i, ReadsBack (.iaddImm d a i) ∧ ReadsBack (.isubImm d a i) ∧ ReadsBack (.iaddsImm d a i) ∧
    ReadsBack (.iaddsnImm d a i) ∧ ReadsBack (.imulImm d a i) ∧ ReadsBack (.iminImm d a i) ∧ ReadsBack (.imaxImm d a i) ∧
    ReadsBack (.iminnImm d a i) ∧ ReadsBack (.imaxnImm d a i) ∧ ReadsBack (.andImm d a i) ∧ ReadsBack (.orImm d a i) ∧
    ReadsBack (.xorImm d a i) ∧ ReadsBack (.andnImm d a i) ∧ ReadsBack (.shlImm d a i) ∧ ReadsBack (.shrImm d a i) ∧
    ReadsBack (.sarImm d a i) ∧ ReadsBack (.rotlImm d a i) := by
  intro d a i
  and_intros
  all_goals
    exact readsBack_dai rfl (by decide) fun w h => by rw [decodeRow_LI (class_of_div (m := 64) rfl h), decodeLI, h]; rfl

/-- The members of LX with two registers. -/
theorem readsBack_LX_da :
    ∀ d a, ReadsBack (.gpeerEq d a) ∧ ReadsBack (.gpeerUni d a) ∧ ReadsBack (.gredAdd d a) ∧ ReadsBack (.gredFadd d a) ∧
    ReadsBack (.gredAnd d a) ∧ ReadsBack (.gredOr d a) ∧ ReadsBack (.gscanAdd d a) ∧ ReadsBack (.gscanAddExcl d a) ∧
    ReadsBack (.gscanFadd d a) ∧ ReadsBack (.gscanFaddExcl d a) ∧ ReadsBack (.rcp d a) ∧ ReadsBack (.rsq d a) ∧
    ReadsBack (.sqrt d a) ∧ ReadsBack (.ex2 d a) ∧ ReadsBack (.lg2 d a) ∧ ReadsBack (.sin d a) ∧ ReadsBack (.cos d a) ∧
    ReadsBack (.tanh d a) ∧ ReadsBack (.cvtb4 d a) ∧ ReadsBack (.cvtb4Q d a) ∧ ReadsBack (.cvtdF32 d a) ∧
    ReadsBack (.cvtdF64 d a) ∧ ReadsBack (.qnt d a) := by
  intro d a
  and_intros
  all_goals
    exact readsBack_da rfl (by decide) fun w h hl => by rw [decodeRow_LX (class_of_div (m := 64) rfl h), decodeLX, h, hl]; rfl

/-- The members of UR with three registers and a guard. -/
theorem readsBack_UR_stug :
    ∀ s t u g, ReadsBack (.sadd s t u g) ∧ ReadsBack (.ssub s t u g) ∧ ReadsBack (.smul s t u g) ∧
    ReadsBack (.smulh s t u g) ∧ ReadsBack (.smin s t u g) ∧ ReadsBack (.smax s t u g) ∧ ReadsBack (.sminn s t u g) ∧
    ReadsBack (.smaxn s t u g) ∧ ReadsBack (.sand s t u g) ∧ ReadsBack (.sor s t u g) ∧ ReadsBack (.sxor s t u g) ∧
    ReadsBack (.sshl s t u g) ∧ ReadsBack (.sshr s t u g) ∧ ReadsBack (.ssar s t u g) ∧ ReadsBack (.saddw s t u g) := by
  intro s t u g
  and_intros
  all_goals
    exact readsBack_stug rfl (by decide) fun w h => by rw [decodeRow_UR (class_of_div (m := 64) rfl h), decodeUR, h]; rfl

/-- The members of UI with two registers. -/
theorem readsBack_UI_sti :
    ∀ s t i, ReadsBack (.saddImm s t i) ∧ ReadsBack (.ssubImm s t i) ∧ ReadsBack (.smulImm s t i) ∧
    ReadsBack (.sminImm s t i) ∧ ReadsBack (.smaxImm s t i) ∧ ReadsBack (.sminnImm s t i) ∧ ReadsBack (.smaxnImm s t i) ∧
    ReadsBack (.sandImm s t i) ∧ ReadsBack (.sorImm s t i) ∧ ReadsBack (.sxorImm s t i) ∧ ReadsBack (.sshlImm s t i) ∧
    ReadsBack (.sshrImm s t i) ∧ ReadsBack (.ssarImm s t i) ∧ ReadsBack (.saddwImm s t i) := by
  intro s t i
  and_intros
  all_goals
    exact readsBack_sti rfl (by decide) fun w h => by rw [decodeRow_UI (class_of_div (m := 64) rfl h), decodeUI, h]; rfl

/-- Plain loads and stores. -/
theorem readsBack_Lmem_ld :
    ∀ d a i z n, ReadsBack (.ld d a i z n) ∧ ReadsBack (.st d a i z n) ∧ ReadsBack (.lds d a i z n) ∧
    ReadsBack (.sts d a i z n) ∧ ReadsBack (.ldc d a i z n) ∧ ReadsBack (.ldro d a i z n) := by
  intro d a i z n
  and_intros
  all_goals
    exact readsBack_ld rfl (by decide) fun w h => by rw [decodeRow_Lmem (class_of_div (m := 32) rfl h), decodeLmem, h]; rfl

/-- Atomics. -/
theorem readsBack_Lmem_atom :
    ∀ d a v o n, ReadsBack (.atomAdd d a v o n) ∧ ReadsBack (.atomMin d a v o n) ∧ ReadsBack (.atomMax d a v o n) ∧
    ReadsBack (.atomMinn d a v o n) ∧ ReadsBack (.atomMaxn d a v o n) ∧ ReadsBack (.atomAnd d a v o n) ∧
    ReadsBack (.atomOr d a v o n) ∧ ReadsBack (.atomXor d a v o n) ∧ ReadsBack (.atomExch d a v o n) ∧
    ReadsBack (.atomCas d a v o n) := by
  intro d a v o n
  and_intros
  all_goals
    exact readsBack_atom rfl (by decide) fun w h h1 h2 => by
      rw [decodeRow_Lmem (class_of_div (m := 32) rfl h), decodeLmem, h, h1, h2]
      rfl

/-- The other members of LR with operands. -/
theorem readsBack_LR :
    (∀ c p d x, ReadsBack (.icmp c p d x)) ∧ (∀ c p d x, ReadsBack (.fcmp c p d x) ∧ ReadsBack (.dcmp c p d x)) ∧
    ∀ d s, ReadsBack (.movs d s) := by
  and_intros
  all_goals intros
  all_goals and_intros
  all_goals
    intro w h
    replace h := Option.some.inj h
    simp only [codes_eq_fields, Nat.add_assoc] at h
    have hf : w / 4194304 = _ := div_of_add h (by omega)
    have hc := class_of_div (m := 64) rfl hf
    refine readsBack_of_class hc (by decide) ?_
    rw [decodeRow_LR hc, decodeLR, hf]
    simp [orElse_eq_ok, ite_eq_ok, reads_iff_code, -Fin.ofNat_eq_cast]
    omega

/-- The other members of LI with operands. -/
theorem readsBack_LI :
    ∀ c p d i, ReadsBack (.icmpImm c p d i) := by
  intro c p d i
  all_goals
    intro w h
    replace h := Option.some.inj h
    simp only [codes_eq_fields, Nat.add_assoc] at h
    have hf : w / 4194304 = _ := div_of_add h (by omega)
    have hc := class_of_div (m := 64) rfl hf
    refine readsBack_of_class hc (by decide) ?_
    rw [decodeRow_LI hc, decodeLI, hf]
    simp [orElse_eq_ok, reads_iff_code, -Fin.ofNat_eq_cast]
    omega

/-- The other members of L4 with operands. -/
theorem readsBack_L4 :
    (∀ d a b k, ReadsBack (.ffmadc d a b k) ∧ ReadsBack (.imuladd d a b k) ∧ ReadsBack (.itadd d a b k)) ∧
    ∀ d a b n p, ReadsBack (.vsel d a b n p) := by
  and_intros
  all_goals intros
  all_goals and_intros
  all_goals
    intro w h
    replace h := Option.some.inj h
    simp only [codes_eq_fields, Nat.add_assoc] at h
    have hf : w / 67108864 = _ := div_of_add h (by omega)
    have hc := class_of_div (m := 4) rfl hf
    refine readsBack_of_class hc (by decide) ?_
    rw [decodeRow_L4 hc, decodeL4, hf]
    simp [ite_eq_ok, reads_iff_code, -Fin.ofNat_eq_cast]
    omega

/-- The other members of LM with operands. -/
theorem readsBack_LM :
    (∀ d n i, ReadsBack (.movi d n i) ∧ ReadsBack (.movk d n i)) ∧ ∀ d i, ReadsBack (.movsx d i) ∧ ReadsBack (.movh d i) := by
  and_intros
  all_goals intros
  all_goals and_intros
  all_goals
    intro w h
    replace h := Option.some.inj h
    simp only [codes_eq_fields, Nat.add_assoc] at h
    have hf : w / 16777216 = _ := div_of_add h (by omega)
    have hc := class_of_div (m := 16) rfl hf
    refine readsBack_of_class hc (by decide) ?_
    rw [decodeRow_LM hc, decodeLM, hf]
    simp [ite_eq_ok, reads_iff_code, -Fin.ofNat_eq_cast]
    omega

/-- The other members of Lmem with operands. -/
theorem readsBack_Lmem :
    (∀ d a v z, ReadsBack (.ldAcq d a v z) ∧ ReadsBack (.stRel d a v z)) ∧ (∀ d a v o, ReadsBack (.atomFadd d a v o)) ∧
    (∀ d a v n m, ReadsBack (.redAdd d a v n m) ∧ ReadsBack (.redMin d a v n m) ∧ ReadsBack (.redMax d a v n m) ∧
    ReadsBack (.redOr d a v n m)) ∧
    (∀ d a v n, ReadsBack (.redFadd d a v n) ∧ ReadsBack (.atomScAdd d a v n) ∧ ReadsBack (.atomScExch d a v n) ∧
    ReadsBack (.atomScCas d a v n)) ∧
    (∀ d a n o, ReadsBack (.atomsAdd d a n o) ∧ ReadsBack (.atomsCas d a n o) ∧ ReadsBack (.atomsExch d a n o) ∧
    ReadsBack (.atomsFadd d a n o)) ∧ ∀ d i z n, ReadsBack (.pf d i z n) := by
  and_intros
  all_goals intros
  all_goals and_intros
  all_goals
    intro w h
    replace h := Option.some.inj h
    simp only [codes_eq_fields, Nat.add_assoc] at h
    have hf : w / 8388608 = _ := div_of_add h (by omega)
    have hc := class_of_div (m := 32) rfl hf
    refine readsBack_of_class hc (by decide) ?_
    rw [decodeRow_Lmem hc, decodeLmem, hf]
    simp [orElse_eq_ok, ite_eq_ok, reads_iff_code, -Fin.ofNat_eq_cast]
    omega

/-- The other members of LX with operands. -/
theorem readsBack_LX :
    (∀ d a b, ReadsBack (.lxgAt d a b) ∧ ReadsBack (.lxgBack d a b) ∧ ReadsBack (.lxgFwd d a b) ∧ ReadsBack (.lxgFlip d a b) ∧
    ReadsBack (.fdiv d a b) ∧ ReadsBack (.cvth2 d a b)) ∧
    (∀ p n q, ReadsBack (.gpredAny p n q) ∧ ReadsBack (.gpredAll p n q)) ∧ (∀ d n p, ReadsBack (.gpredMask d n p)) ∧
    (∀ d a k, ReadsBack (.gredMin d a k) ∧ ReadsBack (.gredMax d a k) ∧ ReadsBack (.cvtdfI d a k) ∧
    ReadsBack (.cvtdfF d a k)) ∧ (∀ d a k, ReadsBack (.cvtf d a k) ∧ ReadsBack (.cvti d a k)) ∧
    (∀ d a k l, ReadsBack (.unpk d a k l)) ∧ (∀ p k n q m r, ReadsBack (.plop p k n q m r)) ∧ (∀ d, ReadsBack (.p2v d)) ∧
    (∀ p d k, ReadsBack (.v2p p d k)) ∧ ∀ k l, ReadsBack (.sysv k l) ∧ ReadsBack (.vmask k l) := by
  and_intros
  all_goals intros
  all_goals and_intros
  all_goals
    intro w h
    replace h := Option.some.inj h
    try simp only [codes_eq_fields, Nat.add_assoc] at h
    have hf : w / 4194304 = _ := div_of_add h (by omega)
    have hc := class_of_div (m := 64) rfl hf
    refine readsBack_of_class hc (by decide) ?_
    rw [decodeRow_LX hc, decodeLX, hf]
    simp [ite_eq_ok, reads_iff_code, -Fin.ofNat_eq_cast]
    omega

/-- The other members of LC with operands. -/
theorem readsBack_LC :
    (∀ p n i, ReadsBack (.brDiv p n i)) ∧ (∀ p n, ReadsBack (.bmeld p n)) ∧ (∀ i, ReadsBack (.rejoinSet i)) ∧
    (∀ d, ReadsBack (.hold d)) ∧ (∀ p n i, ReadsBack (.trapP p n i)) ∧ ∀ i, ReadsBack (.bpt i) := by
  and_intros
  all_goals intros
  all_goals
    intro w h
    replace h := Option.some.inj h
    try simp only [codes_eq_fields, Nat.add_assoc] at h
    have hf : w / 16777216 = _ := div_of_add h (by omega)
    have hc := class_of_div (m := 16) rfl hf
    refine readsBack_of_class hc (by decide) ?_
    rw [decodeRow_LC hc, decodeLC, hf]
    simp [ite_eq_ok, reads_iff_code, -Fin.ofNat_eq_cast]
    omega

/-- The other members of LE with operands. -/
theorem readsBack_LE :
    (∀ d s a, ReadsBack (.rstv d s a)) ∧ ∀ d a s, ReadsBack (.coll d a s) := by
  and_intros
  all_goals intros
  all_goals
    intro w h
    replace h := Option.some.inj h
    simp only [Nat.add_assoc] at h
    have hf : w / 16777216 = _ := div_of_add h (by omega)
    have hc := class_of_div (m := 16) rfl hf
    refine readsBack_of_class hc (by decide) ?_
    rw [decodeRow_LE hc, decodeLE, hf]
    simp [ite_eq_ok, reads_iff_code, -Fin.ofNat_eq_cast]
    omega

/-- The other members of UR with operands. -/
theorem readsBack_UR :
    (∀ c q s t g, ReadsBack (.ssetp c q s t g)) ∧ (∀ s t u q n, ReadsBack (.ssel s t u q n)) ∧
    (∀ s t g, ReadsBack (.smov s t g) ∧ ReadsBack (.spopc s t g) ∧ ReadsBack (.sclz s t g)) ∧
    (∀ s t n g, ReadsBack (.sgetv s t n g)) ∧ (∀ q k n r m e g, ReadsBack (.qlop q k n r m e g)) ∧
    ∀ s g, ReadsBack (.q2s s g) ∧ ReadsBack (.s2q s g) := by
  and_intros
  all_goals intros
  all_goals and_intros
  all_goals
    intro w h
    replace h := Option.some.inj h
    simp only [codes_eq_fields, Nat.add_assoc] at h
    have hf : w / 4194304 = _ := div_of_add h (by omega)
    have hc := class_of_div (m := 64) rfl hf
    refine readsBack_of_class hc (by decide) ?_
    rw [decodeRow_UR hc, decodeUR, hf]
    simp [orElse_eq_ok, ite_eq_ok, reads_iff_code, -Fin.ofNat_eq_cast]
    omega

/-- The other members of UI with operands. -/
theorem readsBack_UI :
    ∀ c q s i, ReadsBack (.ssetpImm c q s i) := by
  intro c q s i
  all_goals
    intro w h
    replace h := Option.some.inj h
    simp only [codes_eq_fields, Nat.add_assoc] at h
    have hf : w / 4194304 = _ := div_of_add h (by omega)
    have hc := class_of_div (m := 64) rfl hf
    refine readsBack_of_class hc (by decide) ?_
    rw [decodeRow_UI hc, decodeUI, hf]
    simp [reads_iff_code, -Fin.ofNat_eq_cast]
    omega

/-- The other members of UM with operands. -/
theorem readsBack_UM :
    (∀ s k i, ReadsBack (.smovi s k i) ∧ ReadsBack (.smovk s k i)) ∧ ∀ s i, ReadsBack (.smovsx s i) ∧ ReadsBack (.sadr s i) := by
  and_intros
  all_goals intros
  all_goals and_intros
  all_goals
    intro w h
    replace h := Option.some.inj h
    simp only [Nat.add_assoc] at h
    have hf : w / 16777216 = _ := div_of_add h (by omega)
    have hc := class_of_div (m := 16) rfl hf
    refine readsBack_of_class hc (by decide) ?_
    rw [decodeRow_UM hc, decodeUM, hf]
    simp [ite_eq_ok, reads_iff_code, -Fin.ofNat_eq_cast]
    omega

/-- The other members of UB with operands. -/
theorem readsBack_UB :
    (∀ g i, ReadsBack (.bra g i) ∧ ReadsBack (.call g i)) ∧ (∀ g, ReadsBack (.ret g)) ∧ (∀ g s, ReadsBack (.brx g s)) ∧
    ∀ g s i, ReadsBack (.loop g s i) := by
  and_intros
  all_goals intros
  all_goals and_intros
  all_goals
    intro w h
    replace h := Option.some.inj h
    simp only [codes_eq_fields, Nat.add_assoc] at h
    have hf : w / 16777216 = _ := div_of_add h (by omega)
    have hc := class_of_div (m := 16) rfl hf
    refine readsBack_of_class hc (by decide) ?_
    rw [decodeRow_UB hc, decodeUB, hf]
    simp [orElse_eq_ok, ite_eq_ok, reads_iff_code, -Fin.ofNat_eq_cast]
    omega

/-- The other members of Umem with operands. -/
theorem readsBack_Umem :
    (∀ s t i, ReadsBack (.sldB64 s t i) ∧ ReadsBack (.sldB32 s t i) ∧ ReadsBack (.sstB64 s t i) ∧ ReadsBack (.sstB32 s t i) ∧
    ReadsBack (.sldc s t i) ∧ ReadsBack (.slds s t i) ∧ ReadsBack (.ssts s t i)) ∧
    ∀ s t, ReadsBack (.satomAdd s t) ∧ ReadsBack (.satomCas s t) ∧ ReadsBack (.satomExch s t) := by
  and_intros
  all_goals intros
  all_goals and_intros
  all_goals
    intro w h
    replace h := Option.some.inj h
    simp only [Nat.add_assoc] at h
    have hf : w / 8388608 = _ := div_of_add h (by omega)
    have hc := class_of_div (m := 32) rfl hf
    refine readsBack_of_class hc (by decide) ?_
    rw [decodeRow_Umem hc, decodeUmem, hf]
    simp [ite_eq_ok, reads_iff_code, -Fin.ofNat_eq_cast]
    omega

/-- The other members of Usys with operands. -/
theorem readsBack_Usys :
    (∀ s i, ReadsBack (.srd s i) ∧ ReadsBack (.swr s i)) ∧
    (∀ k v, ReadsBack (.fenceAcq k v) ∧ ReadsBack (.fenceRel k v) ∧ ReadsBack (.fenceAr k v) ∧ ReadsBack (.fenceSc k v)) ∧
    (∀ v, ReadsBack (.fenceLayout v) ∧ ReadsBack (.icinv v)) ∧ (∀ i, ReadsBack (.fmtset i) ∧ ReadsBack (.trap i)) ∧
    (∀ s, ReadsBack (.fmtsetr s) ∧ ReadsBack (.nameget s) ∧ ReadsBack (.nameq s) ∧ ReadsBack (.setmm s) ∧
    ReadsBack (.objrel s)) ∧ (∀ s n, ReadsBack (.mmap s n)) ∧ (∀ k, ReadsBack (.mclr k)) ∧
    ∀ s q, ReadsBack (.objRead s q) ∧ ReadsBack (.objPriv s q) := by
  and_intros
  all_goals intros
  all_goals and_intros
  all_goals
    intro w h
    replace h := Option.some.inj h
    try simp only [codes_eq_fields, Nat.add_assoc] at h
    have hf : w / 4194304 = _ := div_of_add h (by omega)
    have hc := class_of_div (m := 64) rfl hf
    refine readsBack_of_class hc (by decide) ?_
    rw [decodeRow_Usys hc, decodeUsys, hf]
    simp [orElse_eq_ok, ite_eq_ok, reads_iff_code, -Fin.ofNat_eq_cast]
    omega

/-- The other members of UE with operands. -/
theorem readsBack_UE :
    (∀ k, ReadsBack (.barArr k) ∧ ReadsBack (.barWait k) ∧ ReadsBack (.barSync k) ∧ ReadsBack (.arrcWait k)) ∧
    (∀ s k, ReadsBack (.barInit s k) ∧ ReadsBack (.barExpect s k) ∧ ReadsBack (.arrcSet s k)) ∧
    (∀ s t k, ReadsBack (.cpySlice s t k) ∧ ReadsBack (.cpyxSlice s t k) ∧ ReadsBack (.mcst s t k) ∧
    ReadsBack (.lbufReg s t k)) ∧
    (∀ s, ReadsBack (.lbufFree s) ∧ ReadsBack (.lbufDrop s) ∧ ReadsBack (.collAbort s) ∧ ReadsBack (.fork s) ∧
    ReadsBack (.joinw s)) ∧ (∀ s t u k, ReadsBack (.fxfer s t u k)) ∧
    (∀ s t, ReadsBack (.collForm s t) ∧ ReadsBack (.collWait s t) ∧ ReadsBack (.collReform s t) ∧ ReadsBack (.vattrQ s t) ∧
    ReadsBack (.vattrRsv s t)) ∧ (∀ s t u, ReadsBack (.mxStart s t u)) ∧ ∀ k, ReadsBack (.mbarArr k) ∧ ReadsBack (.mbarWait k) := by
  and_intros
  all_goals intros
  all_goals and_intros
  all_goals
    intro w h
    replace h := Option.some.inj h
    try simp only [Nat.add_assoc] at h
    have hf : w / 4194304 = _ := div_of_add h (by omega)
    have hc := class_of_div (m := 64) rfl hf
    refine readsBack_of_class hc (by decide) ?_
    rw [decodeRow_UE hc, decodeUE, hf]
    simp [ite_eq_ok, reads_iff_code, -Fin.ofNat_eq_cast]
    omega

/-- The other members of MX with operands. -/
theorem readsBack_MX :
    (∀ k l n, ReadsBack (.mxacq k l n)) ∧ (∀ k t l, ReadsBack (.tclm k t l)) ∧ (∀ t k, ReadsBack (.trel t k)) ∧
    (∀ t k l, ReadsBack (.tld t k l) ∧ ReadsBack (.tldSp t k l)) ∧
    (∀ k t u, ReadsBack (.mma k t u) ∧ ReadsBack (.mmas k t u)) ∧ (∀ k l, ReadsBack (.accz k l)) ∧
    (∀ k l h, ReadsBack (.accst k l h) ∧ ReadsBack (.accld k l h)) ∧ (∀ i j k l, ReadsBack (.mfmt i j k l)) ∧
    (∀ t k, ReadsBack (.dmap t k)) ∧ (∀ k, ReadsBack (.mxbarArr k) ∧ ReadsBack (.mxbarWait k)) ∧
    (∀ k l i, ReadsBack (.kmovi k l i)) ∧ (∀ k l i, ReadsBack (.kadd k l i)) ∧ (∀ k l h, ReadsBack (.kaddReg k l h)) ∧
    (∀ k i, ReadsBack (.kbraKq k i) ∧ ReadsBack (.kbraNkq k i)) ∧ (∀ i, ReadsBack (.kbra i)) ∧ ∀ k i, ReadsBack (.kbraDec k i) := by
  and_intros
  all_goals intros
  all_goals and_intros
  all_goals
    intro w h
    replace h := Option.some.inj h
    try simp only [codes_eq_fields, Nat.add_assoc] at h
    have hf : w / 4194304 = _ := div_of_add h (by omega)
    have hc := class_of_div (m := 64) rfl hf
    refine readsBack_of_class hc (by decide) ?_
    rw [decodeRow_MX hc, decodeMX, hf]
    simp [ite_eq_ok, reads_iff_code, -Fin.ofNat_eq_cast]
    omega

/-- Every instruction that has a word is read back from its row. -/
theorem readsBack (i : Instr) : ReadsBack i := by
  cases i
  any_goals simp only [readsBack_noOperand, readsBack_LR_dab, readsBack_LR_da, readsBack_LI_dai, readsBack_LX_da,
    readsBack_UR_stug, readsBack_UI_sti, readsBack_Lmem_ld, readsBack_Lmem_atom, readsBack_LR, readsBack_LI, readsBack_L4,
    readsBack_LM, readsBack_Lmem, readsBack_LX, readsBack_LC, readsBack_LE, readsBack_UR, readsBack_UI, readsBack_UM,
    readsBack_UB, readsBack_Umem, readsBack_Usys, readsBack_UE, readsBack_MX]
  all_goals exact fun _ h => nomatch h

/-- Settles O50: the row of its word gives the instruction back, and a well-formed one breaks no field rule. -/
theorem encodedInstructionsDecodeBack : Obligations.EncodedInstructionsDecodeBack := by
  intro i w hwf h
  obtain ⟨hw, hrow⟩ := readsBack i w h
  exact ⟨hw, decode_eq_ok.2 ⟨hrow, hwf⟩⟩

/-- Settles O49: the decoder is run on each word. -/
theorem wordsOfTheSpecDecode : Obligations.WordsOfTheSpecDecode := by
  unfold Obligations.WordsOfTheSpecDecode
  and_intros
  all_goals rfl

end Sys2Proof

/-! PROOFS. Which instruction a step runs (O52; 08 R162, 02 R31, R34, R51, log 4): a slot or stream that stands at a word goes on
with what the word decodes to. -/

namespace Sys2Proof.Machine

open Sys2Proof Sys2Proof.Machine Sys2Proof.Claims

/-! ## The word of a slot or stream -/

theorem nth_of_getElem? {α : Type} {d x : α} : ∀ {l : List α} {i : Nat}, l[i]? = some x → nth d l i = x
  | _ :: _, 0, h => Option.some.inj h
  | _ :: t, _ + 1, h => nth_of_getElem? (l := t) h

/-- The word at which a slot stands. -/
theorem word_of_standsAt {s : State} {x : Word} (h : StandsAt s x) : s.word = x := by
  obtain ⟨-, -, -, -, c, hc, -, hx⟩ := h
  simp [State.word, hc, nth_of_getElem? hx]

/-- The word at which the stream stands. -/
theorem seqWord_of_streamAt {s : State} {x : Word} (h : StreamAt s x) : s.seq.word = x := by
  obtain ⟨-, -, -, -, -, ws, hws, hx⟩ := h
  simp [Seq.word, hws, nth_of_getElem? hx]

/-! ## What the word stands for -/

theorem allocated_iff {sh : Shape} {i : Instr} : allocated sh i = true ↔ Allocated sh i := by
  simp [allocated, Allocated, and_assoc]

/-- The word of the class that belongs here gives its instruction where its registers are allocated. -/
theorem slotInstr_allocated {sh : Shape} {mx : Bool} {w : Word} {i : Instr} (hc : (w.toNat / 268435456 == 15) = mx)
    (hd : decode w.toNat = .ok i) (ha : Allocated sh i) : slotInstr sh mx w = .ok i := by
  simp [slotInstr, hc, hd, allocated_iff.2 ha]

theorem slotInstr_notAllocated {sh : Shape} {mx : Bool} {w : Word} {i : Instr} (hc : (w.toNat / 268435456 == 15) = mx)
    (hd : decode w.toNat = .ok i) (ha : ¬ Allocated sh i) : slotInstr sh mx w = .error .illegalOperand := by
  simp [slotInstr, hc, hd, mt allocated_iff.1 ha]

/-- A word that does not decode is refused by its own error. -/
theorem slotInstr_error {sh : Shape} {mx : Bool} {w : Word} {e : DecodeError} (hc : (w.toNat / 268435456 == 15) = mx)
    (hd : decode w.toNat = .error e) : slotInstr sh mx w = .error e := by
  simp [slotInstr, hc, hd]

/-- A reserved word, or one of the other stream's class, is an illegal instruction. -/
theorem slotInstr_illegal {sh : Shape} {mx : Bool} {w : Word}
    (h : decode w.toNat = .error .illegalInstruction ∨ (w.toNat / 268435456 == 15) ≠ mx) :
    slotInstr sh mx w = .error .illegalInstruction := by
  by_cases hc : (w.toNat / 268435456 == 15) = mx
  · exact slotInstr_error hc (h.resolve_right (not_not_intro hc))
  · simp [slotInstr, hc]

/-! ## What a step picks -/

/-- A slot that stands at a word goes on in its clause. -/
theorem keeps_of_standsAt {s : State} {x : Word} (h : StandsAt s x) : s.latched = true ∧ s.preemptNow = none ∧ s.keeps = true := by
  obtain ⟨hrun, hwait, hpre, hlive, c, hc, haddr, -⟩ := h
  have hp : s.preemptNow = none := by
    unfold State.preemptNow
    rcases hpre with hpre | hinh
    · rw [hpre, ite_self]
    · rw [if_pos hinh]
  have hl : s.latched = true := by simp [State.latched, hc, haddr]
  exact ⟨hl, hp, by simpa [State.keeps, *] using hlive⟩

/-- A slot that stands at a word is picked to run it. -/
theorem pickSlot_of_standsAt {s : State} {x : Word} (h : StandsAt s x) : s.pickSlot = s.pickWord := by
  obtain ⟨hl, hp, -⟩ := keeps_of_standsAt h
  obtain ⟨hrun, hwait, -, hlive, -⟩ := h
  simp only [State.running, Bool.and_eq_true, Bool.not_eq_true', bne_iff_ne, ne_eq, Option.isNone_iff_eq_none] at hrun
  obtain ⟨⟨⟨⟨⟨⟨⟨-, -⟩, hcore⟩, hstop⟩, hended⟩, hyield⟩, htrap⟩, hact⟩ := hrun
  have hlive' : ¬ s.grp.live = 0#32 := hlive
  have hact' : ¬ s.slot.act = 0#32 := hact
  simp [State.pickSlot, State.pickReady, State.faultHeld, Wait.tag, *]

/-- A step with no turn on the agenda goes on with the slot that stands at a word. -/
theorem pick_of_standsAt {s : State} {x : Word} (hag : s.agenda = []) (h : StandsAt s x) : pick s = s.pickWord := by
  obtain ⟨-, -, hk⟩ := keeps_of_standsAt h
  simp [pick, hag, hk, pickSlot_of_standsAt h]

/-- A step goes on with the stream that stands at a word. -/
theorem pick_of_streamAt {s : State} {x : Word} (h : StreamAt s x) : pick s = s.pickStream := by
  obtain ⟨hag, hf, hon, hruns, hwait, ws, hws, -⟩ := h
  have hk : s.keeps = false := by simp [State.keeps, State.running, hon]
  have hs : s.streamKeeps = true := by simp [State.streamKeeps, *]
  simp [pick, hag, hk, hs]

theorem pickWord_ok {s : State} {x : Word} {i : Instr} (h : StandsAt s x) (hi : slotInstr s.blk.shape false x = .ok i) :
    s.pickWord = .run i s := by
  simp [State.pickWord, word_of_standsAt h, hi]

theorem pickWord_error {s : State} {x : Word} {e : DecodeError} (h : StandsAt s x)
    (he : slotInstr s.blk.shape false x = .error e) : s.pickWord = .idle (s.trapDecode e) := by
  simp [State.pickWord, word_of_standsAt h, he]

theorem pickStream_ok {s : State} {x : Word} {i : Instr} (h : StreamAt s x) (hi : slotInstr s.blk.shape true x = .ok i) :
    s.pickStream = .run i s := by
  have hw := seqWord_of_streamAt h
  obtain ⟨-, -, -, hruns, -, ws, hws, -⟩ := h
  simp [State.pickStream, hruns, hws, hw, hi]

theorem pickStream_error {s : State} {x : Word} {e : DecodeError} (h : StreamAt s x)
    (he : slotInstr s.blk.shape true x = .error e) : s.pickStream = .idle (s.halt (decodeCause e) 0) := by
  have hw := seqWord_of_streamAt h
  obtain ⟨-, -, -, hruns, -, ws, hws, -⟩ := h
  simp [State.pickStream, hruns, hws, hw, he]

/-- Settles O52: the slot or stream that stands at a word is picked, and the word gives its instruction or its trap. -/
theorem aStepRunsTheDecodedInstruction : Obligations.AStepRunsTheDecodedInstruction := by
  refine ⟨fun s x hag h => ?_, fun s x h => ?_, fun s b g k rest t x i hag hf h hd hc ha => ?_, fun s i rest hag he => ?_⟩
  · rw [step, pick_of_standsAt hag h]
    refine ⟨fun i hd hc ha => ?_, fun i hd hc ha => ?_, fun hd hc => ?_, fun hx => ?_⟩
    · rw [pickWord_ok h (slotInstr_allocated (by simpa using hc) hd ha)]
    · rw [pickWord_error h (slotInstr_notAllocated (by simpa using hc) hd ha)]
      rfl
    · rw [pickWord_error h (slotInstr_error (by simpa using hc) hd)]
      rfl
    · rw [pickWord_error h (slotInstr_illegal (by simpa using hx))]
      rfl
  · rw [step, pick_of_streamAt h]
    refine ⟨fun i hd hc ha => ?_, fun hx => ?_⟩
    · rw [pickStream_ok h (slotInstr_allocated (by simpa using hc) hd ha)]
    · rw [pickStream_error h (slotInstr_illegal (by simpa using hx))]
      rfl
  · rw [step, pick, hag]
    simp only [State.pickTurn, hf]
    rw [pickSlot_of_standsAt h, pickWord_ok h (slotInstr_allocated (by simpa using hc) hd ha)]
  · rw [step, pick, hag]
    simp [State.pickTurn, he]

end Sys2Proof.Machine

/-! PROOFS. Guards and the move to the next instruction (O8, O9; 02 R22, R33, 09 R175, R183, R186). -/

namespace Sys2Proof.Machine

open Sys2Proof Sys2Proof.Machine Sys2Proof.Claims

/-! ## A guard that fails (R33) -/

theorem holds_iff {s : State} {g : QGuard} : s.holds g = true ↔ GuardHolds s g := by
  cases g <;> simp [State.holds, GuardHolds]

/-- A guarded instruction asks its guard first, and goes on where it fails. -/
theorem exec_guarded {c : QGuard → Instr} (h : Guarded c) (g : QGuard) (s : State) :
    ∃ r, exec (c g) s = if s.holds g then r else .next s.advance := by
  cases h with
  | two c P a b d h => cases h <;> exact ⟨_, rfl⟩
  | one c rd d P h => cases h <;> exact ⟨_, rfl⟩
  | pred c rd q P h => cases h <;> exact ⟨_, rfl⟩
  | s2q a => exact ⟨_, rfl⟩
  | sgetv d a x => exact ⟨_, rfl⟩
  | bra o => exact ⟨_, rfl⟩
  | call o => exact ⟨_, rfl⟩
  | ret => exact ⟨_, rfl⟩
  | brx x => exact ⟨_, rfl⟩
  | loop c o => exact ⟨_, rfl⟩

/-- Settles O8: the guard is asked first. -/
theorem failedGuardHasNoEffect : Obligations.FailedGuardHasNoEffect := by
  intro c hc g s hg
  obtain ⟨r, hr⟩ := exec_guarded hc g s
  rw [hr, if_neg (mt holds_iff.1 hg)]

/-! ## What is due at the end of a clause (R183, R186) -/

/-- A table change writes the renaming tables alone. -/
theorem Group.change_only (g : Group) (c : TableChange) :
    ∃ a b pa pb, g.change c = { g with mapA := a, mapB := b, mapPA := pa, mapPB := pb } := by
  cases c with
  | install b p x y => cases b <;> cases p <;> exact ⟨_, _, _, _, rfl⟩
  | clear a b => cases a <;> cases b <;> exact ⟨_, _, _, _, rfl⟩

theorem Group.foldl_change_only (l : List TableChange) (g : Group) :
    ∃ a b pa pb, l.foldl Group.change g = { g with mapA := a, mapB := b, mapPA := pa, mapPB := pb } := by
  induction l generalizing g with
  | nil => exact ⟨_, _, _, _, rfl⟩
  | cons c l ih =>
    obtain ⟨a, b, pa, pb, h⟩ := g.change_only c
    obtain ⟨a', b', pa', pb', h'⟩ := ih (g.change c)
    exact ⟨a', b', pa', pb', by rw [List.foldl_cons, h', h]⟩

/-- The region after what a slot has due: closed, opened for the lanes left in the slot, or as it was (log 34). -/
def Group.meldDue (g : Group) (k : Bool) (x : Due) : Meld :=
  let m := if x.closes then {} else g.meld
  match x.opens with
  | some b => if (g.slot k).act = 0 then m else { bmask := b &&& (g.slot k).act, active := true, slot := k }
  | none => m

/-- What is due changes the tables by its list and the region as `meldDue` says, and nothing else. -/
theorem Group.settle_eq (g : Group) (k : Bool) (x : Due) :
    g.settle k x = { x.tables.foldl Group.change g with meld := g.meldDue k x } := by
  obtain ⟨a, b, pa, pb, h⟩ := Group.foldl_change_only x.tables g
  unfold Group.settle Group.meldDue
  rw [h]
  cases x.closes <;> cases x.opens <;> cases k <;> simp [Group.slot] <;> split <;> rfl

theorem Group.settle_only (g : Group) (k : Bool) (x : Due) : ∃ a b pa pb,
    g.settle k x = { g with meld := g.meldDue k x, mapA := a, mapB := b, mapPA := pa, mapPB := pb } := by
  obtain ⟨a, b, pa, pb, h⟩ := Group.foldl_change_only x.tables g
  exact ⟨a, b, pa, pb, by rw [Group.settle_eq, h]⟩

/-! ## The slot moves -/

theorem Group.onSlot_form (g : Group) (k : Bool) (f : Slot → Slot) :
    ∃ x y, g.onSlot k f = { g with slot0 := x, slot1 := y } := by
  cases k <;> exact ⟨_, _, rfl⟩

/-- A change of slots, stack, lanes, region and tables is one of the part `paths`. -/
theorem changesOnly_paths {s t : State} (a b : Table Nat) (pa pb : Table Nat) (m : Meld) (f : Slot → Slot)
    (h : t = { s with grp := ({ s.grp with meld := m, mapA := a, mapB := b, mapPA := pa, mapPB := pb } : Group).onSlot s.k f }) :
    ChangesOnly [.paths] s t := by
  obtain ⟨x, y, hs⟩ := Group.onSlot_form { s.grp with meld := m, mapA := a, mapB := b, mapPA := pa, mapPB := pb } s.k f
  rw [hs] at h
  subst h
  rfl

/-- Where a slot leaves its clause: the slot at its new address, the region and the tables as they became due. -/
theorem State.leave_form (s : State) (next : DWord) : ∃ a b pa pb,
    s.leave next = { s with grp := ({ s.grp with
      meld := s.grp.meldDue s.k s.slot.due, mapA := a, mapB := b, mapPA := pa, mapPB := pb } : Group).onSlot s.k fun x =>
        { x with pc := next, clause := none, due := {}, wait := .none, micro := 0, read := [], denied := 0, urgent := false } } := by
  obtain ⟨a, b, pa, pb, h⟩ := s.grp.settle_only s.k s.slot.due
  exact ⟨a, b, pa, pb, by rw [State.leave, h]⟩

theorem State.leave_only (s : State) (next : DWord) : ChangesOnly [.paths] s (s.leave next) := by
  obtain ⟨a, b, pa, pb, h⟩ := s.leave_form next
  exact changesOnly_paths a b pa pb _ _ h

theorem State.leave_keepsPath (s : State) (next : DWord) : KeepsPath s (s.leave next) := by
  obtain ⟨a, b, pa, pb, h⟩ := s.leave_form next
  rw [h]
  unfold KeepsPath State.slot
  cases s.k <;> exact ⟨rfl, rfl, rfl, rfl, rfl, rfl, rfl, rfl, rfl⟩

/-- The slot stands at its new address with no clause and nothing due, the region as it became due. -/
theorem State.leave_slot (s : State) (next : DWord) :
    (s.leave next).slot.pc = next ∧ (s.leave next).slot.clause = none ∧ (s.leave next).slot.due = {} ∧
    (s.leave next).grp.meld = s.grp.meldDue s.k s.slot.due := by
  obtain ⟨a, b, pa, pb, h⟩ := s.leave_form next
  rw [h]
  unfold State.slot
  cases s.k <;> exact ⟨rfl, rfl, rfl, rfl⟩

/-- The tables become what their changes in order make of them. -/
theorem State.leave_tables (s : State) (next : DWord) :
    let g := s.slot.due.tables.foldl Group.change s.grp
    (s.leave next).grp.mapA = g.mapA ∧ (s.leave next).grp.mapB = g.mapB ∧ (s.leave next).grp.mapPA = g.mapPA ∧
    (s.leave next).grp.mapPB = g.mapPB := by
  simp [State.leave, Group.settle_eq]

/-- A table in which an absent register stands for itself, after one entry of it is installed (R186). -/
theorem Sparse.get_put_own (t : Table Nat) (x y r : Nat) :
    Sparse.get r (Sparse.put x t x y) r = if r = x then y else Sparse.get r t r := by
  unfold Sparse.put
  split
  case isTrue hy =>
    by_cases hr : r = x
    · rw [hr, if_pos rfl, Sparse.get_erase_self, hy]
    · rw [if_neg hr, Sparse.get_erase_other _ _ _ _ hr]
  case isFalse => exact Sparse.get_ins r t x r y

/-- A change of the issuing slot alone is one of the part `paths`. -/
theorem State.onSlot_only (s : State) (f : Slot → Slot) : ChangesOnly [.paths] s (s.onSlot f) := by
  obtain ⟨x, y, h⟩ := s.grp.onSlot_form s.k f
  have hs : s.onSlot f = { s with grp := { s.grp with slot0 := x, slot1 := y } } := congrArg (fun g => { s with grp := g }) h
  rw [hs]
  rfl

/-- Within a clause a slot goes on four bytes further. -/
theorem State.advance_within {s : State} (h : s.slotIdx < s.lastIdx) : s.advance = s.onSlot fun x =>
    { x with pc := x.pc + 4, wait := .none, micro := 0, read := [], denied := 0, urgent := false } := if_pos h

/-- Behind the last word a slot leaves for the next clause. -/
theorem State.advance_behind {s : State} (h : ¬ s.slotIdx < s.lastIdx) : s.advance = s.leave (s.clauseAddr + 32) := if_neg h

/-- Settles O9: within a clause only the slot changes; `leave` gives the region and the tables that are due. -/
theorem slotsMoveAndKeepAllElse : Obligations.SlotsMoveAndKeepAllElse := by
  refine ⟨fun s => ?_, fun s h => ?_, fun s a => ⟨s.leave_only a, s.leave_keepsPath a, ?_⟩⟩
  · unfold State.nextPc
    by_cases h : s.slotIdx < s.lastIdx
    · rw [if_pos h, State.advance_within h]
      exact ⟨s.onSlot_only _, by simp [KeepsPath], by simp⟩
    · rw [if_neg h, State.advance_behind h]
      exact ⟨s.leave_only _, s.leave_keepsPath _, (s.leave_slot _).1⟩
  · rw [State.advance_within h]
    simp
  · obtain ⟨hpc, hclause, hdue, hmeld⟩ := s.leave_slot a
    obtain ⟨hA, hB, hPA, hPB⟩ := s.leave_tables a
    refine ⟨hpc, hclause, hdue, ?_, fun ht => ?_, fun x y r ht => ?_⟩
    · rw [hmeld]
      rfl
    · rw [hA, hB, hPA, hPB, ht]
      exact ⟨rfl, rfl, rfl, rfl⟩
    · rw [hA, hB, ht]
      exact ⟨Sparse.get_put_own s.grp.mapA x y r, rfl⟩

end Sys2Proof.Machine

/-! PROOFS. What an operand meets (O53; 02 R28, 11 R236, R238): the scoreboard and the hold entries for an instruction of one
vector source and one vector destination. -/

namespace Sys2Proof.Machine

open Sys2Proof Sys2Proof.Machine Sys2Proof.Claims

section
variable {s : State} {T : Mask} {a d : Nat}

/-! ## Nothing pending -/

theorem heldReg_noHolds (h : s.grp.holds = []) (os : List Opnd) (p : Hold → Bool) : s.heldReg T os p = none := by
  simp [State.heldReg, Group.holdOf, h]

theorem consume_noHolds (h : s.grp.holds = []) (rd : List Opnd) : s.consume T rd = s := by
  simp [State.consume, h]

theorem pendingOn_noPend (h : s.grp.pend = []) (os : List Opnd) : s.pendingOn T os = false := by
  simp [State.pendingOn, h]

theorem taggedLanes_noTags (h : s.grp.tags = []) (rd : List Opnd) : s.taggedLanes T rd = 0 := by
  simp [State.taggedLanes, h]

theorem stagOf_noTags (h : s.grp.stags = []) (rd : List Opnd) : s.stagOf rd = none := by
  simp [State.stagOf, h]

/-! ## One vector register that is not renamed -/

/-- Registers named one by one are never a bad run (R187). -/
theorem badNames_single : s.badNames T [.v a 1, .v d 1] = 0#32 := by
  simp [State.badNames, State.badRun]

theorem regsOf_single (hr : s.renamed = false) (hT : T ≠ 0#32) : s.regsOf T [.v a 1] = [(T, a)] := by
  simp [State.regsOf, State.physV, hr, hT]

theorem heldReg_single (hr : s.renamed = false) (hT : T ≠ 0#32) (p : Hold → Bool) :
    s.heldReg T [.v a 1] p = (s.grp.holdOf a).bind fun h => if p h then some (T, h) else none := by
  simp [State.heldReg, regsOf_single hr hT, Option.bind]

/-- The keys of a register in the lanes of T. -/
theorem mem_vkeysOf_single (hr : s.renamed = false) (hT : T ≠ 0#32) (k : Nat) :
    k ∈ s.vkeysOf T [.v a 1] ↔ k / 32 = a ∧ inM T (k % 32) = true := by
  simp only [State.vkeysOf, regsOf_single hr hT, List.flatMap_cons, List.flatMap_nil, List.append_nil, List.mem_map, mem_lanesOf]
  constructor
  · rintro ⟨L, ⟨hL, hm⟩, rfl⟩
    rw [show (32 * a + L) / 32 = a by omega, show (32 * a + L) % 32 = L by omega]
    exact ⟨rfl, hm⟩
  · rintro ⟨rfl, hm⟩
    exact ⟨k % 32, ⟨Nat.mod_lt _ (by decide), hm⟩, by omega⟩

/-- The entry writes one of the registers' words: said of keys, and of lanes. -/
theorem writes_iff (hr : s.renamed = false) (hT : T ≠ 0#32) (l : List Nat) :
    ((s.vkeysOf T [.v a 1]).any (l.contains ·)) = true ↔ ∃ k, k ∈ l ∧ k / 32 = a ∧ inM T (k % 32) = true := by
  simp only [List.any_eq_true, List.contains_iff_mem, mem_vkeysOf_single hr hT]
  exact ⟨fun ⟨k, h, hk⟩ => ⟨k, hk, h⟩, fun ⟨k, hk, h⟩ => ⟨k, h, hk⟩⟩

theorem pendingOn_single (hr : s.renamed = false) (hT : T ≠ 0#32) :
    s.pendingOn T [.v a 1] = true ↔ ∃ e L, e ∈ s.grp.pend ∧ L < 32 ∧ inM T L = true ∧ 32 * a + L ∈ e.vkeys := by
  have h0 : s.pkeysOf T [.v a 1] = [] ∧ skeysOf [.v a 1] = [] := ⟨rfl, rfl⟩
  simp only [State.pendingOn, h0, List.any_nil, Bool.or_false, List.any_eq_true (l := s.grp.pend), writes_iff hr hT]
  constructor
  · rintro ⟨e, he, k, hk, rfl, hm⟩
    exact ⟨e, k % 32, he, Nat.mod_lt _ (by decide), hm, by rwa [Nat.div_add_mod]⟩
  · rintro ⟨e, L, he, hL, hm, hk⟩
    exact ⟨e, he, _, hk, by omega, by rwa [show (32 * a + L) % 32 = L by omega]⟩

/-- A pending register whose flag the clause did not wait for (R28). -/
theorem missed_single (hr : s.renamed = false) (hT : T ≠ 0#32) :
    s.missed T [.v a 1] = true ↔ ∃ e, e ∈ s.grp.pend ∧ (12 ≤ e.flag ∨ bitOf s.header e.flag = false) ∧
      ∃ k, k ∈ e.vkeys ∧ k / 32 = a ∧ inM T (k % 32) = true := by
  have h0 : s.pkeysOf T [.v a 1] = [] ∧ skeysOf [.v a 1] = [] := ⟨rfl, rfl⟩
  simp only [State.missed, h0, List.any_nil, Bool.or_false, List.any_eq_true (l := s.grp.pend), Bool.and_eq_true, writes_iff hr hT]
  simp [and_comm]

/-! ## What blocks it -/

theorem trapLanes_takenFor (s : State) (bad : Mask) : TakenFor s bad (s.trapLanes bad).1 (s.trapLanes bad).2 := by
  unfold TakenFor State.trapLanes
  by_cases hr : s.inRegion = true
  · rw [if_neg (by simp [hr]), if_pos hr]
    by_cases hb : bad &&& ~~~ s.grp.meld.bmask = 0#32
    all_goals
      match s.meldField with
      | 0 => simp [hb]
      | 1 => simp [hb]
      | 2 => simp
      | 3 => simp
      | n + 4 => simp [hb]
  · simp [hr]

theorem holdOf_reg {g : Group} {h : Hold} (hh : g.holdOf a = some h) : h.reg = a := by
  simpa using List.find?_some hh

/-- A source with a hold entry: refused, not complete, or complete with nothing else in the way (R238). -/
theorem blocked_refused (hr : s.renamed = false) (hT : T ≠ 0#32) {h : Hold} (hh : s.grp.holdOf a = some h) (hc : h.conf ≠ 0#32) :
    s.blocked T [.v a 1] [.v d 1] = some (s.trapRefused T h) := by
  simp [State.blocked, badNames_single, heldReg_single hr hT, hT, hh, hc]

theorem blocked_incomplete (hr : s.renamed = false) (hT : T ≠ 0#32) {h : Hold} (hh : s.grp.holdOf a = some h) (hc : h.conf = 0)
    (hheld : h.held = true) (hinc : h.complete = false) :
    s.blocked T [.v a 1] [.v d 1] = some (s.waitFor (.held h.reg)) := by
  simp [State.blocked, badNames_single, heldReg_single hr hT, hT, hh, hc, hheld, hinc]

/-- A destination with a hold entry that the source does not consume (R238). -/
theorem blocked_localWrite (hr : s.renamed = false) (hT : T ≠ 0#32) {h : Hold} (ha : s.grp.holdOf a = none)
    (hd : s.grp.holdOf d = some h) : s.blocked T [.v a 1] [.v d 1] = some (s.trapLocalWrite T h) := by
  have hne : a ≠ h.reg := by
    rintro rfl
    rw [holdOf_reg hd] at ha
    rw [ha] at hd
    cases hd
  simp [State.blocked, badNames_single, heldReg_single hr hT, regsOf_single hr hT, hT, ha, hd, hne]

theorem blocked_pendingRead (hT : T ≠ 0#32) (hh : s.grp.holds = []) (hp : s.pendingOn T [.v a 1] = true) :
    s.blocked T [.v a 1] [.v d 1] = some (s.stallPending T [.v a 1]) := by
  simp [State.blocked, badNames_single, heldReg_noHolds hh, hT, hp]

theorem blocked_pendingWrite (hT : T ≠ 0#32) (hh : s.grp.holds = [])
    (ha : s.pendingOn T [.v a 1] = false) (hd : s.pendingOn T [.v d 1] = true) :
    s.blocked T [.v a 1] [.v d 1] = some (s.waitFor .register) := by
  simp [State.blocked, badNames_single, heldReg_noHolds hh, hT, ha, hd]

/-- A complete source that the instruction may also write, with nothing pending and no tag, is ready. -/
theorem ready_complete (hr : s.renamed = false) (hT : T ≠ 0#32) {h : Hold} (hh : s.grp.holdOf a = some h) (hc : h.conf = 0)
    (hcomp : h.complete = true) (hp : s.grp.pend = []) (ht : s.grp.tags = []) (hd : s.grp.holdOf d = none ∨ d = a) :
    s.blocked T [.v a 1] [.v d 1] = none := by
  have hstag : s.stagOf [.v a 1] = none := rfl
  rcases hd with hd | rfl
  all_goals
    simp [State.blocked, heldReg_single hr hT, regsOf_single hr hT, holdOf_reg hh, pendingOn_noPend hp, taggedLanes_noTags ht,
      badNames_single, *]

/-- The source's complete entry is consumed, an acquire at system scope (R238). -/
theorem consume_complete (hr : s.renamed = false) (hT : T ≠ 0#32) {h : Hold} (hh : s.grp.holdOf a = some h)
    (hcomp : h.complete = true) : s.consume T [.v a 1] =
      { s with grp := s.grp.endHold a, dev := acquireAt s.dev s.blk.core s.blk.cluster .sys } := by
  have hany : (s.grp.holds.any fun h => h.reg = a && h.complete) = true :=
    List.any_eq_true.2 ⟨h, List.mem_of_find?_eq_some hh, by simp [holdOf_reg hh, hcomp]⟩
  simp [State.consume, regsOf_single hr hT, hany]

end

/-! ## `mov` -/

theorem exec_mov_blocked {d a : VReg} {s t : State} (h : s.blocked s.part [.v a 1] [.v d 1] = some t) :
    exec (.mov d a) s = .next t := by
  simp [exec_mov, execMov, State.lane1, State.laneOp, State.withOperands, h]

theorem State.waitFor_slot (s : State) (w : Wait) : (s.waitFor w).slot = { s.slot with wait := w, denied := 0, urgent := false } := by
  simp [State.waitFor]

/-- FLAGMISS after an instruction stalls on its reads: the core counts a stall that begins on a flag its clause did not wait
for (R28). -/
def State.missTable (s : State) (T : Mask) (rd : List Opnd) : Table Nat :=
  if s.slot.wait != .register && s.missed T rd then Sparse.upd 0 s.dev.flagMiss s.blk.core (· + 1) else s.dev.flagMiss

theorem get_missTable (s : State) (T : Mask) (rd : List Opnd) (c : Nat) :
    Sparse.get 0 (s.missTable T rd) c = Sparse.get 0 s.dev.flagMiss c +
      b2n (decide (c = s.blk.core) && (s.slot.wait != .register && s.missed T rd)) := by
  unfold State.missTable
  by_cases hm : (s.slot.wait != .register && s.missed T rd) = true
  · by_cases hc : c = s.blk.core
    · simp [hm, hc, b2n]
    · simp [hm, hc, b2n, Sparse.upd]
  · simp [hm, b2n]

/-- A stall changes the slot and FLAGMISS. -/
theorem stallPending_eq (s : State) (T : Mask) (rd : List Opnd) :
    s.stallPending T rd = ({ s with dev := { s.dev with flagMiss := s.missTable T rd } } : State).waitFor .register := by
  unfold State.stallPending State.missTable
  split <;> rfl

theorem stallPending_only (s : State) (T : Mask) (rd : List Opnd) : ChangesOnly [.paths, .meters] s (s.stallPending T rd) := by
  obtain ⟨x, y, h⟩ := s.grp.onSlot_form s.k fun x => { x with wait := .register, denied := 0, urgent := false }
  have hs : s.stallPending T rd =
      { s with dev := { s.dev with flagMiss := s.missTable T rd }, grp := { s.grp with slot0 := x, slot1 := y } } :=
    (stallPending_eq s T rd).trans
      (congrArg (fun g => { s with dev := { s.dev with flagMiss := s.missTable T rd }, grp := g }) h)
  rw [hs]
  rfl

/-- Settles O53: what blocks `mov` is read off its source and destination one by one, and else it is ready. -/
theorem operandsAreAwaited : Obligations.OperandsAreAwaited := by
  refine ⟨fun s T rd wr hp hh ht hst hn => ⟨?_, consume_noHolds hh rd⟩, fun d a s hr hT => ⟨fun hh => ⟨?_, ?_⟩, ?_, ?_⟩⟩
  · simp [State.blocked, hn, heldReg_noHolds hh, pendingOn_noPend hp, taggedLanes_noTags ht, stagOf_noTags hst]
  · intro hp
    refine ⟨_, exec_mov_blocked (blocked_pendingRead hT hh ((pendingOn_single hr hT).2 hp)), stallPending_only _ _ _, ?_, fun c => ?_⟩
    · rw [stallPending_eq]
      exact State.waitFor_slot _ _
    rw [stallPending_eq]
    refine (get_missTable s s.part _ c).trans (congrArg (fun b => _ + b2n b) ?_)
    rw [Bool.eq_iff_iff]
    simp [missed_single hr hT]
  · intro hna hd
    have ha : s.pendingOn s.part [.v a 1] = false := by
      rw [Bool.eq_false_iff, Ne, pendingOn_single hr hT]
      rintro ⟨e, L, he, hL, hm, hk⟩
      exact hna e L he hL hm hk
    exact ⟨_, exec_mov_blocked (blocked_pendingWrite hT hh ha ((pendingOn_single hr hT).2 hd)), s.onSlot_only _,
      s.waitFor_slot _⟩
  · intro h hh
    have hreg := holdOf_reg hh
    refine ⟨fun hc => ?_, fun hc hheld hinc => ?_, fun hc hheld hcomp hp ht hd => ?_⟩
    · refine ⟨_, _, trapLanes_takenFor s s.part, (exec_mov_blocked (blocked_refused hr hT hh hc)).trans ?_⟩
      rw [State.trapRefused, hreg]
      rfl
    · refine ⟨_, exec_mov_blocked (blocked_incomplete hr hT hh hc hheld ?_), s.onSlot_only _, ?_⟩
      · simpa [Hold.complete, hheld] using hinc
      · rw [← hreg]
        exact s.waitFor_slot _
    · have hcomp' : h.complete = true := by simpa [Hold.complete, hheld] using hcomp
      obtain ⟨u, hu, honly, hvec⟩ := s.lane1_word d a (fun x => x) (fun x y => y = x)
        (ready_complete hr hT hh hc hcomp' hp ht (hd.imp_right (congrArg _))) fun _ => rfl
      rw [consume_complete hr hT hh hcomp'] at honly
      refine ⟨u, hu, ?_, ?_, ?_, hvec⟩
      · rw [ChangesOnly] at honly
        rw [honly]
        rfl
      · rw [honly]
        rfl
      · rw [honly]
        rfl
  · intro h ha hd
    refine ⟨_, _, trapLanes_takenFor s s.part, (exec_mov_blocked (blocked_localWrite hr hT ha hd)).trans ?_⟩
    rw [State.trapLocalWrite, holdOf_reg hd]

end Sys2Proof.Machine

/-! PROOFS. The checks before a lane memory instruction (O21; 02 R26, R27, 13 R267, R269, 09 R188): each is a mask of failing
lanes, and the first one that is not empty traps for its lanes. -/

namespace Sys2Proof.Machine

open Sys2Proof Sys2Proof.Machine Sys2Proof.Claims

/-! ## The lowest lane -/

/-- The first index from lo that p selects, if one of n does. -/
theorem firstFrom_spec (p : Nat → Bool) (lo n : Nat) (h : ∃ i, lo ≤ i ∧ i < lo + n ∧ p i = true) :
    ∃ i, firstFrom lo n p = some i ∧ i < lo + n ∧ p i = true ∧ ∀ j, lo ≤ j → j < i → p j = false := by
  induction n generalizing lo with
  | zero => omega
  | succ n ih =>
    by_cases hlo : p lo = true
    · exact ⟨lo, by simp [firstFrom, hlo], by omega, hlo, by omega⟩
    · obtain ⟨i, h1, h2, h3⟩ := h
      have hi : i ≠ lo := by
        rintro rfl
        exact hlo h3
      obtain ⟨j, hj, hlt, hpj, hmin⟩ := ih (lo + 1) ⟨i, by omega, by omega, h3⟩
      refine ⟨j, by simp [firstFrom, hlo, hj], by omega, hpj, fun k hk hkj => ?_⟩
      rcases Nat.eq_or_lt_of_le hk with rfl | hk
      · simpa using hlo
      · exact hmin k hk hkj

theorem eq_maskOf {m : Mask} {p : Nat → Bool} (h : ∀ L, L < 32 → (inM m L = true ↔ p L = true)) : maskOf p = m := by
  rw [← maskOf_inM m]
  apply BitVec.eq_of_getLsbD_eq
  intro L hL
  rw [maskOf_getLsbD _ _ hL, maskOf_getLsbD _ _ hL]
  exact (Bool.eq_iff_iff.2 (h L hL)).symm

/-- No lane is selected. -/
theorem maskOf_eq_zero {p : Nat → Bool} (h : ∀ L, L < 32 → p L = false) : maskOf p = 0 :=
  eq_maskOf fun L hL => by simp [inM, h L hL]

/-- The lowest lane of a mask that is not empty. -/
theorem lowest_spec {m : Mask} (h : m ≠ 0) : lowest m < 32 ∧ inM m (lowest m) = true ∧ ∀ M, M < lowest m → inM m M = false := by
  have hex : ∃ L, 0 ≤ L ∧ L < 0 + 32 ∧ inM m L = true := by
    by_contra hn
    refine h (maskOf_inM m ▸ maskOf_eq_zero fun L hL => ?_)
    simpa using fun hm => hn ⟨L, Nat.zero_le L, by omega, hm⟩
  obtain ⟨i, hi, hlt, hm, hmin⟩ := firstFrom_spec (inM m) 0 32 hex
  have hl : lowest m = i := by simp [lowest, hi]
  rw [hl]
  exact ⟨by omega, hm, fun M hM => hmin M (Nat.zero_le M) hM⟩

/-! ## The lanes a trap is taken for -/

theorem trapLanes_ne_zero {s : State} {bad : Mask} (h : bad ≠ 0) : (s.trapLanes bad).1 ≠ 0 := by
  have ht := trapLanes_takenFor s bad
  unfold TakenFor at ht
  split_ifs at ht with h1 h2 h3 h4
  all_goals rw [ht.1]; assumption

@[simp] theorem trapLanes_zero (s : State) : (s.trapLanes 0).1 = 0 := by
  have ht := trapLanes_takenFor s 0
  unfold TakenFor at ht
  split_ifs at ht <;> simpa using ht.1

/-- A trap for lanes names the lowest of those it is taken for (R188). -/
theorem trapsLanes_of_exec {i : Instr} {s : State} {c : Cause} {bad : Mask} {info : Nat → DWord} {info2 : DWord} (hb : bad ≠ 0)
    (h : exec i s = .next (s.trapLane c bad fun m => (info (lowest m), info2, 0))) : TrapsLanes i s c bad info info2 := by
  obtain ⟨hL, hm, hlow⟩ := lowest_spec (trapLanes_ne_zero (s := s) hb)
  exact ⟨_, _, _, trapLanes_takenFor s bad, hL, hm, hlow, h⟩

/-! ## Global lane instructions -/

theorem exec_loadRow {i : Instr} {v : Via} {q : Option Scope} {d a : VReg} {f : BitVec 5} {z : Size} (h : LoadRow i v q d a f z)
    (s : State) : exec i s = s.loadLanes v q d a f z := by
  cases h <;> rfl

theorem exec_storeRow {i : Instr} {r : Option Scope} {d a : VReg} {f : BitVec 5} {z : Size} (h : StoreRow i r d a f z)
    (s : State) : ∃ strm, exec i s = s.storeLanes strm r d a f z := by
  cases h with
  | st d a f z c => exact ⟨c, rfl⟩
  | stRel d a c z => exact ⟨false, rfl⟩

theorem exec_atomRow {i : Instr} {op : AtomOp} {w : Bool} {c : Scope} {o : Ord} {sc : Bool} {d a : VReg}
    (h : AtomRow i op w c o sc d a) (s : State) : exec i s = s.atomLanes op w c o sc d a := by
  cases h <;> rfl

theorem exec_redRow {i : Instr} {op : AtomOp} {w : Bool} {c : Scope} {o : Bool} {d a : VReg} (h : RedRow i op w c o d a)
    (s : State) : exec i s = s.redLanes op w c o d a := by
  cases h <;> rfl

/-- Every global lane instruction stalls, checks and acts in one order (R269). -/
theorem exec_laneGlobal {i : Instr} {b : Bool} {a : Access} {rd wr : List Opnd} {va : State → Nat → Nat}
    (h : LaneGlobal i b a rd wr va) (s : State) : ∃ f, exec i s = s.laneMem b a rd wr (va s) f := by
  cases h with
  | load _ _ _ _ _ _ h =>
    rw [exec_loadRow h, State.loadLanes]
    exact ⟨_, rfl⟩
  | store _ _ _ _ _ h =>
    obtain ⟨strm, he⟩ := exec_storeRow h s
    rw [he, State.storeLanes]
    exact ⟨_, rfl⟩
  | atomic _ _ _ _ _ _ _ h =>
    rw [exec_atomRow h, State.atomLanes]
    exact ⟨_, rfl⟩
  | reduce _ _ _ _ _ _ h =>
    rw [exec_redRow h, State.redLanes]
    exact ⟨_, rfl⟩

section
variable {s : State} {b : Bool} {a : Access} {rd wr : List Opnd} {va : Nat → Nat} {f : State → List LaneAcc → State}

/-- Where the answers of an acquire are awaited, nothing else is looked at (log 30). -/
theorem laneMem_awaiting {c : Scope} (hc : a.acq = some c) (hm : s.slot.micro ≠ 0) :
    s.laneMem b a rd wr va f = .next (s.laneAcquired a) := by
  simp [State.laneMem, hc, hm]

theorem laneMem_flagFull (hm : a.acq ≠ none → s.slot.micro = 0) (hf : s.flagFull b = true) :
    s.laneMem b a rd wr va f = .next (s.waitFor .flagFull) := by
  rcases hc : a.acq with _ | c <;> simp_all [State.laneMem]

theorem laneMem_noLane (hm : a.acq ≠ none → s.slot.micro = 0) (hf : s.flagFull b = false) (hp : s.part = 0) :
    s.laneMem b a rd wr va f = .next s.advance := by
  rcases hc : a.acq with _ | c <;> simp_all [State.laneMem]

theorem laneMem_checks (hm : a.acq ≠ none → s.slot.micro = 0) (hf : s.flagFull b = false) (hp : s.part ≠ 0)
    (hb : s.blocked s.part rd wr = none) {t : State} (ht : s.laneChecks a s.part va = some t) :
    s.laneMem b a rd wr va f = .next t := by
  have hp' : ¬ s.part = 0#32 := hp
  rcases hc : a.acq with _ | c <;> simp_all [State.laneMem]

/-- A misaligned lane is the first check (R269). -/
theorem laneChecks_misaligned {T bad : Mask} (hbad : ∀ L, L < 32 → (inM bad L = true ↔ inM T L = true ∧ va L % a.size ≠ 0))
    (h0 : bad ≠ 0) :
    s.laneChecks a T va = some (s.trapLane cMISALIGNED bad fun m => (dw (va (lowest m)), 0, 0)) := by
  have hm : (maskOf fun L => inM T L && va L % a.size != 0) = bad := eq_maskOf fun L hL => by simp [hbad L hL]
  simp only [State.laneChecks]
  rw [hm, if_pos (by simpa using h0)]

/-- With every address aligned, mapped and allowed, a space that takes no atomic is the next (R275). -/
theorem laneChecks_space {T bad : Mask}
    (hok : ∀ L, L < 32 → inM T L = true → va L % a.size = 0 ∧ ∃ l pa, s.checkVa a.acc (va L) = .ok l pa)
    (hbad : ∀ L, L < 32 → (inM bad L = true ↔ inM T L = true ∧ a.badSpace (s.checkVa a.acc (va L)) = true)) (h0 : bad ≠ 0) :
    s.laneChecks a T va = some (s.trapLane cATOMIC_SPACE bad fun m => (dw (va (lowest m)), 0, 0)) := by
  have hmis : (maskOf fun L => inM T L && va L % a.size != 0) = 0 := maskOf_eq_zero fun L hL => by
    rcases hT : inM T L with _ | _
    · rfl
    · simp [(hok L hL hT).1]
  have hhard : (maskOf fun L => inM T L && (s.checkVa a.acc (va L)).isHard) = 0 := maskOf_eq_zero fun L hL => by
    rcases hT : inM T L with _ | _
    · rfl
    · obtain ⟨-, l, pa, h⟩ := hok L hL hT
      simp [h, Check.isHard]
  have hsoft : (maskOf fun L => inM T L && (s.checkVa a.acc (va L)).isSoft) = 0 := maskOf_eq_zero fun L hL => by
    rcases hT : inM T L with _ | _
    · rfl
    · obtain ⟨-, l, pa, h⟩ := hok L hL hT
      simp [h, Check.isSoft]
  have hspace : (maskOf fun L => inM T L && a.badSpace (s.checkVa a.acc (va L))) = bad := eq_maskOf fun L hL => by simp [hbad L hL]
  simp only [State.laneChecks]
  simp only [hmis, hhard, hsoft, hspace, trapLanes_zero, bne_self_eq_false, Bool.false_eq_true, if_false]
  rw [if_pos (by simpa using h0)]

end

/-! ## Scratchpad lane instructions -/

section
variable {s : State} {T bad : Mask} {n : Nat} {x : Bool} {off : Nat → Int}

theorem scratchChecks_misaligned (hbad : ∀ L, L < 32 → (inM bad L = true ↔ inM T L = true ∧ off L % n ≠ 0)) (h0 : bad ≠ 0) :
    s.scratchChecks T n x off = some (s.trapLane cMISALIGNED bad fun m => (wrap64 (off (lowest m)), 0, 0)) := by
  have hm : (maskOf fun L => inM T L && off L % n != 0) = bad := eq_maskOf fun L hL => by simp [hbad L hL]
  simp only [State.scratchChecks]
  rw [hm, if_pos (by simpa using h0)]

theorem scratchChecks_outside (hal : ∀ L, L < 32 → inM T L = true → off L % n = 0)
    (hbad : ∀ L, L < 32 → (inM bad L = true ↔ inM T L = true ∧ (off L < 0 ∨ s.blk.shape.scrb < off L + n))) (h0 : bad ≠ 0) :
    s.scratchChecks T n x off =
      some (s.trapLane cSCRATCH_BOUNDS bad fun m => (wrap64 (off (lowest m)), dw s.blk.shape.scrb, 0)) := by
  have hmis : (maskOf fun L => inM T L && off L % n != 0) = 0 := maskOf_eq_zero fun L hL => by
    rcases hT : inM T L with _ | _
    · rfl
    · simp [hal L hL hT]
  have hout : (maskOf fun L => inM T L && (decide (off L < 0) || decide ((s.blk.shape.scrb : Int) < off L + n))) = bad :=
    eq_maskOf fun L hL => by simp [hbad L hL]
  simp only [State.scratchChecks]
  rw [hmis, hout, if_neg (by simp), if_pos (by simpa using h0)]

end

theorem laneScratch_checks {s t : State} {a w x : Bool} {n : Nat} {rd wr : List Opnd} {off : Nat → Int}
    {f : State → Nat → Nat → ScratchGather → ScratchGather} (hf : s.flagFull a = false) (hp : s.part ≠ 0)
    (hb : s.blocked s.part rd wr = none) (ht : s.scratchChecks s.part n x off = some t) :
    s.laneScratch a w n x rd wr off f = .next t := by
  have hp' : ¬ s.part = 0#32 := hp
  simp [State.laneScratch, hf, hp', hb, ht]

theorem exec_lds_laneScratch (d a : VReg) (f : BitVec 5) (z : Size) (c : Bool) (s : State) : ∃ g, exec (.lds d a f z c) s =
    s.laneScratch true false (sizeBytes z) false [.v a 1] [.v d (sizeRegs z)] (s.sof a f z) g := by
  rw [exec_lds, execLds]
  exact ⟨_, rfl⟩

/-- Settles O21: the checks come in their order before any lane acts, and each traps for its own lanes. -/
theorem failedChecksTrapBeforeAnyLaneActs : Obligations.FailedChecksTrapBeforeAnyLaneActs := by
  refine ⟨fun i b a rd wr va hi s => ?_, fun d a f z c s bad hp hf hb => ⟨fun hbad h0 => ?_, fun hal hbad h0 => ?_⟩⟩
  · obtain ⟨f, he⟩ := exec_laneGlobal hi s
    refine ⟨fun c hc hm => ?_, fun hm => ⟨fun hf => ?_, fun hf hp => ?_, fun bad hp hf hb =>
      ⟨fun hbad h0 => trapsLanes_of_exec h0 ?_, fun hok hbad h0 => trapsLanes_of_exec h0 ?_⟩⟩⟩
    · rw [he, laneMem_awaiting hc hm]
      simp [State.laneAcquired, State.acquireFor, hc]
    · rw [he, laneMem_flagFull hm hf]
    · rw [he, laneMem_noLane hm hf hp]
    · rw [he, laneMem_checks hm hf hp hb (laneChecks_misaligned hbad h0)]
    · rw [he, laneMem_checks hm hf hp hb (laneChecks_space hok hbad h0)]
  · obtain ⟨g, he⟩ := exec_lds_laneScratch d a f z c s
    refine trapsLanes_of_exec h0 ?_
    rw [he, laneScratch_checks hf hp hb (scratchChecks_misaligned hbad h0)]
    rfl
  · obtain ⟨g, he⟩ := exec_lds_laneScratch d a f z c s
    refine trapsLanes_of_exec h0 ?_
    rw [he, laneScratch_checks hf hp hb (scratchChecks_outside hal hbad h0)]
    rfl

end Sys2Proof.Machine

/-! PROOFS. A job command whose job no dependence tracker holds yet (O38; 02 R26, 19 R333, R337): its counted operation is still to
complete, so the event does not occur. -/

namespace Sys2Proof.Machine

open Sys2Proof Sys2Proof.Machine Sys2Proof.Claims

/-- A job behind 256 others of its die is held by no tracker (R337). -/
theorem trackerHolds_behind {d : Dev} {l : List Job} {b : Job} (hj : d.jobs = l ++ [b]) (hn : 256 ≤ l.length)
    (hl : ∀ j, j ∈ l → j.id ≠ b.id ∧ j.core / 96 = b.core / 96) : trackerHolds d b.id = false := by
  have hfind : d.jobs.find? (fun j => j.id = b.id) = some b := by
    rw [hj, List.find?_append, List.find?_eq_none.2 fun j h => by simpa using (hl j h).1]
    simp
  have hdie : d.jobs.filter (fun x => x.core / 96 = b.core / 96) = l ++ [b] := by
    rw [hj]
    refine List.filter_eq_self.2 fun j h => ?_
    rcases List.mem_append.1 h with h | h
    · simpa using (hl j h).2
    · simp [List.mem_singleton.1 h]
  rw [trackerHolds, hfind]
  simp only [hdie, List.take_append_of_le_length hn]
  rw [List.any_eq_false]
  intro j h
  simpa using (hl j (List.mem_of_mem_take h)).1

/-- A copy job of core 0. -/
def jobNumbered (id : Nat) : Job :=
  let layout : Layout := ⟨0, [], [], 0, 0, .i8, 0, 0, false⟩
  { id := id, kind := .copy, engine := 0, block := 0, gidx := 0, pslot := 0, owner := 1, launch := 0, core := 0, cluster := 0
    cardAddr := 0, card := ⟨0, 0, [], [], [], 0, 0, false, 0, 0, 0, 0, 0, 0, 0, 0, 0, 0⟩, src := layout, dst := layout, sel := 0
    bar := 0, mode := 0, lo := [], size := [], count := 0, reads := [], writes := [] }

/-- The command of job 1, counted by SETA at flag 0. -/
def jobCommand : Pend := { id := 0, setA := true, flag := 0, slot := 0, job := 2 }

/-- A group with this command in flight; job 1 is the 257th of its die, and the tracker takes 256 (R337). -/
def behindTheTracker : State :=
  { focused := true, grp := { pend := [jobCommand] }
    dev := { jobs := List.replicate 256 (jobNumbered 0) ++ [jobNumbered 1] } }

/-- The command's completion does not occur. -/
theorem exec_countedOpComplete_behind :
    exec (.countedOpComplete 0) behindTheTracker = .next behindTheTracker.unfocus := by
  have h : behindTheTracker.completeAt true 0 = none := by
    have he : jobCommand.endsHere behindTheTracker.dev = false := by
      have ht : trackerHolds behindTheTracker.dev (jobCommand.job - 1) = false :=
        trackerHolds_behind (l := List.replicate 256 (jobNumbered 0)) (b := jobNumbered 1) rfl
          (List.length_replicate.symm ▸ Nat.le_refl 256) fun j h => by
            rw [List.eq_of_mem_replicate h]
            exact ⟨by decide, rfl⟩
      rw [Pend.endsHere, ht]
      rfl
    have hp : behindTheTracker.grp.pend[0]? = some jobCommand := rfl
    simp [State.completeAt, hp, he]
  show execCountedOpComplete 0 behindTheTracker = _
  rw [execCountedOpComplete, h]
  rfl

/-- Refutes O38: an operation of the focused group that is not one of another package does not complete while its job stands behind
the 256 that the die's tracker holds. -/
theorem not_groupsAndBlocksAdvance : ¬ Obligations.GroupsAndBlocksAdvance := by
  unfold Obligations.GroupsAndBlocksAdvance
  rintro ⟨-, -, -, hcomplete, -⟩
  obtain ⟨t, ht, honly, -⟩ := (hcomplete (.countedOpComplete 0) 0 true (.inl ⟨rfl, rfl⟩) behindTheTracker).1 jobCommand rfl rfl rfl rfl
    fun x hx _ => List.mem_singleton.1 hx
  rw [exec_countedOpComplete_behind] at ht
  obtain rfl : behindTheTracker.unfocus = t := by injection ht
  have hf := congrArg State.focused honly
  rw [State.unfocus_focused] at hf
  exact absurd hf (by decide)

end Sys2Proof.Machine

/-! PROOFS. Multiplies (O36; 04 R83, 07 R134, R136-R138, R145): the fold of `Seq.multiply` writes element after element of one
accumulator tile, and `mma` and `mmas` reach it where their slots and their format fit. -/

namespace Sys2Proof.Machine

open Sys2Proof Sys2Proof.Machine Sys2Proof.Claims

/-! ## One element (R83, R136) -/

theorem foldl_add_map {α : Type} (g : α → Int) (l : List α) : l.foldl (fun n x => n + g x) 0 = (l.map g).sum := by
  rw [List.sum_eq_foldl, List.foldl_map]

theorem dotElement_eq (c : Nat) (a b : Nat → List Val) (k : Nat) : (dotElement c a b k, 0) = newElement .int c a b k := by
  simp only [newElement, dotElement, wrap32, foldl_add_map]

/-- The new value of element e of tile d, and its flags. -/
def Seq.newAt (q : Seq) (d : Nat) (p : Pair) (a b : Operand) (k e : Nat) : Nat × FFlags :=
  match p with
  | .float w => mmaElement (q.elem d e) (a (e / 64)) (b (e % 64)) k w
  | .int => (dotElement (q.elem d e) (a (e / 64)) (b (e % 64)) k, 0)

theorem Seq.newAt_eq (q : Seq) (d : Nat) (p : Pair) (a b : Operand) (k e : Nat) :
    q.newAt d p a b k e = newElement p (q.elem d e) (a (e / 64)) (b (e % 64)) k := by
  cases p with
  | float w => rfl
  | int => exact dotElement_eq ..

/-- Element e of tile d replaced, with the flags of its roundings. -/
def Seq.replaceAt (q : Seq) (d e : Nat) (r : Nat × FFlags) : Seq :=
  { q with acc := Sparse.put 0 q.acc (4096 * d + e) (BitVec.ofNat 32 r.1) }.raise r.2

theorem Seq.get_replaceAt (q : Seq) (d e : Nat) (r : Nat × FFlags) (x : Nat) : Sparse.get 0 (q.replaceAt d e r).acc x =
    if x = 4096 * d + e then BitVec.ofNat 32 r.1 else Sparse.get 0 q.acc x := Sparse.get_put ..

theorem Seq.multiply_eq_foldl (q : Seq) (d : Nat) (p : Pair) (a b : Operand) (k : Nat) :
    q.multiply d p a b k = (List.range 4096).foldl (fun u e => u.replaceAt d e (u.newAt d p a b k e)) q := by
  cases p <;> rfl

/-! ## One tile -/

/-- v with the accumulator tiles and the sticky flags of t. -/
def Seq.withTilesOf (v t : Seq) : Seq := { v with acc := t.acc, iv := t.iv, of := t.of, uf := t.uf, nx := t.nx }

/-- u is q with the first n elements of tile d replaced by those of F, and their flags set (R145). -/
structure ReplacedTo (q u : Seq) (d : Nat) (F : Nat → Nat × FFlags) (n : Nat) : Prop where
  only : u = q.withTilesOf u
  acc : ∀ x, Sparse.get 0 u.acc x =
    if 4096 * d ≤ x ∧ x < 4096 * d + n then BitVec.ofNat 32 (F (x - 4096 * d)).1 else Sparse.get 0 q.acc x
  iv : u.iv = (q.iv || (List.range n).any fun e => (F e).2.getLsbD 0)
  of : u.of = (q.of || (List.range n).any fun e => (F e).2.getLsbD 2)
  uf : u.uf = (q.uf || (List.range n).any fun e => (F e).2.getLsbD 3)
  nx : u.nx = (q.nx || (List.range n).any fun e => (F e).2.getLsbD 4)

theorem or_any_range_succ {x y : Bool} {g : Nat → Bool} {n : Nat} (h : x = (y || (List.range n).any g)) :
    (x || g n) = (y || (List.range (n + 1)).any g) := by
  simp [h, List.range_succ, Bool.or_assoc]

theorem ReplacedTo.replaceAt_next {q u : Seq} {d n : Nat} {F : Nat → Nat × FFlags} (h : ReplacedTo q u d F n) :
    ReplacedTo q (u.replaceAt d n (F n)) d F (n + 1) where
  only := congrArg (fun v => v.withTilesOf (u.replaceAt d n (F n))) h.only
  acc x := by
    rw [Seq.get_replaceAt, h.acc]
    by_cases hx : x = 4096 * d + n
    · subst hx; simp
    · have hiff : (4096 * d ≤ x ∧ x < 4096 * d + (n + 1)) ↔ (4096 * d ≤ x ∧ x < 4096 * d + n) := by omega
      simp only [hx, if_false, hiff]
  iv := or_any_range_succ h.iv
  of := or_any_range_succ h.of
  uf := or_any_range_succ h.uf
  nx := or_any_range_succ h.nx

/-- An element not yet replaced is still that of q, so its new value is formed from the old tile. -/
theorem ReplacedTo.newAt_next {q u : Seq} {d n : Nat} {F : Nat → Nat × FFlags} (h : ReplacedTo q u d F n) (p : Pair)
    (a b : Operand) (k : Nat) : u.newAt d p a b k n = q.newAt d p a b k n := by
  have hold := h.acc (4096 * d + n)
  rw [if_neg (by omega)] at hold
  rw [Seq.newAt_eq, Seq.elem, hold, Seq.newAt_eq, Seq.elem]

theorem foldl_replaceAt_replacedTo (q : Seq) (d : Nat) (p : Pair) (a b : Operand) (k n : Nat) :
    ReplacedTo q ((List.range n).foldl (fun u e => u.replaceAt d e (u.newAt d p a b k e)) q) d (q.newAt d p a b k) n := by
  induction n with
  | zero => exact ⟨rfl, fun x => by simp, by simp, by simp, by simp, by simp⟩
  | succ n ih =>
    rw [List.range_succ, List.foldl_append, List.foldl_cons, List.foldl_nil, ih.newAt_next]
    exact ih.replaceAt_next

theorem Seq.multiply_replacedTo (q : Seq) (d : Nat) (p : Pair) (a b : Operand) (k : Nat) :
    ReplacedTo q (q.multiply d p a b k) d (q.newAt d p a b k) 4096 := by
  rw [Seq.multiply_eq_foldl]
  exact foldl_replaceAt_replacedTo ..

theorem changesOnly_onSeq (s : State) (f : Seq → Seq) : ChangesOnly [.stream] s (s.onSeq f) := rfl

theorem multiplied_onSeq {s : State} {f : Seq → Seq} {d : Nat} {p : Pair} {a b : Operand} {k : Nat}
    (hf : f s.seq = s.seq.multiply d p a b k) : Multiplied s (s.onSeq f) d p a b k := by
  have hseq : (s.onSeq f).seq = s.seq.multiply d p a b k := hf
  have h := s.seq.multiply_replacedTo d p a b k
  rw [← hseq] at h
  refine ⟨changesOnly_onSeq s f, h.only, fun m n hm hn => ?_, fun x hx => ?_, ?_⟩
  · have hm' : (64 * m + n) / 64 = m := by omega
    have hn' : (64 * m + n) % 64 = n := by omega
    refine (h.acc _).trans ?_
    rw [if_pos (by omega), Nat.add_sub_cancel_left, Seq.newAt_eq, hm', hn']
  · exact (h.acc x).trans (if_neg (by omega))
  · rintro f rfl
    simp only [← Seq.newAt_eq]
    exact ⟨h.iv, h.of, h.uf, h.nx⟩

/-! ## What an instruction of the stream answers (R146, R147) -/

section

variable {s t : State} {f : State → Except MxStop State} (hres : s.seq.res ≠ .none)
include hres

theorem mxDo_ok (hf : f s = .ok t) : s.mxDo f = .next t.mxNext := by simp [State.mxDo, State.reserved, hres, hf]

theorem mxDo_halt {c : Cause} {va : Nat} (hf : f s = .error (.halt c va)) : s.mxDo f = .next (s.halt c va) := by
  simp [State.mxDo, State.reserved, hres, hf, State.mxStop]

end

/-! ## Slots and format (R134, R136, R138) -/

theorem format_of_formatOf {s : State} {ka kb : Elem} {p : Pair} (h : FormatOf s ka kb p) : s.seq.format = some (ka, kb, p) := by
  obtain ⟨ha, hb, hp⟩ := h
  simp [Seq.format, ha, hb, hp]

theorem tile_of_slotOf {s : State} {n : TName} {x : Tile} {t : SlotTag} {hi : Option Tile} (h : SlotOf s n x t hi) :
    s.seq.tile n.val = some x := h.1

theorem tag_of_slotOf {s : State} {n : TName} {x : Tile} {t : SlotTag} {hi : Option Tile} (h : SlotOf s n x t hi) :
    x.tag = some t := h.2.1

theorem hiSlot_of_slotOf {s : State} {n : TName} {x : Tile} {t : SlotTag} {hi : Option Tile} (h : SlotOf s n x t hi) :
    s.seq.hiSlot n.val t = .ok hi := by
  obtain ⟨-, -, ⟨hm, rfl⟩ | ⟨hm, hk, hne, htile⟩⟩ := h
  · simp [Seq.hiSlot, hm]
  · obtain ⟨y, rfl⟩ := Option.ne_none_iff_exists'.1 hne
    simp [Seq.hiSlot, hm, hk, htile]

theorem mapped_of_slotOf_none {s : State} {n : TName} {x : Tile} {t : SlotTag} (h : SlotOf s n x t none) : t.mapped = false := by
  obtain ⟨-, -, ⟨hm, -⟩ | ⟨-, -, hne, -⟩⟩ := h
  · exact hm
  · exact absurd rfl hne

theorem twoTiles_of_slotOf {s : State} {a b : TName} {x y : Tile} {ta tb : SlotTag} {hx hy : Option Tile}
    (ha : SlotOf s a x ta hx) (hb : SlotOf s b y tb hy) : s.seq.twoTiles a.val b.val = .ok (x, y) := by
  simp [Seq.twoTiles, tile_of_slotOf ha, tile_of_slotOf hb]

theorem twoTiles_of_none {q : Seq} {a b : Nat} (h : q.tile a = none ∨ q.tile b = none) :
    q.twoTiles a b = .error (.halt cMATRIX_SLOT 0) := by
  rcases h with h | h
  · simp [Seq.twoTiles, h]
  · cases ha : q.tile a <;> simp [Seq.twoTiles, ha, h]

theorem fitsTags_eq_false {q : Seq} {ka kb : Elem} {p : Pair} {ta tb : SlotTag}
    (h : ta.kind ≠ ka ∨ tb.kind ≠ kb ∨ (p = .int ∧ (q.ea ≠ 0 ∨ q.eb ≠ 0 ∨ ta.scaled = true ∨ tb.scaled = true))) :
    fitsTags q ka kb p ta tb = false := by
  rcases h with h | h | ⟨rfl, h⟩
  · simp [fitsTags, h]
  · simp [fitsTags, h]
  · simp only [fitsTags]
    rcases h with h | h | h | h <;> simp [h]

/-! ## `mma` (R136) and `mmas` (R137) -/

section

variable {s : State} {d : Fin 32} {a b : TName} (hres : s.seq.res ≠ .none)
include hres

theorem exec_mma_unclaimed (h : s.seq.tile a.val = none ∨ s.seq.tile b.val = none) :
    exec (.mma d a b) s = .next (s.halt cMATRIX_SLOT 0) := by
  rw [exec_mma]
  exact mxDo_halt hres (by simp only [twoTiles_of_none h])

theorem exec_mmas_unclaimed (h : s.seq.tile a.val = none ∨ s.seq.tile b.val = none) :
    exec (.mmas d a b) s = .next (s.halt cMATRIX_SLOT 0) := by
  rw [exec_mmas]
  exact mxDo_halt hres (by simp only [twoTiles_of_none h])

variable {x y z : Tile} {ta tb tc : SlotTag} {hx hy : Option Tile} {ka kb : Elem} {p : Pair} (hf : FormatOf s ka kb p)
include hf

section

variable (ha : SlotOf s a x ta hx) (hb : SlotOf s b y tb hy)
include ha hb

theorem exec_mma_ok (hna : ta.nz = 0) (hnb : tb.nz = 0) (hfit : fitsTags s.seq ka kb p ta tb = true) :
    exec (.mma d a b) s = .next (s.onSeq fun q =>
      q.multiply d.val p (denseOperand ka q.ea x hx) (denseOperand kb q.eb y hy) ka.kd).mxNext := by
  rw [exec_mma]
  refine mxDo_ok hres ?_
  simp only [twoTiles_of_slotOf ha hb, tag_of_slotOf ha, tag_of_slotOf hb, format_of_formatOf hf, hna, hnb, hfit,
    hiSlot_of_slotOf ha, hiSlot_of_slotOf hb]
  rfl

theorem exec_mma_refused (h : (!fitsTags s.seq ka kb p ta tb || ta.nz != 0 || tb.nz != 0) = true) :
    exec (.mma d a b) s = .next (s.halt cILLEGAL_OPERAND 0) := by
  rw [exec_mma]
  refine mxDo_halt hres ?_
  simp only [twoTiles_of_slotOf ha hb, tag_of_slotOf ha, tag_of_slotOf hb, format_of_formatOf hf, h, if_true]

end

section

variable (ha : SlotOf s a x ta none) (hb : SlotOf s b y tb none) (hz : s.seq.tile (b.val + 1) = some z) (hc : z.tag = some tc)
include ha hb hz hc

theorem exec_mmas_ok (hm : tc.mapped = false) (hna : ta.nz ≠ 0) (hnb : tb.nz = 0) (hnc : tc.nz = 0)
    (hfb : fitsTags s.seq ka kb p ta tb = true) (hfc : fitsTags s.seq ka kb p ta tc = true) (hk : ka.nibble = false) :
    exec (.mmas d a b) s = .next (s.onSeq fun q =>
      q.multiply d.val p (keptOperand ka ta.nz q.ea x) (pairOperand kb q.eb y z) (2 * ka.kd)).mxNext := by
  rw [exec_mmas]
  refine mxDo_ok hres ?_
  simp [twoTiles_of_slotOf ha hb, hz, tag_of_slotOf ha, tag_of_slotOf hb, hc, format_of_formatOf hf, hna, hnb, hnc, hfb, hfc,
    mapped_of_slotOf_none ha, mapped_of_slotOf_none hb, hm, hk]

theorem exec_mmas_refused (h : ta.nz = 0 ∨ tb.nz ≠ 0 ∨ tc.nz ≠ 0 ∨ ka.nibble = true) :
    exec (.mmas d a b) s = .next (s.halt cILLEGAL_OPERAND 0) := by
  rw [exec_mmas]
  refine mxDo_halt hres ?_
  simp only [twoTiles_of_slotOf ha hb, hz, tag_of_slotOf ha, tag_of_slotOf hb, hc, format_of_formatOf hf]
  refine if_pos ?_
  rcases h with h | h | h | h <;> simp [h]

end

end

/-- Settles O36: the fold over a tile's elements leaves each one as its own multiply gives it and every other tile alone. -/
theorem multipliesUpdateOneTile : Obligations.MultipliesUpdateOneTile := by
  unfold Obligations.MultipliesUpdateOneTile
  refine ⟨fun d a b s x y ta tb hx hy ka kb p hres hf ha hb => ⟨fun hna hnb hfit => ?_, fun h => ?_⟩, fun d a b s hres h => ?_,
    fun d a b s x y z ta tb tc ka kb p hres hf ha hb hz hc hm => ⟨fun hna hnb hnc hfb hfc hk => ?_, fun h => ?_⟩⟩
  · exact ⟨_, exec_mma_ok hres hf ha hb hna hnb hfit, multiplied_onSeq rfl⟩
  · refine exec_mma_refused hres hf ha hb ?_
    rcases h with h | h | h
    · simp [h]
    · simp [h]
    · simp [fitsTags_eq_false h]
  · exact ⟨exec_mma_unclaimed hres h, exec_mmas_unclaimed hres h⟩
  · exact ⟨_, exec_mmas_ok hres hf ha hb hz hc hm hna hnb hnc hfb hfc hk, multiplied_onSeq rfl⟩
  · exact exec_mmas_refused hres hf ha hb hz hc h

end Sys2Proof.Machine

/-! PROOFS. Values of the integer functions (05 R86-R91, R97-R99): each function of the model has the bits, or the number, that
the statements give its row. -/

namespace Sys2Proof.Machine

open Sys2Proof Sys2Proof.Machine Sys2Proof.Claims

/-! ## Counting (R88, R99) -/

/-- No index is found just where p selects none. -/
theorem firstFrom_none (p : Nat → Bool) (lo n : Nat) (h : ∀ i, lo ≤ i → i < lo + n → p i = false) :
    firstFrom lo n p = none := by
  induction n generalizing lo with
  | zero => rfl
  | succ n ih =>
    rw [firstFrom, if_neg (by simp [h lo (Nat.le_refl lo) (by omega)]), ih (lo + 1) fun i h1 h2 => h i (by omega) (by omega)]

/-- The length of the run of indices from 0 on that p does not select, at most n. -/
theorem firstFrom_run (p : Nat → Bool) (n : Nat) :
    (firstFrom 0 n p).getD n ≤ n ∧ (∀ i, i < (firstFrom 0 n p).getD n → p i = false) ∧
    ((firstFrom 0 n p).getD n < n → p ((firstFrom 0 n p).getD n) = true) := by
  by_cases h : ∃ i, 0 ≤ i ∧ i < 0 + n ∧ p i = true
  · obtain ⟨i, hi, hlt, hp, hmin⟩ := firstFrom_spec p 0 n h
    simp only [hi, Option.getD_some]
    exact ⟨by omega, fun j hj => hmin j (Nat.zero_le j) hj, fun _ => hp⟩
  · have hall : ∀ i, i < n → p i = false := fun i hi => by
      rw [Bool.eq_false_iff]
      exact fun hp => h ⟨i, Nat.zero_le i, by omega, hp⟩
    rw [firstFrom_none p 0 n fun i _ hi => hall i (by omega)]
    exact ⟨Nat.le_refl n, hall, fun hn => absurd hn (Nat.lt_irrefl n)⟩

theorem popN_eq_countTo {w : Nat} (n : Nat) (a : BitVec w) : popN n a.toNat = countTo n fun i => a.getLsbD i := by
  simp only [popN, countTo, bitOf_toNat]

theorem popN_le (n x : Nat) : popN n x ≤ n := (List.length_filter_le _ _).trans_eq List.length_range

/-- The count of leading zeros: so many bits from the top are 0, and the next one, if there is one, is 1. -/
theorem clzN_run {w : Nat} (n : Nat) (a : BitVec w) : clzN n a.toNat ≤ n ∧
    (∀ i, i < clzN n a.toNat → a.getLsbD (n - 1 - i) = false) ∧
    (clzN n a.toNat < n → a.getLsbD (n - 1 - clzN n a.toNat) = true) := by
  have h := firstFrom_run (fun i => bitOf a.toNat (n - 1 - i)) n
  simp only [bitOf_toNat] at h
  simpa only [clzN, bitOf_toNat] using h

theorem toNat_ofNat32 {n : Nat} (h : n ≤ 32) : (BitVec.ofNat 32 n).toNat = n := by
  rw [BitVec.toNat_ofNat]
  omega

theorem toNat_dw {n : Nat} (h : n ≤ 64) : (dw n).toNat = n := by
  rw [dw, BitVec.toNat_ofNat]
  omega

theorem popcW_value (a : Word) : (popcW a).toNat = countTo 32 fun i => a.getLsbD i := by
  rw [popcW, toNat_ofNat32 (popN_le 32 _), popN_eq_countTo]

theorem clzW_run (a : Word) : (clzW a).toNat ≤ 32 ∧ (∀ i, i < (clzW a).toNat → a.getLsbD (31 - i) = false) ∧
    ((clzW a).toNat < 32 → a.getLsbD (31 - (clzW a).toNat) = true) := by
  have h := clzN_run 32 a
  rwa [← toNat_ofNat32 h.1] at h

theorem clzSgnW_run (a : Word) : (clzSgnW a).toNat ≤ 31 ∧
    (∀ i, i < (clzSgnW a).toNat → a.getLsbD (30 - i) = a.getLsbD 31) ∧
    ((clzSgnW a).toNat < 31 → a.getLsbD (30 - (clzSgnW a).toNat) = !a.getLsbD 31) := by
  have h := firstFrom_run (fun i => bitOf a.toNat (30 - i) != bitOf a.toNat 31) 31
  rw [← toNat_ofNat32 (h.1.trans (by decide))] at h
  simpa only [clzSgnW, bitOf_toNat, bne_eq_false_iff_eq, bne_iff_ne, ne_eq, ← Bool.eq_not] using h

/-! ## Smaller and larger (R86, R97) -/

section
variable {α β : Type} [LinearOrder β] (f : α → β) (a b : α)

theorem value_smaller : f (if f b < f a then b else a) = min (f a) (f b) := by
  split
  · exact (min_eq_right (le_of_lt ‹_›)).symm
  · exact (min_eq_left (not_lt.1 ‹_›)).symm

theorem value_larger : f (if f a < f b then b else a) = max (f a) (f b) := by
  split
  · exact (max_eq_right (le_of_lt ‹_›)).symm
  · exact (max_eq_left (not_lt.1 ‹_›)).symm

end

/-! ## Clamped sums, high products and differences (R86, R97) -/

theorem iaddsW_value (a b : Word) : Iadds a b (iaddsW a b) := by
  rw [Iadds, iaddsW, satI32, wrap32_toInt _ (by omega) (by omega)]
  omega

theorem iaddsnW_value (a b : Word) : Iaddsn a b (iaddsnW a b) := by
  rw [Iaddsn, iaddsnW, satN32, BitVec.toNat_ofNat]
  omega

theorem imulhW_value (a b : Word) : Imulh a b (imulhW a b) := by
  have hlo := BitVec.le_toInt_mul_toInt (x := a) (y := b)
  have hhi := BitVec.toInt_mul_toInt_le (x := a) (y := b)
  rw [Imulh, imulhW, wrap32_toInt _ (by omega) (by omega)]
  rfl

theorem imulhnW_value (a b : Word) : Imulhn a b (imulhnW a b) := by
  have h : a.toNat * b.toNat < 4294967296 * 4294967296 := Nat.mul_lt_mul'' a.isLt b.isLt
  rw [Imulhn, imulhnW, BitVec.toNat_ofNat]
  omega

theorem iabsdW_value (a b : Word) : Iabsd a b (iabsdW a b) := by
  have ha := a.isLt
  have hb := b.isLt
  rw [Iabsd, iabsdW, wrap32, BitVec.ofInt_natCast, BitVec.toNat_ofNat, Int.abs_eq_natAbs]
  have := a.toInt_eq_toNat_cond
  have := b.toInt_eq_toNat_cond
  congr 1
  omega

theorem smulhD_value (a b : DWord) : Smulh a b (smulhD a b) := by
  have hlo := BitVec.le_toInt_mul_toInt (x := a) (y := b)
  have hhi := BitVec.toInt_mul_toInt_le (x := a) (y := b)
  rw [Smulh, smulhD, wrap64, BitVec.toInt_ofInt, Int.bmod_eq_of_le (by omega) (by omega)]
  rfl

theorem saddwD_value (a b : DWord) : Saddw a b (saddwD a b) := by
  rw [Saddw, saddwD, BitVec.toInt_signExtend_of_le (by decide)]
  simp [BitVec.setWidth_eq_extractLsb']

/-! ## Shifts (R87, R97) -/

section
variable {w : Nat} (a : BitVec w) (n i : Nat)

theorem getLsbD_shiftUp (hi : i < w) :
    (if w ≤ n then 0 else a <<< n).getLsbD i = (decide (n ≤ i) && a.getLsbD (i - n)) := by
  split
  · have h : ¬ n ≤ i := by omega
    simp [h]
  · rw [BitVec.getLsbD_shiftLeft, decide_eq_true hi, Bool.true_and, ← decide_not, decide_eq_decide.2 Nat.not_lt]

theorem getLsbD_shiftDown : (if w ≤ n then 0 else a >>> n).getLsbD i = a.getLsbD (i + n) := by
  split
  · rw [BitVec.getLsbD_of_ge a (i + n) (by omega)]
    simp
  · rw [BitVec.getLsbD_ushiftRight, Nat.add_comm]

theorem getLsbD_shiftSigned (hi : i < w) : (a.sshiftRight (min n (w - 1))).getLsbD i = a.getLsbD (min (i + n) (w - 1)) := by
  rw [BitVec.getLsbD_sshiftRight, decide_eq_false (by omega), Bool.not_false, Bool.true_and, BitVec.msb_eq_getLsbD_last]
  split
  · rw [show min n (w - 1) + i = min (i + n) (w - 1) by omega]
  · rw [show min (i + n) (w - 1) = w - 1 by omega]

theorem getLsbD_rotateUp (hi : i < w) : (a.rotateLeft (n % w)).getLsbD i = a.getLsbD ((i + w - n % w) % w) := by
  have hn : n % w < w := Nat.mod_lt _ (by omega)
  rw [BitVec.getLsbD_rotateLeft, Nat.mod_mod, decide_eq_true hi, Bool.true_and]
  generalize n % w = m at hn
  by_cases h : i < m
  · rw [decide_eq_true h, cond_true, Nat.mod_eq_of_lt (by omega), show w - m + i = i + w - m by omega]
  · rw [decide_eq_false h, cond_false, show i + w - m = i - m + w by omega, Nat.add_mod_right, Nat.mod_eq_of_lt (by omega)]

end

/-! ## Bitfields (R88, R90) -/

theorem brevW_bits (a : Word) (i : Nat) (hi : i < 32) : (brevW a).getLsbD i = a.getLsbD (31 - i) := by
  rw [brevW, maskOf_getLsbD _ _ hi, bitOf_toNat]

theorem fieldPos_eq (b : Word) : fieldPos b = fieldPosOf b := by simp [fieldPos, fieldPosOf, bits]

theorem fieldLen_eq (b : Word) : fieldLen b = fieldLenOf b := by
  simp [fieldLen, fieldLenOf, bits, Nat.shiftRight_eq_div_pow]

theorem fieldLenOf_le (b : Word) : fieldLenOf b ≤ 32 := Nat.min_le_right _ _

theorem srcBit_zero (a : Word) (i : Nat) : srcBit a false i = a.getLsbD i := by
  unfold srcBit
  split
  · exact bitOf_toNat a i
  · exact (BitVec.getLsbD_of_ge a i (by omega)).symm

theorem srcBit_sign (a : Word) (i : Nat) : srcBit a (bitOf a.toNat 31) i = a.getLsbD (min i 31) := by
  unfold srcBit
  split
  · rw [bitOf_toNat, Nat.min_eq_left ‹_›]
  · rw [bitOf_toNat, Nat.min_eq_right (by omega)]

theorem bfenW_bits (a b : Word) : Bfen a b (bfenW a b) := fun i hi => by
  rw [bfenW, maskOf_getLsbD _ _ hi, srcBit_zero, fieldPos_eq, fieldLen_eq]

/-- The low n bits as a two's complement number are a word of n bits, sign-extended (R4). -/
theorem wrap32_sext (x : Nat) {n : Nat} (hn : n ≠ 0) : wrap32 (sext x n) = (BitVec.ofNat n x).signExtend 32 := by
  have hp : 2 ^ n = 2 * 2 ^ (n - 1) := (Nat.two_pow_pred_mul_two (Nat.pos_of_ne_zero hn)).symm.trans (Nat.mul_comm _ _)
  have hs : sext x n = (BitVec.ofNat n x).toInt := by
    rw [BitVec.toInt_eq_toNat_cond, BitVec.toNat_ofNat, sext]
    refine if_congr (by omega) rfl ?_
    rw [Nat.cast_pow]
    rfl
  rw [hs]
  rfl

theorem bfeW_bits (a b : Word) : Bfe a b (bfeW a b) := fun i hi => by
  have hl := fieldLenOf_le b
  rw [bfeW, fieldLen_eq, fieldPos_eq]
  by_cases h0 : fieldLenOf b = 0
  · simp [h0]
  · have hbit : ∀ j, j < fieldLenOf b →
        (maskOf fun i => decide (i < fieldLenOf b) && srcBit a (bitOf a.toNat 31) (fieldPosOf b + i)).getLsbD j =
          a.getLsbD (min (fieldPosOf b + j) 31) := fun j hj => by
      rw [maskOf_getLsbD _ _ (by omega), decide_eq_true hj, Bool.true_and, srcBit_sign]
    rw [if_neg h0, wrap32_sext _ h0, BitVec.getLsbD_signExtend, decide_eq_true hi, decide_eq_true h0, Bool.true_and,
      Bool.true_and, BitVec.msb_eq_getLsbD_last, BitVec.ofNat_toNat]
    by_cases h : i < fieldLenOf b
    · rw [if_pos h, BitVec.getLsbD_setWidth, decide_eq_true h, Bool.true_and, hbit i h,
        Nat.min_eq_left (b := fieldLenOf b - 1) (by omega)]
    · rw [if_neg h, BitVec.getLsbD_setWidth, decide_eq_true (by omega), Bool.true_and, hbit _ (by omega),
        Nat.min_eq_right (a := i) (by omega)]

theorem bfiW_bits (a b d : Word) (i : Nat) (hi : i < 32) : (bfiW a b d).getLsbD i =
    if fieldPosOf b ≤ i ∧ i < fieldPosOf b + fieldLenOf b then a.getLsbD (i - fieldPosOf b) else d.getLsbD i := by
  rw [bfiW, maskOf_getLsbD _ _ hi, bitOf_toNat, bitOf_toNat, fieldPos_eq, fieldLen_eq]
  simp

/-! ## Conditions (R37, R38) -/

theorem condI_iff (c : Cond) (a b : Word) : condI c a b = true ↔ condHolds c a b := by
  cases c <;> simp [condI, condHolds, BitVec.slt_iff_toInt_lt, BitVec.sle_iff_toInt_le, BitVec.ult_iff_lt, BitVec.ule_iff_le,
    BitVec.lt_def, BitVec.le_def]

theorem condS_iff (c : SCond) (a b : DWord) : condS c a b = true ↔ scondHolds c a b := by
  cases c <;> simp [condS, scondHolds, BitVec.slt_iff_toInt_lt, BitVec.sle_iff_toInt_le, BitVec.ult_iff_lt, BitVec.ule_iff_le,
    BitVec.lt_def, BitVec.le_def]

end Sys2Proof.Machine

/-! PROOFS. Integer, bitfield, move and predicate members of a lane (O1; 02 R30, R187, 05 R86-R95): each is one of the shapes of a
lane instruction, over a function whose value is known. -/

namespace Sys2Proof.Machine

open Sys2Proof Sys2Proof.Machine Sys2Proof.Claims

/-! ## Two operands -/

/-- A two-operand member writes a function of its operands. -/
theorem exec_intOp {c : VReg → VReg → BOp → Instr} {P : Op2} (h : IntOp c P) :
    ∃ f : Word → Word → Word, (∀ d a b s, exec (c d a b) s = s.lane2 d a b f) ∧ ∀ x y, P x y (f x y) := by
  cases h with
  | iadd => exact ⟨_, fun _ _ _ _ => rfl, fun _ _ => rfl⟩
  | isub => exact ⟨_, fun _ _ _ _ => rfl, fun _ _ => rfl⟩
  | iadds => exact ⟨_, fun _ _ _ _ => rfl, iaddsW_value⟩
  | iaddsn => exact ⟨_, fun _ _ _ _ => rfl, iaddsnW_value⟩
  | imul => exact ⟨_, fun _ _ _ _ => rfl, fun _ _ => rfl⟩
  | imulh => exact ⟨_, fun _ _ _ _ => rfl, imulhW_value⟩
  | imulhn => exact ⟨_, fun _ _ _ _ => rfl, imulhnW_value⟩
  | imin => exact ⟨_, fun _ _ _ _ => rfl, value_smaller BitVec.toInt⟩
  | imax => exact ⟨_, fun _ _ _ _ => rfl, value_larger BitVec.toInt⟩
  | iminn => exact ⟨_, fun _ _ _ _ => rfl, value_smaller BitVec.toNat⟩
  | imaxn => exact ⟨_, fun _ _ _ _ => rfl, value_larger BitVec.toNat⟩
  | iabsd => exact ⟨_, fun _ _ _ _ => rfl, iabsdW_value⟩
  | and => exact ⟨_, fun _ _ _ _ => rfl, fun _ _ => rfl⟩
  | or => exact ⟨_, fun _ _ _ _ => rfl, fun _ _ => rfl⟩
  | xor => exact ⟨_, fun _ _ _ _ => rfl, fun _ _ => rfl⟩
  | andn => exact ⟨_, fun _ _ _ _ => rfl, fun _ _ => rfl⟩
  | shl => exact ⟨_, fun _ _ _ _ => rfl, fun x y => getLsbD_shiftUp x y.toNat⟩
  | shr => exact ⟨_, fun _ _ _ _ => rfl, fun x y i _ => getLsbD_shiftDown x y.toNat i⟩
  | sar => exact ⟨_, fun _ _ _ _ => rfl, fun x y => getLsbD_shiftSigned x y.toNat⟩
  | rotl => exact ⟨_, fun _ _ _ _ => rfl, fun x y => getLsbD_rotateUp x y.toNat⟩
  | bfe => exact ⟨_, fun _ _ _ _ => rfl, bfeW_bits⟩
  | bfen => exact ⟨_, fun _ _ _ _ => rfl, bfenW_bits⟩

/-- An LI form writes a function of its source and its immediate, extended as its row says. -/
theorem exec_intImm {c : VReg → VReg → BitVec 8 → Instr} {e : BitVec 8 → Word} {P : Op2} (h : IntImm c e P) :
    ∃ f : Word → Word → Word, (∀ d a i s, exec (c d a i) s = s.lane1 d a fun x => f x (e i)) ∧
      ∀ x y, P x y (f x y) := by
  cases h with
  | iadd => exact ⟨_, fun _ _ _ _ => rfl, fun _ _ => rfl⟩
  | isub => exact ⟨_, fun _ _ _ _ => rfl, fun _ _ => rfl⟩
  | iadds => exact ⟨_, fun _ _ _ _ => rfl, iaddsW_value⟩
  | iaddsn => exact ⟨_, fun _ _ _ _ => rfl, iaddsnW_value⟩
  | imul => exact ⟨_, fun _ _ _ _ => rfl, fun _ _ => rfl⟩
  | imin => exact ⟨_, fun _ _ _ _ => rfl, value_smaller BitVec.toInt⟩
  | imax => exact ⟨_, fun _ _ _ _ => rfl, value_larger BitVec.toInt⟩
  | iminn => exact ⟨_, fun _ _ _ _ => rfl, value_smaller BitVec.toNat⟩
  | imaxn => exact ⟨_, fun _ _ _ _ => rfl, value_larger BitVec.toNat⟩
  | and => exact ⟨_, fun _ _ _ _ => rfl, fun _ _ => rfl⟩
  | or => exact ⟨_, fun _ _ _ _ => rfl, fun _ _ => rfl⟩
  | xor => exact ⟨_, fun _ _ _ _ => rfl, fun _ _ => rfl⟩
  | andn => exact ⟨_, fun _ _ _ _ => rfl, fun _ _ => rfl⟩
  | shl => exact ⟨_, fun _ _ _ _ => rfl, fun x y => getLsbD_shiftUp x y.toNat⟩
  | shr => exact ⟨_, fun _ _ _ _ => rfl, fun x y i _ => getLsbD_shiftDown x y.toNat i⟩
  | sar => exact ⟨_, fun _ _ _ _ => rfl, fun x y => getLsbD_shiftSigned x y.toNat⟩
  | rotl => exact ⟨_, fun _ _ _ _ => rfl, fun x y => getLsbD_rotateUp x y.toNat⟩

theorem integerMembersWriteTheirResult : IntegerMembersWriteTheirResult := by
  refine ⟨fun c P h d a b s hb => ?_, fun c e P h d a i s hb => ?_⟩
  · obtain ⟨f, he, hf⟩ := exec_intOp h
    obtain ⟨u, hu, heffect⟩ := s.lane2_word d a b f P hb hf
    exact ⟨u, (he d a b s).trans hu, heffect⟩
  · obtain ⟨f, he, hf⟩ := exec_intImm h
    obtain ⟨u, hu, heffect⟩ := s.lane1_word d a (fun x => f x (e i)) (fun x => P x (e i)) hb fun x => hf x (e i)
    exact ⟨u, (he d a i s).trans hu, heffect⟩

/-! ## Other members that write one register -/

theorem toNat_moviImm (h : Bool) (i : BitVec 16) :
    (i.setWidth 32 <<< (16 * b2n h)).toNat = i.toNat * if h then 65536 else 1 := by
  have hi := i.isLt
  cases h <;> simp [b2n, BitVec.toNat_shiftLeft, Nat.shiftLeft_eq] <;> omega

/-- `movk` puts its immediate into one half and keeps the other (R93). -/
theorem halves_movkImm (h : Bool) (i : BitVec 16) (x : Word) :
    (if h then i ++ x.extractLsb' 0 16 else x.extractLsb' 16 16 ++ i : BitVec 32).extractLsb' (if h then 16 else 0) 16 = i ∧
    (if h then i ++ x.extractLsb' 0 16 else x.extractLsb' 16 16 ++ i : BitVec 32).extractLsb' (if h then 0 else 16) 16 =
      x.extractLsb' (if h then 0 else 16) 16 := by
  cases h
  · exact ⟨BitVec.extractLsb'_append_eq_right, BitVec.extractLsb'_append_eq_left⟩
  · exact ⟨BitVec.extractLsb'_append_eq_left, BitVec.extractLsb'_append_eq_right⟩

/-- Each member that writes one register writes the word of its row. -/
theorem laneWord_completes {i : Instr} {rd : List Opnd} {d : VReg} {P : State → Nat → Word → Prop} (h : LaneWord i rd d P)
    (s : State) (hb : s.blocked s.part rd [.v d 1] = none) :
    Completes i s fun u => ChangesOnly [.vec] (s.consume s.part rd) u ∧ VecResult s u s.part d 1 fun L _ x => P s L x := by
  cases h with
  | popc d a => exact s.laneOp_word _ d (fun t L => popcW (t.rv L a)) _ hb fun L _ => by simpa using popcW_value (s.rv L a)
  | clz d a => exact s.laneOp_word _ d (fun t L => clzW (t.rv L a)) _ hb fun L _ => by simpa using clzW_run (s.rv L a)
  | clzSgn d a => exact s.laneOp_word _ d (fun t L => clzSgnW (t.rv L a)) _ hb fun L _ => by simpa using clzSgnW_run (s.rv L a)
  | brev d a => exact s.laneOp_word _ d (fun t L => brevW (t.rv L a)) _ hb fun L _ => by simpa using brevW_bits (s.rv L a)
  | mov d a => exact s.laneOp_word _ d (fun t L => t.rv L a) _ hb fun L _ => by simp
  | movs d b => exact s.laneOp_word _ d (fun t _ => (t.rs b).setWidth 32) _ hb fun L _ => by simp [BitVec.setWidth_eq_extractLsb']
  | bfi d a b =>
    exact s.laneOp_word _ d (fun t L => bfiW (t.rv L a) (t.rb L b) (t.rv L d)) _ hb fun L _ => by
      simpa using bfiW_bits (s.rv L a) (s.rb L b) (s.rv L d)
  | imuladd d a b c => exact s.laneOp_word _ d (fun t L => t.rv L a * t.rv L b + t.rv L (cReg c)) _ hb fun L _ => by simp [cReg]
  | itadd d a b c => exact s.laneOp_word _ d (fun t L => t.rv L a + t.rv L b + t.rv L (cReg c)) _ hb fun L _ => by simp [cReg]
  | vsel d a b n p =>
    exact s.laneOp_word _ d (fun t L => if t.rp L p != n then t.rv L a else t.rv L b) _ hb fun L _ => by simp
  | movi d h i => exact s.laneOp_word _ d (fun _ _ => i.setWidth 32 <<< (16 * b2n h)) _ hb fun _ _ => toNat_moviImm h i
  | movk d h i =>
    exact s.laneOp_word _ d (fun t L => if h then i ++ (t.rv L d).extractLsb' 0 16 else (t.rv L d).extractLsb' 16 16 ++ i) _ hb
      fun L _ => by simpa using halves_movkImm h i (s.rv L d)
  | movsx d i =>
    exact s.laneOp_word _ d (fun _ _ => sx16 i) _ hb fun _ _ => BitVec.toInt_signExtend_of_le (by decide)
  | p2v d =>
    exact s.laneOp_word _ d (fun t L => maskOf fun i => decide (i < 8) && t.rp L i) _ hb fun L _ i hi => by
      rw [maskOf_getLsbD _ _ hi, State.consume_rp]

/-- The words of a pair, low word first (R35). -/
theorem words_rv2 (s : State) (L r : Nat) :
    (s.rv2 L r).setWidth 32 = s.rv L r ∧ (s.rv2 L r >>> 32).setWidth 32 = s.rv L (r + 1) :=
  ⟨BitVec.setWidth_append_eq_right, BitVec.setWidth_ushiftRight_eq_extractLsb.trans BitVec.extractLsb'_append_eq_left⟩

/-- `mov.b64` copies both registers of a pair (R35, R88). -/
theorem movB64_completes (d a : VReg) (s : State) (hb : s.blocked s.part [.v a 2] [.v d 2] = none) :
    Completes (.movB64 d a) s fun u => ChangesOnly [.vec] (s.consume s.part [.v a 2]) u ∧
      VecResult s u s.part d 2 fun L i x => x = s.rv L (a.val + i) :=
  s.laneOp_pair _ d (fun t L => t.rv2 L a) _ hb fun L _ => by simpa using words_rv2 s L a

theorem laneMovesAndFieldsWriteTheirResult : LaneMovesAndFieldsWriteTheirResult :=
  ⟨fun _ _ _ _ h => laneWord_completes h, movB64_completes⟩

/-! ## Lane predicates -/

/-- `plop` writes its function of the two predicates, each inverted or not (R94). -/
theorem plop_completes (d : PReg) (o : Fin 8) (x : Bool) (a : PReg) (y : Bool) (b : PReg) (s : State)
    (hb : s.blocked s.part [.p a, .p b] [.p d] = none) :
    Completes (.plop d o x a y b) s fun u => ChangesOnly [.pred] (s.consume s.part [.p a, .p b]) u ∧
      PredResult s u s.part d fun L r => r = predOp o (xor (s.rp L a) x) (xor (s.rp L b) y) :=
  s.laneOp_pred _ d (fun t L => predOp o (t.rp L a != x) (t.rp L b != y)) _ hb fun L _ => by simp

/-- Each member that writes a lane predicate writes the bit of its row. -/
theorem lanePred_completes {i : Instr} {rd : List Opnd} {p : PReg} {P : State → Nat → Bool → Prop} (h : LanePred i rd p P)
    (s : State) (hb : s.blocked s.part rd [.p p] = none) :
    Completes i s fun u => ChangesOnly [.pred] (s.consume s.part rd) u ∧ PredResult s u s.part p (P s) := by
  cases h with
  | icmp c p a b => exact s.laneOp_pred _ p (fun t L => condI c (t.rv L a) (t.rb L b)) _ hb fun L _ => by simp
  | icmpImm c p a i => exact s.laneOp_pred _ p (fun t L => condI c (t.rv L a) (sx8 i)) _ hb fun L _ => by simp [sx8]
  | and _ x a y b => exact plop_completes p 0 x a y b s hb
  | or _ x a y b => exact plop_completes p 1 x a y b s hb
  | xor _ x a y b => exact plop_completes p 2 x a y b s hb
  | mov _ x a y b => exact plop_completes p 3 x a y b s hb
  | v2p p a b => exact s.laneOp_pred _ p (fun t L => bitOf (t.rv L a).toNat b) _ hb fun L _ => by simp [bitOf_toNat]

theorem lanePredicateMembersWriteTheirBit : LanePredicateMembersWriteTheirBit :=
  ⟨fun _ _ _ _ h => lanePred_completes h, condI_iff⟩

/-- Settles O1: each row is a shape of lane instruction over a function of the row's value. -/
theorem integerAndMoveMembersWriteTheirResult : Obligations.IntegerAndMoveMembersWriteTheirResult :=
  ⟨integerMembersWriteTheirResult, laneMovesAndFieldsWriteTheirResult, lanePredicateMembersWriteTheirBit⟩

end Sys2Proof.Machine

/-! PROOFS. Uniform members (O7, O55; 02 R33, 05 R96-R102): with no vector operand nothing is consumed, so that a member whose
guard holds writes its register or its predicates alone. -/

namespace Sys2Proof.Machine

open Sys2Proof Sys2Proof.Machine Sys2Proof.Claims

/-! ## Uniform operations (R96) -/

section
variable {s : State} {rd wr : List Opnd}

/-- Uniform operands consume no hold entry (R238). -/
theorem consume_noVector {T : Mask} (h : s.regsOf T rd = []) : s.consume T rd = s := by
  simp [State.consume, h]

/-- A guarded member whose guard holds is the member without a guard (R33). -/
theorem guardedOp_holds {g : QGuard} (hg : GuardHolds s g) (f : State → State) : s.guardedOp g rd wr f = s.uniOp rd wr f :=
  if_pos (holds_iff.2 hg)

theorem uniOp_noVector (hrd : s.regsOf 1 rd = []) (hb : s.blocked 1 rd wr = none) (f : State → State) :
    s.uniOp rd wr f = .next (f s).advance := by
  rw [State.uniOp_ready _ _ _ _ hb, consume_noVector hrd]

/-- A member that writes a uniform register. -/
theorem uniOp_writes (hrd : s.regsOf 1 rd = []) {d : SReg} (hb : s.blocked 1 rd [.s d 1] = none) (f : State → DWord) :
    ∃ u, (s.uniOp rd [.s d 1] fun t => t.ws d (f t)) = .next u.advance ∧ ChangesOnly [.uni] s u ∧ UniResult s u d (f s) :=
  ⟨_, uniOp_noVector hrd hb _, s.ws_only d (f s), s.ws_result d (f s)⟩

/-- The same under a guard that holds. -/
theorem guardedOp_writes {g : QGuard} (hg : GuardHolds s g) (hrd : s.regsOf 1 rd = []) {d : SReg}
    (hb : s.blocked 1 rd [.s d 1] = none) (f : State → DWord) :
    ∃ u, (s.guardedOp g rd [.s d 1] fun t => t.ws d (f t)) = .next u.advance ∧ ChangesOnly [.uni] s u ∧
      UniResult s u d (f s) := by
  rw [guardedOp_holds hg]
  exact uniOp_writes hrd hb f

/-- A write of one uniform predicate. -/
theorem rq_wq (q r : Nat) (b : Bool) (hr : r < 8) : (s.wq q b).rq r = if r = q then b else s.rq r := by
  have hbit : (BitVec.ofNat 8 (2 ^ q)).getLsbD r = decide (r = q) := by
    simp only [BitVec.getLsbD_ofNat, Nat.testBit_two_pow, hr, decide_true, Bool.true_and, eq_comm]
  cases b with
  | false =>
    refine (BitVec.getLsbD_and ..).trans ?_
    rw [BitVec.getLsbD_not, hbit]
    by_cases h : r = q <;> simp [h, hr, State.rq]
  | true =>
    refine (BitVec.getLsbD_or ..).trans ?_
    rw [hbit]
    by_cases h : r = q <;> simp [h, State.rq]

theorem wq_result (q : QReg) {b : Bool} {p : Prop} (h : b = true ↔ p) : QResult s (s.wq q b) q p := by
  refine ⟨?_, fun r hr hne => ?_⟩
  · rw [rq_wq _ _ _ q.isLt, if_pos rfl, h]
  · rw [rq_wq _ _ _ hr, if_neg hne]

/-- A member that writes a uniform predicate. -/
theorem uniOp_writesPred (hrd : s.regsOf 1 rd = []) (hb : s.blocked 1 rd [] = none) {q : QReg} {f : State → Bool} {p : Prop}
    (h : f s = true ↔ p) :
    ∃ u, (s.uniOp rd [] fun t => t.wq q (f t)) = .next u.advance ∧ ChangesOnly [.upred] s u ∧ QResult s u q p :=
  ⟨_, uniOp_noVector hrd hb _, s.wq_only q (f s), wq_result q h⟩

theorem guardedOp_writesPred {g : QGuard} (hg : GuardHolds s g) (hrd : s.regsOf 1 rd = []) (hb : s.blocked 1 rd [] = none)
    {q : QReg} {f : State → Bool} {p : Prop} (h : f s = true ↔ p) :
    ∃ u, (s.guardedOp g rd [] fun t => t.wq q (f t)) = .next u.advance ∧ ChangesOnly [.upred] s u ∧ QResult s u q p := by
  rw [guardedOp_holds hg]
  exact uniOp_writesPred hrd hb h

end

/-! ## Members that write a uniform register (R97-R99, R101, R102) -/

/-- A two-operand member writes a function of its operands. -/
theorem exec_uniOp2 {c : SReg → SReg → SReg → QGuard → Instr} {P : UOp2} (h : UniOp2 c P) :
    ∃ f : DWord → DWord → DWord, (∀ d a b g s, exec (c d a b g) s = s.uni2 d a b g f) ∧ ∀ x y, P x y (f x y) := by
  cases h with
  | sadd => exact ⟨_, fun _ _ _ _ _ => rfl, fun _ _ => rfl⟩
  | ssub => exact ⟨_, fun _ _ _ _ _ => rfl, fun _ _ => rfl⟩
  | smul => exact ⟨_, fun _ _ _ _ _ => rfl, fun _ _ => rfl⟩
  | smulh => exact ⟨_, fun _ _ _ _ _ => rfl, smulhD_value⟩
  | smin => exact ⟨_, fun _ _ _ _ _ => rfl, value_smaller BitVec.toInt⟩
  | smax => exact ⟨_, fun _ _ _ _ _ => rfl, value_larger BitVec.toInt⟩
  | sminn => exact ⟨_, fun _ _ _ _ _ => rfl, value_smaller BitVec.toNat⟩
  | smaxn => exact ⟨_, fun _ _ _ _ _ => rfl, value_larger BitVec.toNat⟩
  | sand => exact ⟨_, fun _ _ _ _ _ => rfl, fun _ _ => rfl⟩
  | sor => exact ⟨_, fun _ _ _ _ _ => rfl, fun _ _ => rfl⟩
  | sxor => exact ⟨_, fun _ _ _ _ _ => rfl, fun _ _ => rfl⟩
  | sshl => exact ⟨_, fun _ _ _ _ _ => rfl, fun x y => getLsbD_shiftUp x y.toNat⟩
  | sshr => exact ⟨_, fun _ _ _ _ _ => rfl, fun x y i _ => getLsbD_shiftDown x y.toNat i⟩
  | ssar => exact ⟨_, fun _ _ _ _ _ => rfl, fun x y => getLsbD_shiftSigned x y.toNat⟩
  | saddw => exact ⟨_, fun _ _ _ _ _ => rfl, saddwD_value⟩

/-- A UI form writes a function of its source and its immediate, extended as its row says. -/
theorem exec_uniImm {c : SReg → SReg → BitVec 10 → Instr} {e : BitVec 10 → DWord} {P : UOp2} (h : UniImm c e P) :
    ∃ f : DWord → DWord → DWord, (∀ d a i s, exec (c d a i) s = s.uniI d a (e i) f) ∧ ∀ x y, P x y (f x y) := by
  cases h with
  | sadd => exact ⟨_, fun _ _ _ _ => rfl, fun _ _ => rfl⟩
  | ssub => exact ⟨_, fun _ _ _ _ => rfl, fun _ _ => rfl⟩
  | smul => exact ⟨_, fun _ _ _ _ => rfl, fun _ _ => rfl⟩
  | smin => exact ⟨_, fun _ _ _ _ => rfl, value_smaller BitVec.toInt⟩
  | smax => exact ⟨_, fun _ _ _ _ => rfl, value_larger BitVec.toInt⟩
  | sminn => exact ⟨_, fun _ _ _ _ => rfl, value_smaller BitVec.toNat⟩
  | smaxn => exact ⟨_, fun _ _ _ _ => rfl, value_larger BitVec.toNat⟩
  | sand => exact ⟨_, fun _ _ _ _ => rfl, fun _ _ => rfl⟩
  | sor => exact ⟨_, fun _ _ _ _ => rfl, fun _ _ => rfl⟩
  | sxor => exact ⟨_, fun _ _ _ _ => rfl, fun _ _ => rfl⟩
  | sshl => exact ⟨_, fun _ _ _ _ => rfl, fun x y => getLsbD_shiftUp x y.toNat⟩
  | sshr => exact ⟨_, fun _ _ _ _ => rfl, fun x y i _ => getLsbD_shiftDown x y.toNat i⟩
  | ssar => exact ⟨_, fun _ _ _ _ => rfl, fun x y => getLsbD_shiftSigned x y.toNat⟩
  | saddw => exact ⟨_, fun _ _ _ _ => rfl, saddwD_value⟩

/-- The double word of the eight uniform predicates. -/
theorem getLsbD_q2s (s : State) (i : Nat) (hi : i < 64) : (s.grp.q.setWidth 64).getLsbD i = (decide (i < 8) && s.rq i) := by
  rw [BitVec.getLsbD_setWidth, decide_eq_true hi, Bool.true_and, State.rq]
  by_cases h : i < 8
  · rw [decide_eq_true h, Bool.true_and]
  · rw [decide_eq_false h, Bool.false_and, BitVec.getLsbD_of_ge _ _ (by omega)]

theorem spopc_value (x : DWord) : (dw (popN 64 x.toNat)).toNat = countTo 64 fun i => x.getLsbD i := by
  rw [toNat_dw (popN_le 64 _), popN_eq_countTo]

theorem sclz_run (x : DWord) : (dw (clzN 64 x.toNat)).toNat ≤ 64 ∧
    (∀ i, i < (dw (clzN 64 x.toNat)).toNat → x.getLsbD (63 - i) = false) ∧
    ((dw (clzN 64 x.toNat)).toNat < 64 → x.getLsbD (63 - (dw (clzN 64 x.toNat)).toNat) = true) := by
  have h := clzN_run 64 x
  rwa [← toNat_dw h.1] at h

/-- Each guarded member of one operand or none writes the double word of its row. -/
theorem uniOne_completes {c : QGuard → Instr} {rd : List Opnd} {d : SReg} {P : State → DWord → Prop} (h : UniOne c rd d P)
    {g : QGuard} {s : State} (hg : GuardHolds s g) (hb : s.blocked 1 rd [.s d 1] = none) :
    Completes (c g) s fun u => ChangesOnly [.uni] s u ∧ ∃ x, P s x ∧ UniResult s u d x := by
  cases h with
  | smov d a =>
    obtain ⟨u, hu, honly, hres⟩ := guardedOp_writes hg rfl hb fun t => t.rs a
    exact ⟨u, hu, honly, _, rfl, hres⟩
  | spopc d a =>
    obtain ⟨u, hu, honly, hres⟩ := guardedOp_writes hg rfl hb fun t => dw (popN 64 (t.rs a).toNat)
    exact ⟨u, hu, honly, _, spopc_value (s.rs a), hres⟩
  | sclz d a =>
    obtain ⟨u, hu, honly, hres⟩ := guardedOp_writes hg rfl hb fun t => dw (clzN 64 (t.rs a).toNat)
    exact ⟨u, hu, honly, _, sclz_run (s.rs a), hres⟩
  | q2s d =>
    obtain ⟨u, hu, honly, hres⟩ := guardedOp_writes hg rfl hb fun t => t.grp.q.setWidth 64
    exact ⟨u, hu, honly, _, getLsbD_q2s s, hres⟩

theorem toNat_smoviImm (h : Fin 4) (i : BitVec 16) :
    (i.setWidth 64 <<< (16 * h.val) : DWord).toNat = i.toNat * 2 ^ (16 * h.val) := by
  have hi := i.isLt
  fin_cases h <;> simp [BitVec.toNat_shiftLeft, Nat.shiftLeft_eq] <;> omega

/-- `smovk` puts its immediate into one quarter and keeps the others (R102). -/
theorem quarters_smovkImm (h : Fin 4) (i : BitVec 16) (x : DWord) (j : Nat) (hj : j < 4) :
    ((x &&& ~~~ (0xFFFF#64 <<< (16 * h.val))) ||| (i.setWidth 64 <<< (16 * h.val))).extractLsb' (16 * j) 16 =
      if j = h.val then i else x.extractLsb' (16 * j) 16 := by
  have hones : 0xFFFF#64 = (BitVec.allOnes 16).setWidth 64 := rfl
  have hh := h.isLt
  refine BitVec.eq_of_getLsbD_eq fun k hk => ?_
  simp only [hones, BitVec.getLsbD_extractLsb', BitVec.getLsbD_or, BitVec.getLsbD_and, BitVec.getLsbD_not,
    BitVec.getLsbD_shiftLeft, BitVec.getLsbD_setWidth, BitVec.getLsbD_allOnes, decide_eq_true hk,
    decide_eq_true (show 16 * j + k < 64 by omega), decide_eq_true (show 16 * j + k - 16 * h.val < 64 by omega), Bool.true_and]
  rcases Nat.lt_trichotomy j h.val with hlt | heq | hgt
  · rw [decide_eq_true (show 16 * j + k < 16 * h.val by omega), if_neg (by omega)]
    simp [hk]
  · rw [decide_eq_false (show ¬ 16 * j + k < 16 * h.val by omega), if_pos heq, show 16 * j + k - 16 * h.val = k by omega]
    simp [hk]
  · rw [decide_eq_false (show ¬ 16 * j + k - 16 * h.val < 16 by omega), if_neg (by omega),
      BitVec.getLsbD_of_ge i _ (by omega)]
    simp [hk]

/-- Each member without a guard writes the double word of its row. -/
theorem uniFree_completes {i : Instr} {rd : List Opnd} {d : SReg} {P : State → DWord → Prop} (h : UniFree i rd d P)
    {s : State} (hb : s.blocked 1 rd [.s d 1] = none) :
    Completes i s fun u => ChangesOnly [.uni] s u ∧ ∃ x, P s x ∧ UniResult s u d x := by
  cases h with
  | ssel d a b q n =>
    obtain ⟨u, hu, honly, hres⟩ := uniOp_writes rfl hb fun t => if t.rq q != n then t.rs a else t.rs b
    exact ⟨u, hu, honly, _, rfl, hres⟩
  | smovi d h i =>
    obtain ⟨u, hu, honly, hres⟩ := uniOp_writes rfl hb fun _ => i.setWidth 64 <<< (16 * h.val)
    exact ⟨u, hu, honly, _, toNat_smoviImm h i, hres⟩
  | smovk d h i =>
    obtain ⟨u, hu, honly, hres⟩ := uniOp_writes rfl hb fun t =>
      (t.rs d &&& ~~~ (0xFFFF#64 <<< (16 * h.val))) ||| (i.setWidth 64 <<< (16 * h.val))
    exact ⟨u, hu, honly, _, quarters_smovkImm h i (s.rs d), hres⟩
  | smovsx d i =>
    obtain ⟨u, hu, honly, hres⟩ := uniOp_writes rfl hb fun _ => sx16d i
    exact ⟨u, hu, honly, _, BitVec.toInt_signExtend_of_le (by decide), hres⟩
  | sadr d i =>
    obtain ⟨u, hu, honly, hres⟩ := uniOp_writes rfl hb fun t => t.clauseAddr + 32 * sx16d i
    exact ⟨u, hu, honly, _, rfl, hres⟩

theorem uniformMembersWriteTheirResult : UniformMembersWriteTheirResult := by
  refine ⟨fun c P h d a b g s hg hb => ?_, fun c e P h d a i s hb => ?_, fun c rd d P h g s hg hb => uniOne_completes h hg hb,
    fun i rd d P h s hb => uniFree_completes h hb⟩
  · obtain ⟨f, he, hf⟩ := exec_uniOp2 h
    obtain ⟨u, hu, honly, hres⟩ := guardedOp_writes hg rfl hb fun t => f (t.rs a) (t.rs b)
    exact ⟨u, (he d a b g s).trans hu, honly, _, hf _ _, hres⟩
  · obtain ⟨f, he, hf⟩ := exec_uniImm h
    obtain ⟨u, hu, honly, hres⟩ := uniOp_writes rfl hb fun t => f (t.rs a) (e i)
    exact ⟨u, (he d a i s).trans hu, honly, _, hf _ _, hres⟩

/-! ## Members that write uniform predicates (R98, R101) -/

/-- `qlop` writes its function of the two predicates, each inverted or not (R101). -/
theorem qlop_completes {d : QReg} {o : Fin 4} {x : Bool} {a : QReg} {y : Bool} {b : QReg} {g : QGuard} {s : State} {p : Prop}
    (hg : GuardHolds s g) (hb : s.blocked 1 [] [] = none) (h : predOp o (xor (s.rq a) x) (xor (s.rq b) y) = true ↔ p) :
    Completes (.qlop d o x a y b g) s fun u => ChangesOnly [.upred] s u ∧ QResult s u d p :=
  guardedOp_writesPred hg rfl hb h

/-- Each member that writes a uniform predicate writes the truth of its row. -/
theorem uniPred_completes {c : QGuard → Instr} {rd : List Opnd} {q : QReg} {P : State → Prop} (h : UniPred c rd q P)
    {g : QGuard} {s : State} (hg : GuardHolds s g) (hb : s.blocked 1 rd [] = none) :
    Completes (c g) s fun u => ChangesOnly [.upred] s u ∧ QResult s u q (P s) := by
  cases h with
  | ssetp c q a b => exact guardedOp_writesPred hg rfl hb (condS_iff c (s.rs a) (s.rs b))
  | and _ x a y b => exact qlop_completes hg hb (Bool.and_eq_true_iff)
  | or _ x a y b => exact qlop_completes hg hb (Bool.or_eq_true_iff)
  | xor _ x a y b => exact qlop_completes hg hb bne_iff_ne
  | mov _ x a y b => exact qlop_completes hg hb Iff.rfl

/-- `s2q` writes the eight uniform predicates (R101). -/
theorem s2q_completes {a : SReg} {g : QGuard} {s : State} (hg : GuardHolds s g) (hb : s.blocked 1 [.s a 1] [] = none) :
    Completes (.s2q a g) s fun u => ChangesOnly [.upred] s u ∧ ∀ i, i < 8 → u.rq i = (s.rs a).getLsbD i :=
  ⟨_, (guardedOp_holds hg _).trans (uniOp_noVector rfl hb _), rfl, fun i hi => by simp [State.rq, hi]⟩

/-- The immediate form of `ssetp` compares with its immediate sign-extended (R98). -/
theorem ssetpImm_completes {c : SCond} {q : QReg} {a : SReg} {i : BitVec 10} {s : State} (hb : s.blocked 1 [.s a 1] [] = none) :
    Completes (.ssetpImm c q a i) s fun u => ChangesOnly [.upred] s u ∧
      QResult s u q (scondHolds c (s.rs a) (i.signExtend 64)) :=
  uniOp_writesPred (f := fun t => condS c (t.rs a) (sx10 i)) rfl hb (condS_iff c (s.rs a) (sx10 i))

theorem uniformPredicateMembersWriteTheirBit : UniformPredicateMembersWriteTheirBit :=
  ⟨fun _ _ _ _ h _ _ => uniPred_completes h, fun _ _ _ _ _ => ssetpImm_completes, fun _ _ _ => s2q_completes⟩

/-- Settles O7: each row is a uniform operation over a function of the row's value. -/
theorem uniformMembersWriteTheirRegister : Obligations.UniformMembersWriteTheirRegister :=
  ⟨uniformMembersWriteTheirResult, uniformPredicateMembersWriteTheirBit⟩

end Sys2Proof.Machine

/-! PROOFS. Copies between register files and counts of a uniform register (O54, O55, O56; 02 R33, R39, R40, R51, 05 R89, R99,
R100): results, and the words that decode to them. -/

namespace Sys2Proof.Machine

open Sys2Proof Sys2Proof.Machine Sys2Proof.Claims

/-! ## Words -/

/-- A row that refuses a word for no operand fault is an illegal instruction (R39). -/
theorem decode_illegal {w : Nat} (hrow : decodeRow w = .error .illegalInstruction) (hf : operandFault w = false) :
    decode w = .error .illegalInstruction := by
  simp [decode, checkRow, hrow, hf]

/-- Only rows of a few codes hold operand faults: none of the words of one other code does. -/
theorem operandFault_other {w q : Nat} (hw : w / 4194304 = q)
    (hq : q / 64 % 16 ≠ 4 ∧ q ≠ 53 ∧ q ≠ 918 ∧ q ≠ 919 ∧ q ≠ 834) : operandFault w = false := by
  have hclass : w / 268435456 = q / 64 := class_of_div (m := 64) rfl hw
  simp [operandFault, hclass, hw, hq]

theorem guardOf?_guardBits {w : Nat} (h : GuardLegal w) : guardOf? (w / 2 % 8) (w % 2) = some (guardBits w) := by
  unfold guardOf? guardBits
  by_cases hq : w / 2 % 8 = 7
  · rw [if_pos hq, if_pos (h hq), if_pos hq]
  · rw [if_neg hq, if_neg hq]

/-- A guarded row of two registers with a field m that must be zero. -/
theorem decode_guardedPair {w : Nat} {m : Prop} [Decidable m] {c : SReg → SReg → QGuard → Instr}
    (hc : ∀ d a g, (c d a g).wf = true) (hf : operandFault w = false)
    (hrow : decodeRow w = if m then orElse (guardOf? (w / 2 % 8) (w % 2)) .illegalInstruction fun g =>
      .ok (c (Fin.ofNat 64 (w / 65536)) (Fin.ofNat 64 (w / 1024)) g) else .error .illegalInstruction) :
    (¬ m → decode w = .error .illegalInstruction) ∧
    (m → GuardLegal w → decode w = .ok (c (Fin.ofNat 64 (w / 65536)) (Fin.ofNat 64 (w / 1024)) (guardBits w))) := by
  refine ⟨fun hm => decode_illegal (by rw [hrow, if_neg hm]) hf, fun hm hg => decode_eq_ok.2 ⟨?_, hc _ _ _⟩⟩
  rw [hrow, if_pos hm, guardOf?_guardBits hg]
  rfl

/-! ## `movs` (R89) -/

theorem movs_completes (d : VReg) (b : SReg) (s : State) (hb : s.blocked s.part [.s b 1] [.v d 1] = none) :
    Completes (.movs d b) s fun u => ChangesOnly [.vec] s u ∧
      VecResult s u s.part d 1 fun _ _ x => x = (s.rs b).extractLsb' 0 32 := by
  have h := laneWord_completes (.movs d b) s hb
  rwa [consume_noVector rfl] at h

theorem decodeRow_movs {w : Nat} (h : w / 4194304 = 53) : decodeRow w =
    if w % 2 = 1 ∧ w / 128 % 256 = 0 then .ok (.movs (Fin.ofNat 128 (w / 32768)) (Fin.ofNat 64 (w / 2)))
    else .error .illegalInstruction := by
  rw [decodeRow_LR (class_of_div (m := 64) rfl h), decodeLR, h]
  rfl

/-- A word of `movs` whose fault is in A is an illegal instruction, one with A zero an illegal operand (R40). -/
theorem operandFault_movs {w : Nat} (h : w / 4194304 = 53) : operandFault w = (w / 256 % 128 == 0) := by
  have hclass : w / 268435456 = 0 := class_of_div (m := 64) rfl h
  simp [operandFault, hclass, h]

theorem decode_movs_refused {w : Nat} (h : w / 4194304 = 53) (hbad : ¬ (w % 2 = 1 ∧ w / 128 % 256 = 0)) :
    decode w = .error (if w / 256 % 128 = 0 then .illegalOperand else .illegalInstruction) := by
  rw [decode, decodeRow_movs h, if_neg hbad, checkRow, operandFault_movs h]
  by_cases h0 : w / 256 % 128 = 0 <;> simp [h0]

theorem decode_movsImm {w : Nat} (h : w / 4194304 = 117) : decode w = .error .illegalInstruction := by
  refine decode_illegal ?_ (operandFault_other h (by decide))
  rw [decodeRow_LI (class_of_div (m := 64) rfl h), decodeLI, h]
  rfl

/-- Settles O54: a row of the lane moves; a word is refused by its A field before its B operand. -/
theorem movsCopiesAUniformRegister : Obligations.MovsCopiesAUniformRegister := by
  refine ⟨movs_completes, fun w => ⟨fun (h : w / 4194304 = 53) =>
    ⟨fun (hA : w / 256 % 128 ≠ 0) => ?_, fun (hA : w / 256 % 128 = 0) hB => ?_, fun hA hBS hB => ?_⟩, decode_movsImm⟩⟩
  · rw [decode_movs_refused h (by omega), if_neg hA]
  · rw [decode_movs_refused h (by omega), if_pos hA]
  · refine ⟨Fin.ofNat 128 (w / 32768), Fin.ofNat 64 (w / 2), rfl, rfl, decode_eq_ok.2 ⟨?_, rfl⟩⟩
    rw [decodeRow_movs h, if_pos (by omega)]

/-! ## `smov`, `spopc` and `sclz` (R99) -/

theorem smov_completes {d a : SReg} {g : QGuard} {s : State} (hg : GuardHolds s g) (hb : s.blocked 1 [.s a 1] [.s d 1] = none) :
    Completes (.smov d a g) s fun u => ChangesOnly [.uni] s u ∧ UniResult s u d (s.rs a) :=
  guardedOp_writes hg rfl hb fun t => t.rs a

theorem spopc_completes {d a : SReg} {g : QGuard} {s : State} (hg : GuardHolds s g) (hb : s.blocked 1 [.s a 1] [.s d 1] = none) :
    Completes (.spopc d a g) s fun u => ChangesOnly [.uni] s u ∧
      UniResult s u d (dw (countTo 64 fun i => (s.rs a).getLsbD i)) := by
  rw [← popN_eq_countTo]
  exact guardedOp_writes hg rfl hb fun t => dw (popN 64 (t.rs a).toNat)

/-- Of a double word that is 0 every bit is a leading zero. -/
theorem clzN_zero {x : DWord} (h : x = 0) : clzN 64 x.toNat = 64 := by
  obtain ⟨hle, -, htop⟩ := clzN_run 64 x
  by_contra hne
  have hbit := htop (by omega)
  rw [h] at hbit
  simp at hbit

theorem sclz_completes {d a : SReg} {g : QGuard} {s : State} (hg : GuardHolds s g) (hb : s.blocked 1 [.s a 1] [.s d 1] = none) :
    Completes (.sclz d a g) s fun u => ChangesOnly [.uni] s u ∧ ∃ n, n ≤ 64 ∧ UniResult s u d (dw n) ∧
      (∀ i, i < n → (s.rs a).getLsbD (63 - i) = false) ∧ (n < 64 → (s.rs a).getLsbD (63 - n) = true) ∧
      (s.rs a = 0 → n = 64) := by
  obtain ⟨u, hu, honly, hres⟩ := guardedOp_writes hg rfl hb fun t => dw (clzN 64 (t.rs a).toNat)
  obtain ⟨hle, hzeros, htop⟩ := clzN_run 64 (s.rs a)
  exact ⟨u, hu, honly, _, hle, hres, hzeros, htop, clzN_zero⟩

/-- The words of one of these members: function code and constructor. -/
theorem decode_uniCopy {w fn : Nat} {c : SReg → SReg → QGuard → Instr} (hw : w / 4194304 = 512 + fn) (hfn : fn < 64)
    (hc : ∀ d a g, (c d a g).wf = true)
    (hrow : decodeUR w = if w / 16 % 64 = 0 then orElse (guardOf? (w / 2 % 8) (w % 2)) .illegalInstruction fun g =>
      .ok (c (Fin.ofNat 64 (w / 65536)) (Fin.ofNat 64 (w / 1024)) g) else .error .illegalInstruction) :
    (w / 16 % 64 ≠ 0 → decode w = .error .illegalInstruction) ∧
    (w / 16 % 64 = 0 → GuardLegal w →
      decode w = .ok (c (Fin.ofNat 64 (w / 65536)) (Fin.ofNat 64 (w / 1024)) (guardBits w))) :=
  decode_guardedPair hc (operandFault_other hw (by omega))
    ((decodeRow_UR (by omega)).trans hrow)

/-- Settles O55: rows of the uniform operations; their words are rows of UR. -/
theorem uniformCopyAndCounts : Obligations.UniformCopyAndCounts := by
  refine ⟨fun d a g s hg hb => ⟨smov_completes hg hb, spopc_completes hg hb, sclz_completes hg hb⟩,
    fun d a g s hg => ⟨?_, ?_, ?_⟩, fun w fn hclass hfn hrow => ?_⟩
  · exact failedGuardHasNoEffect _ (.one _ _ _ _ (.smov d a)) g s hg
  · exact failedGuardHasNoEffect _ (.one _ _ _ _ (.spopc d a)) g s hg
  · exact failedGuardHasNoEffect _ (.one _ _ _ _ (.sclz d a)) g s hg
  · have hw : w / 4194304 = 512 + fn := by omega
    rcases hrow with rfl | rfl | rfl
    · obtain ⟨hbad, hok⟩ := decode_uniCopy (c := .smov) hw (by decide) (fun _ _ _ => rfl) (by rw [decodeUR, hw]; rfl)
      exact ⟨hbad, fun hB hg => ⟨_, _, finOfNat_eq_iff.1 rfl, finOfNat_eq_iff.1 rfl, fun _ => hok hB hg, nofun, nofun⟩⟩
    · obtain ⟨hbad, hok⟩ := decode_uniCopy (c := .spopc) hw (by decide) (fun _ _ _ => rfl) (by rw [decodeUR, hw]; rfl)
      exact ⟨hbad, fun hB hg => ⟨_, _, finOfNat_eq_iff.1 rfl, finOfNat_eq_iff.1 rfl, nofun, fun _ => hok hB hg, nofun⟩⟩
    · obtain ⟨hbad, hok⟩ := decode_uniCopy (c := .sclz) hw (by decide) (fun _ _ _ => rfl) (by rw [decodeUR, hw]; rfl)
      exact ⟨hbad, fun hB hg => ⟨_, _, finOfNat_eq_iff.1 rfl, finOfNat_eq_iff.1 rfl, nofun, nofun, fun _ => hok hB hg⟩⟩

/-! ## `sgetv` (R100) -/

/-- The lowest lane of a mask is the one with none below it. -/
theorem lowest_eq {m : Mask} {L : Nat} (hm : inM m L = true) (hmin : ∀ M, M < L → inM m M = false) : lowest m = L := by
  have h0 : m ≠ 0 := by
    rintro rfl
    simp [inM] at hm
  obtain ⟨-, hlow, hbelow⟩ := lowest_spec h0
  rcases Nat.lt_trichotomy (lowest m) L with h | h | h
  · simp [hmin _ h] at hlow
  · exact h
  · simp [hbelow _ h] at hm

section
variable {d a : SReg} {x : Bool} {g : QGuard} {s : State} (hg : GuardHolds s g)
include hg

/-- With no lane on the path, `sgetv` writes 0. -/
theorem sgetv_noLane (hp : s.onPath = 0) (hb : s.blocked 1 [] [.s d 1] = none) :
    Completes (.sgetv d a x g) s fun u => ChangesOnly [.uni] s u ∧ UniResult s u d 0 := by
  obtain ⟨u, hu, heffect⟩ := uniOp_writes rfl hb fun _ => 0
  refine ⟨u, ?_, heffect⟩
  rw [exec_sgetv, execSgetv, if_pos (holds_iff.2 hg), if_pos hp]
  exact hu

/-- `sgetv` reads its register in the lowest lane on the path. -/
theorem sgetv_lowest {L : Nat} (hm : inM s.onPath L = true) (hmin : ∀ M, M < L → inM s.onPath M = false)
    (hb : s.blocked (BitVec.ofNat 32 (2 ^ L)) [.v (a.val + 64 * b2n x) 1] [.s d 1] = none) :
    Completes (.sgetv d a x g) s fun u =>
      ChangesOnly [.uni] (s.consume (BitVec.ofNat 32 (2 ^ L)) [.v (a.val + 64 * b2n x) 1]) u ∧
      UniResult s u d ((s.rv L (a.val + 64 * b2n x)).setWidth 64) := by
  have hp : s.onPath ≠ 0 := by
    intro h
    simp [h, inM] at hm
  let t := s.consume (BitVec.ofNat 32 (2 ^ L)) [.v (a.val + 64 * b2n x) 1]
  refine ⟨t.ws d ((t.rv L (a.val + 64 * b2n x)).setWidth 64), ?_, t.ws_only _ _, ?_⟩
  · rw [exec_sgetv, execSgetv, if_pos (holds_iff.2 hg), if_neg hp]
    simp only [lowest_eq hm hmin]
    exact s.withOperands_ready _ _ _ _ hb
  · have h := t.ws_result d ((t.rv L (a.val + 64 * b2n x)).setWidth 64)
    simpa [t, UniResult] using h

end

theorem sgetv_notAllocated {sh : Shape} {d a : SReg} {x : Bool} {g : QGuard} (h : sh.vregs ≤ a.val + 64 * x.toNat) :
    ¬ Allocated sh (.sgetv d a x g) := by
  rintro ⟨hv, -, -⟩
  have := hv (64 * x.toNat + a.val) (List.mem_singleton.2 rfl)
  omega

/-- Settles O56: the lowest lane of the path is read; the word names its register by A and B[0]. -/
theorem lowestLaneIsRead : Obligations.LowestLaneIsRead := by
  refine ⟨fun d a x g s hg => ⟨sgetv_noLane hg, fun L _ hm hmin hb => sgetv_lowest hg hm hmin hb⟩,
    fun w sh (hw : w / 4194304 = 532) hlt => ?_⟩
  have hrow : decodeRow w = decodeUR w := decodeRow_UR (class_of_div (m := 64) rfl hw)
  obtain ⟨hbad, hok⟩ := decode_guardedPair (m := w / 32 % 32 = 0) (c := fun d a => .sgetv d a (w / 16 % 2 == 1))
    (fun _ _ _ => rfl) (operandFault_other hw (by decide)) (by rw [hrow, decodeUR, hw]; rfl)
  refine ⟨hbad, fun hB hg => ⟨Fin.ofNat 64 (w / 65536), Fin.ofNat 64 (w / 1024), rfl, rfl, hok hB hg, fun hsh => ?_⟩⟩
  have hword : (BitVec.ofNat 32 w).toNat = w := Nat.mod_eq_of_lt hlt
  have hbit : (w / 16 % 2 == 1).toNat = w / 16 % 2 := bit_eq_iff.1 rfl
  refine slotInstr_notAllocated (by rw [hword, class_of_div (m := 64) rfl hw]; rfl) (by rw [hword]; exact hok hB hg)
    (sgetv_notAllocated ?_)
  rw [hbit]
  exact hsh

end Sys2Proof.Machine

/-! PROOFS. Encodings and their bounds (04 R64-R75, 06 R107, R109, R111): a rounded value has no more bits than its format, a
selection is one of its operands, a packed word is its two halves. -/

namespace Sys2Proof.Machine

open Sys2Proof Sys2Proof.Machine Sys2Proof.Claims

/-! ## Encodings of a format (R64, R65, R72) -/

section
variable {F : Fmt}

theorem Fmt.signed_lt {neg : Bool} {x : Nat} (h : x < F.signBit) : F.signed neg x < 2 * F.signBit := by
  cases neg <;> simp [Fmt.signed] <;> omega

theorem Fmt.infinity_lt : F.infinity < F.signBit := by
  have hw := Nat.two_pow_pos F.w
  have he := Nat.two_pow_pos F.ew
  rw [Fmt.infinity, Fmt.signBit, Nat.pow_add, Nat.mul_comm (2 ^ F.w)]
  exact Nat.mul_lt_mul_of_pos_right (by omega) hw

theorem Fmt.maxEnc_lt : F.maxEnc < F.signBit := by
  have hs : 0 < F.signBit := Nat.two_pow_pos _
  unfold Fmt.maxEnc
  split
  · exact Nat.lt_of_le_of_lt (Nat.sub_le ..) F.infinity_lt
  · exact Nat.sub_lt hs (by decide)

theorem Fmt.nan_lt (hw : 0 < F.w) : F.nan < F.signBit := by
  unfold Fmt.nan
  split
  · have hq : 2 ^ (F.w - 1) < 2 ^ F.w := Nat.pow_lt_pow_right (by decide) (by omega)
    have hmul : 2 ^ F.ew * 2 ^ F.w = (2 ^ F.ew - 1) * 2 ^ F.w + 2 ^ F.w := by
      rw [← Nat.succ_mul, Nat.succ_eq_add_one, Nat.sub_add_cancel (Nat.two_pow_pos _)]
    rw [Fmt.signBit, Nat.pow_add, Nat.mul_comm (2 ^ F.w), hmul]
    omega
  · exact Nat.sub_lt (Nat.two_pow_pos _) (by decide)

/-- A rounded value has the bits of its format and no more. -/
theorem roundFp_lt (hw : 0 < F.w) (m : Rnd) (sat : Bool) (x : Val) (iv : Bool) : (roundFp F m sat x iv).1 < 2 * F.signBit := by
  have hnan := F.nan_lt hw
  have hmax := F.maxEnc_lt
  have hinf := F.infinity_lt
  have hzero : 0 < F.signBit := Nat.two_pow_pos _
  unfold roundFp
  split
  case h_1 => omega
  case h_2 neg =>
    split_ifs
    exacts [F.signed_lt hmax, F.signed_lt hinf, F.signed_lt hnan]
  case h_3 => exact F.signed_lt hzero
  case h_4 neg k e sticky hne =>
    dsimp only
    split_ifs <;> exact F.signed_lt (by omega)

end

/-! ## Selections (R107, R67) -/

/-- A conditional is one of its branches, and which one says whether its condition holds. -/
theorem ite_selects {α : Type} {c : Prop} [Decidable c] (a b : α) :
    ((if c then b else a) = a ∧ ¬ c) ∨ ((if c then b else a) = b ∧ c) := by
  by_cases h : c
  · exact .inr ⟨if_pos h, h⟩
  · exact .inl ⟨if_neg h, h⟩

theorem minF_least (F : Fmt) (a b : Nat) : Least F a b (minF F a b) := by
  unfold Least minF
  generalize F.val a = p
  generalize F.val b = q
  cases p with
  | nan => cases q <;> rfl
  | inf | num =>
    cases q with
    | nan => rfl
    | inf | num => exact ite_selects a b

theorem maxF_greatest (F : Fmt) (a b : Nat) : Greatest F a b (maxF F a b) := by
  unfold Greatest maxF
  generalize F.val a = p
  generalize F.val b = q
  cases p with
  | nan => cases q <;> rfl
  | inf | num =>
    cases q with
    | nan => rfl
    | inf | num => exact ite_selects a b

theorem eq_or_of_least {F : Fmt} {a b x : Nat} (h : Least F a b x) : x = F.nan ∨ x = a ∨ x = b := by
  unfold Least at h
  split at h
  · exact .inl h
  · exact .inr (.inr h)
  · exact .inr (.inl h)
  · exact .inr (h.imp And.left And.left)

theorem eq_or_of_greatest {F : Fmt} {a b x : Nat} (h : Greatest F a b x) : x = F.nan ∨ x = a ∨ x = b := by
  unfold Greatest at h
  split at h
  · exact .inl h
  · exact .inr (.inr h)
  · exact .inr (.inl h)
  · exact .inr (h.imp And.left And.left)

theorem daz_lt (s : State) (w : Word) : s.daz w < 2 ^ 32 := by
  have := w.isLt
  unfold State.daz daz32
  split <;> omega

/-! ## Comparisons (R37, R109) -/

theorem cmpVal_eq_none {z : Bool} {p q : Val} : cmpVal z p q = none ↔ p = .nan ∨ q = .nan := by
  cases p <;> cases q <;> simp [cmpVal]

theorem condF_iff (F : Fmt) (c : FCond) (a b : Nat) : condF F c a b = true ↔ CompareHolds c (F.val a) (F.val b) := by
  have hnan := @cmpVal_eq_none false (F.val a) (F.val b)
  unfold condF
  generalize F.val a = p at *
  generalize F.val b = q at *
  rcases h : cmpVal false p q with _ | o
  · have hunordered : p = .nan ∨ q = .nan := hnan.1 h
    have hnot : ¬ (p ≠ .nan ∧ q ≠ .nan) := fun hn => hunordered.elim hn.1 hn.2
    cases c <;> simp only [CompareHolds, h, hunordered, hnot] <;> simp
  · have hordered : ¬ (p = .nan ∨ q = .nan) := fun hn => by simp [hnan.2 hn] at h
    cases c <;> cases o <;> simp [CompareHolds, h, not_or.1 hordered]

/-! ## Packed halves (R111) -/

/-- The halves of a word as numbers, the low one first. -/
theorem half_toNat (w : Word) :
    (w.extractLsb' (16 * 0) 16).toNat = w.toNat % 65536 ∧ (w.extractLsb' (16 * 1) 16).toNat = w.toNat / 65536 % 65536 := by
  simp [BitVec.extractLsb'_toNat, Nat.shiftRight_eq_div_pow]

/-- A half result reads back from the packed word. -/
theorem extract_packed {r : Nat → Nat} (hr : ∀ k, r k < 65536) {k : Nat} (hk : k < 2) :
    ((BitVec.ofNat 32 (r 1 * 65536 + r 0)).extractLsb' (16 * k) 16).toNat = r k := by
  have h0 := hr 0
  have h1 := hr 1
  have hval : (BitVec.ofNat 32 (r 1 * 65536 + r 0)).toNat = r 1 * 65536 + r 0 := by
    rw [BitVec.toNat_ofNat]
    omega
  obtain ⟨hlow, hhigh⟩ := half_toNat (BitVec.ofNat 32 (r 1 * 65536 + r 0))
  obtain rfl | rfl : k = 0 ∨ k = 1 := by omega
  · rw [hlow, hval]
    omega
  · rw [hhigh, hval]
    omega

/-- A packed operation is the operation on each of its halves. -/
theorem halves_eq (F : Fmt) (f : Fmt → Nat → Nat → Nat × FFlags) (a b : Word) (r : Nat → Nat × FFlags)
    (hr : ∀ k, r k = f F (a.extractLsb' (16 * k) 16).toNat (b.extractLsb' (16 * k) 16).toNat) :
    halves F f a.toNat b.toNat = ((r 1).1 * 65536 + (r 0).1, (r 0).2 ||| (r 1).2) := by
  obtain ⟨ha0, ha1⟩ := half_toNat a
  obtain ⟨hb0, hb1⟩ := half_toNat b
  rw [hr, hr, ha0, ha1, hb0, hb1]
  rfl

theorem fmaHalves_eq (F : Fmt) (a b c : Word) (r : Nat → Nat × FFlags)
    (hr : ∀ k, r k = fmaF F (a.extractLsb' (16 * k) 16).toNat (b.extractLsb' (16 * k) 16).toNat
      (c.extractLsb' (16 * k) 16).toNat) :
    fmaHalves F a.toNat b.toNat c.toNat = ((r 1).1 * 65536 + (r 0).1, (r 0).2 ||| (r 1).2) := by
  obtain ⟨ha0, ha1⟩ := half_toNat a
  obtain ⟨hb0, hb1⟩ := half_toNat b
  obtain ⟨hc0, hc1⟩ := half_toNat c
  rw [hr, hr, ha0, ha1, hb0, hb1, hc0, hc1]
  rfl

/-- A half kind has sixteen bits. -/
theorem hk_signBit (s : State) : 0 < s.hk.w ∧ s.hk.signBit = 2 ^ 15 := by
  unfold State.hk halfKind
  split <;> decide

end Sys2Proof.Machine

/-! PROOFS. Floating-point members that are not counted (O2; 06 R103-R112): each is a lane instruction that writes its results and
raises the flags of its lanes. -/

namespace Sys2Proof.Machine

open Sys2Proof Sys2Proof.Machine Sys2Proof.Claims

/-! ## Flags of the lanes (R103, R104) -/

theorem getLsbD_foldl_or {α : Type} {w : Nat} (l : List α) (f : α → BitVec w) (x : BitVec w) (j : Nat) :
    (l.foldl (fun m a => m ||| f a) x).getLsbD j = true ↔ x.getLsbD j = true ∨ ∃ a, a ∈ l ∧ (f a).getLsbD j = true := by
  induction l generalizing x with
  | nil => simp
  | cons a l ih => simp [ih, or_assoc]

theorem getLsbD_orLanes (T : Mask) (f : Nat → FFlags) (j : Nat) :
    (orLanes T f).getLsbD j = true ↔ ∃ L, L < 32 ∧ inM T L = true ∧ (f L).getLsbD j = true := by
  simp [orLanes, getLsbD_foldl_or, mem_lanesOf, and_assoc]

theorem Group.onSlot_congr {g : Group} {k : Bool} {f h : Slot → Slot} (e : f (g.slot k) = h (g.slot k)) :
    g.onSlot k f = g.onSlot k h := by
  cases k
  · exact congrArg (fun x => { g with slot0 := x }) e
  · exact congrArg (fun x => { g with slot1 := x }) e

theorem Group.onSlot_fixed {g : Group} {k : Bool} {f : Slot → Slot} (e : f (g.slot k) = g.slot k) : g.onSlot k f = g := by
  cases k
  · exact congrArg (fun x => { g with slot0 := x }) e
  · exact congrArg (fun x => { g with slot1 := x }) e

section
variable {s t : State}

@[simp] theorem State.raiseFlags_slot (f : FFlags) : (s.raiseFlags f).slot = { s.slot with fpstat := s.slot.fpstat ||| f } :=
  s.slot_onSlot _

theorem State.raiseFlags_zero : s.raiseFlags 0 = s := by
  have hg : (s.grp.onSlot s.k fun x => { x with fpstat := x.fpstat ||| 0 }) = s.grp := Group.onSlot_fixed (by simp)
  exact congrArg (fun g => { s with grp := g }) hg

@[simp] theorem State.raiseFlags_vec (f : FFlags) : (s.raiseFlags f).vec = s.vec := by
  funext key
  simp [State.vec]

/-- Flags raised beside a change of part p, where p holds nothing of the slot. -/
theorem changesOnly_raiseFlags {p : Part} (h : ChangesOnly [p] s t) (f : FFlags)
    (hp : p.copy (t.raiseFlags f) s = p.copy t s) : ChangesOnly [p, .fpstat] s (t.raiseFlags f) := by
  have hs : p.copy (t.raiseFlags f) s = t := hp.trans h.symm
  have hslot : t.raiseFlags f = Part.fpstat.copy (t.raiseFlags f) t := by
    have hg : (t.grp.onSlot t.k fun x => { x with fpstat := x.fpstat ||| f }) =
        t.grp.onSlot t.k fun x => { x with fpstat := (t.raiseFlags f).slot.fpstat } :=
      Group.onSlot_congr (by rw [State.raiseFlags_slot]; rfl)
    exact congrArg (fun g => { t with grp := g }) hg
  rw [ChangesOnly, List.foldl_cons, hs]
  exact hslot

theorem flagsRaised_of_slot {u : State} {T : Mask} {r : Nat → FFlags} (h : u.slot.fpstat = s.slot.fpstat ||| orLanes T r) :
    FlagsRaised s u T r := fun j _ => by
  rw [h, BitVec.getLsbD_or, Bool.or_eq_true, getLsbD_orLanes]

end

/-! ## What does not change when hold entries are consumed -/

@[simp] theorem State.consume_daz (s : State) (T : Mask) (rd : List Opnd) : (s.consume T rd).daz = s.daz := by
  funext w
  rw [State.daz, State.consume_slot, State.daz]

@[simp] theorem State.consume_hk (s : State) (T : Mask) (rd : List Opnd) : (s.consume T rd).hk = s.hk := by
  rw [State.hk, State.consume_slot, State.hk]

/-! ## Lane instructions that raise flags (R103) -/

section
variable {s : State} {rd : List Opnd} {d : VReg}

/-- What a float member leaves: n registers of results and the flags of its lanes. -/
def FloatEffect (s : State) (rd : List Opnd) (d n : Nat) (r : Nat → Nat × FFlags) (u : State) : Prop :=
  ChangesOnly [.vec, .fpstat] (s.consume s.part rd) u ∧ VecResult s u s.part d n (fun L i x => x = wordAt (r L).1 i) ∧
    FlagsRaised s u s.part fun L => (r L).2

/-- Results are written and flags raised from them. -/
theorem floatEffect_of_write {n : Nat} {t : State} {r : Nat → Nat × FFlags} (honly : ChangesOnly [.vec] (s.consume s.part rd) t)
    (hres : VecResult s t s.part d n fun L i x => x = wordAt (r L).1 i) :
    FloatEffect s rd d n r (t.raiseFlags (orLanes s.part fun L => (r L).2)) := by
  refine ⟨changesOnly_raiseFlags honly _ (by simp [Part.copy]), ?_, flagsRaised_of_slot ?_⟩
  · simpa [VecResult] using hres
  · have hslot : t.slot = s.slot := (congrArg State.slot honly).trans (s.consume_slot s.part rd)
    rw [State.raiseFlags_slot, hslot]

theorem wordAt_zero (x : Nat) : wordAt x 0 = BitVec.ofNat 32 x := by simp [wordAt]

/-- The words of a double word. -/
theorem wordAt_dword (x : Nat) :
    (BitVec.ofNat 64 x).setWidth 32 = wordAt x 0 ∧ (BitVec.ofNat 64 x >>> 32).setWidth 32 = wordAt x 1 := by
  constructor <;> apply BitVec.eq_of_toNat_eq
  · simp [wordAt]
  · simp [wordAt, Nat.shiftRight_eq_div_pow]
    omega

/-- A float member that writes one register. -/
theorem laneOp_wf {R : State → Nat → Nat × FFlags} {r : Nat → Nat × FFlags} (hb : s.blocked s.part rd [.v d 1] = none)
    (hR : ∀ L, R (s.consume s.part rd) L = r L) :
    ∃ u, (s.laneOp rd [.v d 1] fun t => t.wf d (R t)) = .next u.advance ∧ FloatEffect s rd d 1 r u := by
  let t := s.consume s.part rd
  have hr : R t = r := funext hR
  refine ⟨(t.wv s.part d fun L => wordOf (r L)).raiseFlags (orLanes s.part fun L => (r L).2), ?_,
    floatEffect_of_write (t.wv_only ..) ?_⟩
  · rw [State.laneOp_ready _ _ _ _ hb, ← hr]
    simp [State.wf, t]
  · refine (VecResult.rebase s (t.wv_result ..) (by simp [t]) (by simp [t])).mono fun L _ i hi x hx => ?_
    obtain rfl : i = 0 := by omega
    rw [hx, wordAt_zero, wordOf]

/-- A float member that writes a pair. -/
theorem laneOp_wf2 {R : State → Nat → Nat × FFlags} {r : Nat → Nat × FFlags} (hb : s.blocked s.part rd [.v d 2] = none)
    (hR : ∀ L, R (s.consume s.part rd) L = r L) :
    ∃ u, (s.laneOp rd [.v d 2] fun t => t.wf2 d (R t)) = .next u.advance ∧ FloatEffect s rd d 2 r u := by
  let t := s.consume s.part rd
  have hr : R t = r := funext hR
  refine ⟨(t.wv2 s.part d fun L => dwordOf (r L)).raiseFlags (orLanes s.part fun L => (r L).2), ?_,
    floatEffect_of_write (t.wv2_only ..) ?_⟩
  · rw [State.laneOp_ready _ _ _ _ hb, ← hr]
    simp [State.wf2, t]
  · have hpair := t.wv2_result s.part d (fun L => dwordOf (r L)) fun L hL hT => by
      simpa [t] using s.ready_pair s.part rd [.v d 2] d hb (by simp) L hL hT
    refine (VecResult.rebase s hpair (by simp [t]) (by simp [t])).mono fun L _ i hi x hx => ?_
    obtain ⟨hlow, hhigh⟩ := wordAt_dword (r L).1
    obtain rfl | rfl : i = 0 ∨ i = 1 := by omega
    · exact hx.trans hlow
    · exact hx.trans hhigh

end

/-! ## Shapes of float members (R106, R111, R112) -/

section
variable {s : State} {d a : VReg} {b : BOp}

theorem float2_effect (f : Nat → Nat → Nat × FFlags) (hb : s.blocked s.part [.v a 1, opndB 1 b] [.v d 1] = none) :
    ∃ u, s.float2 d a b f = .next u.advance ∧
      FloatEffect s [.v a 1, opndB 1 b] d 1 (fun L => f (s.daz (s.rv L a)) (s.daz (s.rb L b))) u :=
  laneOp_wf (R := fun t L => f (t.daz (t.rv L a)) (t.daz (t.rb L b))) hb fun L => by simp

theorem half2_effect (f : Fmt → Nat → Nat → Nat × FFlags) (hb : s.blocked s.part [.v a 1, opndB 1 b] [.v d 1] = none)
    {r : Nat → Nat × FFlags} (hr : ∀ L, halves s.hk f (s.rv L a).toNat (s.rb L b).toNat = r L) :
    ∃ u, s.half2 d a b f = .next u.advance ∧ FloatEffect s [.v a 1, opndB 1 b] d 1 r u :=
  laneOp_wf (R := fun t L => halves t.hk f (t.rv L a).toNat (t.rb L b).toNat) hb fun L => by simpa using hr L

theorem double2_effect (f : Nat → Nat → Nat × FFlags) (hb : s.blocked s.part [.v a 2, opndB 2 b] [.v d 2] = none) :
    ∃ u, s.double2 d a b f = .next u.advance ∧
      FloatEffect s [.v a 2, opndB 2 b] d 2 (fun L => f (s.rv2 L a).toNat (s.rb2 L b).toNat) u :=
  laneOp_wf2 (R := fun t L => f (t.rv2 L a).toNat (t.rb2 L b).toNat) hb fun L => by simp

end

/-! ## Arithmetic (R106, R108, R111, R112) -/

/-- The packed results of two halves rounded on their own. -/
theorem halves_bothHalves (s : State) (f : Val → Val → Val × Bool) (a b : Word) :
    halves s.hk (binF · f) a.toNat b.toNat = bothHalves s fun k => f (half s k a) (half s k b) :=
  halves_eq s.hk (binF · f) a b (fun k => nearest s.hk (f (half s k a) (half s k b))) fun _ => rfl

theorem fmaHalves_bothHalves (s : State) (a b c : Word) :
    fmaHalves s.hk a.toNat b.toNat c.toNat = bothHalves s fun k => fmaVal (half s k a) (half s k b) (half s k c) :=
  fmaHalves_eq s.hk a b c (fun k => nearest s.hk (fmaVal (half s k a) (half s k b) (half s k c))) fun _ => rfl

/-- The result of an arithmetic member that writes one register is the rounding of its exact value. -/
theorem floatWord_completes {i : Instr} {rd : List Opnd} {d : VReg} {r : State → Nat → Nat × FFlags} (h : FloatWord i rd d r)
    (s : State) (hb : s.blocked s.part rd [.v d 1] = none) : Completes i s (FloatEffect s rd d 1 (r s)) := by
  cases h with
  | fadd d a b => exact float2_effect (addF f32) hb
  | fsub d a b => exact float2_effect (subF f32) hb
  | fmul d a b => exact float2_effect (mulF f32) hb
  | fscl d a b =>
    exact laneOp_wf (R := fun t L => sclF (t.daz (t.rv L a)) (t.rb L b).toInt) hb fun L => by
      rw [State.consume_daz, State.consume_rv, State.consume_rb]
      rfl
  | ffmad d a b =>
    exact laneOp_wf (R := fun t L => fmaF f32 (t.daz (t.rv L a)) (t.daz (t.rb L b)) (t.daz (t.rv L d))) hb fun L => by
      rw [State.consume_daz, State.consume_rv, State.consume_rb]
      rfl
  | ffmadc d a b c =>
    exact laneOp_wf (R := fun t L => fmaF f32 (t.daz (t.rv L a)) (t.daz (t.rv L b)) (t.daz (t.rv L (cReg c)))) hb fun L => by
      rw [State.consume_daz, State.consume_rv]
      rfl
  | hadd2 d a b => exact half2_effect addF hb fun _ => halves_bothHalves s addVal _ _
  | hmul2 d a b => exact half2_effect mulF hb fun _ => halves_bothHalves s mulVal _ _
  | hfmad2 d a b =>
    exact laneOp_wf (R := fun t L => fmaHalves t.hk (t.rv L a).toNat (t.rb L b).toNat (t.rv L d).toNat) hb fun L => by
      rw [State.consume_hk, State.consume_rv, State.consume_rb]
      exact fmaHalves_bothHalves s _ _ _

/-- The same of a member on pairs. -/
theorem floatPair_completes {i : Instr} {rd : List Opnd} {d : VReg} {r : State → Nat → Nat × FFlags} (h : FloatPair i rd d r)
    (s : State) (hb : s.blocked s.part rd [.v d 2] = none) : Completes i s (FloatEffect s rd d 2 (r s)) := by
  cases h with
  | dadd d a b => exact double2_effect (addF f64) hb
  | dmul d a b => exact double2_effect (mulF f64) hb
  | dfmad d a b =>
    exact laneOp_wf2 (R := fun t L => fmaF f64 (t.rv2 L a).toNat (t.rb2 L b).toNat (t.rv2 L d).toNat) hb fun L => by
      rw [State.consume_rv2, State.consume_rb2]
      rfl

theorem floatArithmeticRoundsOnce : FloatArithmeticRoundsOnce := by
  refine ⟨fun i rd d r h s hb => ?_, fun i rd d r h s hb => ?_⟩
  · obtain ⟨u, hu, honly, hres, hflags⟩ := floatWord_completes h s hb
    refine ⟨u, hu, honly, hres.mono fun L _ i hi x hx => ?_, hflags⟩
    obtain rfl : i = 0 := by omega
    exact hx
  · exact floatPair_completes h s hb

/-! ## Selections and sign changes (R93, R107, R110, R111) -/

theorem fpstat_of_noFlag {s u : State} {T : Mask} (h : FlagsRaised s u T fun _ => 0) : u.slot.fpstat = s.slot.fpstat :=
  BitVec.eq_of_getLsbD_eq fun j hj => Bool.eq_iff_iff.2 (by simpa using h j hj)

/-- What a member that raises no flag leaves. -/
def MoveEffect (s : State) (rd : List Opnd) (d n : Nat) (P : Nat → Nat → Word → Prop) (u : State) : Prop :=
  ChangesOnly [.vec, .fpstat] (s.consume s.part rd) u ∧ u.slot.fpstat = s.slot.fpstat ∧ VecResult s u s.part d n P

section
variable {s u : State} {rd : List Opnd} {d n : Nat} {P : Nat → Nat → Word → Prop}

/-- A member that writes registers alone leaves FPSTAT as it was. -/
theorem moveEffect_of_write (honly : ChangesOnly [.vec] (s.consume s.part rd) u) (hres : VecResult s u s.part d n P) :
    MoveEffect s rd d n P u := by
  have hflags : ChangesOnly [.vec, .fpstat] (s.consume s.part rd) (u.raiseFlags 0) :=
    changesOnly_raiseFlags honly 0 (by rw [State.raiseFlags_zero])
  rw [State.raiseFlags_zero] at hflags
  have hslot : u.slot = s.slot := (congrArg State.slot honly).trans (s.consume_slot s.part rd)
  exact ⟨hflags, by rw [hslot], hres⟩

/-- A float member whose lanes raise nothing. -/
theorem moveEffect_of_float {r : Nat → Nat × FFlags} (h : FloatEffect s rd d n r u) (hr : ∀ L, (r L).2 = 0)
    (hP : ∀ L i, i < n → P L i (wordAt (r L).1 i)) : MoveEffect s rd d n P u := by
  obtain ⟨honly, hres, hflags⟩ := h
  rw [funext hr] at hflags
  exact ⟨honly, fpstat_of_noFlag hflags, hres.mono fun L _ i hi x hx => hx ▸ hP L i hi⟩

end

/-- A number of at most 32 bits is the first word of itself. -/
theorem toNat_wordAt {x i : Nat} (hi : i < 1) (hx : x < 2 ^ 32) : (wordAt x i).toNat = x := by
  obtain rfl : i = 0 := by omega
  rw [wordAt_zero, BitVec.toNat_ofNat, Nat.mod_eq_of_lt hx]

section
variable {s : State} {d a : VReg} {b : BOp} {Q : Fmt → Nat → Nat → Nat → Prop} {g : Fmt → Nat → Nat → Nat}
  (hQ : ∀ F x y, Q F x y (g F x y)) (hor : ∀ F x y z, Q F x y z → z = F.nan ∨ z = x ∨ z = y)
include hQ hor

/-- A selection of encodings of n bits has n bits. -/
theorem selection_lt {F : Fmt} {n x y : Nat} (hn : F.nan < n) (hx : x < n) (hy : y < n) : g F x y < n := by
  obtain h | h | h := hor F x y _ (hQ F x y) <;> omega

theorem float2_selects (hb : s.blocked s.part [.v a 1, opndB 1 b] [.v d 1] = none) :
    ∃ u, (s.float2 d a b fun x y => (g f32 x y, 0)) = .next u.advance ∧
      MoveEffect s [.v a 1, opndB 1 b] d 1 (fun L _ x => Q f32 (s.daz (s.rv L a)) (s.daz (s.rb L b)) x.toNat) u := by
  obtain ⟨u, hu, heffect⟩ := float2_effect (fun x y => (g f32 x y, 0)) hb
  refine ⟨u, hu, moveEffect_of_float heffect (fun _ => rfl) fun L i hi => ?_⟩
  rw [toNat_wordAt hi (selection_lt hQ hor (by decide) (daz_lt s _) (daz_lt s _))]
  exact hQ ..

theorem half2_selects (hb : s.blocked s.part [.v a 1, opndB 1 b] [.v d 1] = none) :
    ∃ u, (s.half2 d a b fun F x y => (g F x y, 0)) = .next u.advance ∧
      MoveEffect s [.v a 1, opndB 1 b] d 1 (fun L _ x => ∀ k, k < 2 → Q s.hk ((s.rv L a).extractLsb' (16 * k) 16).toNat
        ((s.rb L b).extractLsb' (16 * k) 16).toNat (x.extractLsb' (16 * k) 16).toNat) u := by
  obtain ⟨u, hu, heffect⟩ := half2_effect (fun F x y => (g F x y, 0)) hb fun L => halves_eq _ _ _ _ _ fun _ => rfl
  refine ⟨u, hu, moveEffect_of_float heffect (fun _ => by simp) fun L i hi k hk => ?_⟩
  have hnan : s.hk.nan < 65536 := by
    obtain ⟨hw, hsign⟩ := hk_signBit s
    have := Fmt.nan_lt hw
    omega
  obtain rfl : i = 0 := by omega
  rw [wordAt_zero, extract_packed (r := fun k => g s.hk ((s.rv L a).extractLsb' (16 * k) 16).toNat
    ((s.rb L b).extractLsb' (16 * k) 16).toNat) (fun k => selection_lt hQ hor hnan (BitVec.isLt _) (BitVec.isLt _)) hk]
  exact hQ ..

end

/-- A word function on one register that raises nothing. -/
theorem lane1_moves {s : State} {d a : VReg} (f : Word → Word) {Q : Word → Word → Prop} (hQ : ∀ x, Q x (f x))
    (hb : s.blocked s.part [.v a 1] [.v d 1] = none) : ∃ u, s.lane1 d a f = .next u.advance ∧
      MoveEffect s [.v a 1] d 1 (fun L _ x => Q (s.rv L a) x) u := by
  obtain ⟨u, hu, honly, hres⟩ := s.lane1_word d a f Q hb hQ
  exact ⟨u, hu, moveEffect_of_write honly hres⟩

/-- The words of a pair whose high word is changed. -/
theorem words_onHigh (f : Word → Word) (s : State) (L r : Nat) :
    (onHigh f (s.rv2 L r)).setWidth 32 = s.rv L r ∧ (onHigh f (s.rv2 L r) >>> 32).setWidth 32 = f (s.rv L (r + 1)) := by
  obtain ⟨hlow, hhigh⟩ := words_rv2 s L r
  rw [onHigh, hlow, hhigh]
  exact ⟨BitVec.setWidth_append_eq_right, BitVec.setWidth_ushiftRight_eq_extractLsb.trans BitVec.extractLsb'_append_eq_left⟩

/-- A word function on the high word of a pair that raises nothing. -/
theorem onHigh_moves {s : State} {d a : VReg} (f : Word → Word) {Q : Nat → Word → Word → Prop} (hlow : ∀ x, Q 0 x x)
    (hhigh : ∀ x, Q 1 x (f x)) (hb : s.blocked s.part [.v a 2] [.v d 2] = none) :
    ∃ u, (s.laneOp [.v a 2] [.v d 2] fun t => t.wv2 t.part d fun L => onHigh f (t.rv2 L a)) = .next u.advance ∧
      MoveEffect s [.v a 2] d 2 (fun L i x => Q i (s.rv L (a.val + i)) x) u := by
  obtain ⟨u, hu, honly, hres⟩ := s.laneOp_pair _ d (fun t L => onHigh f (t.rv2 L a)) (fun L i x => Q i (s.rv L (a.val + i)) x)
    hb fun L _ => by
      rw [State.consume_rv2, (words_onHigh f s L a).1, (words_onHigh f s L a).2]
      exact ⟨hlow _, hhigh _⟩
  exact ⟨u, hu, moveEffect_of_write honly hres⟩

/-- The immediate of `movh` is exact in a word (R93). -/
theorem toNat_halfImm (i : BitVec 16) : (halfImm i).toNat = (nearest f32 (f16.val i.toNat, false)).1 := by
  have hlt : exactF f32 (f16.val i.toNat) < 2 ^ 32 := roundFp_lt (F := f32) (by decide) ..
  rw [halfImm, BitVec.toNat_ofNat, Nat.mod_eq_of_lt hlt]
  rfl

/-- The masks of the sign members (R110). -/
theorem signMask_bits : (∀ j, j < 32 → (0x7FFFFFFF : Word).getLsbD j = decide (j ≠ 31)) ∧
    (∀ j, j < 32 → (0x80000000 : Word).getLsbD j = decide (j = 31)) ∧
    (∀ j, j < 32 → (0x7FFF7FFF : Word).getLsbD j = decide (j ≠ 31 ∧ j ≠ 15)) ∧
    ∀ j, j < 32 → (0x80008000 : Word).getLsbD j = decide (j = 31 ∨ j = 15) := by decide

/-- y has the bits of x at which p holds, and no other. -/
def Keeps (p : Nat → Bool) (x y : Word) : Prop := ∀ j, j < 32 → y.getLsbD j = (p j && x.getLsbD j)

/-- y is x with the bits at which p holds inverted. -/
def Flips (p : Nat → Bool) (x y : Word) : Prop := ∀ j, j < 32 → y.getLsbD j = xor (p j) (x.getLsbD j)

theorem keeps_and {m : Word} {p : Nat → Bool} (hm : ∀ j, j < 32 → m.getLsbD j = p j) (x : Word) : Keeps p x (x &&& m) :=
  fun j hj => by rw [BitVec.getLsbD_and, hm j hj, Bool.and_comm]

theorem flips_xor {m : Word} {p : Nat → Bool} (hm : ∀ j, j < 32 → m.getLsbD j = p j) (x : Word) : Flips p x (x ^^^ m) :=
  fun j hj => by rw [BitVec.getLsbD_xor, hm j hj, Bool.xor_comm]

/-- Each selection, sign change and immediate move writes what its row says and raises nothing. -/
theorem floatMove_completes {i : Instr} {rd : List Opnd} {d : VReg} {n : Nat} {P : State → Nat → Nat → Word → Prop}
    (h : FloatMove i rd d n P) (s : State) (hb : s.blocked s.part rd [.v d n] = none) :
    Completes i s (MoveEffect s rd d n (P s)) := by
  obtain ⟨habs, hneg, habs2, hneg2⟩ := signMask_bits
  cases h with
  | fmin d a b => exact float2_selects minF_least (fun _ _ _ _ => eq_or_of_least) hb
  | fmax d a b => exact float2_selects maxF_greatest (fun _ _ _ _ => eq_or_of_greatest) hb
  | hmin2 d a b => exact half2_selects minF_least (fun _ _ _ _ => eq_or_of_least) hb
  | hmax2 d a b => exact half2_selects maxF_greatest (fun _ _ _ _ => eq_or_of_greatest) hb
  | fabs d a => exact lane1_moves (Q := Keeps fun j => decide (j ≠ 31)) (· &&& 0x7FFFFFFF) (keeps_and habs) hb
  | fneg d a => exact lane1_moves (Q := Flips fun j => decide (j = 31)) (· ^^^ 0x80000000) (flips_xor hneg) hb
  | fabsH2 d a => exact lane1_moves (Q := Keeps fun j => decide (j ≠ 31 ∧ j ≠ 15)) (· &&& 0x7FFF7FFF) (keeps_and habs2) hb
  | fnegH2 d a => exact lane1_moves (Q := Flips fun j => decide (j = 31 ∨ j = 15)) (· ^^^ 0x80008000) (flips_xor hneg2) hb
  | fabsD d a =>
    exact onHigh_moves (Q := fun i => Keeps fun j => decide (¬ (i = 1 ∧ j = 31))) (· &&& 0x7FFFFFFF) (fun x j _ => by simp)
      (fun x j hj => by simpa using keeps_and habs x j hj) hb
  | fnegD d a =>
    exact onHigh_moves (Q := fun i => Flips fun j => decide (i = 1 ∧ j = 31)) (· ^^^ 0x80000000) (fun x j _ => by simp)
      (fun x j hj => by simpa using flips_xor hneg x j hj) hb
  | movh d i =>
    obtain ⟨u, hu, honly, hres⟩ := s.laneOp_word [] d (fun _ _ => halfImm i) (fun _ x => x = halfImm i) hb fun _ _ => rfl
    exact ⟨u, hu, moveEffect_of_write honly (hres.mono fun _ _ _ _ x hx => hx ▸ toNat_halfImm i)⟩

/-! ## Comparisons (R109, R112) -/

theorem floatCompare_completes {i : Instr} {rd : List Opnd} {p : PReg} {P : State → Nat → Bool → Prop}
    (h : FloatCompare i rd p P) (s : State) (hb : s.blocked s.part rd [.p p] = none) :
    Completes i s fun u => ChangesOnly [.pred] (s.consume s.part rd) u ∧ PredResult s u s.part p (P s) := by
  cases h with
  | fcmp c p a b =>
    exact s.laneOp_pred _ p (fun t L => condF f32 c (t.daz (t.rv L a)) (t.daz (t.rb L b))) _ hb fun L _ => by
      rw [State.consume_daz, State.consume_rv, State.consume_rb]
      exact condF_iff ..
  | dcmp c p a b =>
    exact s.laneOp_pred _ p (fun t L => condF f64 c (t.rv2 L a).toNat (t.rb2 L b).toNat) _ hb fun L _ => by
      rw [State.consume_rv2, State.consume_rb2]
      exact condF_iff ..

theorem floatSelectionsAndComparisonsRaiseNothing : FloatSelectionsAndComparisonsRaiseNothing :=
  ⟨fun _ _ _ _ _ h => floatMove_completes h, fun _ _ _ _ h => floatCompare_completes h⟩

/-! ## The rounding mode (R103, R110) -/

theorem withRM_mode {s : State} {m : Rnd} (hm : fmtRM s.slot.fmt = some m) (f : Rnd → Res) : s.withRM f = f m := by
  simp only [State.withRM, hm]

theorem withRM_reserved {s : State} (hm : fmtRM s.slot.fmt = none) (f : Rnd → Res) : s.withRM f = .next (s.badOperand 0) := by
  simp only [State.withRM, hm]

theorem exec_readsRM {i : Instr} (h : ReadsRM i) (s : State) : ∃ f, exec i s = s.withRM f := by
  cases h with
  | frnd | frndD => exact ⟨_, rfl⟩
  | counted m i rd d n P h => cases h <;> exact ⟨_, rfl⟩

theorem frnd_completes (d a : VReg) (s : State) (m : Rnd) (hm : fmtRM s.slot.fmt = some m)
    (hb : s.blocked s.part [.v a 1] [.v d 1] = none) :
    Completes (.frnd d a) s fun u => ChangesOnly [.vec] (s.consume s.part [.v a 1]) u ∧
      VecResult s u s.part d 1 fun L _ x => x = wordAt (rndF f32 m (s.daz (s.rv L a))) 0 := by
  obtain ⟨u, hu, heffect⟩ := s.laneOp_word _ d (fun t L => BitVec.ofNat 32 (rndF f32 m (t.daz (t.rv L a))))
    (fun L x => x = wordAt (rndF f32 m (s.daz (s.rv L a))) 0) hb fun L _ => by simp [wordAt_zero]
  exact ⟨u, ((exec_frnd).trans (withRM_mode hm _)).trans hu, heffect⟩

theorem frndD_completes (d a : VReg) (s : State) (m : Rnd) (hm : fmtRM s.slot.fmt = some m)
    (hb : s.blocked s.part [.v a 2] [.v d 2] = none) :
    Completes (.frndD d a) s fun u => ChangesOnly [.vec] (s.consume s.part [.v a 2]) u ∧
      VecResult s u s.part d 2 fun L i x => x = wordAt (rndF f64 m (s.rv2 L a).toNat) i := by
  obtain ⟨u, hu, heffect⟩ := s.laneOp_pair _ d (fun t L => BitVec.ofNat 64 (rndF f64 m (t.rv2 L a).toNat))
    (fun L i x => x = wordAt (rndF f64 m (s.rv2 L a).toNat) i) hb fun L _ => by
      rw [State.consume_rv2]
      exact wordAt_dword _
  exact ⟨u, ((exec_frndD).trans (withRM_mode hm _)).trans hu, heffect⟩

theorem roundToIntegralReadsTheMode : RoundToIntegralReadsTheMode := by
  refine ⟨frnd_completes, frndD_completes, fun i s h hm => ?_⟩
  obtain ⟨f, hf⟩ := exec_readsRM h s
  exact hf.trans (withRM_reserved hm f)

/-- Settles O2: each member is a lane instruction over the function of its row, and what reads RM asks for it first. -/
theorem floatMembersGiveTheirResult : Obligations.FloatMembersGiveTheirResult :=
  ⟨floatArithmeticRoundsOnce, floatSelectionsAndComparisonsRaiseNothing, roundToIntegralReadsTheMode⟩

end Sys2Proof.Machine

/-! PROOFS. Conversions and special functions (O3; 06 R113-R121, 02 R26, R28): each issues one operation counted by SETA, whose
values stand at different register words, so that landing it writes each of them. -/

namespace Sys2Proof.Machine

open Sys2Proof Sys2Proof.Machine Sys2Proof.Claims

/-! ## Bounds of narrow results (R74, R75, R119) -/

/-- What a fold over a list has chosen, if anything, is below a bound of the list. -/
theorem foldl_choice_lt {n : Nat} {f : Option Nat → Nat → Option Nat} (hf : ∀ b x, f b x = some x ∨ f b x = b) (l : List Nat)
    (hl : ∀ x, x ∈ l → x < n) (b : Option Nat) (hb : ∀ y, b = some y → y < n) (y : Nat) (hy : l.foldl f b = some y) : y < n := by
  induction l generalizing b with
  | nil => exact hb y hy
  | cons x l ih =>
    refine ih (fun z hz => hl z (List.mem_cons_of_mem x hz)) (f b x) (fun z hz => ?_) hy
    obtain h | h := hf b x
    · obtain rfl : x = z := Option.some.inj (h.symm.trans hz)
      exact hl x List.mem_cons_self
    · exact hb z (h.symm.trans hz)

theorem canonicalDpw_lt (u : Int) : canonicalDpw u < 256 := by
  unfold canonicalDpw
  split
  · decide
  · generalize hr : List.foldl _ _ _ = r
    cases r with
    | none => decide
    | some y =>
      refine foldl_choice_lt (fun b x => ?_) _ (fun x hx => List.mem_range.1 (List.mem_filter.1 hx).1) none (by simp) y hr
      cases b with
      | none => exact .inl rfl
      | some z => exact ite_eq_or_eq ..

theorem roundDpw_lt (m : Rnd) (x : Val) : (roundDpw m x).1 < 256 := by
  have hsat : ∀ neg : Bool, (if neg then 0x88 else 0x00) < 256 := by decide
  unfold roundDpw
  dsimp only
  split
  · exact (by decide : 0x77 < 256)
  · exact hsat _
  · split
    · exact hsat _
    · split
      · exact hsat _
      · exact canonicalDpw_lt _

theorem toNarrow_lt (nf : Nat) (m : Rnd) (sat : Bool) (sexp : Int) (x : Val) : (toNarrow nf m sat sexp x).1 < 2 ^ 8 := by
  unfold toNarrow
  dsimp only
  split
  · exact roundFp_lt (F := f8a) (by decide) ..
  · exact roundFp_lt (F := f8b) (by decide) ..
  · dsimp only
    omega
  · exact roundDpw_lt ..

theorem toNibble_lt (i4s : Bool) (m : Rnd) (sexp : Int) (x : Val) : (toNibble i4s m sexp x).1 < 2 ^ 4 := by
  unfold toNibble
  dsimp only
  omega

theorem roundFp_hk_lt (s : State) (m : Rnd) (x : Val) : (roundFp s.hk m false x).1 < 2 ^ 16 := by
  obtain ⟨hw, hsign⟩ := hk_signBit s
  have := roundFp_lt hw m false x false
  omega

/-! ## Packed results (R119) -/

/-- A field put above a number keeps the fields of the number. -/
theorem field_below (w k m v x : Nat) (h : k < m) : (2 ^ (w * m) * v + x) / 2 ^ (w * k) % 2 ^ w = x / 2 ^ (w * k) % 2 ^ w := by
  obtain ⟨j, rfl⟩ : ∃ j, m = k + 1 + j := ⟨m - k - 1, by omega⟩
  have hpow : 2 ^ (w * (k + 1 + j)) * v = 2 ^ (w * k) * (2 ^ w * (2 ^ (w * j) * v)) := by
    rw [Nat.mul_add, Nat.mul_add, Nat.mul_one, Nat.pow_add, Nat.pow_add]
    simp only [Nat.mul_assoc]
  rw [hpow, Nat.mul_add_div (Nat.two_pow_pos _), Nat.mul_add_mod]

theorem packed_fields {w n : Nat} (hn : w * n ≤ 64) (f : Nat → Nat × FFlags) (hf : ∀ k, (f k).1 < 2 ^ w) :
    (packed w n f).1.toNat < 2 ^ (w * n) ∧ ∀ k, k < n → (packed w n f).1.toNat / 2 ^ (w * k) % 2 ^ w = (f k).1 := by
  induction n with
  | zero => exact ⟨by simp [packed], by simp⟩
  | succ n ih =>
    have hle : w * n ≤ w * (n + 1) := Nat.mul_le_mul_left w (Nat.le_succ n)
    obtain ⟨hlt, hfields⟩ := ih (hle.trans hn)
    have htop : 2 ^ (w * n) * (f n).1 + 2 ^ (w * n) ≤ 2 ^ (w * (n + 1)) := by
      rw [Nat.mul_succ, Nat.pow_add, ← Nat.mul_succ]
      exact Nat.mul_le_mul_left _ (hf n)
    have hword : 2 ^ (w * (n + 1)) ≤ 2 ^ 64 := Nat.pow_le_pow_right (by decide) hn
    have hval : (packed w (n + 1) f).1.toNat = 2 ^ (w * n) * (f n).1 + (packed w n f).1.toNat := by
      have hdw : (dw ((f n).1 * 2 ^ (w * n))).toNat = 2 ^ (w * n) * (f n).1 := by
        have := Nat.two_pow_pos (w * n)
        rw [dw, BitVec.toNat_ofNat, Nat.mul_comm, Nat.mod_eq_of_lt (by omega)]
      rw [Nat.two_pow_add_eq_or_of_lt hlt, Nat.or_comm, ← hdw, ← BitVec.toNat_or]
      simp [packed, List.range_succ]
    refine ⟨by omega, fun k hk => ?_⟩
    rw [hval]
    obtain rfl | hk : k = n ∨ k < n := by omega
    · rw [Nat.mul_add_div (Nat.two_pow_pos _), Nat.div_eq_of_lt hlt, Nat.add_zero, Nat.mod_eq_of_lt (hf k)]
    · rw [field_below w k n _ _ hk, hfields k hk]

theorem packed_packs {w n : Nat} (hn : w * n ≤ 64) (f : Nat → Nat × FFlags) (hf : ∀ k, (f k).1 < 2 ^ w) :
    Packs w n f ((packed w n f).1.toNat, (packed w n f).2) := by
  obtain ⟨hlt, hfields⟩ := packed_fields hn f hf
  exact ⟨hlt, hfields, fun j _ => by simp [packed, getLsbD_foldl_or]⟩

/-! ## Register words that an operation writes (R28, R187) -/

/-- The words that a counted operation writes at its completion, with their keys. -/
def State.destVals (s : State) (T : Mask) (d n : Nat) (f : Nat → Nat → Word) : List (Nat × Word) :=
  (lanesOf T).flatMap fun L => (List.range n).map fun i => (s.vkey L (d + i), f L i)

section
variable {s : State} {T : Mask} {d n : Nat} {f : Nat → Nat → Word}

theorem mem_destVals (x : Nat × Word) :
    x ∈ s.destVals T d n f ↔ ∃ L i, L < 32 ∧ inM T L = true ∧ i < n ∧ x = (s.vkey L (d + i), f L i) := by
  simp only [State.destVals, List.mem_flatMap, mem_lanesOf, List.mem_map, List.mem_range, eq_comm (a := x)]
  grind

theorem mem_destKeys (k : Nat) : k ∈ s.destKeys T d n ↔ ∃ L i, L < 32 ∧ inM T L = true ∧ i < n ∧ k = s.vkey L (d + i) := by
  simp only [State.destKeys, List.mem_flatMap, mem_lanesOf, List.mem_map, List.mem_range, eq_comm (a := k)]
  grind

theorem destVals_keys : (s.destVals T d n f).map Prod.fst = s.destKeys T d n := by
  simp [State.destVals, State.destKeys, List.map_flatMap, Function.comp_def]

/-- The n names from d are n registers in each lane of T. -/
def DistinctNames (s : State) (T : Mask) (d n : Nat) : Prop :=
  ∀ L, L < 32 → inM T L = true → ∀ i j, i < n → j < n → s.vname L (d + i) = s.vname L (d + j) → i = j

theorem destKeys_nodup (h : DistinctNames s T d n) : (s.destKeys T d n).Nodup := by
  refine List.nodup_flatMap.2 ⟨fun L hL => ?_, ?_⟩
  · obtain ⟨hlt, hT⟩ := (mem_lanesOf T L).1 hL
    refine List.Nodup.map_on (fun i hi j hj hij => ?_) List.nodup_range
    exact h L hlt hT i j (List.mem_range.1 hi) (List.mem_range.1 hj) ((s.vkey_name ..).1 hij)
  · have hne : (lanesOf T).Pairwise (· ≠ ·) := List.nodup_range.filter _
    refine hne.imp_of_mem fun {L M} hL hM hLM k hk hk' => hLM ?_
    obtain ⟨i, -, rfl⟩ := List.mem_map.1 hk
    obtain ⟨j, -, hj⟩ := List.mem_map.1 hk'
    exact s.vkey_lane L (d + i) M (d + j) ((mem_lanesOf T L).1 hL).1 ((mem_lanesOf T M).1 hM).1 hj.symm

/-- The operands of an instruction that is not blocked name different registers. -/
theorem ready_distinctNames {rd wr : List Opnd} (h : s.blocked T rd wr = none) (hm : .v d n ∈ rd ++ wr) :
    DistinctNames s T d n := fun L hL hT i j hi hj hij => by
  have hT0 : T ≠ 0 := by
    rintro rfl
    simp [inM] at hT
  by_cases hn : 2 ≤ n
  · have hrun := fun k hk => s.badNames_run T (rd ++ wr) d n (s.ready_names T rd wr h hT0) hm hn L k hL hT hk
    rw [hrun i hi, hrun j hj] at hij
    omega
  · omega

end

/-! ## Landing (R26) -/

theorem foldl_setV (l : List (Nat × Word)) (g : Group) : ∃ t, l.foldl (fun g x => g.setV x.1 x.2) g =
    { g with v := l.foldl (fun v x => Sparse.put 0 v x.1 x.2) g.v, tags := t } := by
  induction l generalizing g with
  | nil => exact ⟨g.tags, rfl⟩
  | cons x l ih =>
    obtain ⟨t, ht⟩ := ih (g.setV x.1 x.2)
    exact ⟨t, ht⟩

/-- Operation number id of slot k, counted by SETA at a flag, that will write words and nothing else. -/
def writesWords (id flag k : Nat) (keys : List Nat) (vals : List (Nat × Word)) : Pend :=
  { id := id, setA := true, flag := flag, slot := k, vkeys := keys, vals := vals }

/-- An operation that writes words alone lands them, each at its key, and changes no other word. -/
theorem willWrite_writesWords {s : State} {T : Mask} {d n : Nat} {f : Nat → Nat → Word} (h : DistinctNames s T d n)
    (id flag k : Nat) :
    WillWrite s (writesWords id flag k (s.destKeys T d n) (s.destVals T d n f)) T d n fun L i x => x = f L i := by
  have hnodup : ((s.destVals T d n f).map Prod.fst).Nodup := destVals_keys ▸ destKeys_nodup h
  obtain ⟨t, ht⟩ := foldl_setV (s.destVals T d n f) s.grp
  have hland : s.grp.land (writesWords id flag k (s.destKeys T d n) (s.destVals T d n f)) =
      { s.grp with v := (s.destVals T d n f).foldl (fun v x => Sparse.put 0 v x.1 x.2) s.grp.v, tags := t } := ht
  rw [WillWrite, hland]
  refine ⟨⟨fun L hL hT i hi => ?_, fun key hkey => ?_⟩, rfl, rfl, rfl, mem_destKeys⟩
  · exact Sparse.get_puts_mem 0 _ Prod.fst Prod.snd s.grp.v hnodup ((mem_destVals _).2 ⟨L, i, hL, hT, hi, rfl⟩)
  · refine Sparse.get_puts_other 0 _ Prod.fst Prod.snd s.grp.v key fun x hx hxk => ?_
    obtain ⟨L, i, hL, hT, hi, rfl⟩ := (mem_destVals x).1 hx
    exact hkey L hL hT i hi hxk.symm

/-! ## Counting (R26) -/

section
variable {s u : State}

theorem Group.bump_get (g : Group) (flag : Nat) (f : Nat → Nat) (x : Nat) : Sparse.get 0 (g.bump flag f).flags x =
    if x = flag ∧ x < 12 then f (Sparse.get 0 g.flags x) else Sparse.get 0 g.flags x := by
  unfold Group.bump
  split
  · rw [Sparse.upd, Sparse.get_put]
    by_cases hx : x = flag
    · subst hx
      simp [*]
    · simp [hx]
  · rw [if_neg (by omega)]

theorem Group.bump_only (g : Group) (flag : Nat) (f : Nat → Nat) : ∃ c, g.bump flag f = { g with flags := c } := by
  unfold Group.bump
  split
  · exact ⟨_, rfl⟩
  · exact ⟨g.flags, rfl⟩

theorem State.count_only (a : Bool) (f : Pend → Pend) : ChangesOnly [.counted] s (s.count a f) := by
  obtain ⟨c, hc⟩ := s.grp.bump_only (s.flagOf a) (· + 1)
  simp only [ChangesOnly, List.foldl, Part.copy, State.count, hc]

/-- A counted operation issues with what f notes of it. -/
theorem State.count_issues (a : Bool) (f : Pend → Pend) {e : Pend}
    (he : f { id := s.dev.nextId, setA := a, flag := s.flagOf a, slot := b2n s.k } = e)
    (hid : e.id = s.dev.nextId) (ha : e.setA = a) (hflag : e.flag = s.flagOf a) (hslot : e.slot = b2n s.k) :
    Issues s (s.count a f) a e := by
  refine ⟨⟨⟨?_, ha, hflag, hslot, fun x => ?_⟩, hid⟩, rfl⟩
  · rw [← he]
    rfl
  · have hget := s.grp.bump_get (s.flagOf a) (· + 1) x
    rw [hflag]
    refine hget.trans ?_
    by_cases hx : x = s.flagOf a ∧ x < 12
    · rw [if_pos hx, decide_eq_true hx]
      rfl
    · rw [if_neg hx, decide_eq_false hx]
      rfl

theorem issues_raiseFlags {a : Bool} {e : Pend} (h : Issues s u a e) (f : FFlags) : Issues s (u.raiseFlags f) a e := by
  simpa [Issues, Issued, Counted] using h

theorem State.consume_nextId (s : State) (T : Mask) (rd : List Opnd) : (s.consume T rd).dev.nextId = s.dev.nextId :=
  congrArg (fun t => t.dev.nextId) (s.consume_only T rd)

theorem State.consume_flagOf (s : State) (T : Mask) (rd : List Opnd) (a : Bool) : (s.consume T rd).flagOf a = s.flagOf a := by
  simp only [State.flagOf, State.setA, State.setB, State.header, State.consume_slot]

theorem State.consume_counted (s : State) (T : Mask) (rd : List Opnd) :
    (s.consume T rd).grp.pend = s.grp.pend ∧ (s.consume T rd).grp.flags = s.grp.flags := by
  obtain ⟨h, d, e⟩ := s.consume_form T rd
  rw [e]
  exact ⟨rfl, rfl⟩

/-- An operation that issues once the operands are consumed issues. -/
theorem issues_of_consume {T : Mask} {rd : List Opnd} {a : Bool} {e : Pend} (h : Issues (s.consume T rd) u a e) :
    Issues s u a e := by
  obtain ⟨hpend, hflags⟩ := s.consume_counted T rd
  simpa only [Issues, Issued, Counted, State.consume_nextId, State.consume_flagOf, State.consume_k, hpend, hflags] using h

end

/-! ## Operations that write registers (R26, R28) -/

section
variable {s : State} {T : Mask} {d n : Nat} {f : Nat → Nat → Word}

theorem issueV_noLane (hT : T = 0) : s.issueV T d n f = s := if_pos hT

theorem issueV_lanes (hT : T ≠ 0) : s.issueV T d n f =
    s.count true fun e => { e with vkeys := s.destKeys T d n, vals := s.destVals T d n f } := if_neg hT

theorem issueV_only : ChangesOnly [.counted] s (s.issueV T d n f) := by
  unfold State.issueV
  split
  · rfl
  · exact s.count_only ..

theorem issueV_issues (hT : T ≠ 0) : Issues s (s.issueV T d n f) true
    (writesWords s.dev.nextId (s.flagOf true) (b2n s.k) (s.destKeys T d n) (s.destVals T d n f)) := by
  rw [issueV_lanes hT]
  exact s.count_issues true _ rfl rfl rfl rfl rfl

theorem willWrite_mono {e : Pend} {P Q : Nat → Nat → Word → Prop} (h : WillWrite s e T d n P)
    (hpq : ∀ L, L < 32 → ∀ i, i < n → ∀ x, P L i x → Q L i x) : WillWrite s e T d n Q := by
  obtain ⟨hres, hrest⟩ := h
  exact ⟨hres.mono hpq, hrest⟩

end

/-! ## Conversions (R113-R121) -/

/-- What a conversion leaves: one operation that will write n registers of results, and the flags of its lanes. -/
def ConvertEffect (s : State) (rd : List Opnd) (d n : Nat) (r : Nat → Nat × FFlags) (u : State) : Prop :=
  ChangesOnly [.counted, .fpstat] (s.consume s.part rd) u ∧ IssuesResult s u d n (fun L i x => x = wordAt (r L).1 i) ∧
    FlagsRaised s u s.part fun L => (r L).2

theorem halfOf_dw {i : Nat} (hi : i < 2) (x : Nat) : halfOf (dw x) i = wordAt x i := by
  obtain ⟨hlow, hhigh⟩ := wordAt_dword x
  obtain rfl | rfl : i = 0 ∨ i = 1 := by omega
  · exact hlow
  · exact hhigh

section
variable {s : State} {rd : List Opnd} {d n : Nat} {r : Nat → Nat × FFlags}

/-- The operation and flags of a conversion whose operands are ready. -/
theorem convertEffect_of_issueV (hb : s.blocked s.part rd [.v d n] = none) (hn : n ≤ 2) :
    ConvertEffect s rd d n r (((s.consume s.part rd).issueV s.part d n fun L i => halfOf (dw (r L).1) i).raiseFlags
      (orLanes s.part fun L => (r L).2)) := by
  let t := s.consume s.part rd
  have honly : ChangesOnly [.counted] t (t.issueV s.part d n fun L i => halfOf (dw (r L).1) i) := issueV_only
  refine ⟨changesOnly_raiseFlags honly _ (by simp [Part.copy]), ?_, flagsRaised_of_slot ?_⟩
  · unfold IssuesResult
    split
    next hT =>
      obtain ⟨hpend, hflags⟩ := s.consume_counted s.part rd
      rw [issueV_noLane hT]
      exact ⟨by simpa using hpend, by simpa using hflags⟩
    next hT =>
      refine ⟨_, issues_of_consume (issues_raiseFlags (issueV_issues hT) _), ?_⟩
      have hkeys : t.destKeys s.part d n = s.destKeys s.part d n := by simp [State.destKeys, t]
      have hvals : ∀ f, t.destVals s.part d n f = s.destVals s.part d n f := by simp [State.destVals, t]
      rw [hkeys, hvals]
      exact willWrite_mono (willWrite_writesWords (ready_distinctNames hb (by simp)) ..) fun L _ i hi x hx =>
        hx.trans (halfOf_dw (by omega) _)
  · have hslot : (t.issueV s.part d n fun L i => halfOf (dw (r L).1) i).slot = s.slot :=
      (congrArg State.slot honly).trans (s.consume_slot s.part rd)
    rw [State.raiseFlags_slot, hslot]

/-- A conversion whose operands are ready and whose flag is not full. -/
theorem convert_effect {R : State → Nat → DWord × FFlags} (hb : s.blocked s.part rd [.v d n] = none)
    (hf : s.flagFull true = false) (hn : n ≤ 2) (hR : ∀ L, R (s.consume s.part rd) L = res32 (r L)) :
    ∃ u, s.convert rd d n R = .next u.advance ∧ ConvertEffect s rd d n r u := by
  refine ⟨_, ?_, convertEffect_of_issueV hb hn⟩
  rw [State.convert, State.counted_ready _ _ _ _ _ _ hb hf, funext hR, State.consume_part]
  rfl

end

/-! ## Special functions, quotients, widening and unpacking (R113, R114, R118, R120) -/

theorem special_effect {s : State} {d a : VReg} (f : SpecialFn) (hb : s.blocked s.part [.v a 1] [.v d 1] = none)
    (hf : s.flagFull true = false) : ∃ u, s.special f d a = .next u.advance ∧
      ConvertEffect s [.v a 1] d 1 (fun L => specialF f (s.daz (s.rv L a))) u :=
  convert_effect hb hf (by decide) fun L => by rw [State.consume_daz, State.consume_rv]

@[simp] theorem State.consume_val32 (s : State) (T : Mask) (rd : List Opnd) : (s.consume T rd).val32 = s.val32 := by
  funext L r
  rw [State.val32, State.consume_daz, State.consume_rv, State.val32]

@[simp] theorem State.consume_intAt (s : State) (T : Mask) (rd : List Opnd) : (s.consume T rd).intAt = s.intAt := by
  funext L r t
  rw [State.intAt, State.consume_rv, State.consume_rv2, State.intAt]

theorem exact_completes {i : Instr} {rd : List Opnd} {d : VReg} {n : Nat} {r : State → Nat → Nat × FFlags}
    (h : Exact i rd d n r) (s : State) (hb : s.blocked s.part rd [.v d n] = none) (hf : s.flagFull true = false) :
    Completes i s (ConvertEffect s rd d n (r s)) := by
  cases h with
  | rcp d a => exact special_effect .rcp hb hf
  | rsq d a => exact special_effect .rsq hb hf
  | sqrt d a => exact special_effect .sqrt hb hf
  | ex2 d a => exact special_effect .ex2 hb hf
  | lg2 d a => exact special_effect .lg2 hb hf
  | sin d a => exact special_effect .sin hb hf
  | cos d a => exact special_effect .cos hb hf
  | tanh d a => exact special_effect .tanh hb hf
  | fdiv d a b =>
    exact convert_effect (R := fun t L => res32 (divF (t.daz (t.rv L a)) (t.daz (t.rv L b)))) hb hf (by decide) fun L => by
      rw [State.consume_daz, State.consume_rv]
  | cvtdF64 d a =>
    exact convert_effect (R := fun t L => (dw (exactF f64 (t.val32 L a)), 0)) hb hf (by decide) fun L => by
      rw [State.consume_val32]
      rfl
  | unpk d a k e =>
    exact convert_effect (R := fun t L => (dw (exactF f32 (unpackVal t.slot.fmt k e (t.rv L a).toNat)), 0)) hb hf (by decide)
      fun L => by
        rw [State.consume_slot, State.consume_rv]
        rfl

/-! ## Conversions in the mode of FMT.RM (R117-R121) -/

theorem cvtWidth_eq_64 (t : Nat) : cvtWidth t = 64 ↔ t / 2 = 1 := by
  rcases h : t / 2 with _ | _ | _ | k <;> simp [cvtWidth, h]

theorem cvtRegs_eq_words (t : Nat) : cvtRegs t = words t := if_congr (cvtWidth_eq_64 t) rfl rfl

theorem cvtRegs_le (t : Nat) : cvtRegs t ≤ 2 := by
  unfold cvtRegs
  split <;> decide

theorem intAt_eq_sourceInt (s : State) (L a t : Nat) : intVal (s.intAt L a t) = sourceInt s L a t := by
  rw [State.intAt, sourceInt]
  simp only [cvtWidth_eq_64]

/-- A double word is a number of its own. -/
theorem res32_toNat (x : DWord) (f : FFlags) : res32 (x.toNat, f) = (x, f) := by simp [res32, dw]

section
variable {s : State} {m : Rnd} {rd : List Opnd} {d n : Nat} (hm : fmtRM s.slot.fmt = some m)
  (hb : s.blocked s.part rd [.v d n] = none) (hf : s.flagFull true = false) (hn : n ≤ 2)
include hm hb hf hn

/-- A conversion that reads FMT.RM and whose results r are as P says. -/
theorem withRM_completes {i : Instr} {F : Rnd → State → Nat → DWord × FFlags} {r : Nat → Nat × FFlags}
    {P : Nat → Nat × FFlags → Prop} (hi : exec i s = s.withRM fun m => s.convert rd d n (F m))
    (hF : ∀ L, F m (s.consume s.part rd) L = res32 (r L)) (hP : ∀ L, P L (r L)) :
    Completes i s fun u => ∃ r, (∀ L, P L (r L)) ∧ ConvertEffect s rd d n r u := by
  obtain ⟨u, hu, heffect⟩ := convert_effect hb hf hn hF
  exact ⟨u, hi.trans ((withRM_mode hm _).trans hu), r, hP, heffect⟩

/-- A conversion by a function of each lane. -/
theorem withRM_rounds {i : Instr} {F : Rnd → State → Nat → DWord × FFlags} {r : Nat → Nat × FFlags}
    (hi : exec i s = s.withRM fun m => s.convert rd d n (F m)) (hF : ∀ L, F m (s.consume s.part rd) L = res32 (r L)) :
    Completes i s fun u => ∃ x, (∀ L, x L = r L) ∧ ConvertEffect s rd d n x u :=
  withRM_completes hm hb hf hn hi hF (P := fun L x => x = r L) fun _ => rfl

/-- A conversion to c elements of w bits each, packed. -/
theorem withRM_packs {i : Instr} {F : Rnd → State → Nat → Nat → Nat × FFlags} {w c : Nat} {f : Nat → Nat → Nat × FFlags}
    (hi : exec i s = s.withRM fun m => s.convert rd d n fun x L => packed w c (F m x L))
    (hF : ∀ L, F m (s.consume s.part rd) L = f L) (hwc : w * c ≤ 64) (hlt : ∀ L k, (f L k).1 < 2 ^ w) :
    Completes i s fun u => ∃ r, (∀ L, Packs w c (f L) (r L)) ∧ ConvertEffect s rd d n r u :=
  withRM_completes hm hb hf hn hi (fun L => (congrArg (packed w c) (hF L)).trans (res32_toNat ..).symm)
    fun L => packed_packs hwc (f L) (hlt L)

end

theorem rounded_completes {m : Rnd} {i : Instr} {rd : List Opnd} {d : VReg} {n : Nat} {P : State → Nat → Nat × FFlags → Prop}
    (h : Rounded m i rd d n P) (s : State) (hm : fmtRM s.slot.fmt = some m) (hb : s.blocked s.part rd [.v d n] = none)
    (hf : s.flagFull true = false) :
    Completes i s fun u => ∃ r, (∀ L, P s L (r L)) ∧ ConvertEffect s rd d n r u := by
  cases h with
  | cvtf d a t =>
    rw [← cvtRegs_eq_words] at hb ⊢
    refine withRM_rounds (F := fun m x L => res32 (roundFp f32 m false (intVal (x.intAt L a t)))) hm hb hf (by decide)
      exec_cvtf fun L => ?_
    rw [State.consume_intAt, intAt_eq_sourceInt]
  | cvti d a t =>
    rw [← cvtRegs_eq_words] at hb ⊢
    refine withRM_rounds (F := fun m x L => intRes (roundInt (intLo (cvtSigned t) (cvtWidth t))
      (intHi (cvtSigned t) (cvtWidth t)) m (x.val32 L a))) hm hb hf (cvtRegs_le t) exec_cvti fun L => ?_
    rw [State.consume_val32]
    exact (res32_toNat ..).symm
  | cvtdF32 d a =>
    refine withRM_rounds (F := fun m x L => res32 (roundFp f32 m false (f64.val (x.rv2 L a).toNat))) hm hb hf (by decide)
      exec_cvtdF32 fun L => ?_
    rw [State.consume_rv2]
  | cvtdfI d a t =>
    rw [← cvtRegs_eq_words] at hb ⊢
    refine withRM_rounds (F := fun m x L => intRes (roundInt (intLo (cvtSigned t) (cvtWidth t))
      (intHi (cvtSigned t) (cvtWidth t)) m (f64.val (x.rv2 L a).toNat))) hm hb hf (cvtRegs_le t) exec_cvtdfI
      fun L => ?_
    rw [State.consume_rv2]
    exact (res32_toNat ..).symm
  | cvtdfF d a t =>
    rw [← cvtRegs_eq_words] at hb ⊢
    refine withRM_rounds (F := fun m x L => res32 (roundFp f64 m false (intVal (x.intAt L a t)))) hm hb hf (by decide)
      exec_cvtdfF fun L => ?_
    rw [State.consume_intAt, intAt_eq_sourceInt]
  | cvth2 d a b =>
    refine withRM_packs (F := fun m x L k => roundFp x.hk m false (x.val32 L (if k = 0 then a else b))) hm hb hf (by decide)
      exec_cvth2 (fun L => ?_) (by decide) fun L k => roundFp_hk_lt ..
    funext k
    rw [State.consume_hk, State.consume_val32]
    rfl
  | cvtb4 d a =>
    refine withRM_packs (F := fun m x L k => toNarrow (fmtNF x.slot.fmt) m (fmtSAT x.slot.fmt) (fmtSEXP x.slot.fmt)
      (x.val32 L (a + k))) hm hb hf (by decide) exec_cvtb4 (fun L => ?_) (by decide) fun L k => toNarrow_lt ..
    rw [State.consume_slot, State.consume_val32]
    rfl
  | cvtb4Q d a =>
    refine withRM_packs (F := fun m x L k => toNibble (fmtI4S x.slot.fmt) m (fmtSEXP x.slot.fmt)
      (x.val32 L (a + k))) hm hb hf (by decide) exec_cvtb4Q (fun L => ?_) (by decide) fun L k => toNibble_lt ..
    rw [State.consume_slot, State.consume_val32]
    rfl
  | qnt d a =>
    refine withRM_rounds (F := fun m x L => res32 (quantise m (fmtSEXP x.slot.fmt) (x.val32 L a))) hm hb hf (by decide)
      exec_qnt fun L => ?_
    rw [State.consume_slot, State.consume_val32]
    rfl

/-- Settles O3: each row is a conversion by a function of its lanes' operands; its words land at different registers. -/
theorem conversionsIssueTheirResult : Obligations.ConversionsIssueTheirResult := by
  refine ⟨fun i rd d n r h s hb hf => exact_completes h s hb hf, fun m i rd d n P h s hm hb hf => ?_⟩
  obtain ⟨u, hu, r, hP, honly, hissues, hflags⟩ := rounded_completes h s hm hb hf
  exact ⟨u, hu, honly, r, fun L _ _ => hP L, hissues, hflags⟩

end Sys2Proof.Machine

/-! PROOFS. The matrix sequencer (O37; 07 R133, R141, R142, R146, R147): its registers and branches, and what a halt leaves of the
stream, the barriers and the groups. -/

namespace Sys2Proof.Machine

open Sys2Proof Sys2Proof.Machine Sys2Proof.Claims

/-! ## The focused stream -/

section

variable (s : State) (f : Seq → Seq)

@[simp] theorem State.onSeq_seq : (s.onSeq f).seq = f s.seq := rfl
@[simp] theorem State.mxNext_seq : s.mxNext.seq = s.seq.advance := rfl

theorem Seq.advance_pc (q : Seq) : q.advance.pc = nextSlot q := by
  unfold Seq.advance nextSlot
  split <;> rfl

theorem Seq.advance_words (q : Seq) : q.advance.words = if q.idx < q.last then q.words else none := by
  unfold Seq.advance
  split <;> rfl

/-- The next instruction of a stream differs in its place alone (R126). -/
theorem Seq.advance_only (q : Seq) : q.advance = { q with pc := q.advance.pc, words := q.advance.words, wait := .none } := by
  unfold Seq.advance
  split <;> rfl

end

/-! ## Registers and predicates of the sequencer (R124, R141) -/

/-- A change of the sequencer that writes one k-register. -/
theorem kResult_onSeq {s : State} {f : Seq → Seq} {d : Nat} {x : DWord} (hf : f s.seq = s.seq.wk d x) :
    KResult s (s.onSeq f) d x := by
  refine ⟨changesOnly_onSeq s f, ?_, ?_, fun j hj => ?_⟩ <;> rw [State.onSeq_seq, hf]
  · rfl
  · exact Sparse.get_put_self ..
  · exact Sparse.get_put_other _ _ _ _ _ hj

theorem getLsbD_pow4 (p j : Fin 4) : (BitVec.ofNat 4 (2 ^ p.val)).getLsbD j.val = decide (j = p) := by
  simp only [BitVec.getLsbD_ofNat, Nat.testBit_two_pow, j.isLt, decide_true, Bool.true_and, Fin.ext_iff, eq_comm]

/-- One predicate of the sequencer written. -/
theorem Seq.getLsbD_setKq (q : Seq) (p j : Fin 4) (b : Bool) :
    (q.setKq p.val b).kq.getLsbD j.val = if j = p then b else q.kq.getLsbD j.val := by
  have hj : j.val < 4 := j.isLt
  cases b
  · rw [Seq.setKq, if_neg Bool.false_ne_true, BitVec.getLsbD_and, BitVec.getLsbD_not, getLsbD_pow4]
    by_cases h : j = p <;> simp [h, hj]
  · rw [Seq.setKq, if_pos rfl, BitVec.getLsbD_or, getLsbD_pow4]
    by_cases h : j = p <;> simp [h]

/-- One quarter of a k-register replaced (R141). -/
theorem extract_quarter (x : DWord) (i : BitVec 16) (h j : Fin 4) :
    ((x &&& ~~~ ((0xFFFF : DWord) <<< (16 * h.val))) ||| (i.setWidth 64 <<< (16 * h.val))).extractLsb' (16 * j.val) 16 =
      if j = h then i else x.extractLsb' (16 * j.val) 16 := by
  have hones (n : Nat) : (0xFFFF : DWord).getLsbD n = decide (n < 16) := by
    rw [show (0xFFFF : DWord) = (BitVec.allOnes 16).setWidth 64 by decide, BitVec.getLsbD_setWidth, BitVec.getLsbD_allOnes,
      ← Bool.decide_and, decide_eq_decide]
    omega
  refine BitVec.eq_of_getLsbD_eq fun k hk => ?_
  have hn : 16 * j.val + k < 64 := by omega
  simp only [BitVec.getLsbD_extractLsb', BitVec.getLsbD_or, BitVec.getLsbD_and, BitVec.getLsbD_not, BitVec.getLsbD_shiftLeft,
    BitVec.getLsbD_setWidth, hones, hk, hn, decide_true, Bool.true_and]
  rcases Nat.lt_trichotomy j.val h.val with hlt | heq | hgt
  · simp [show 16 * j.val + k < 16 * h.val by omega, show j ≠ h by omega, hk]
  · obtain rfl := Fin.ext heq
    simp [hk, show k < 64 by omega]
  · have hi : i.getLsbD (16 * j.val + k - 16 * h.val) = false := BitVec.getLsbD_of_ge _ _ (by omega)
    simp [show ¬ 16 * j.val + k < 16 * h.val by omega, show ¬ 16 * j.val + k - 16 * h.val < 16 by omega, show j ≠ h by omega, hk, hi]

theorem kmovi_quarter (d : Fin 16) {h : Fin 4} (i : BitVec 16) (s : State) (h0 : h.val ≠ 0) :
    StreamCompletes (.kmovi d h i) s fun u => ∃ x, KResult s u d x ∧ x.extractLsb' (16 * h.val) 16 = i ∧
      ∀ j : Fin 4, j ≠ h → x.extractLsb' (16 * j.val) 16 = (s.seq.rk d).extractLsb' (16 * j.val) 16 := by
  refine ⟨_, exec_kmovi, _, kResult_onSeq rfl, ?_, fun j hj => ?_⟩ <;> rw [if_neg h0, extract_quarter]
  · exact if_pos rfl
  · exact if_neg hj

/-! ## Branches (R142) -/

/-- The state in which the stream goes on at the clause o clauses away. -/
def State.mxJump (s : State) (o : BitVec 16) : State := s.onSeq fun q => q.jump o

theorem State.mxJump_only (s : State) (o : BitVec 16) : ChangesOnly [.stream] s (s.mxJump o) ∧
    (s.mxJump o).seq = { s.seq with pc := s.seq.clause + 32 * o.signExtend 64, words := none, wait := .none } := ⟨rfl, rfl⟩

/-- A branch goes to the clause at its offset where it is taken, else to the next instruction. -/
theorem State.onSeq_branch (s : State) {b : Bool} {c : Seq → Bool} (hc : c s.seq = b) (o : BitVec 16) :
    (s.onSeq fun q => q.branch (c q) o) = if b then s.mxJump o else s.mxNext := by
  show (s.onBlk fun k => { k with seq := s.seq.branch (c s.seq) o }) = _
  rw [hc]
  cases b <;> rfl

/-- The branches of the stream with the condition on which they are taken. -/
inductive StreamBranch : Instr → BitVec 16 → (Seq → Bool) → Prop
  | always o : StreamBranch (.kbra o) o fun _ => true
  | on p o : StreamBranch (.kbraKq p o) o fun q => q.kq.getLsbD p.val
  | off p o : StreamBranch (.kbraNkq p o) o fun q => !q.kq.getLsbD p.val

theorem exec_streamBranch {i : Instr} {o : BitVec 16} {c : Seq → Bool} (h : StreamBranch i o c) (s : State) :
    exec i s = .next (s.onSeq fun q => q.branch (c q) o) := by
  cases h <;> rfl

theorem streamBranch_goes {i : Instr} {o : BitVec 16} {c : Seq → Bool} (h : StreamBranch i o c) (s : State) :
    (¬ c s.seq = true → exec i s = .next s.mxNext) ∧
      (c s.seq = true → ∃ t, exec i s = .next t ∧ ChangesOnly [.stream] s t ∧
        t.seq = { s.seq with pc := s.seq.clause + 32 * o.signExtend 64, words := none, wait := .none }) := by
  refine ⟨fun hc => ?_, fun hc => ⟨s.mxJump o, ?_, s.mxJump_only o⟩⟩
  · rw [exec_streamBranch h, State.onSeq_branch s (Bool.not_eq_true _ ▸ hc)]
    rfl
  · rw [exec_streamBranch h, State.onSeq_branch s hc]
    rfl

/-- `kbra.dec` writes its register first and then branches on what it wrote. -/
theorem exec_kbraDec_eq (d : Fin 16) (o : BitVec 16) (s : State) :
    exec (.kbraDec d o) s = .next (((s.onSeq fun q => q.wk d.val (s.seq.rk d.val - 1))).onSeq fun q =>
      q.branch (s.seq.rk d.val - 1 != 0) o) := rfl

/-- R141, R142, R133, R22. -/
theorem sequencerRegistersAndBranches : SequencerRegistersAndBranches := by
  refine ⟨fun s => ⟨s.seq.advance_pc, rfl, fun h => ?_, fun h => ?_, s.seq.advance_only⟩,
    fun d i s => ⟨_, exec_kmovi, kResult_onSeq rfl⟩, fun d h i s h0 => kmovi_quarter d i s h0,
    fun d a i s => ⟨_, exec_kadd, kResult_onSeq rfl⟩, fun d a b s => ⟨_, exec_kaddReg, kResult_onSeq rfl⟩,
    fun eb ea kb ka s => ⟨_, exec_mfmt, rfl⟩, fun i o taken hi s => ?_, fun d o s => ⟨fun h => ?_, fun h => ?_⟩⟩
  · exact s.seq.advance_words.trans (if_pos h)
  · exact s.seq.advance_words.trans (if_neg h)
  · rcases hi with ⟨rfl, rfl⟩ | ⟨p, ⟨rfl, rfl⟩ | ⟨rfl, rfl⟩⟩
    · simpa using streamBranch_goes (.always o) s
    · exact streamBranch_goes (.on p o) s
    · simpa using streamBranch_goes (.off p o) s
  · have h0 : s.seq.rk d.val - 1 = 0 := by rw [h]; rfl
    refine ⟨s.onSeq fun q => q.wk d.val (s.seq.rk d.val - 1), ?_, h0 ▸ kResult_onSeq rfl⟩
    rw [exec_kbraDec_eq, State.onSeq_branch _ (c := fun _ => _) rfl, h0]
    rfl
  · have h0 : s.seq.rk d.val - 1 ≠ 0 := fun e => h (by bv_omega)
    refine ⟨s.onSeq fun q => q.wk d.val (s.seq.rk d.val - 1), (s.onSeq fun q => q.wk d.val (s.seq.rk d.val - 1)).mxJump o,
      kResult_onSeq rfl, ?_, rfl, rfl⟩
    rw [exec_kbraDec_eq, State.onSeq_branch _ (c := fun _ => _) (b := true) (by simpa using h0)]
    rfl

/-! ## The end of a stream (R127, R129, R143) -/

theorem Block.testMBars_only (b : Block) (live : Mask) : ∃ m, b.testMBars live = { b with mbars := m } := by
  unfold Block.testMBars
  induction List.range 8 using List.reverseRecOn with
  | nil => exact ⟨_, rfl⟩
  | append_singleton l n ih =>
    obtain ⟨m, hm⟩ := ih
    rw [List.foldl_append, List.foldl_cons, List.foldl_nil, hm]
    exact ⟨_, rfl⟩

/-- The sequencer of a stream that has stopped: no reservation and no slot is left, registers and accumulators stay. -/
def Seq.stopped (q : Seq) : Seq := { q with run := false, words := none, wait := .none, res := .none, tiles := [], rstw := false }

/-- A stream that stops changes the sequencer, the matrix barriers and what the package has lent. -/
theorem State.stopStream_form (s : State) : ∃ m d, s.stopStream =
    { s with blk := { s.blk with seq := s.seq.stopped, mbars := m }, dev := d } := by
  obtain ⟨m, hm⟩ := (s.releaseEngine.onSeq fun q => { q with run := false, words := none, wait := .none }).blk.testMBars_only
    (s.releaseEngine.onSeq fun q => { q with run := false, words := none, wait := .none }).liveAll
  exact ⟨m, _, congrArg (fun b => ({ s with blk := b, dev := returnLent s.dev s.blk } : State)) hm⟩

/-! ## Halts (R146, R147) -/

theorem State.reserved_none {s : State} (hr : s.seq.res = .none) (f : State → State) :
    s.reserved f = .next (s.halt cMATRIX_RESERVATION 0) := congrArg _ (if_pos hr)

theorem State.mxDo_none {s : State} (hr : s.seq.res = .none) (f : State → Except MxStop State) :
    s.mxDo f = .next (s.halt cMATRIX_RESERVATION 0) := State.reserved_none hr _

theorem exec_needsReservation {i : Instr} (h : NeedsReservation i) {s : State} (hr : s.seq.res = .none) :
    exec i s = .next (s.halt cMATRIX_RESERVATION 0) := by
  have hf := s.reserved_none hr
  have hd := s.mxDo_none hr
  cases h with
  | tclm p n c => exact exec_tclm.trans (hf _)
  | trel n c => exact exec_trel.trans (hf _)
  | tld n l c => exact exec_tld.trans (hd _)
  | tldSp n l c => exact exec_tldSp.trans (hd _)
  | mma d a b => exact exec_mma.trans (hd _)
  | mmas d a b => exact exec_mmas.trans (hd _)
  | accz d n => exact exec_accz.trans (hf _)
  | accst d l c => exact exec_accst.trans (hf _)
  | accld d l c => exact exec_accld.trans (hd _)
  | dmap n a => exact exec_dmap.trans (hd _)

/-- A live group's reports gain that of the halt; a group that has exited is as it was. -/
def haltGroup (r : Report) (g : Group) : Group := if g.live = 0 then g else g.defer r

/-- A halt while a group of the block lives (R146). -/
theorem State.halt_live {s : State} {c : Cause} {va : Nat} (h : s.anyLive = true) : ∃ m d, s.halt c va =
    { s with
      grp := haltGroup (haltReport s.seq c va) s.grp
      blk := { s.blk with
        seq := { s.seq.stopped with cause := c, halt := true }, mbars := m
        groups := s.blk.groups.map (haltGroup (haltReport s.seq c va)) }
      dev := d } := by
  obtain ⟨m, d, hst⟩ := s.stopStream_form
  refine ⟨m, d, ?_⟩
  rw [State.halt, hst]
  exact if_pos h

theorem haltGroup_spec (q : Seq) (c : Cause) (va : Nat) (g : Group) :
    haltGroup (haltReport q c va) g = { g with reports := (haltGroup (haltReport q c va) g).reports } ∧
    (g.live = 0 → haltGroup (haltReport q c va) g = g) ∧
    (g.live ≠ 0 → (haltGroup (haltReport q c va) g).reports = g.reports ++ [haltReport q c va]) := by
  have hd : g.defer (haltReport q c va) = { g with reports := g.reports ++ [haltReport q c va] } := rfl
  refine ⟨?_, fun h => if_pos h, fun h => ?_⟩
  · rw [haltGroup, hd]
    split <;> rfl
  · rw [haltGroup, if_neg h, hd]

/-- R146, R147. -/
theorem streamHaltsReachEveryGroup : StreamHaltsReachEveryGroup := by
  refine ⟨fun i hi s hr => exec_needsReservation hi hr, fun p e h s hr => ?_, ?_⟩
  · rw [exec_mxacq, execMxacq, if_pos (by simpa using hr)]
  · rintro s c va hl _ rfl
    obtain ⟨m, d, ht⟩ := State.halt_live (c := c) (va := va) hl
    obtain ⟨R, hR⟩ : ∃ R, haltGroup (haltReport s.seq c va) s.grp = { s.grp with reports := R } :=
      ⟨_, (haltGroup_spec s.seq c va s.grp).1⟩
    rw [ht]
    refine ⟨⟨d, ?_⟩, rfl, List.length_map .., fun g h hgh => ?_⟩
    · rw [hR]
      rfl
    · have hh : h = haltGroup (haltReport s.seq c va) g := by
        rcases hgh with ⟨rfl, rfl⟩ | ⟨j, hj, hj'⟩
        · rfl
        · simpa [hj, eq_comm] using hj'
      obtain ⟨h1, h2, h3⟩ := haltGroup_spec s.seq c va g
      subst hh
      exact ⟨h1, h2, fun h0 => ⟨_, h3 h0, rfl, rfl, rfl, rfl, rfl⟩⟩

/-- Settles O37: an instruction of the sequencer changes its registers or its place, and a halt the sequencer and each live
group's reports. -/
theorem streamRegistersBranchesAndHalts : Obligations.StreamRegistersBranchesAndHalts :=
  ⟨sequencerRegistersAndBranches, streamHaltsReachEveryGroup⟩

end Sys2Proof.Machine

/-! PROOFS. The start of a stream, its barriers and its end (O33; 07 R125, R127, R129, R143). -/

namespace Sys2Proof.Machine

open Sys2Proof Sys2Proof.Machine Sys2Proof.Claims

/-! ## What a release leaves alone (R252) -/

/-- e is d except in home memory, what stands in front of it, and the cluster caches. -/
def FlushOnly (d e : Dev) : Prop :=
  ∃ mem keys bad l2host rdc dirty cc,
    e = { d with mem := mem, keys := keys, bad := bad, l2host := l2host, rdc := rdc, dirty := dirty, cc := cc }

theorem FlushOnly.refl (d : Dev) : FlushOnly d d := ⟨_, _, _, _, _, _, _, rfl⟩

theorem FlushOnly.trans {d e f : Dev} (h : FlushOnly d e) (g : FlushOnly e f) : FlushOnly d f := by
  obtain ⟨_, _, _, _, _, _, _, rfl⟩ := h
  obtain ⟨_, _, _, _, _, _, _, rfl⟩ := g
  exact ⟨_, _, _, _, _, _, _, rfl⟩

theorem FlushOnly.nextId {d e : Dev} (h : FlushOnly d e) : e.nextId = d.nextId := by obtain ⟨_, _, _, _, _, _, _, rfl⟩ := h; rfl

theorem writeBack_flushOnly (d : Dev) (x : Dirty) : FlushOnly d (writeBack d x) := by
  obtain ⟨_, _, _, _, _, h⟩ := homeSector_homeOnly d x.key x.sector x.bytes x.whole
  rw [writeBack, h]
  exact ⟨_, _, _, _, _, _, _, rfl⟩

theorem writeBackIf_flushOnly (d : Dev) (p : Dirty → Bool) : FlushOnly d (writeBackIf d p) :=
  List.foldlRecOn (motive := FlushOnly d) _ _ (.refl d) fun _ h x _ => h.trans (writeBack_flushOnly _ x)

theorem releaseAt_flushOnly (d : Dev) (cl : Nat) (sc : Scope) : FlushOnly d (releaseAt d cl sc) := by
  cases sc with
  | grp | blk | clu => exact .refl d
  | die | pkg | sys => exact writeBackIf_flushOnly ..

/-! ## `mx.start` (R125) -/

/-- Operands that are no vector registers consume no hold entry (R238). -/
theorem State.consume_of_noRegs {s : State} {T : Mask} {rd : List Opnd} (h : s.regsOf T rd = []) : s.consume T rd = s := by
  simp [State.consume, h]

/-- The package after a release at package scope and the stream started, before the command is counted. -/
def State.started (s : State) (e x y : DWord) : State := (s.release .pkg).onSeq fun q => q.start e x y

section

variable {s : State} {e x y : SReg} (h : CommandReady s [.s e 1, .s x 1, .s y 1] [])
include h

theorem exec_mxStart_ready : exec (.mxStart e x y) s =
    if s.blk.seq.run then .next (s.violation cMATRIX_RESERVATION)
    else if (s.rs e).toNat % 32 ≠ 0 then .next (s.trapAll cMISALIGNED s.wordInfo (s.rs e))
    else .next ((s.started (s.rs e) (s.rs x) (s.rs y)).count false id).advance := by
  obtain ⟨hfull, hblk⟩ := h
  rw [exec_mxStart, execMxStart, State.counted_ready s _ _ _ _ _ hblk hfull, State.consume_of_noRegs rfl]
  rfl

end

/-- A stream that starts is one operation counted by SETB, which writes nothing. -/
theorem started_issues (s : State) (e x y : DWord) :
    ∃ p, Issues s ((s.started e x y).count false id) false p ∧ WritesNothing s p := by
  have hn : (s.started e x y).dev.nextId = s.dev.nextId := (releaseAt_flushOnly s.dev s.blk.cluster .pkg).nextId
  obtain ⟨⟨hcounted, hid⟩, hnext⟩ := (s.started e x y).count_issues false id rfl rfl rfl rfl rfl
  exact ⟨_, ⟨⟨hcounted, hid.trans hn⟩, hnext.trans (congrArg (· + 1) hn)⟩, rfl⟩

theorem started_only (s : State) (e x y : DWord) :
    ChangesOnly [.counted, .stream, .memory, .caches] s ((s.started e x y).count false id) := by
  obtain ⟨_, _, _, _, _, _, _, hd⟩ := releaseAt_flushOnly s.dev s.blk.cluster .pkg
  obtain ⟨c, hc⟩ := s.grp.bump_only (s.flagOf false) (· + 1)
  have hs : (s.started e x y).count false id = { s with
      grp := { s.grp.bump (s.flagOf false) (· + 1) with pend := _ }
      blk := { s.blk with seq := s.seq.start e x y }
      dev := { releaseAt s.dev s.blk.cluster .pkg with nextId := _ } } := rfl
  rw [hs, hc, hd]
  rfl

/-- k0 and k1 come from the operands, k2 to k15 are zero (R125). -/
theorem Seq.start_k (q : Seq) (e x y : DWord) : Sparse.get 0 (q.start e x y).k 0 = x ∧ Sparse.get 0 (q.start e x y).k 1 = y ∧
    ∀ j, 2 ≤ j → Sparse.get 0 (q.start e x y).k j = 0 := by
  have hk (j : Nat) : Sparse.get 0 (q.start e x y).k j = if j = 1 then y else if j = 0 then x else 0 := by
    rw [Seq.start, Sparse.get_put, Sparse.get_put]
    rfl
  exact ⟨hk 0, hk 1, fun j hj => (hk j).trans (by rw [if_neg (by omega), if_neg (by omega)])⟩

/-! ## Matrix barriers of the stream (R127) -/

/-- A barrier at which the sequencer has arrived completes where every live group has. -/
theorem MBar.test_seqArr (x : MBar) (live : Mask) (run : Bool) : ({ x with seqArr := true } : MBar).test live run =
    if live &&& ~~~ x.arr = 0 then { phase := x.phase + 1 } else { x with seqArr := true } := by
  simp [MBar.test]

/-- The block after the sequencer's arrival at barrier n, which is x. -/
def State.seqArrives (s : State) (n : Fin 8) (x : MBar) : State :=
  { s with blk := { s.blk with
      seq := { s.seq with barPhase := Sparse.put 0 s.seq.barPhase n.val (x.phase.toNat + 1) }
      mbars := Sparse.upd {} s.blk.mbars n.val fun y => ({ y with seqArr := true } : MBar).test s.liveAll s.blk.seq.run } }

section

variable (s : State) (n : Fin 8) (x : MBar)

@[simp] theorem seqArrives_barPhase :
    (s.seqArrives n x).seq.barPhase = Sparse.put 0 s.seq.barPhase n.val (x.phase.toNat + 1) := rfl

@[simp] theorem seqArrives_mbars : (s.seqArrives n x).blk.mbars =
    Sparse.upd {} s.blk.mbars n.val fun y => ({ y with seqArr := true } : MBar).test s.liveAll s.blk.seq.run := rfl

theorem seqArrives_mbar (hx : x = s.blk.mbar n) : (s.seqArrives n x).blk.mbar n =
    if s.liveAll &&& ~~~ x.arr = 0 then { phase := x.phase + 1 } else { x with seqArr := true } := by
  rw [Block.mbar, seqArrives_mbars, Sparse.get_upd_self, MBar.test_seqArr, hx]
  rfl

theorem seqArrives_other {m : Nat} (h : m ≠ n.val) :
    Sparse.get 0 (s.seqArrives n x).seq.barPhase m = Sparse.get 0 s.seq.barPhase m ∧
      (s.seqArrives n x).blk.mbar m = s.blk.mbar m := by
  rw [Block.mbar, seqArrives_mbars, Sparse.upd]
  simp [h, Block.mbar]

end

/-- Settles O33: each instruction is one change of the sequencer, and `mx.start` one release with one counted operation besides. -/
theorem streamsStartMeetAndEnd : Obligations.StreamsStartMeetAndEnd := by
  refine ⟨fun e x y s h => ⟨fun hr => ?_, fun hr ha => ?_, fun hr ha => ?_⟩,
    fun n s x hx => ⟨fun ha => ?_, fun ha => ⟨s.seqArrives n x, ?_, rfl, rfl, rfl, by simp, fun m => seqArrives_other s n x,
      fun h0 => (seqArrives_mbar s n x hx).trans (if_pos h0), fun h0 => (seqArrives_mbar s n x hx).trans (if_neg h0)⟩⟩,
    fun n s => ⟨fun hp => ?_, fun hp => ?_⟩, fun s => ⟨_, exec_mend, ?_⟩⟩
  · rw [TrapsWhole, exec_mxStart_ready h, if_pos hr]
    rfl
  · rw [TrapsWhole, exec_mxStart_ready h, if_neg (by simp [hr]), if_pos ha]
    rfl
  · obtain ⟨hk0, hk1, hk⟩ := s.seq.start_k (s.rs e) (s.rs x) (s.rs y)
    refine ⟨_, ?_, started_only s (s.rs e) (s.rs x) (s.rs y), fun _ _ => rfl, started_issues .., hk0, hk1, hk, rfl⟩
    rw [exec_mxStart_ready h, if_neg (by simp [hr]), if_neg (by simp [ha])]
  · rw [exec_mxbarArr, execMxbarArr, ← hx, if_pos ha]
  · rw [exec_mxbarArr, execMxbarArr, ← hx, if_neg (by simp [ha])]
    rfl
  · exact exec_mxbarWait.trans (congrArg _ (if_pos hp))
  · exact exec_mxbarWait.trans (congrArg _ (if_neg hp))
  · obtain ⟨m, d, hs⟩ := s.stopStream_form
    rw [hs]
    exact ⟨⟨d, rfl⟩, rfl, rfl⟩

end Sys2Proof.Machine

/-! PROOFS. Reservations, slot names and cleared accumulators (O34; 07 R129, R130, R132, R139, R147). -/

namespace Sys2Proof.Machine

open Sys2Proof Sys2Proof.Machine Sys2Proof.Claims

/-! ## Tables and lists cut down by their keys -/

/-- A table that keeps the keys of p reads the same at those and as unlisted elsewhere. -/
theorem Sparse.get_filter_keys {α : Type} (d : α) (t : Table α) (p : Nat → Bool) (k : Nat) :
    Sparse.get d (t.filter fun e => p e.1) k = if p k then Sparse.get d t k else d := by
  induction t with
  | nil => simp [Sparse.get]
  | cons e t ih =>
    obtain ⟨j, x⟩ := e
    by_cases hk : k = j
    · subst hk
      cases hp : p k <;> simp_all [Sparse.get]
    · cases hp : p j <;> simp_all [Sparse.get]

/-- The first entry of a key, among those whose keys p selects. -/
theorem find?_filter_keys {α : Type} (l : List (Nat × α)) (p : Nat → Bool) (m : Nat) :
    (l.filter fun t => p t.1).find? (fun t => t.1 = m) = if p m then l.find? (fun t => t.1 = m) else none := by
  rw [List.find?_filter]
  cases hp : p m
  · rw [if_neg Bool.false_ne_true, List.find?_eq_none]
    grind
  · rw [if_pos rfl]
    congr 1
    funext t
    grind

theorem mem_names {n c m : Nat} : m ∈ names n c ↔ n ≤ m ∧ m ≤ n + c := by
  simp only [names, List.mem_map, List.mem_range]
  exact ⟨fun ⟨j, hj, he⟩ => by omega, fun h => ⟨m - n, by omega, by omega⟩⟩

theorem any_names {n c : Nat} {p : Nat → Bool} : (names n c).any p = true ↔ ∃ j : Nat, j ≤ c ∧ p (n + j) = true := by
  simp [names]

theorem any_names_eq_false {n c : Nat} {p : Nat → Bool} : (names n c).any p = false ↔ ∀ j : Nat, j ≤ c → p (n + j) = false := by
  simp [names]

/-! ## Slots (R132) -/

theorem Seq.tile_setTile (q : Seq) (n m : Nat) (x : Tile) : (q.setTile n x).tile m = if m = n then some x else q.tile m := by
  have hlow := find?_filter_keys q.tiles (fun i => decide (i < n)) m
  have hhigh := find?_filter_keys q.tiles (fun i => decide (n < i)) m
  rw [Seq.tile, Seq.setTile, List.find?_append, List.find?_append, hlow, hhigh]
  rcases Nat.lt_trichotomy m n with h | h | h
  · simp [h, show ¬ n < m by omega, show m ≠ n by omega, show n ≠ m by omega, Seq.tile]
  · simp [h]
  · simp [h, show ¬ m < n by omega, show m ≠ n by omega, show n ≠ m by omega, Seq.tile]

/-- The names of a list claimed, each as an all-zero slot. -/
def Seq.claim (q : Seq) (l : List Nat) : Seq := l.foldl (fun q i => q.setTile i {}) q

theorem Seq.claim_only (q : Seq) (l : List Nat) : ∃ x, q.claim l = { q with tiles := x } :=
  List.foldlRecOn (motive := fun r : Seq => ∃ x, r = { q with tiles := x }) l _ ⟨_, rfl⟩ fun r ⟨x, h⟩ i _ => by
    subst h
    exact ⟨_, rfl⟩

theorem Seq.tile_claim (q : Seq) (l : List Nat) (m : Nat) : (q.claim l).tile m = if m ∈ l then some {} else q.tile m := by
  induction l using List.reverseRecOn with
  | nil => rfl
  | append_singleton l i ih =>
    rw [Seq.claim, List.foldl_append, List.foldl_cons, List.foldl_nil, Seq.tile_setTile]
    by_cases h : m = i
    · simp [h]
    · rw [if_neg h]
      exact ih.trans (by simp [h])

/-- The slots whose names are not in a list. -/
def Seq.unclaim (q : Seq) (l : List Nat) : Seq := { q with tiles := q.tiles.filter fun t => !l.contains t.1 }

theorem Seq.claimed_eq (q : Seq) (n : Nat) : q.claimed n = (q.tile n).isSome := by
  rw [Seq.claimed, Seq.tile, Option.isSome_map, List.isSome_find?]

theorem Seq.tile_unclaim (q : Seq) (l : List Nat) (m : Nat) : (q.unclaim l).tile m = if m ∈ l then none else q.tile m := by
  rw [Seq.tile, Seq.unclaim, find?_filter_keys q.tiles (fun i => !l.contains i)]
  by_cases h : m ∈ l <;> simp [h, Seq.tile]

section

variable {s : State} (hres : s.seq.res ≠ .none)
include hres

theorem State.reserved_some (f : State → State) : s.reserved f = .next (f s) := congrArg _ (if_neg hres)

section

variable {core : Nat} (hcore : s.blk.server = some core) (p : Fin 4) (n : TName) (c : Fin 64)
include hcore

theorem exec_tclm_eq : exec (.tclm p n c) s = .next (if (names n.val c.val).any s.seq.claimed then s.halt cMATRIX_SLOT 0
    else if slotsHeld s.dev core + s.seq.tiles.length + c.val + 1 ≤ 64 && !restoreWaits s.dev core then
      (s.onSeq fun q => (q.claim (names n.val c.val)).setKq p.val true).mxNext
    else (s.onSeq fun q => q.setKq p.val false).mxNext) := by
  rw [exec_tclm, execTclm, State.reserved_some hres, hcore]
  rfl

theorem exec_tclm_claims (hfree : ∀ j : Nat, j ≤ c.val → s.seq.claimed (n.val + j) = false)
    (hroom : slotsHeld s.dev core + s.seq.tiles.length + c.val + 1 ≤ 64) (hrst : restoreWaits s.dev core = false) :
    exec (.tclm p n c) s = .next (s.onSeq fun q => (q.claim (names n.val c.val)).setKq p.val true).mxNext := by
  rw [exec_tclm_eq hres hcore, if_neg (by simp [any_names_eq_false.2 hfree]), if_pos (by simp [hroom, hrst])]

theorem exec_tclm_refused (hfree : ∀ j : Nat, j ≤ c.val → s.seq.claimed (n.val + j) = false)
    (h : 64 < slotsHeld s.dev core + s.seq.tiles.length + c.val + 1 ∨ restoreWaits s.dev core = true) :
    exec (.tclm p n c) s = .next (s.onSeq fun q => q.setKq p.val false).mxNext := by
  rw [exec_tclm_eq hres hcore, if_neg (by simp [any_names_eq_false.2 hfree]), if_neg]
  rcases h with h | h
  · simp only [Bool.and_eq_true, decide_eq_true_eq]
    omega
  · simp [h]

end

theorem exec_trel_eq (n : TName) (c : Fin 64) :
    exec (.trel n c) s = .next (if (names n.val c.val).any fun i => !s.seq.claimed i then s.halt cMATRIX_SLOT 0
      else (s.onSeq fun q => q.unclaim (names n.val c.val)).mxNext) := by
  rw [exec_trel]
  exact State.reserved_some hres _

theorem exec_trel_releases (n : TName) (c : Fin 64) (hall : ∀ j : Nat, j ≤ c.val → s.seq.claimed (n.val + j) = true) :
    exec (.trel n c) s = .next (s.onSeq fun q => q.unclaim (names n.val c.val)).mxNext := by
  have hnone := (any_names_eq_false (n := n.val) (c := c.val) (p := fun i => !s.seq.claimed i)).2 (by simpa using hall)
  rw [exec_trel_eq hres, if_neg (by simp [hnone])]

end

/-! ## Predicates of the sequencer (R124) -/

theorem kqResult_setKq {s u : State} {p : Fin 4} {b : Bool} {q : Seq} (hq : q.kq = s.seq.kq) (hu : u.seq = q.setKq p.val b) :
    KqResult s u p b := by
  refine ⟨?_, fun j hj => ?_⟩ <;> rw [hu, Seq.getLsbD_setKq]
  · exact if_pos rfl
  · rw [if_neg hj, hq]

theorem onlyKq_setKq (s : State) (p : Fin 4) (b : Bool) : OnlyKq s (s.onSeq fun q => q.setKq p.val b) p b :=
  ⟨rfl, kqResult_setKq (q := s.seq) rfl rfl, rfl⟩

/-! ## Reservations (R129, R130) -/

theorem sumOf_eq_sum (l : List Shape) (f : Shape → Nat) : sumOf l f = (l.map f).sum := by
  rw [sumOf, List.sum_eq_foldl, List.foldl_map]

section

variable {s : State} (hres : s.seq.res = .none) {p e : Fin 4} {h : Bool}
include hres

theorem exec_mxacq_home (hh : h = true ∨ e.val = s.blk.core % 4) : exec (.mxacq p e h) s = .next (s.grant p.val .home) := by
  rw [exec_mxacq, execMxacq, if_neg (by simp [hres]), if_pos (by simpa using hh)]

theorem exec_mxacq_neighbour (h0 : h = false) (he : e.val ≠ s.blk.core % 4) :
    exec (.mxacq p e h) s = .next (s.askNeighbour p.val (4 * s.blk.cluster + e.val)) := by
  rw [exec_mxacq, execMxacq, if_neg (by simp [hres]), if_neg (by simp [h0, he])]

end

/-- A neighbour lends the block's tiles. -/
def State.borrow (s : State) (e : Nat) : State := s.onDev fun d => { d with lent := Sparse.upd 0 d.lent e (· + s.blk.shape.accs) }

theorem State.borrow_lent (s : State) (e : Nat) :
    Sparse.get 0 (s.borrow e).dev.lent e = Sparse.get 0 s.dev.lent e + s.blk.shape.accs := by
  rw [State.borrow, State.onDev_dev, Sparse.get_upd_self]

section

variable {s : State} {e : Nat}

theorem askNeighbour_grants (p : Nat) (h : s.blk.shape.accs + ((shapesOn s.dev e).map fun x => x.accs).sum + Sparse.get 0 s.dev.lent e ≤ 32) :
    s.askNeighbour p e = (s.borrow e).grant p (.neighbour e) := if_pos (by rw [sumOf_eq_sum]; exact h)

theorem askNeighbour_refuses (p : Nat) (h : 32 < s.blk.shape.accs + ((shapesOn s.dev e).map fun x => x.accs).sum + Sparse.get 0 s.dev.lent e) :
    s.askNeighbour p e = (s.onSeq fun q => q.setKq p false).mxNext := if_neg (by rw [sumOf_eq_sum]; omega)

theorem get_lent_returnLent (d : Dev) (b : Block) (e : Nat) :
    (b.seq.res = .neighbour e → Sparse.get 0 (returnLent d b).lent e = Sparse.get 0 d.lent e - b.shape.accs) ∧
      (b.seq.res ≠ .neighbour e → Sparse.get 0 (returnLent d b).lent e = Sparse.get 0 d.lent e) := by
  unfold returnLent
  cases b.seq.res with
  | none | home => simp
  | neighbour e' =>
    by_cases h : e = e'
    · simp [h]
    · simp [h, Ne.symm h, Sparse.upd]

theorem returnLent_only (d : Dev) (b : Block) : ∃ t, returnLent d b = { d with lent := t } := by
  unfold returnLent
  cases b.seq.res with
  | none | home => exact ⟨_, rfl⟩
  | neighbour e' => exact ⟨_, rfl⟩

end

/-- Settles O34: a reservation is granted or refused by what the engine has lent, and the lists of slots and accumulators are cut
down or added to by name. -/
theorem reservationsAndSlotsAreTaken : Obligations.ReservationsAndSlotsAreTaken := by
  refine ⟨?_, fun s => ?_, fun p n c s core hres hcore => ⟨fun hj => ?_, fun hfree => ⟨fun hroom hrst => ?_, fun hfull => ?_⟩⟩,
    fun n c s hres => ⟨fun hj => ?_, fun hall => ?_⟩, fun d n s hres => ?_⟩
  · rintro p e h s nb _ hres rfl rfl
    refine ⟨fun hh => ?_, fun h0 he => ⟨fun hfit => ?_, fun hfull => ?_⟩⟩
    · exact ⟨_, exec_mxacq_home hres hh, rfl, kqResult_setKq (q := { s.seq with res := .home }) rfl rfl, rfl⟩
    · exact ⟨_, (exec_mxacq_neighbour hres h0 he).trans (congrArg _ (askNeighbour_grants p.val hfit)),
        kqResult_setKq (q := { s.seq with res := .neighbour (4 * s.blk.cluster + e.val) }) rfl rfl, rfl, s.borrow_lent _, _, rfl⟩
    · exact ⟨_, (exec_mxacq_neighbour hres h0 he).trans (congrArg _ (askNeighbour_refuses p.val hfull)), onlyKq_setKq s p false⟩
  · obtain ⟨t, ht⟩ := returnLent_only s.dev s.blk
    refine ⟨s.releaseEngine, exec_mxrel, rfl, ⟨t, ?_⟩, get_lent_returnLent s.dev s.blk⟩
    rw [← ht]
    rfl
  · rw [exec_tclm_eq hres hcore, if_pos (any_names.2 hj)]
  · obtain ⟨x, hx⟩ := s.seq.claim_only (names n.val c.val)
    refine ⟨_, exec_tclm_claims hres hcore p n c hfree hroom hrst, rfl,
      kqResult_setKq (q := s.seq.claim (names n.val c.val)) (by rw [hx]) rfl, ?_,
      fun j hj => ?_, fun m hm => ?_⟩
    · rw [State.onSeq_seq, hx]
      rfl
    · exact (s.seq.tile_claim ..).trans (if_pos (mem_names.2 (by omega)))
    · exact (s.seq.tile_claim ..).trans (if_neg (by rw [mem_names]; omega))
  · exact ⟨_, exec_tclm_refused hres hcore p n c hfree hfull, onlyKq_setKq s p false⟩
  · rw [exec_trel_eq hres, if_pos (any_names.2 (by simpa using hj))]
  · refine ⟨_, exec_trel_releases hres n c hall, rfl, rfl, fun j hj => ?_, fun m hm => ?_⟩
    · rw [State.onSeq_seq, Seq.claimed_eq, Seq.tile_unclaim, if_pos (mem_names.2 (by omega))]
      rfl
    · exact (s.seq.tile_unclaim ..).trans (if_neg (by rw [mem_names]; omega))
  · refine ⟨_, exec_accz.trans (State.reserved_some hres _), rfl, rfl, fun x => ?_⟩
    have hget := Sparse.get_filter_keys 0 s.seq.acc
      (fun k => !(decide (4096 * d.val ≤ k) && decide (k < 4096 * (d.val + n.val + 1)))) x
    refine ⟨fun hx => hget.trans (if_neg ?_), fun hx => hget.trans (if_pos ?_)⟩
    · simp only [Bool.not_eq_true', Bool.and_eq_false_iff, decide_eq_false_iff_not]
      omega
    · simp only [Bool.not_eq_true', Bool.and_eq_false_iff, decide_eq_false_iff_not]
      omega

end Sys2Proof.Machine

/-! PROOFS. Tiles through their records (O35; 07 R140, 12 R249, R250, R266, 21 R397): `accst` writes its elements one after the other,
each behind the write-back of its own lines, and in a slice of L2 with one free line that order shows. -/

namespace Sys2Proof.Machine

open Sys2Proof Sys2Proof.Machine Sys2Proof.Claims

/-! ## Lines of the host window that L2 takes or refuses (R397; log 11) -/

/-- The slice of a line has room for one more host-window line (R249). -/
def HasRoom (d : Dev) (line : Nat) : Prop :=
  (d.l2host.filter fun c => c.unit = homeSlice (128 * line)).length < Config.sliceLines

/-- A host-window line as L2 takes it. -/
def takenLine (d : Dev) (key line : Nat) : CLine :=
  { unit := homeSlice (128 * line), line := line, key := key, data := listed d.mem (128 * line) (128 * line + 128) }

theorem hostFill_room {d : Dev} {key line : Nat} (hl : isHost (128 * line) = true) (hn : hostLine d key line = none)
    (hr : HasRoom d line) : hostFill d key line = { d with l2host := takenLine d key line :: d.l2host } := by
  unfold hostFill
  rw [if_pos (by simp [hl, hn])]
  exact congrArg (fun l => ({ d with l2host := l } : Dev)) (if_pos hr)

theorem hostFill_full {d : Dev} {key line : Nat} (hr : ¬ HasRoom d line) : hostFill d key line = d := by
  unfold hostFill
  split
  · exact congrArg (fun l => ({ d with l2host := l } : Dev)) (if_neg hr)
  · rfl

theorem modFirst_of_find?_none {α : Type} (l : List α) (p : α → Bool) (f : α → α) (h : l.find? p = none) : modFirst l p f = l := by
  induction l with
  | nil => rfl
  | cons x l ih =>
    have hx : ¬ p x = true := List.find?_eq_none.1 h x List.mem_cons_self
    rw [List.find?_cons_of_neg hx] at h
    rw [modFirst, if_neg hx, ih h]

/-- The package as a write of a host-window sector finds it: no remote copy of the line, and the line in L2 where it fits. -/
def hostReady (d : Dev) (key s : Nat) : Dev := hostFill { d with rdc := d.rdc.filter fun c => c.line != s / 4 } key (s / 4)

/-- A line of L2 with bytes of sector s written, which it owes to host memory (R397). -/
def CLine.written (c : CLine) (s : Nat) (bs : List (Nat × Byte)) : CLine :=
  { c with
    data := bs.foldl (fun t e => Sparse.put 0 t (32 * (s % 4) + e.1) e.2) c.data
    owed := bs.foldl (fun l e => if l.contains (32 * (s % 4) + e.1) then l else (32 * (s % 4) + e.1) :: l) c.owed }

theorem homeSector_host_mem (d : Dev) (key s : Nat) (bs : List (Nat × Byte)) (c : Bool) (h : isHost (32 * s) = true) :
    (homeSector d key s bs c).mem = if (hostLine (hostReady d key s) key (s / 4)).isSome then (hostReady d key s).mem
      else bs.foldl (fun m e => Memory.write m (32 * s + e.1) e.2) (hostReady d key s).mem := by
  rw [homeSector, if_pos h]
  rfl

theorem homeSector_host_l2host (d : Dev) (key s : Nat) (bs : List (Nat × Byte)) (c : Bool) (h : isHost (32 * s) = true) :
    (homeSector d key s bs c).l2host =
      modFirst (hostReady d key s).l2host (fun x => x.line = s / 4 && x.key = key) fun x => x.written s bs := by
  rw [homeSector, if_pos h]
  rfl

/-- What homes serve of host memory: its bytes, the lines that L2 holds, and what clusters still owe. -/
structure HostSide (d : Dev) (mem : Memory) (l2 : List CLine) (dirty : List Dirty) : Prop where
  mem_eq : d.mem = mem
  l2_eq : d.l2host = l2
  dirty_eq : d.dirty = dirty

section

variable {d : Dev} {mem : Memory} {l2 : List CLine} {dirty : List Dirty} (hd : HostSide d mem l2 dirty)
include hd

/-- A sector of a host-window line for which L2 has room is written there (R397). -/
theorem HostSide.homeSector_room {key s : Nat} (bs : List (Nat × Byte)) (c : Bool) (hh : isHost (32 * s) = true)
    (hl : isHost (128 * (s / 4)) = true) (hn : hostLine d key (s / 4) = none) (hr : HasRoom d (s / 4)) :
    ∃ x : CLine, x.unit = homeSlice (128 * (s / 4)) ∧ x.line = s / 4 ∧ x.key = key ∧
      HostSide (homeSector d key s bs c) mem (x :: l2) dirty := by
  obtain ⟨rfl, rfl, rfl⟩ := hd
  have hready : hostReady d key s = _ := hostFill_room hl hn hr
  refine ⟨(takenLine d key (s / 4)).written s bs, rfl, rfl, rfl, ?_, ?_, (homeSector_homeOnly ..).dirty⟩
  · rw [homeSector_host_mem _ _ _ _ _ hh, hready]
    simp [hostLine, takenLine]
  · rw [homeSector_host_l2host _ _ _ _ _ hh, hready]
    simp [modFirst, takenLine]

/-- A sector of a host-window line for which L2 has no room is written in host memory (R397). -/
theorem HostSide.homeSector_full {key s : Nat} (bs : List (Nat × Byte)) (c : Bool) (hh : isHost (32 * s) = true)
    (hn : hostLine d key (s / 4) = none) (hr : ¬ HasRoom d (s / 4)) :
    HostSide (homeSector d key s bs c) (bs.foldl (fun m e => Memory.write m (32 * s + e.1) e.2) mem) l2 dirty := by
  obtain ⟨rfl, rfl, rfl⟩ := hd
  have hready : hostReady d key s = _ := hostFill_full hr
  refine ⟨?_, ?_, (homeSector_homeOnly ..).dirty⟩
  · have hnone : hostLine (hostReady d key s) key (s / 4) = none := hready ▸ hn
    rw [homeSector_host_mem _ _ _ _ _ hh, hnone, hready]
    rfl
  · rw [homeSector_host_l2host _ _ _ _ _ hh, hready]
    exact modFirst_of_find?_none _ _ _ hn

/-- A line of which a cluster owes nothing is dropped without a write-back. -/
theorem HostSide.dropLine_clean (core cl line : Nat) (h : ∀ x, x ∈ dirty → ¬ (x.cluster = cl ∧ x.sector / 4 = line)) :
    HostSide (dropLine d core cl line) mem l2 dirty := by
  obtain ⟨rfl, rfl, rfl⟩ := hd
  have hnone : d.dirty.filter (fun x => x.cluster = cl && decide (x.sector / 4 = line)) = [] := by
    simpa [List.filter_eq_nil_iff] using h
  simp only [dropLine, clusterEvict, writeBackIf, hnone]
  exact ⟨rfl, rfl, rfl⟩

end

/-- A line of which a cluster owes one sector is dropped after that sector is written back. -/
theorem HostSide.dropLine_owed {d : Dev} {mem : Memory} {l2 : List CLine} {x : Dirty} (hdirty : d.dirty = [x]) (core : Nat)
    (h : HostSide (homeSector d x.key x.sector x.bytes x.whole) mem l2 [x]) :
    HostSide (dropLine d core x.cluster (x.sector / 4)) mem l2 [] := by
  have hone : d.dirty.filter (fun y => y.cluster = x.cluster && decide (y.sector / 4 = x.sector / 4)) = [x] := by simp [hdirty]
  have hwb : writeBackIf d (fun y => y.cluster = x.cluster && decide (y.sector / 4 = x.sector / 4)) = writeBack d x := by
    rw [writeBackIf, hone]
    rfl
  refine ⟨?_, ?_, ?_⟩ <;> rw [dropLine, clusterEvict, hwb]
  · exact h.mem_eq
  · exact h.l2_eq
  · rw [writeBack_dirty, hdirty]
    simp [dropFirst, Dirty.same]

/-- A byte of a host-window line that L2 does not hold under the key reads from host memory. -/
theorem HostSide.homeByte_unheld {d : Dev} {mem : Memory} {l2 : List CLine} {dirty : List Dirty} (hd : HostSide d mem l2 dirty)
    {key pa : Nat} (hh : isHost pa = true) (hn : hostLine d key (pa / 128) = none) : homeByte d key pa = Memory.read mem pa := by
  have hl := (isHost_line pa).trans hh
  rw [homeByte, if_pos hh, homeLine, if_pos hl, hn]
  show Sparse.get 0 (listed d.mem (128 * (pa / 128)) (128 * (pa / 128) + 128)) (pa % 128) = _
  rw [get_listed _ _ _ _ (by omega), hd.mem_eq, Nat.div_add_mod]

/-! ## An engine's write within one sector (R250) -/

theorem FlushOnly.owners {d e : Dev} (h : FlushOnly d e) : e.owners = d.owners := by obtain ⟨_, _, _, _, _, _, _, rfl⟩ := h; rfl

theorem HomeOnly.owners {d e : Dev} (h : HomeOnly d e) : e.owners = d.owners := by obtain ⟨_, _, _, _, _, rfl⟩ := h; rfl

/-- An engine's write within one sector drops one line and writes that sector (R250). -/
theorem engineStore_sector (d : Dev) (core cl key : Nat) {pa : Nat} {bytes : List Byte} (h0 : 0 < bytes.length)
    (h : pa % 32 + bytes.length ≤ 32) : engineStore d core cl key pa bytes =
      homeSector (dropLine d core cl (pa / 128)) key (pa / 32) (bytes.zipIdx.map fun e => (pa % 32 + e.2, e.1)) := by
  have hlines : (pa + bytes.length + 127) / 128 - pa / 128 = 1 := by omega
  have hsecs : (pa + bytes.length + 31) / 32 - pa / 32 = 1 := by omega
  have hin : ∀ e ∈ bytes.zipIdx, (pa + e.2) / 32 = pa / 32 ∧ (pa + e.2) % 32 = pa % 32 + e.2 := by
    rintro ⟨x, i⟩ he
    have := (List.mem_zipIdx he).2.1
    dsimp only at *
    omega
  have hsel : (bytes.zipIdx.map fun e => (pa + e.2, e.1)).filter (fun e => e.1 / 32 = pa / 32) =
      bytes.zipIdx.map fun e => (pa + e.2, e.1) := List.filter_eq_self.2 fun x hx => by
    obtain ⟨e, he, rfl⟩ := List.mem_map.1 hx
    simpa using (hin e he).1
  have hbytes : (((bytes.zipIdx.map fun e => (pa + e.2, e.1)).filter fun e => e.1 / 32 = pa / 32).map fun e => (e.1 % 32, e.2)) =
      bytes.zipIdx.map fun e => (pa % 32 + e.2, e.1) := by
    rw [hsel, List.map_map]
    exact List.map_congr_left fun e he => by simp [(hin e he).2]
  rw [engineStore, homeStore, hlines, hsecs]
  exact congrArg (fun l => homeSector (dropLine d core cl (pa / 128)) key (pa / 32) l) hbytes

theorem homeSector_owners (d : Dev) (key s : Nat) (bs : List (Nat × Byte)) (c : Bool) :
    (homeSector d key s bs c).owners = d.owners := (homeSector_homeOnly ..).owners

theorem dropLine_owners (d : Dev) (core cl line : Nat) : (dropLine d core cl line).owners = d.owners :=
  (writeBackIf_flushOnly ..).owners

/-! ## The store of a tile (R140) -/

theorem exec_accst_stores {d : Fin 32} {l c : Fin 16} {s t : State} {r : Layout} {o : List Int} {ls : List (Leaf × Nat × Nat × Nat)}
    {dev : Dev} (hres : s.seq.res ≠ .none) (hrec : s.mxRecord l c accKind = .ok (t, r, o))
    (hls : t.mxLeaves .write ((accSpots r o).map fun x => r.spot x.2) = .ok ls)
    (hpage : t.pageToFetch (ls.map fun x => ⟨0, x.2.1, x.1, x.2.2.1⟩) = none)
    (hroom : t.makeRoom (ls.map fun x => ⟨0, x.2.1, x.1, x.2.2.1⟩) = some dev) :
    exec (.accst d l c) s = .next ((({ t with dev := dev } : State).noteAccess .write
      (ls.map fun x => ⟨0, x.2.1, x.1, x.2.2.1⟩)).storeTile d.val r.type (((accSpots r o).map (·.1)).zip ls)).mxNext := by
  rw [exec_accst, execAccst, State.reserved_some hres, hrec]
  simp only [hls, hpage, hroom]
  rfl

/-! ## A tile of two elements beside another owner's bytes

Both elements lie on one host page, in lines of the same slice of L2, which has room for one line more. In the second line another
block of the cluster has written a byte under its own key, still dirty. -/

/-- The host page, at virtual address 0. -/
def hostPage : Leaf :=
  { w := true, x := false, u := true, kind := .ordinary, redop := 0, key := 0, pa := 2 ^ 39, size := 2 ^ 16, peer := 0, entry := 0 }

/-- The page of the layout record, at virtual address 0x10000. -/
def recordPage : Leaf := { hostPage with pa := 0x10000 }

/-- Two f32 elements in one column, 0x2080 bytes apart. -/
def columnRecord : Layout :=
  { base := 0, ext := [1, 2, 1, 1, 1], str := [4, 0x2080, 0, 0, 0], scale := 0, pad := 0, type := .f32, ilv := 0, spn := 0
    scratch := false }

/-- The record's line as the layout-record cache holds it. -/
def recordLine : CLine :=
  { unit := 0, line := 0x200, key := 0
    data := [(8, 1), (11, 2), (14, 1), (17, 1), (20, 1), (23, 4), (28, 0x80), (29, 0x20), (60, 9)] }

/-- What the other block has stored in the second element's line. -/
def otherStore : Dirty := { cluster := 0, sector := 2 ^ 34 + 0x104, key := 1, since := 0, bytes := [(8, 0x55)] }

/-- All but one of the lines that slice 0 holds, beyond those of the two elements. -/
def nearlyFull : List CLine :=
  (List.range 98303).map fun k => { unit := 0, line := 2 ^ 32 + 64 * (k + 2) + l2Slice (2 ^ 13 * (k + 2)), key := 0, data := [] }

/-- A stream about to store its tile, with the lines l in L2. -/
def storing (l : List CLine) : State :=
  { focused := true, onStream := true
    blk := { seq := { run := true, res := .home, k := [(0, 0x10000)] } }
    dev := { tlb := [⟨0, 0, hostPage⟩, ⟨0, 0x10000, recordPage⟩], records := [recordLine], l2host := l, dirty := [otherStore] } }

/-- The two elements, translated. -/
def columnLeaves : List (Leaf × Nat × Nat × Nat) := [(hostPage, 0, 2 ^ 39, 4), (hostPage, 0x2080, 2 ^ 39 + 0x2080, 4)]

theorem accSpots_column : accSpots columnRecord [0, 0, 0, 0, 0] = [(0, [0, 0, 0, 0, 0]), (64, [0, 1, 0, 0, 0])] := by
  decide +kernel

section

variable (l : List CLine)

theorem storing_lineBytes : (storing l).lineBytes .record recordPage 0x10000 0x10000 64 =
    (storing l, sliceLine recordLine.data 0 64, false) := rfl

theorem parse_recordLine : parseLayout (sliceLine recordLine.data 0 64) = .ok columnRecord := by
  decide +kernel

theorem storing_mxRecord : (storing l).mxRecord 0 1 accKind = .ok (storing l, columnRecord, [0, 0, 0, 0, 0]) := by
  have ha : ((storing l).seq.rk (0 : Fin 16).val).toNat = 0x10000 := rfl
  have hxlat : (storing l).mxXlat .read 0x10000 = .ok (recordPage, 0x10000) := rfl
  have hkeep : (storing l).onDev (fun d => keepLeaf d (storing l).blk.shape.owner 0x10000 recordPage) = storing l := rfl
  have hc : (storing l).seq.rk (1 : Fin 16).val = 0 ∧ (storing l).seq.rk ((1 : Fin 16).val + 1) = 0 := ⟨rfl, rfl⟩
  have ho : originOfPair 0 0 = [0, 0, 0, 0, 0] := by decide
  unfold State.mxRecord
  simp only [ha, hxlat, hkeep, storing_lineBytes, parse_recordLine, hc, ho]
  rfl

theorem storing_mxLeaves : (storing l).mxLeaves .write ((accSpots columnRecord [0, 0, 0, 0, 0]).map fun x => columnRecord.spot x.2) =
    .ok columnLeaves := by
  have hspots : ((accSpots columnRecord [0, 0, 0, 0, 0]).map fun x => columnRecord.spot x.2) = [(0, 4), (0x2080, 4)] := by
    rw [accSpots_column]
    decide
  rw [hspots]
  rfl

end

/-! ### Zero elements stored one by one -/

/-- A block that stores an all-zero tile from cluster 0, under key 0. -/
structure StoresZeros (s : State) : Prop where
  key : s.key = 0
  core : s.blk.core = 0
  cluster : s.blk.cluster = 0
  acc : s.seq.acc = []

/-- A zero element stored on the host page: its line dropped, then its four bytes written (R140, R250). -/
theorem StoresZeros.cons {s : State} (hs : StoresZeros s) {i va pa : Nat} (es : List (Nat × Leaf × Nat × Nat × Nat))
    (hp : pa % 32 = 0) : ∃ s', StoresZeros s' ∧
      s'.dev = homeSector (dropLine s.dev 0 0 (pa / 128)) 0 (pa / 32) [(0, 0), (1, 0), (2, 0), (3, 0)] ∧
      s.storeTile 0 .f32 ((i, hostPage, va, pa, 4) :: es) = s'.storeTile 0 .f32 es := by
  have hzero : s.seq.elem 0 i = 0 := by rw [Seq.elem, hs.acc]; rfl
  have hstore : engineStore s.dev s.blk.core s.blk.cluster s.key pa (bytesOf 0 4) =
      homeSector (dropLine s.dev 0 0 (pa / 128)) 0 (pa / 32) [(0, 0), (1, 0), (2, 0), (3, 0)] := by
    rw [hs.core, hs.cluster, hs.key, engineStore_sector _ _ _ _ (by decide) (by rw [hp]; decide), hp]
    rfl
  refine ⟨(s.onDev fun d => engineStore d s.blk.core s.blk.cluster s.key pa (bytesOf 0 4)).onSeq fun q => q.raise 0,
    ⟨?_, hs.core, hs.cluster, hs.acc⟩, hstore, ?_⟩
  · calc keyOf (engineStore s.dev s.blk.core s.blk.cluster s.key pa (bytesOf 0 4)) s.blk.shape.owner
        = s.key := by rw [hstore, keyOf, homeSector_owners, dropLine_owners]; rfl
      _ = 0 := hs.key
  · rw [State.storeTile, List.foldl_cons, hzero]
    rfl

/-! ### Slice 0 of L2 -/

theorem nearlyFull_unit {c : CLine} (h : c ∈ nearlyFull) : c.unit = 0 := by
  obtain ⟨k, -, rfl⟩ := List.mem_map.1 h
  rfl

theorem nearlyFull_line {c : CLine} (h : c ∈ nearlyFull) : 2 ^ 32 + 65 < c.line := by
  obtain ⟨k, -, rfl⟩ := List.mem_map.1 h
  show _ < 2 ^ 32 + 64 * (k + 2) + l2Slice (2 ^ 13 * (k + 2))
  omega

section

variable {d : Dev} {mem : Memory} {dirty : List Dirty} {line : Nat}

theorem hasRoom_nearlyFull (hd : HostSide d mem nearlyFull dirty) (hs : homeSlice (128 * line) = 0) : HasRoom d line := by
  have hall : nearlyFull.filter (fun c => c.unit = 0) = nearlyFull := List.filter_eq_self.2 fun c hc => by simp [nearlyFull_unit hc]
  rw [HasRoom, hd.l2_eq, hs, hall]
  simp [nearlyFull, Config.sliceLines]

theorem not_hasRoom_full {x : CLine} (hd : HostSide d mem (x :: nearlyFull) dirty) (hx : x.unit = 0)
    (hs : homeSlice (128 * line) = 0) : ¬ HasRoom d line := by
  have hall : (x :: nearlyFull).filter (fun c => c.unit = 0) = x :: nearlyFull :=
    List.filter_eq_self.2 fun c hc => by
      rcases List.mem_cons.1 hc with rfl | hc
      · simp [hx]
      · simp [nearlyFull_unit hc]
  rw [HasRoom, hd.l2_eq, hs, hall]
  simp [nearlyFull, Config.sliceLines]

theorem nearlyFull_find?_none {key : Nat} (hline : line ≤ 2 ^ 32 + 65) :
    nearlyFull.find? (fun c => c.line = line && c.key = key) = none := by
  rw [List.find?_eq_none]
  intro c hc
  have := nearlyFull_line hc
  simp only [Bool.and_eq_true, decide_eq_true_eq]
  omega

end

/-- The package after `accst`: each element written behind the write-back of its own line. -/
def storedDev (l : List CLine) : Dev :=
  homeSector (dropLine (homeSector (dropLine (storing l).dev 0 0 (2 ^ 32)) 0 (2 ^ 34) [(0, 0), (1, 0), (2, 0), (3, 0)])
    0 0 (2 ^ 32 + 65)) 0 (2 ^ 34 + 0x104) [(0, 0), (1, 0), (2, 0), (3, 0)]

/-- The package with both lines dropped and no element written. -/
def settledDev (l : List CLine) : Dev :=
  dropLine (dropLine (dropLine (dropLine (storing l).dev 0 0 (2 ^ 32)) 0 0 (2 ^ 32)) 0 0 (2 ^ 32 + 65)) 0 0 (2 ^ 32 + 65)

theorem settled_column (l : List CLine) : settled (storing l) columnLeaves = settledDev l := rfl

theorem storing_storesZeros (l : List CLine) : StoresZeros (storing l) := ⟨rfl, rfl, rfl, rfl⟩

theorem storeTile_storing (l : List CLine) : ((storing l).storeTile 0 .f32 ([0, 64].zip columnLeaves)).dev = storedDev l := by
  obtain ⟨s1, h1, hdev1, heq1⟩ := (storing_storesZeros l).cons (i := 0) (va := 0) (pa := 2 ^ 39)
    [(64, hostPage, 0x2080, 2 ^ 39 + 0x2080, 4)] (by decide)
  obtain ⟨s2, -, hdev2, heq2⟩ := h1.cons (i := 64) (va := 0x2080) (pa := 2 ^ 39 + 0x2080) [] (by decide)
  calc ((storing l).storeTile 0 .f32 ([0, 64].zip columnLeaves)).dev
      = s2.dev := congrArg State.dev (heq1.trans heq2)
    _ = storedDev l := by rw [hdev2, hdev1]; rfl

theorem exec_accst_storing (l : List CLine) : ∃ u, exec (.accst 0 0 1) (storing l) = .next (State.mxNext u) ∧ u.dev = storedDev l := by
  refine ⟨_, exec_accst_stores (dev := (storing l).dev) (Reservation.noConfusion) (storing_mxRecord _) (storing_mxLeaves _) rfl rfl, ?_⟩
  rw [accSpots_column]
  exact storeTile_storing l

theorem storing_hostSide (l : List CLine) : HostSide (storing l).dev [] l [otherStore] := ⟨rfl, rfl, rfl⟩

/-- With both lines dropped first, the other block's byte stays in the line that L2 takes for it. -/
theorem homeByte_settledDev : homeByte (settledDev nearlyFull) 0 (2 ^ 39 + 0x2088) = 0 := by
  have h1 := ((storing_hostSide nearlyFull).dropLine_clean 0 0 (2 ^ 32) (by decide)).dropLine_clean 0 0 (2 ^ 32) (by decide)
  obtain ⟨x, -, -, hkey, h2⟩ := h1.homeSector_room (key := 1) (s := 2 ^ 34 + 0x104) otherStore.bytes false (by decide) (by decide)
    (by rw [hostLine, h1.l2_eq]; exact nearlyFull_find?_none (by decide)) (hasRoom_nearlyFull h1 (by decide))
  have h3 := (HostSide.dropLine_owed h1.dirty_eq 0 h2).dropLine_clean 0 0 (2 ^ 32 + 65) (by simp)
  have hnone : hostLine (settledDev nearlyFull) 0 ((2 ^ 39 + 0x2088) / 128) = none := by
    have hl2 : (settledDev nearlyFull).l2host = x :: nearlyFull := h3.l2_eq
    rw [hostLine, hl2, List.find?_cons_of_neg (by simp [hkey])]
    exact nearlyFull_find?_none (by decide)
  exact HostSide.homeByte_unheld h3 (by decide) hnone

/-- With the first element written first, its line takes the room, and the other block's byte goes to host memory. -/
theorem homeByte_storedDev : homeByte (storedDev nearlyFull) 0 (2 ^ 39 + 0x2088) = 0x55 := by
  have h1 := (storing_hostSide nearlyFull).dropLine_clean 0 0 (2 ^ 32) (by decide)
  obtain ⟨x, hunit, hline, -, h2⟩ := h1.homeSector_room (key := 0) (s := 2 ^ 34) [(0, 0), (1, 0), (2, 0), (3, 0)] false (by decide)
    (by decide) (by rw [hostLine, h1.l2_eq]; exact nearlyFull_find?_none (by decide)) (hasRoom_nearlyFull h1 (by decide))
  have hx : x.unit = 0 := hunit
  have hunheld (key : Nat) : (x :: nearlyFull).find? (fun c => c.line = 2 ^ 32 + 65 && c.key = key) = none := by
    rw [List.find?_cons_of_neg (by simp [hline])]
    exact nearlyFull_find?_none (by decide)
  have h3 := h2.homeSector_full (key := 1) (s := 2 ^ 34 + 0x104) otherStore.bytes false (by decide)
    (by rw [hostLine, h2.l2_eq]; exact hunheld 1) (not_hasRoom_full h2 hx (by decide))
  have h4 := HostSide.dropLine_owed h2.dirty_eq 0 h3
  have h5 := h4.homeSector_full (key := 0) (s := 2 ^ 34 + 0x104) [(0, 0), (1, 0), (2, 0), (3, 0)] false (by decide)
    (by rw [hostLine, h4.l2_eq]; exact hunheld 0) (not_hasRoom_full h4 hx (by decide))
  have hnone : hostLine (storedDev nearlyFull) 0 ((2 ^ 39 + 0x2088) / 128) = none := by
    have hl2 : (storedDev nearlyFull).l2host = x :: nearlyFull := h5.l2_eq
    rw [hostLine, hl2]
    exact hunheld 0
  exact (HostSide.homeByte_unheld h5 (by decide) hnone).trans (by decide)

/-! ## The other block's byte -/

/-- No element of the tile is stored over the other block's byte. -/
theorem not_storedBy_column : ∀ e ∈ (accSpots columnRecord [0, 0, 0, 0, 0]).zip columnLeaves,
    ¬ StoredBy columnRecord e (2 ^ 39 + 0x2088) := by
  rw [accSpots_column]
  have hsize : columnRecord.type.size = 4 := rfl
  simp [columnLeaves, StoredBy, hsize]

/-- Refutes O35 in its last clause: bytes that no element covers read as if every line had been written back before the first element.
Here the first element takes the last room in slice 0 of L2, so the other block's byte in the second element's line goes to host
memory, where this block reads it; with both lines written back first, L2 keeps it under the other block's key. -/
theorem not_tilesMoveThroughTheirRecords : ¬ Obligations.TilesMoveThroughTheirRecords := by
  rintro ⟨-, -, -, -, h⟩
  obtain ⟨u, hu, heff⟩ := h 0 0 1 (storing nearlyFull) (storing nearlyFull) columnRecord [0, 0, 0, 0, 0] columnLeaves
    Reservation.noConfusion (storing_mxRecord _) (storing_mxLeaves _) rfl (Option.some_ne_none (storing nearlyFull).dev)
  obtain ⟨-, -, -, hbytes⟩ := heff _ rfl
  obtain ⟨v, hv, hdev⟩ := exec_accst_storing nearlyFull
  have huv : u.mxNext.dev = v.mxNext.dev := by
    injection hu.symm.trans hv with huv
    rw [huv]
  have hudev : u.dev = storedDev nearlyFull := huv.trans hdev
  have hread := (hbytes (by simp [columnLeaves, hostPage])).2 _ not_storedBy_column
  rw [hudev, settled_column] at hread
  have hclash : (0x55 : Byte) = 0 := homeByte_storedDev.symm.trans (hread.trans homeByte_settledDev)
  exact absurd hclash (by decide)

end Sys2Proof.Machine

/-! PROOFS. The split stack (O11; 08 R151, 09 R177-R182): the topmost entry of a kind, an emptied slot, `br.div`, `rejoin.set`
and `rejoin`. -/

namespace Sys2Proof.Machine

open Sys2Proof Sys2Proof.Machine Sys2Proof.Claims

/-! ## The topmost entry of a kind (R177) -/

/-- What a test selects ends with the topmost element that passes it. -/
theorem filter_append_cons_of_none {α : Type} {p : α → Bool} {lower upper : List α} {x : α} (hx : p x = true)
    (hu : ∀ y ∈ upper, p y = false) : (lower ++ x :: upper).filter p = lower.filter p ++ [x] := by
  have hnone : upper.filter p = [] := List.filter_eq_nil_iff.2 fun y hy => by simp [hu y hy]
  rw [List.filter_append, List.filter_cons_of_pos hx, hnone]

theorem topmost_append_cons {p : Path → Bool} {lower upper : List Path} {x : Path} (hx : p x = true)
    (hu : ∀ y ∈ upper, p y = false) : topmost (lower ++ x :: upper) p = some lower.length := by
  have hz : ∀ e ∈ upper.zipIdx (lower.length + 1), p e.1 = false := fun e he => hu _ (List.fst_mem_of_mem_zipIdx he)
  rw [topmost, List.zipIdx_append, List.zipIdx_cons, Nat.zero_add,
    filter_append_cons_of_none (p := fun e : Path × Nat => p e.1) hx hz]
  simp

theorem topmost_eq_none {p : Path → Bool} {l : List Path} (h : ∀ y ∈ l, p y = false) : topmost l p = none := by
  have hz : (l.zipIdx.filter fun e => p e.1) = [] :=
    List.filter_eq_nil_iff.2 fun e he => by simp [h _ (List.fst_mem_of_mem_zipIdx he)]
  rw [topmost, hz]
  rfl

theorem dropAt_append_cons {α : Type} (lower upper : List α) (x : α) :
    dropAt (lower ++ x :: upper) lower.length = lower ++ upper := by
  induction lower with
  | nil => rfl
  | cons y l ih => exact congrArg (y :: ·) ih

theorem modAt_append_cons {α : Type} (lower upper : List α) (x : α) (f : α → α) :
    modAt (lower ++ x :: upper) lower.length f = lower ++ f x :: upper := by
  induction lower with
  | nil => rfl
  | cons y l ih => exact congrArg (y :: ·) ih

/-- The frame at which the issuing slot arrives, as `rejoin` tests it (R180). -/
theorem arrivesAt_iff (s : State) (f : Path) :
    (f.waiting && decide (f.pcw = s.clauseAddr) && decide (s.slot.act &&& ~~~ f.rjm = 0)) = true ↔ ArrivesAt s f := by
  simp only [ArrivesAt, Encloses, Bool.and_eq_true, decide_eq_true_eq]
  tauto

theorem arrivalFrame_none {s : State} (h : ∀ f, f ∈ s.grp.stack → ¬ ArrivesAt s f) :
    arrivalFrame s.grp.stack s.clauseAddr s.slot.act = none :=
  topmost_eq_none fun f hf => Bool.eq_false_iff.2 (mt (arrivesAt_iff s f).1 (h f hf))

theorem arrivalFrame_topmost {s : State} {lower upper : List Path} {f : Path}
    (h : Topmost (ArrivesAt s) s.grp.stack lower f upper) :
    arrivalFrame s.grp.stack s.clauseAddr s.slot.act = some lower.length := by
  obtain ⟨hl, hf, hu⟩ := h
  rw [hl]
  exact topmost_append_cons ((arrivesAt_iff s f).2 hf) fun y hy => Bool.eq_false_iff.2 (mt (arrivesAt_iff s y).1 (hu y hy))

theorem encloses_iff (m : Mask) (f : Path) : (f.waiting && decide (m &&& ~~~ f.rjm = 0)) = true ↔ Encloses m f := by
  simp [Encloses]

/-- RJM of the topmost frame around m. -/
theorem enclosing_topmost {l lower upper : List Path} {m : Mask} {x : Path} (h : Topmost (Encloses m) l lower x upper) :
    enclosing l m = x.rjm := by
  obtain ⟨hl, hx, hu⟩ := h
  have hnone : ∀ y ∈ upper, (y.waiting && decide (m &&& ~~~ y.rjm = 0)) = false := fun y hy =>
    Bool.eq_false_iff.2 (mt (encloses_iff m y).1 (hu y hy))
  rw [enclosing, hl, filter_append_cons_of_none (p := fun y : Path => y.waiting && decide (m &&& ~~~ y.rjm = 0))
    ((encloses_iff m x).2 hx) hnone]
  simp

theorem enclosing_none {l : List Path} {m : Mask} (h : ∀ x, x ∈ l → ¬ Encloses m x) : enclosing l m = 0 := by
  rw [enclosing, List.filter_eq_nil_iff.2 fun x hx => mt (encloses_iff m x).1 (h x hx)]
  rfl

/-! ## Changes of slots and stack -/

theorem changesOnly_paths_trans {s t u : State} (hst : ChangesOnly [.paths] s t) (htu : ChangesOnly [.paths] t u) :
    ChangesOnly [.paths] s u := by
  rw [hst] at htu
  exact htu

theorem changesOnly_groupSlot (s : State) (k : Bool) (f : Slot → Slot) :
    ChangesOnly [.paths] s { s with grp := s.grp.onSlot k f } := by
  obtain ⟨x, y, h⟩ := s.grp.onSlot_form k f
  rw [h]
  rfl

/-- The group's split stack replaced. -/
def State.withStack (s : State) (l : List Path) : State := s.onGrp fun g => { g with stack := l }

theorem State.withStack_only (s : State) (l : List Path) : ChangesOnly [.paths] s (s.withStack l) := rfl

@[simp] theorem State.withStack_k (s : State) (l : List Path) : (s.withStack l).k = s.k := rfl
@[simp] theorem State.withStack_slot (s : State) (l : List Path) : (s.withStack l).slot = s.slot := rfl
@[simp] theorem State.withStack_stack (s : State) (l : List Path) : (s.withStack l).grp.stack = l := rfl
@[simp] theorem State.withStack_groupSlot (s : State) (l : List Path) : (s.withStack l).grp.slot = s.grp.slot := rfl
@[simp] theorem State.withStack_live (s : State) (l : List Path) : (s.withStack l).grp.live = s.grp.live := rfl
@[simp] theorem State.withStack_meld (s : State) (l : List Path) : (s.withStack l).grp.meld = s.grp.meld := rfl

/-! ## Filling an empty slot (R151) -/

theorem takeTop_waiting {l : List Path} (h : ∀ y, y ∈ l → y.waiting = true) : takeTop l = none := by
  induction l with
  | nil => rfl
  | cons p t ih =>
    rw [takeTop, ih fun y hy => h y (List.mem_cons_of_mem p hy)]
    exact if_pos (h p List.mem_cons_self)

theorem takeTop_topmost {l lower upper : List Path} {x : Path}
    (h : Topmost (fun y => y.waiting = false) l lower x upper) : takeTop l = some (x, lower ++ upper) := by
  obtain ⟨rfl, hx, hu⟩ := h
  induction lower with
  | nil =>
    rw [List.nil_append, takeTop, takeTop_waiting fun y hy => eq_true_of_ne_false (hu y hy)]
    simp [hx]
  | cons p t ih => rw [List.cons_append, takeTop, ih]; rfl

/-- An emptied slot takes the topmost path above the handler's depth (log 18), or stays empty. -/
theorem Group.fill_empty (g : Group) (k : Bool) : (g.onSlot k fun _ => {}).fill k =
    match takeTop (g.stack.drop g.stackBase) with
    | some (p, t) => { g.onSlot k fun _ => p.toSlot with stack := g.stack.take g.stackBase ++ t }
    | none => g.onSlot k fun _ => {} := by
  cases k <;> rfl

theorem Group.fill_empty_only (g : Group) (k : Bool) : ∃ x l,
    (g.onSlot k fun _ => {}).fill k = { g.onSlot k fun _ => x with stack := l } := by
  rw [Group.fill_empty]
  split
  · exact ⟨_, _, rfl⟩
  · exact ⟨{}, g.stack, by cases k <;> rfl⟩

theorem filledFrom_fill_empty {u : State} {g : Group} {k : Bool} (hu : u.grp = (g.onSlot k fun _ => {}).fill k) :
    FilledFrom u k (g.stack.take g.stackBase) (g.stack.drop g.stackBase) := by
  rw [Group.fill_empty] at hu
  constructor
  · intro lower x upper h
    rw [takeTop_topmost h] at hu
    rw [hu]
    exact ⟨Group.slot_onSlot_self g k _, rfl⟩
  · intro h
    rw [takeTop_waiting h] at hu
    rw [hu]
    exact ⟨Group.slot_onSlot_self g k _, (Group.onSlot_stack g k _).trans (List.take_append_drop ..).symm⟩

/-- The issuing slot emptied: what it had due has settled, and the slot fills from the stack. -/
theorem State.emptySlot_form (s : State) : ∃ m a b pa pb, s.emptySlot = { s with
    grp := (({ s.grp with meld := m, mapA := a, mapB := b, mapPA := pa, mapPB := pb } : Group).onSlot s.k fun _ => {}).fill
      s.k } := by
  obtain ⟨a, b, pa, pb, h⟩ := (s.onSlot fun x => { x with act := 0 }).leave_form s.slot.pc
  refine ⟨(s.onSlot fun x => { x with act := 0 }).grp.meldDue s.k (s.onSlot fun x => { x with act := 0 }).slot.due,
    a, b, pa, pb, ?_⟩
  rw [State.emptySlot, h]
  cases hk : s.k <;> simp [State.onSlot, State.onGrp, Group.onSlot, hk]

/-- Nothing but the issuing slot, the stack and what was due changes. -/
theorem State.emptySlot_only (s : State) : ChangesOnly [.paths] s s.emptySlot ∧
    s.emptySlot.grp.slot (!s.k) = s.grp.slot (!s.k) ∧ s.emptySlot.grp.live = s.grp.live := by
  obtain ⟨m, a, b, pa, pb, h⟩ := s.emptySlot_form
  obtain ⟨x, l, hf⟩ := Group.fill_empty_only { s.grp with meld := m, mapA := a, mapB := b, mapPA := pa, mapPB := pb } s.k
  rw [h, hf]
  refine ⟨?_, by cases s.k <;> rfl, by cases s.k <;> rfl⟩
  obtain ⟨y, z, hs⟩ := Group.onSlot_form { s.grp with meld := m, mapA := a, mapB := b, mapPA := pa, mapPB := pb } s.k fun _ => x
  rw [hs]
  rfl

theorem State.emptySlot_filledFrom (s : State) :
    FilledFrom s.emptySlot s.k (s.grp.stack.take s.grp.stackBase) (s.grp.stack.drop s.grp.stackBase) := by
  obtain ⟨m, a, b, pa, pb, h⟩ := s.emptySlot_form
  exact filledFrom_fill_empty (g := { s.grp with meld := m, mapA := a, mapB := b, mapPA := pa, mapPB := pb })
    (congrArg State.grp h)

/-! ## `br.div` (R179) -/

/-- The lanes chosen are those the model's predicate selects. -/
theorem choosing_eq {s : State} {p : PReg} {n : Bool} {br : Mask} (h : Chosen s p n br) : s.choosing p n = br :=
  eq_maskOf fun L hL => (h L hL).trans (by simp [bne])

/-- Outside a region only active lanes are chosen. -/
theorem chosen_active {s : State} {p : PReg} {n : Bool} {br : Mask} (hr : s.inRegion = false) (h : Chosen s p n br) (L : Nat)
    (hL : L < 32) (hb : inM br L = true) : inM s.slot.act L = true := by
  have hp := ((h L hL).1 hb).1
  rw [State.part, State.onPath, hr] at hp
  simp only [inM, BitVec.getLsbD_and, Bool.and_eq_true] at hp
  exact hp.1

/-- No active lane falls through exactly where all of them branch. -/
theorem fallThrough_eq_zero {act br : Mask} (h : ∀ L, L < 32 → inM br L = true → inM act L = true) :
    act &&& ~~~ br = 0 ↔ br = act := by
  constructor
  · intro h0
    apply BitVec.eq_of_getLsbD_eq
    intro L hL
    have hbit := congrArg (fun m : Mask => m.getLsbD L) h0
    simp only [BitVec.getLsbD_and, BitVec.getLsbD_not, hL, decide_true, Bool.true_and] at hbit
    have := h L hL
    simp only [inM] at this
    cases hb : br.getLsbD L <;> simp_all
  · rintro rfl
    simp

/-- The path that branching lanes take with them (R179). -/
def State.branchPath (s : State) (br : Mask) (target : DWord) : Path :=
  { pcw := target, rjpc := s.slot.rjpc, act := br, rjm := s.slot.rjm, fmt := s.slot.fmt, fpstat := s.slot.fpstat }

/-- Lanes that branch while others fall through. -/
theorem State.splitAt_apart {s : State} {br : Mask} (h0 : br ≠ 0) (hft : s.slot.act &&& ~~~ br ≠ 0) (target : DWord) :
    s.splitAt br target = match s.grp.place s.k (s.branchPath br target) with
      | none => s.violation cSPLIT_STACK_OVERFLOW
      | some g => (({ s with grp := g }).onSlot fun x => { x with act := s.slot.act &&& ~~~ br }).leave (s.clauseAddr + 32) := by
  rw [State.splitAt, if_neg h0, if_neg hft]
  rfl

theorem exec_brDiv_chosen {p : PReg} {n : Bool} {o : BitVec 20} {s : State} {br : Mask} (hr : s.inRegion = false)
    (hb : s.blocked s.part [.p p] [] = none) (hc : Chosen s p n br) :
    exec (.brDiv p n o) s = .next (s.splitAt br (clauseAt s (o.signExtend 64))) := by
  rw [exec_brDiv, execBrDiv, hr, if_neg Bool.false_ne_true, State.withOperands_ready _ _ _ _ _ hb, consume_noVector rfl,
    choosing_eq hc]
  rfl

/-- The branching lanes take the other slot where it is empty. -/
theorem Group.place_otherSlot {g : Group} {k : Bool} (h : (g.slot (!k)).act = 0) (x : Path) :
    g.place k x = some (g.onSlot (!k) fun _ => x.toSlot) := if_pos h

theorem Group.place_push {g : Group} {k : Bool} (h : (g.slot (!k)).act ≠ 0) (hl : g.stack.length < 64) (x : Path) :
    g.place k x = some { g with stack := g.stack ++ [x] } := by
  rw [Group.place, if_neg h, if_neg (by omega)]

theorem Group.place_full {g : Group} {k : Bool} (h : (g.slot (!k)).act ≠ 0) (hl : 64 ≤ g.stack.length) (x : Path) :
    g.place k x = none := by
  rw [Group.place, if_neg h, if_pos hl]

theorem divergenceSplitsTheSlot : DivergenceSplitsTheSlot := by
  intro p n o s br hr hb hc
  rw [TrapsWhole, exec_brDiv_chosen hr hb hc]
  have hall := fallThrough_eq_zero (chosen_active hr hc)
  refine ⟨fun h0 => ?_, fun h0 h1 => ?_, fun h0 h1 hroom => ?_, fun h0 h1 hother hfull => ?_⟩
  · rw [State.splitAt, if_pos h0]
  · rw [State.splitAt, if_neg h0, if_pos (hall.2 h1)]
  · rw [State.splitAt_apart h0 (mt hall.1 h1)]
    by_cases hother : (s.grp.slot (!s.k)).act = 0
    · rw [Group.place_otherSlot hother]
      refine ⟨_, rfl, changesOnly_paths_trans (changesOnly_groupSlot s _ _) (State.onSlot_only _ _), ?_, by simp, by simp,
        s.branchPath br _, rfl, rfl, rfl, rfl, rfl, rfl, rfl, ?_⟩
      · unfold State.slot
        cases s.k <;> rfl
      · rw [if_pos hother]
        cases s.k <;> exact ⟨rfl, rfl⟩
    · rw [Group.place_push hother (hroom.resolve_left hother)]
      refine ⟨((s.withStack _).onSlot _), rfl, changesOnly_paths_trans (s.withStack_only _) (State.onSlot_only _ _), ?_, by simp,
        by simp, s.branchPath br _, rfl, rfl, rfl, rfl, rfl, rfl, rfl, ?_⟩
      · simp
      · rw [if_neg hother]
        exact ⟨Group.slot_onSlot_other .., Group.onSlot_stack ..⟩
  · rw [State.splitAt_apart h0 (mt hall.1 h1), Group.place_full hother hfull]
    rfl

/-! ## REJOIN_DEADLOCK (R182) -/

/-- A waiting frame that some lanes have reached. -/
def Path.hasArrivals (x : Path) : Bool := x.waiting && x.act != 0

/-- The number whose bit j says whether entry j is such a frame. -/
def arrivalBits (l : List Path) : Nat := l.zipIdx.foldl (fun m e => if e.1.hasArrivals then m + 2 ^ e.2 else m) 0

theorem waitingFrames_eq (l : List Path) : waitingFrames l = dw (arrivalBits l) := rfl

theorem arrivalBits_append (l : List Path) (x : Path) :
    arrivalBits (l ++ [x]) = if x.hasArrivals then arrivalBits l + 2 ^ l.length else arrivalBits l := by
  simp [arrivalBits, List.zipIdx_append]

theorem arrivalBits_lt (l : List Path) : arrivalBits l < 2 ^ l.length := by
  induction l using List.reverseRecOn with
  | nil => exact Nat.one_pos
  | append_singleton l x ih =>
    rw [arrivalBits_append, List.length_append, List.length_singleton, Nat.pow_succ]
    split <;> omega

theorem testBit_arrivalBits (l : List Path) (j : Nat) :
    (arrivalBits l).testBit j = true ↔ ∃ x, l[j]? = some x ∧ x.hasArrivals = true := by
  induction l using List.reverseRecOn with
  | nil => simp [arrivalBits]
  | append_singleton l x ih =>
    have hbound := arrivalBits_lt l
    have hnew : (arrivalBits l).testBit l.length = false := Nat.testBit_lt_two_pow hbound
    rw [arrivalBits_append]
    rcases Nat.lt_trichotomy j l.length with hj | rfl | hj
    · rw [List.getElem?_append_left hj, ← ih]
      split
      · rw [Nat.add_comm, Nat.testBit_two_pow_add_gt hj]
      · rfl
    · rw [List.getElem?_concat_length]
      split
      · rw [Nat.add_comm, Nat.testBit_two_pow_add_eq, hnew]
        simp_all
      · simp_all
    · have hge : (2 : Nat) ^ (l.length + 1) ≤ 2 ^ j := Nat.pow_le_pow_right (by omega) hj
      have hsum : (if x.hasArrivals then arrivalBits l + 2 ^ l.length else arrivalBits l) < 2 ^ j := by
        rw [Nat.pow_succ] at hge
        split <;> omega
      rw [Nat.testBit_lt_two_pow hsum, List.getElem?_eq_none (by simp; omega)]
      simp

theorem waitingFrames_bit (l : List Path) {j : Nat} (hj : j < 64) :
    (waitingFrames l).getLsbD j = true ↔ ∃ x, l[j]? = some x ∧ x.waiting = true ∧ x.act ≠ 0 := by
  rw [waitingFrames_eq, dw, BitVec.getLsbD_ofNat, decide_eq_true hj, Bool.true_and, testBit_arrivalBits]
  simp [Path.hasArrivals]

/-- An arrival is stuck where the other slot is empty and no path stands above the handler's depth (log 18). -/
theorem Group.stuck_iff (g : Group) (k : Bool) :
    g.stuck k = true ↔ (g.slot (!k)).act = 0 ∧ ∀ y, y ∈ g.stack.drop g.stackBase → y.waiting = true := by
  simp [Group.stuck]

/-! ## `rejoin.set` and `rejoin` (R178, R180, R182) -/

theorem rejoinSet_pushes {o : BitVec 20} {s : State} (hr : s.inRegion = false) (hl : s.grp.stack.length < 64) :
    Completes (.rejoinSet o) s fun u =>
      ChangesOnly [.paths] s u ∧ u.grp.slot (!s.k) = s.grp.slot (!s.k) ∧ u.grp.live = s.grp.live ∧ u.grp.meld = s.grp.meld ∧
      u.slot = { s.slot with rjpc := clauseAt s (o.signExtend 64), rjm := s.slot.act } ∧
      u.grp.stack = s.grp.stack ++ [{ pcw := clauseAt s (o.signExtend 64), rjpc := s.slot.rjpc, act := 0, rjm := s.slot.act
                                      fmt := s.slot.fmt, fpstat := s.slot.fpstat, waiting := true }] := by
  rw [Completes, exec_rejoinSet, execRejoinSet, hr, if_neg Bool.false_ne_true, if_neg (by omega)]
  exact ⟨(s.withStack _).onSlot _, rfl, changesOnly_paths_trans (s.withStack_only _) (State.onSlot_only _ _),
    Group.slot_onSlot_other .., by simp, by simp, by rw [State.slot_onSlot]; rfl, by simp; rfl⟩

theorem rejoinSet_overflows {o : BitVec 20} {s : State} (hr : s.inRegion = false) (hl : 64 ≤ s.grp.stack.length) :
    TrapsWhole (.rejoinSet o) s cSPLIT_STACK_OVERFLOW 0 := by
  rw [TrapsWhole, exec_rejoinSet, execRejoinSet, hr, if_neg Bool.false_ne_true, if_pos hl]
  rfl

theorem rejoin_noFrame {s : State} (hr : s.inRegion = false) (h : ∀ f, f ∈ s.grp.stack → ¬ ArrivesAt s f) :
    exec .rejoin s = .next s.advance := by
  rw [exec_rejoin, execRejoin, hr, if_neg Bool.false_ne_true, arrivalFrame_none h]

section
variable {s : State} {lower upper : List Path} {f : Path}

theorem rejoin_arrives (hr : s.inRegion = false) (h : Topmost (ArrivesAt s) s.grp.stack lower f upper) :
    exec .rejoin s = .next (s.arrive lower.length f) := by
  have hnth : nth {} s.grp.stack lower.length = f := nth_of_getElem? (by rw [h.1]; simp)
  rw [exec_rejoin, execRejoin, hr, if_neg Bool.false_ne_true, arrivalFrame_topmost h]
  simp only [hnth]

/-- The last lanes to arrive leave a complete frame with all of its lanes. -/
theorem rejoin_completes (hr : s.inRegion = false) (h : Topmost (ArrivesAt s) s.grp.stack lower f upper)
    (hfull : f.act ||| s.slot.act = f.rjm) : Completes .rejoin s fun u =>
      ChangesOnly [.paths] s u ∧ u.grp.slot (!s.k) = s.grp.slot (!s.k) ∧ u.grp.live = s.grp.live ∧
      u.grp.meld = s.grp.meld ∧ u.grp.stack = lower ++ upper ∧ u.slot.act = f.rjm ∧ u.slot.fmt = f.fmt ∧
      u.slot.fpstat = f.fpstat ||| s.slot.fpstat ∧ u.slot.rjpc = f.rjpc ∧
      u.slot.rjm = enclosing (lower ++ upper) f.rjm := by
  have hdrop : dropAt s.grp.stack lower.length = lower ++ upper := by rw [h.1, dropAt_append_cons]
  rw [Completes, rejoin_arrives hr h, State.arrive]
  simp only [if_pos hfull, hdrop]
  exact ⟨(s.withStack _).onSlot _, rfl, changesOnly_paths_trans (s.withStack_only _) (State.onSlot_only _ _),
    Group.slot_onSlot_other .., by simp, by simp, by simp, by simp, by simp, by simp, by simp, by simp⟩

/-- Lanes that wait in their frame leave the slot to the topmost path of the stack. -/
theorem rejoin_waits (hr : s.inRegion = false) (h : Topmost (ArrivesAt s) s.grp.stack lower f upper)
    (hpart : f.act ||| s.slot.act ≠ f.rjm) (hgo : ¬ s.grp.stuck s.k = true) :
    ∃ u, exec .rejoin s = .next u ∧ ChangesOnly [.paths] s u ∧ u.grp.slot (!s.k) = s.grp.slot (!s.k) ∧
      u.grp.live = s.grp.live ∧
      ∃ stack, stack = lower ++ { f with act := f.act ||| s.slot.act, fpstat := f.fpstat ||| s.slot.fpstat
                                         rslot := BitVec.ofNat 3 s.slotIdx } :: upper ∧
        FilledFrom u s.k (stack.take s.grp.stackBase) (stack.drop s.grp.stackBase) := by
  have hmod : s.arrive lower.length f = (s.withStack (modAt s.grp.stack lower.length fun p =>
      { p with act := f.act ||| s.slot.act, fpstat := f.fpstat ||| s.slot.fpstat
               rslot := BitVec.ofNat 3 s.slotIdx })).emptySlot := by
    rw [State.arrive, if_neg hpart, if_neg hgo]
    rfl
  rw [h.1, modAt_append_cons] at hmod
  rw [rejoin_arrives hr h, hmod]
  obtain ⟨honly, hother, hlive⟩ := (s.withStack _).emptySlot_only
  exact ⟨_, rfl, changesOnly_paths_trans (s.withStack_only _) honly, hother, hlive, _, rfl, State.emptySlot_filledFrom _⟩

theorem rejoin_deadlocks (hr : s.inRegion = false) (h : Topmost (ArrivesAt s) s.grp.stack lower f upper)
    (hpart : f.act ||| s.slot.act ≠ f.rjm) (hstuck : s.grp.stuck s.k = true) :
    exec .rejoin s = .next (s.raise
      { cause := cREJOIN_DEADLOCK, mask := s.slot.act, path := 0, info0 := s.wordInfo, info1 := waitingFrames s.grp.stack
        info2 := f.pcw, info3 := f.rjm ++ f.act }) := by
  rw [rejoin_arrives hr h, State.arrive, if_neg hpart, if_pos hstuck]

end

theorem rejoinGathersTheLanesOfItsFrame : RejoinGathersTheLanesOfItsFrame := by
  refine ⟨fun o s => rejoinSet_pushes, fun o s => rejoinSet_overflows, fun s => rejoin_noFrame,
    fun s lower f upper hr h => ⟨fun hfull => ?_, fun hpart hgo => ?_, fun hpart hother hwait => ?_⟩⟩
  · obtain ⟨u, hu, honly, hother, hlive, hmeld, hstack, hact, hfmt, hfp, hrjpc, hrjm⟩ := rejoin_completes hr h hfull
    exact ⟨u, hu, honly, hother, hlive, hmeld, hstack, hact, hfmt, hfp, hrjpc,
      fun lo x up hx => hrjm.trans (enclosing_topmost hx), fun hnone => hrjm.trans (enclosing_none hnone)⟩
  · refine rejoin_waits hr h hpart fun hstuck => ?_
    obtain ⟨hother, hwait⟩ := (s.grp.stuck_iff s.k).1 hstuck
    rcases hgo with hlive | ⟨y, hy, hpath⟩
    · exact hlive hother
    · exact absurd (hwait y hy) (by simp [hpath])
  · exact ⟨_, rejoin_deadlocks hr h hpart ((s.grp.stuck_iff s.k).2 ⟨hother, hwait⟩), fun j => waitingFrames_bit _⟩

/-- Settles O11: the branching lanes are placed as a path of their own, and an arrival at the topmost frame of its clause completes
it, waits in it or is stuck. -/
theorem divergentPathsSplitAndRejoin : Obligations.DivergentPathsSplitAndRejoin :=
  ⟨divergenceSplitsTheSlot, rejoinGathersTheLanesOfItsFrame⟩

end Sys2Proof.Machine

/-! PROOFS. What the units of a package leave alone that the scheduler reads (10 R201-R229, 11 R234): blocks, launches, slot table,
queue windows and names are found again by key, and releases, sends, vectors and errors do not touch them. -/

namespace Sys2Proof.Machine

open Sys2Proof Sys2Proof.Machine Sys2Proof.Claims

/-! ## Events -/

/-- An event that changes the package by f where it is enabled, and does not occur elsewhere. -/
theorem eventActs_of {i : Instr} {en : Dev → Prop} {eff : Dev → Dev → Prop} (f : Dev → Dev)
    (hyes : ∀ s : State, en s.unfocus.dev → exec i s = .next (s.unfocus.onDev f))
    (hno : ∀ s : State, ¬ en s.unfocus.dev → exec i s = .next s.unfocus) (he : ∀ d, en d → eff d (f d)) : EventActs i en eff := by
  rintro s _ rfl
  exact ⟨fun h => ⟨_, hyes s h, he _ h⟩, hno s⟩

/-- An event of one block that changes the package by f where it finds the block and a check holds of it. -/
theorem blockActs_of {i : Instr} {b : Nat} {en : Dev → Block → Prop} {eff : Dev → Block → Dev → Prop} (c : Dev → Block → Bool)
    (f : Dev → Block → Dev) (hnone : ∀ s : State, findBlock s.unfocus.dev b = none → exec i s = .next s.unfocus)
    (hsome : ∀ (s : State) x, findBlock s.unfocus.dev b = some x →
      exec i s = if c s.unfocus.dev x then .next (s.unfocus.onDev (f · x)) else .next s.unfocus)
    (hc : ∀ d x, c d x = true ↔ en d x) (he : ∀ d x, findBlock d b = some x → en d x → eff d x (f d x)) : BlockActs i b en eff := by
  rintro s _ rfl
  refine ⟨fun x hx h => ⟨_, (hsome s x hx).trans (if_pos ((hc _ _).2 h)), he _ _ hx h⟩, fun h => ?_⟩
  cases hb : findBlock s.unfocus.dev b with
  | none => exact hnone s hb
  | some x => exact (hsome s x hb).trans (if_neg (mt (hc _ _).1 (h x hb)))

/-! ## Records found by key -/

section
variable {α : Type}

/-- The first record of a key after the first one of a key is changed. -/
theorem find?_modFirst_key (key : α → Nat) (l : List α) (k j : Nat) (f : α → α) (hf : ∀ x, key x = k → key (f x) = k) :
    (modFirst l (fun x => key x = k) f).find? (fun x => key x = j) =
      if j = k then (l.find? fun x => key x = j).map f else l.find? fun x => key x = j := by
  induction l with
  | nil => simp [modFirst]
  | cons x l ih =>
    by_cases hx : key x = k
    · by_cases hj : j = k
      · subst hj; simp [modFirst, hx, hf]
      · simp [modFirst, hx, hf, hj, Ne.symm hj]
    · by_cases hj : key x = j
      · simp [modFirst, hj, hj ▸ hx]
      · simp [modFirst, hx, hj, ih]

/-- The first record of a key after every record that p selects is changed. -/
theorem find?_modIf_key (key : α → Nat) (l : List α) (p : α → Bool) (f : α → α) (hf : ∀ x, key (f x) = key x) (j : Nat) :
    (modIf l p f).find? (fun x => key x = j) = (l.find? fun x => key x = j).map fun x => if p x then f x else x := by
  rw [modIf, List.find?_map]
  congr 2
  funext x
  simp only [Function.comp]
  split <;> simp [hf]

theorem find?_insertBy_other (le : α → α → Bool) (x : α) (l : List α) (p : α → Bool) (h : p x = false) :
    (insertBy le x l).find? p = l.find? p := by
  induction l with
  | nil => simp [insertBy, h]
  | cons y l ih =>
    unfold insertBy
    split
    · rw [List.find?_cons_of_neg (by simp [h])]
    · cases hy : p y <;> simp [hy, ih]

theorem find?_insertBy_self (le : α → α → Bool) (x : α) (l : List α) (p : α → Bool) (h : p x = true)
    (hl : ∀ y, y ∈ l → p y = false) : (insertBy le x l).find? p = some x := by
  induction l with
  | nil => simp [insertBy, h]
  | cons y l ih =>
    unfold insertBy
    split
    · rw [List.find?_cons_of_pos h]
    · rw [List.find?_cons_of_neg (by simp [hl y (by simp)])]
      exact ih fun z hz => hl z (by simp [hz])

/-- Dropping the first equal of each record that p selects drops all of them. -/
theorem foldl_dropFirst_eq [DecidableEq α] (p : α → Bool) (l : List α) :
    (l.filter p).foldl (fun t x => dropFirst t fun y => y = x) l = l.filter fun x => !p x := by
  have keep : ∀ (sel t : List α) y, p y = false → (∀ x, x ∈ sel → p x = true) →
      sel.foldl (fun t x => dropFirst t fun y => y = x) (y :: t) = y :: sel.foldl (fun t x => dropFirst t fun y => y = x) t := by
    intro sel
    induction sel with
    | nil => intros; rfl
    | cons x sel ih =>
      intro t y hy hsel
      have hxy : y ≠ x := by
        rintro rfl
        rw [hsel y (by simp)] at hy
        cases hy
      simp only [List.foldl_cons, dropFirst, hxy, decide_false, Bool.false_eq_true, if_false]
      exact ih _ y hy fun z hz => hsel z (by simp [hz])
  induction l with
  | nil => rfl
  | cons y l ih =>
    by_cases hy : p y = true
    · simpa [hy, dropFirst] using ih
    · rw [Bool.not_eq_true] at hy
      rw [List.filter_cons_of_neg (by simp [hy]), keep _ _ y hy fun x hx => (List.mem_filter.1 hx).2, ih]
      simp [hy]

end

theorem findBlock_key {d : Dev} {b : Nat} {x : Block} (h : findBlock d b = some x) : x.key = b := by
  simpa using List.find?_some h

theorem findLaunch_key {d : Dev} {l : Nat} {x : Launch} (h : findLaunch d l = some x) : x.key = l := by
  simpa using List.find?_some h

theorem findBlock_modBlock (d : Dev) (b c : Nat) (f : Block → Block) (hf : ∀ x, x.key = b → (f x).key = b) :
    findBlock (modBlock d b f) c = if c = b then (findBlock d c).map f else findBlock d c :=
  find?_modFirst_key Block.key d.blocks b c f hf

theorem findLaunch_modLaunch (d : Dev) (l k : Nat) (f : Launch → Launch) (hf : ∀ x, x.key = l → (f x).key = l) :
    findLaunch (modLaunch d l f) k = if k = l then (findLaunch d k).map f else findLaunch d k :=
  find?_modFirst_key Launch.key d.launches l k f hf

theorem findLaunch_modLaunch_self {d : Dev} {l : Nat} {x : Launch} (hx : findLaunch d l = some x) (f : Launch → Launch)
    (hf : ∀ x, (f x).key = x.key) : findLaunch (modLaunch d l f) l = some (f x) := by
  rw [findLaunch_modLaunch d l l f fun x h => (hf x).trans h, if_pos rfl, hx]
  rfl

/-- The first block of a key after a block takes the place of all of its own key. -/
theorem find?_putBlock (l : List Block) (x : Block) (c : Nat) :
    (putBlock (l.filter fun y => y.key ≠ x.key) x).find? (fun y => y.key = c) =
      if c = x.key then some x else l.find? fun y => y.key = c := by
  by_cases h : c = x.key
  · rw [if_pos h, putBlock, find?_insertBy_self _ _ _ _ (by simp [h])]
    intro y hy
    simpa [h] using (List.mem_filter.1 hy).2
  · rw [if_neg h, putBlock, find?_insertBy_other _ _ _ _ (by simp [Ne.symm h]), List.find?_filter]
    congr 1
    funext y
    by_cases hy : y.key = c <;> simp [hy, h]

/-- A block that is changed alone. -/
theorem oneBlock_modBlock {d : Dev} {b : Nat} {x : Block} (h : findBlock d b = some x) (f : Block → Block)
    (hf : ∀ x, x.key = b → (f x).key = b) : OneBlock d (modBlock d b f) b (f x) :=
  ⟨rfl, by rw [findBlock_modBlock d b b f hf, if_pos rfl, h]; rfl, fun c hc => by rw [findBlock_modBlock d b c f hf, if_neg hc]⟩

/-! ## Queue windows and the slot table -/

theorem queueOf_modFn (d : Dev) (f : Nat) (g : Func → Func) (hg : ∀ x, (g x).queues = x.queues) (fn q : Nat) :
    queueOf (modFn d f g) fn q = queueOf d fn q := by
  have h := fnAt_modFn d f fn g
  simp only [fnAt] at h
  rw [queueOf, h, queueOf]
  split
  · rw [hg]
  · rfl

theorem queueOf_modQueue (d : Dev) (fn q : Nat) (f : Queue → Queue) (fn' q' : Nat) :
    queueOf (modQueue d fn q f) fn' q' = if fn' = fn ∧ q' = q then f (queueOf d fn' q') else queueOf d fn' q' := by
  have h := fnAt_modFn d fn fn' fun x => { x with queues := Sparse.upd {} x.queues q f }
  simp only [fnAt] at h
  rw [queueOf, modQueue, h]
  by_cases hfn : fn' = fn
  · subst hfn
    by_cases hq : q' = q
    · subst hq; simp [queueOf]
    · simp [queueOf, Sparse.upd, hq]
  · simp [queueOf, hfn]

/-- A queue that is changed alone. -/
theorem oneQueue_modQueue (d : Dev) (fn q : Nat) (f : Queue → Queue) : OneQueue d (modQueue d fn q f) fn q (f (queueOf d fn q)) :=
  ⟨by rw [queueOf_modQueue, if_pos ⟨rfl, rfl⟩], fun p hp => by rw [queueOf_modQueue, if_neg fun h => hp h.2]⟩

theorem bindAt_modBind (d : Dev) (e a : Nat) (f : Bind → Bind) : bindAt (modBind d e f) a = if a = e then f (bindAt d a) else bindAt d a := by
  by_cases h : a = e
  · subst h; simp [bindAt, modBind]
  · simp [bindAt, modBind, Sparse.upd, h]

theorem oneBind_modBind (d : Dev) (e : Nat) (f : Bind → Bind) : OneBind d (modBind d e f) e (f (bindAt d e)) :=
  ⟨by rw [bindAt_modBind, if_pos rfl], fun c hc => by rw [bindAt_modBind, if_neg hc]⟩

/-! ## What the scheduler reads -/

/-- The part of a package that queues, launches, blocks and names are read from. -/
structure Schedule where
  blocks : List Block
  launches : List Launch
  names : Table NameEntry
  queues : Nat → Nat → Queue
  pkg : Nat
  time : Nat
  ages : Nat

def Dev.sched (d : Dev) : Schedule :=
  { blocks := d.blocks, launches := d.launches, names := d.names, queues := queueOf d, pkg := d.pkg, time := d.time, ages := d.ages }

section
variable {d e : Dev} (h : e.sched = d.sched)
include h

theorem Dev.sched_blocks : e.blocks = d.blocks := congrArg Schedule.blocks h
theorem Dev.sched_launches : e.launches = d.launches := congrArg Schedule.launches h
theorem Dev.sched_names : e.names = d.names := congrArg Schedule.names h
theorem Dev.sched_pkg : e.pkg = d.pkg := congrArg Schedule.pkg h
theorem Dev.sched_time : e.time = d.time := congrArg Schedule.time h
theorem Dev.sched_ages : e.ages = d.ages := congrArg Schedule.ages h
theorem Dev.sched_queueOf (fn q : Nat) : queueOf e fn q = queueOf d fn q := congrFun (congrFun (congrArg Schedule.queues h) fn) q
theorem Dev.sched_findBlock (b : Nat) : findBlock e b = findBlock d b := by rw [findBlock, Dev.sched_blocks h, findBlock]
theorem Dev.sched_findLaunch (l : Nat) : findLaunch e l = findLaunch d l := by rw [findLaunch, Dev.sched_launches h, findLaunch]

end

theorem foldl_sched {β : Type} (f : Dev → β → Dev) (hf : ∀ d x, (f d x).sched = d.sched) (l : List β) (d : Dev) :
    (l.foldl f d).sched = d.sched :=
  List.foldlRecOn (motive := fun e : Dev => e.sched = d.sched) l f rfl fun _ h _ _ => (hf ..).trans h

theorem modFn_sched (d : Dev) (f : Nat) (g : Func → Func) (hg : ∀ x, (g x).queues = x.queues) : (modFn d f g).sched = d.sched := by
  have h : queueOf (modFn d f g) = queueOf d := funext fun fn => funext fun q => queueOf_modFn d f g hg fn q
  simp only [Dev.sched, h]
  rfl

theorem HomeOnly.sched {d e : Dev} (h : HomeOnly d e) : e.sched = d.sched := by obtain ⟨_, _, _, _, _, rfl⟩ := h; rfl
theorem FlushOnly.sched {d e : Dev} (h : FlushOnly d e) : e.sched = d.sched := by obtain ⟨_, _, _, _, _, _, _, rfl⟩ := h; rfl

/-! ## Sends, errors and vectors (R349, R428, R438) -/

/-- e is d but for what a send, an error record or a vector leaves behind. -/
def TellsOnly (d e : Dev) : Prop :=
  ∃ inbox ports errors lost interrupts funcs,
    e = { d with inbox := inbox, ports := ports, errors := errors, errorsLost := lost, interrupts := interrupts, funcs := funcs }

theorem postError_form (d : Dev) (kind part unit count addr : Nat) :
    ∃ errors lost, postError d kind part unit count addr = { d with errors := errors, errorsLost := lost } := by
  unfold postError
  split <;> exact ⟨_, _, rfl⟩

theorem sendPacket_form (d : Dev) (p : Packet) : ∃ inbox ports errors lost,
    sendPacket d p = { d with inbox := inbox, ports := ports, errors := errors, errorsLost := lost } := by
  have hroute : ∃ errors lost, checkRoute d p.dst = { d with errors := errors, errorsLost := lost } := by
    unfold checkRoute
    split
    · exact postError_form ..
    · exact ⟨_, _, rfl⟩
  unfold sendPacket
  split
  · exact ⟨_, _, _, _, rfl⟩
  · obtain ⟨x, y, h⟩ := hroute
    rw [h]
    dsimp only
    split
    · exact ⟨_, _, _, _, rfl⟩
    · obtain ⟨u, v, hp⟩ := postError_form { d with errors := x, errorsLost := y } 9
        (fnOf { d with errors := x, errorsLost := y } p.owner) 0 1 p.dst
      rw [hp]
      exact ⟨_, _, _, _, rfl⟩

@[simp] theorem postError_sched (d : Dev) (kind part unit count addr : Nat) : (postError d kind part unit count addr).sched = d.sched := by
  obtain ⟨_, _, h⟩ := postError_form d kind part unit count addr
  rw [h]
  rfl

@[simp] theorem sendPacket_sched (d : Dev) (p : Packet) : (sendPacket d p).sched = d.sched := by
  obtain ⟨_, _, _, _, h⟩ := sendPacket_form d p
  rw [h]
  rfl

theorem sendPacket_tells (d : Dev) (p : Packet) : TellsOnly d (sendPacket d p) := by
  obtain ⟨_, _, _, _, h⟩ := sendPacket_form d p
  exact ⟨_, _, _, _, _, _, h⟩

@[simp] theorem sendShare_sched (d : Dev) (l : Launch) (dst : Nat) (b : PacketBody) : (sendShare d l dst b).sched = d.sched :=
  sendPacket_sched ..

@[simp] theorem tellHome_sched (d : Dev) (o : Nat) (n : DWord) (event core save : Nat) :
    (tellHome d o n event core save).sched = d.sched := sendPacket_sched ..

@[simp] theorem raiseVector_sched (d : Dev) (f vec : Nat) : (raiseVector d f vec).sched = d.sched := by
  unfold raiseVector
  dsimp only
  split
  · exact postError_sched ..
  · split
    · exact modFn_sched _ _ _ fun _ => rfl
    · rfl

theorem raiseVector_tells (d : Dev) (f vec : Nat) : TellsOnly d (raiseVector d f vec) := by
  unfold raiseVector
  dsimp only
  split
  · obtain ⟨_, _, h⟩ := postError_form d 11 f vec 1 0
    exact ⟨_, _, _, _, _, _, h⟩
  · split <;> exact ⟨_, _, _, _, _, _, rfl⟩

/-! ## Home memory, caches and objects (R227, R250-R257) -/

theorem writeBackIf_sched (d : Dev) (p : Dirty → Bool) : (writeBackIf d p).sched = d.sched := (writeBackIf_flushOnly d p).sched

@[simp] theorem releaseAt_sched (d : Dev) (cl : Nat) (sc : Scope) : (releaseAt d cl sc).sched = d.sched :=
  (releaseAt_flushOnly d cl sc).sched

theorem FlushOnly.objs {d e : Dev} (h : FlushOnly d e) : e.objs = d.objs := by obtain ⟨_, _, _, _, _, _, _, rfl⟩ := h; rfl

@[simp] theorem endObj_sched (d : Dev) (o : Obj) : (endObj d o).sched = d.sched := writeBackIf_sched ..

@[simp] theorem releaseObjs_sched (d : Dev) (b : Nat) : (releaseObjs d b).sched = d.sched := foldl_sched _ endObj_sched _ d

theorem endObj_objs (d : Dev) (o : Obj) : (endObj d o).objs = dropFirst d.objs fun x => x = o :=
  congrArg (dropFirst · _) (writeBackIf_flushOnly d _).objs

/-- No object of the block is left. -/
theorem releaseObjs_objs (d : Dev) (b : Nat) : (releaseObjs d b).objs = d.objs.filter fun o => !decide (o.block = b) := by
  rw [← foldl_dropFirst_eq, releaseObjs]
  generalize d.objs.filter (fun o => decide (o.block = b)) = sel
  induction sel generalizing d with
  | nil => rfl
  | cons o sel ih => rw [List.foldl_cons, List.foldl_cons, ih, endObj_objs]

@[simp] theorem returnLent_sched (d : Dev) (b : Block) : (returnLent d b).sched = d.sched := by
  obtain ⟨_, h⟩ := returnLent_only d b
  rw [h]
  rfl

@[simp] theorem modPart_sched (d : Dev) (o : Nat) (f : Partition → Partition) : (modPart d o f).sched = d.sched := rfl

@[simp] theorem freeSave_sched (d : Dev) (b : Block) : (freeSave d b).sched = d.sched := by
  unfold freeSave
  split <;> rfl

@[simp] theorem leaveArea_sched (d : Dev) (b : Block) : (leaveArea d b).sched = d.sched := by
  unfold leaveArea
  split
  · exact foldl_sched (fun d s => storeSpan d b s) (fun _ _ => rfl) _ d
  · rfl

@[simp] theorem startOnCore_sched (d : Dev) (core launch : Nat) : (startOnCore d core launch).sched = d.sched := by
  unfold startOnCore
  dsimp only
  split <;> rfl

@[simp] theorem revokeAll_sched (d : Dev) (b blin : Nat) : (revokeAll d b blin).sched = d.sched := rfl

end Sys2Proof.Machine

/-! PROOFS. The end of a launch, and what the other launches notice of it (10 R202, R208, R210, R223, 23 R417): its blocks go, its
record says so, and every other launch, queue and block stays. -/

namespace Sys2Proof.Machine

open Sys2Proof Sys2Proof.Machine Sys2Proof.Claims

/-! ## Records of launches (R207-R211) -/

/-- Launch y is x but for what the other packages have been told of it, its trigger and its Sidings pages. -/
def Launch.Told (x y : Launch) : Prop :=
  y = { x with triggered := y.triggered, told := y.told, image := y.image, sidings := y.sidings }

theorem Launch.Told.refl (x : Launch) : x.Told x := rfl

theorem Launch.Told.key {x y : Launch} (h : x.Told y) : y.key = x.key := by
  unfold Launch.Told at h
  rw [h]

theorem Launch.Told.trans {x y z : Launch} (h : x.Told y) (g : y.Told z) : x.Told z := by
  unfold Launch.Told at *
  rw [g, h]

/-- Every launch of d is still there in e. -/
def LaunchesTold (d e : Dev) : Prop := ∀ k x, findLaunch d k = some x → ∃ y, findLaunch e k = some y ∧ x.Told y

theorem LaunchesTold.of_eq {d e : Dev} (h : e.launches = d.launches) : LaunchesTold d e :=
  fun k x hx => ⟨x, by rwa [findLaunch, h], .refl x⟩

theorem LaunchesTold.refl (d : Dev) : LaunchesTold d d := .of_eq rfl

theorem LaunchesTold.trans {d e f : Dev} (h : LaunchesTold d e) (g : LaunchesTold e f) : LaunchesTold d f := by
  intro k x hx
  obtain ⟨y, hy, hxy⟩ := h k x hx
  obtain ⟨z, hz, hyz⟩ := g k y hy
  exact ⟨z, hz, hxy.trans hyz⟩

theorem modLaunch_told (d : Dev) (l : Nat) (f : Launch → Launch) (hf : ∀ x : Launch, x.Told (f x)) : LaunchesTold d (modLaunch d l f) := by
  intro k x hx
  rw [findLaunch_modLaunch d l k f fun x h => (hf x).key.trans h, hx]
  split
  · exact ⟨f x, rfl, hf x⟩
  · exact ⟨x, rfl, .refl x⟩

/-- A launch that the other packages have been told of keeps how far it has come. -/
theorem LaunchesTold.launchIs {d e : Dev} (h : LaunchesTold d e) {l : Nat} {st : LaunchState} {status : Nat} (hl : LaunchIs d l st status) :
    LaunchIs e l st status := by
  obtain ⟨x, hx, hst, hs⟩ := hl
  obtain ⟨y, hy, ht⟩ := h l x hx
  exact ⟨y, hy, (congrArg Launch.state ht).trans hst, (congrArg Launch.status ht).trans hs⟩

theorem launchIs_modLaunch {d : Dev} {l : Nat} {x : Launch} (hx : findLaunch d l = some x) (f : Launch → Launch)
    (hf : ∀ x, (f x).key = x.key) : LaunchIs (modLaunch d l f) l (f x).state (f x).status :=
  ⟨f x, findLaunch_modLaunch_self hx f hf, rfl, rfl⟩

/-! ## Triggers (R206, R210) -/

/-- Queue y is x but for what it holds of triggers. -/
def Queue.Marked (x y : Queue) : Prop := y = { x with trigwm := y.trigwm, trigd := y.trigd, skips := y.skips }

theorem Queue.Marked.refl (x : Queue) : x.Marked x := rfl

theorem Queue.Marked.trans {x y z : Queue} (h : x.Marked y) (g : y.Marked z) : x.Marked z := by
  unfold Queue.Marked at *
  rw [g, h]

theorem Queue.raiseMark_marked (n : Nat) (x : Queue) : x.Marked (x.raiseMark n) := by
  induction n generalizing x with
  | zero => exact .refl x
  | succ n ih =>
    unfold Queue.raiseMark
    split
    · exact .refl x
    · split
      · exact .trans (y := { x with trigd := _, trigwm := _ }) rfl (ih _)
      · split
        · exact .trans (y := { x with skips := _, trigwm := _ }) rfl (ih _)
        · exact .refl x

theorem Queue.settle_marked (x : Queue) : x.Marked x.settle := x.raiseMark_marked _

theorem Queue.mark_marked (x : Queue) (i : Nat) : x.Marked (x.mark i) := .trans (y := { x with trigd := _ }) rfl (Queue.settle_marked _)

/-- e is d after launches have triggered, ended elsewhere, or been told to other packages: only launches, queues and what tells of
them differ. -/
structure Announced (d e : Dev) : Prop where
  form : ∃ inbox ports errors lost interrupts funcs launches, e = { d with
    inbox := inbox, ports := ports, errors := errors, errorsLost := lost, interrupts := interrupts, funcs := funcs, launches := launches }
  queues : ∀ fn q, (queueOf d fn q).Marked (queueOf e fn q)
  told : LaunchesTold d e

theorem Announced.refl (d : Dev) : Announced d d := ⟨⟨_, _, _, _, _, _, _, rfl⟩, fun _ _ => .refl _, .refl d⟩

theorem Announced.trans {d e f : Dev} (h : Announced d e) (g : Announced e f) : Announced d f := by
  refine ⟨?_, fun fn q => (h.queues fn q).trans (g.queues fn q), h.told.trans g.told⟩
  obtain ⟨_, _, _, _, _, _, _, rfl⟩ := h.form
  obtain ⟨_, _, _, _, _, _, _, rfl⟩ := g.form
  exact ⟨_, _, _, _, _, _, _, rfl⟩

theorem Announced.foldl {β : Type} (f : Dev → β → Dev) (hf : ∀ d x, Announced d (f d x)) (l : List β) (d : Dev) :
    Announced d (l.foldl f d) :=
  List.foldlRecOn (motive := Announced d) l f (.refl d) fun _ h _ _ => h.trans (hf ..)

theorem TellsOnly.announced {d e : Dev} (h : TellsOnly d e) (hs : e.sched = d.sched) : Announced d e := by
  refine ⟨?_, fun fn q => by rw [Dev.sched_queueOf hs]; exact .refl _, .of_eq (Dev.sched_launches hs)⟩
  obtain ⟨_, _, _, _, _, _, rfl⟩ := h
  exact ⟨_, _, _, _, _, _, _, rfl⟩

theorem sendPacket_announced (d : Dev) (p : Packet) : Announced d (sendPacket d p) := (sendPacket_tells d p).announced (sendPacket_sched d p)

theorem raiseVector_announced (d : Dev) (f vec : Nat) : Announced d (raiseVector d f vec) :=
  (raiseVector_tells d f vec).announced (raiseVector_sched d f vec)

theorem modLaunch_announced (d : Dev) (l : Nat) (f : Launch → Launch) (hf : ∀ x : Launch, x.Told (f x)) : Announced d (modLaunch d l f) :=
  ⟨⟨_, _, _, _, _, _, _, rfl⟩, fun _ _ => .refl _, modLaunch_told d l f hf⟩

theorem modQueue_announced (d : Dev) (fn q : Nat) (f : Queue → Queue) (hf : ∀ x : Queue, x.Marked (f x)) : Announced d (modQueue d fn q f) := by
  refine ⟨⟨_, _, _, _, _, _, _, rfl⟩, fun fn' q' => ?_, .of_eq rfl⟩
  rw [queueOf_modQueue]
  split
  · exact hf _
  · exact .refl _

/-- One launch told to the packages that run blocks of it. -/
def tellLaunch (d : Dev) (l : Launch) : Dev :=
  modLaunch (l.shares.foldl (fun d x => sendShare d l x.pkg (.launchShare d.pkg l.key l.q l.idx l.image)) d) l.key fun x =>
    { x with told := true, image := [] }

theorem tellShares_eq (d : Dev) : tellShares d = d.launches.foldl (fun d l =>
    if l.told || l.shares.isEmpty || l.state != .waiting || !depsMet d l then d else tellLaunch d l) d := rfl

theorem tellLaunch_announced (d : Dev) (l : Launch) : Announced d (tellLaunch d l) :=
  .trans (.foldl _ (fun _ _ => sendPacket_announced ..) l.shares d) (modLaunch_announced _ _ _ fun _ => rfl)

theorem tellLaunch_queueOf (d : Dev) (l : Launch) : queueOf (tellLaunch d l) = queueOf d :=
  congrArg Schedule.queues (foldl_sched _ (fun _ _ => sendShare_sched ..) l.shares d)

theorem tellShares_announced (d : Dev) : Announced d (tellShares d) := by
  rw [tellShares_eq]
  refine .foldl _ (fun d l => ?_) d.launches d
  split
  · exact .refl d
  · exact tellLaunch_announced d l

/-- No queue changes when launches are told. -/
@[simp] theorem queueOf_tellShares (d : Dev) : queueOf (tellShares d) = queueOf d := by
  rw [tellShares_eq]
  refine List.foldlRecOn (motive := fun e : Dev => queueOf e = queueOf d) d.launches _ rfl fun e h l _ => ?_
  split
  · exact h
  · exact (tellLaunch_queueOf e l).trans h

theorem triggerLaunch_announced (d : Dev) (l : Nat) : Announced d (triggerLaunch d l) := by
  unfold triggerLaunch
  split
  · exact .refl d
  · split
    · exact .refl d
    · refine .trans (modLaunch_announced d l (fun x => { x with triggered := true }) fun _ => rfl) ?_
      dsimp only
      split
      · split
        · exact .refl _
        · exact sendPacket_announced ..
      · split
        · exact .refl _
        · exact (modQueue_announced _ _ _ _ fun x => x.mark_marked _).trans (tellShares_announced _)

/-! ## Collectives of a launch that ends (R367, R368, R417) -/

@[simp] theorem parkFault_sched (d : Dev) (o va kind lvl e : Nat) (acc : Acc) (p : Party) : (parkFault d o va kind lvl e acc p).1.sched = d.sched := by
  unfold parkFault
  split
  · rfl
  · exact modFn_sched _ _ _ fun _ => rfl

@[simp] theorem modColl_sched (d : Dev) (id : Nat) (f : Coll → Coll) : (modColl d id f).sched = d.sched := rfl

theorem engWrite_sched {d e : Dev} {o va : Nat} {bytes : List Byte} {tag : Option Nat} (h : engWrite d o va bytes tag = .ok e) :
    e.sched = d.sched := by
  unfold engWrite at h
  cases hr : engRange d o va bytes.length .write tag with
  | error x => rw [hr] at h; cases h
  | ok l =>
    rw [hr] at h
    cases h
    exact List.foldlRecOn (motive := fun s : Dev × List Byte => s.1.sched = d.sched) l _ rfl fun s h x _ =>
      (homeStore_homeOnly ..).sched.trans h

@[simp] theorem writeCard_sched (d : Dev) (cid epoch seq : Nat) : (writeCard d cid epoch seq).sched = d.sched := by
  unfold writeCard
  split
  · split
    · rename_i h
      exact (modColl_sched ..).trans (engWrite_sched h)
    · rfl
    · exact (modColl_sched ..).trans (parkFault_sched ..)
  · rfl

@[simp] theorem endColl_sched (d : Dev) (id : Nat) (state : CollState) (st : CollStatus) : (endColl d id state st).sched = d.sched := by
  unfold endColl
  split
  · rfl
  · split
    · rfl
    · dsimp only
      rw [writeCard_sched]
      split <;> rfl

@[simp] theorem sendNotices_sched (d : Dev) (c : Consist) (coll cid epoch seq : Nat) (st : CollStatus) :
    (sendNotices d c coll cid epoch seq st).sched = d.sched := by
  refine foldl_sched _ (fun d m => ?_) _ d
  split
  · rfl
  · exact sendPacket_sched ..

@[simp] theorem detectAbort_sched (d : Dev) (id code failRank : Nat) : (detectAbort d id code failRank).sched = d.sched := by
  unfold detectAbort
  split
  · rfl
  · split
    · rfl
    · exact (sendNotices_sched ..).trans (endColl_sched ..)

@[simp] theorem abortOfLaunch_sched (d : Dev) (l : Nat) : (abortOfLaunch d l).sched = d.sched :=
  foldl_sched _ (fun _ _ => detectAbort_sched ..) _ d

@[simp] theorem tellStop_sched (d : Dev) (l : Launch) (status : Nat) (cause : BitVec 8) : (tellStop d l status cause).sched = d.sched := by
  have hshares : (if l.told then l.shares.foldl (fun d x => if x.ended then d else
      sendPacket d (mkPacket d x.pkg l.lr.owner 0 (.launchStop d.pkg l.key status cause))) d else d).sched = d.sched := by
    split
    · refine foldl_sched _ (fun d x => ?_) _ d
      split
      · rfl
      · exact sendPacket_sched ..
    · rfl
  unfold tellStop
  dsimp only
  split
  · rw [sendPacket_sched, foldl_sched _ (fun _ _ => sendPacket_sched ..)]
    exact hshares
  · rw [foldl_sched _ (fun _ _ => sendPacket_sched ..)]
    exact hshares

@[simp] theorem terminate_sched (d : Dev) (b : Block) (t : TrapRegs) (e : Ending) : (terminate d b t e).sched = d.sched := by
  unfold terminate
  dsimp only
  split
  · exact modFn_sched _ _ _ fun _ => rfl
  · exact postError_sched ..

/-! ## Blocks that are discarded (R320, R417) -/

/-- e is d with fewer blocks: queues stay, and so do launches but for their Sidings pages. -/
structure Dwindled (d e : Dev) : Prop where
  blocks : ∀ b, b ∈ e.blocks → b ∈ d.blocks
  queues : ∀ fn q, queueOf e fn q = queueOf d fn q
  told : LaunchesTold d e

theorem Dwindled.of_sched {d e : Dev} (h : e.sched = d.sched) : Dwindled d e :=
  ⟨fun _ hb => Dev.sched_blocks h ▸ hb, Dev.sched_queueOf h, .of_eq (Dev.sched_launches h)⟩

theorem Dwindled.refl (d : Dev) : Dwindled d d := .of_sched rfl

theorem Dwindled.trans {d e f : Dev} (h : Dwindled d e) (g : Dwindled e f) : Dwindled d f :=
  ⟨fun b hb => h.blocks b (g.blocks b hb), fun fn q => (g.queues fn q).trans (h.queues fn q), h.told.trans g.told⟩

theorem Dwindled.foldl {β : Type} (f : Dev → β → Dev) (hf : ∀ d x, Dwindled d (f d x)) (l : List β) (d : Dev) : Dwindled d (l.foldl f d) :=
  List.foldlRecOn (motive := Dwindled d) l f (.refl d) fun _ h _ _ => h.trans (hf ..)

theorem freePages_dwindled (d : Dev) (o l : Nat) (ps : List (Nat × Shadow)) : Dwindled d (freePages d o l ps) := by
  refine .foldl _ (fun d x => ?_) ps d
  unfold freePage
  split
  · exact .refl d
  · exact ⟨fun _ hb => hb, fun _ _ => rfl,
      (LaunchesTold.of_eq rfl).trans (modLaunch_told _ _ _ fun _ => rfl)⟩

theorem freeFork_dwindled (d : Dev) (f : Fork) : Dwindled d (freeFork d f) :=
  .trans (.trans (.foldl _ (fun _ _ => freePages_dwindled ..) f.children d) (freePages_dwindled _ f.owner f.launch f.twins)) (.of_sched rfl)

theorem retireName_dwindled (d : Dev) (o : Nat) (n : DWord) : Dwindled d (retireName d o n) := by
  unfold retireName
  split
  · exact .refl d
  · split
    · exact .of_sched (tellHome_sched ..)
    · dsimp only
      split
      · exact ⟨fun _ hb => hb, fun _ _ => rfl, .of_eq rfl⟩
      · exact .refl d

theorem retireNames_dwindled (d : Dev) (b : Block) : Dwindled d (retireNames d b) := .foldl _ (fun _ _ => retireName_dwindled ..) b.groups d

/-- What a block holds beside its place in the list, given back. -/
def giveBack (d : Dev) (x : Block) : Dev :=
  freeSave (leaveArea (returnLent (revokeAll (retireNames
    (releaseObjs (if x.child.isSome then releaseAt d x.cluster .sys else d) x.key) x) x.key x.blin) x) x) x

theorem giveBack_dwindled (d : Dev) (x : Block) : Dwindled d (giveBack d x) := by
  have h0 : (releaseObjs (if x.child.isSome then releaseAt d x.cluster .sys else d) x.key).sched = d.sched := by
    rw [releaseObjs_sched]
    split
    · exact releaseAt_sched ..
    · rfl
  refine .trans (.of_sched h0) (.trans (retireNames_dwindled _ x) (.of_sched ?_))
  simp [giveBack]

theorem dropBlock_some {d : Dev} {b : Nat} {x : Block} (h : findBlock d b = some x) (orphan : Bool) : dropBlock d b orphan =
    { giveBack d x with
      jobs := modIf (giveBack d x).jobs (fun j => j.block = b) fun j => { j with orphan := j.orphan || orphan, origin := some x }
      outstanding := (giveBack d x).outstanding.filter fun o => o.block ≠ b
      joins := (giveBack d x).joins.filter fun j => j.1 ≠ b
      formDone := (giveBack d x).formDone.filter fun f => f.block ≠ b
      blocks := (giveBack d x).blocks.filter fun y => y.key ≠ b } := by
  obtain rfl := findBlock_key h
  simp only [dropBlock, h]
  rfl

/-- A block that is dropped is gone, and no other comes. -/
theorem dropBlock_dwindled (d : Dev) (b : Nat) (orphan : Bool) :
    Dwindled d (dropBlock d b orphan) ∧ ∀ y, y ∈ (dropBlock d b orphan).blocks → y.key ≠ b := by
  cases h : findBlock d b with
  | none =>
    have hd : dropBlock d b orphan = d := by simp only [dropBlock, h]
    rw [hd]
    exact ⟨.refl d, fun y hy => by simpa using List.find?_eq_none.1 h y hy⟩
  | some x =>
    rw [dropBlock_some h]
    obtain ⟨hb, hq, hl⟩ := giveBack_dwindled d x
    exact ⟨⟨fun y hy => hb y (List.mem_filter.1 hy).1, hq, hl⟩, fun y hy => by simpa using (List.mem_filter.1 hy).2⟩

/-- What a fork that is discarded does with one of its children. -/
def discardChild (n : Nat) (f : Fork) (b : Nat) (d : Dev) (c : Child) : Dev :=
  match c.state with
  | .running x => discardBlock n d x
  | .away => sendPacket d (mkPacket d (f.awayPkg d c.idx) f.owner 1 (.childNews b c.idx c.runs 3))
  | _ => d

theorem discardBlock_dwindled (n : Nat) : ∀ (d : Dev) (b : Nat), Dwindled d (discardBlock n d b) := by
  induction n with
  | zero => exact fun d _ => .refl d
  | succ n ih =>
    intro d b
    unfold discardBlock
    refine .trans ?_ (dropBlock_dwindled ..).1
    split
    · exact .refl d
    · rename_i f _
      have hc : Dwindled d (f.children.foldl (discardChild n f b) d) := .foldl _ (fun d c => by
        unfold discardChild
        split
        · exact ih ..
        · exact .of_sched (sendPacket_sched ..)
        · exact .refl d) f.children d
      dsimp only
      split
      · exact hc
      · exact hc.trans (freeFork_dwindled ..)

theorem discardBlock_gone (n : Nat) (d : Dev) (b : Nat) : ∀ y, y ∈ (discardBlock (n + 1) d b).blocks → y.key ≠ b := by
  unfold discardBlock
  exact (dropBlock_dwindled ..).2

/-- Every block of a list of keys is gone when each has been discarded. -/
theorem discardBlocks_gone (l : List Block) (d : Dev) (n : Nat) :
    ∀ y, y ∈ (l.foldl (fun d b => discardBlock (n + 1) d b.key) d).blocks → ∀ b, b ∈ l → y.key ≠ b.key := by
  induction l using List.reverseRecOn with
  | nil => simp
  | append_singleton l b ih =>
    intro y hy c hc
    rw [List.foldl_append, List.foldl_cons, List.foldl_nil] at hy
    rcases List.mem_append.1 hc with hc | hc
    · exact ih y ((discardBlock_dwindled ..).blocks y hy) c hc
    · rw [List.mem_singleton.1 hc]
      exact discardBlock_gone n _ _ y hy

/-! ## The end of a launch (R417, R223) -/

/-- The package when a launch that ends has lost its collectives and blocks. -/
def clearLaunch (d : Dev) (l status : Nat) (cause : BitVec 8) : Dev :=
  (launchBlocks (abortOfLaunch ((findLaunch d l).elim d fun x => tellStop d x status cause) l) l).foldl
    (fun d b => discardBlock 9 d b.key) (abortOfLaunch ((findLaunch d l).elim d fun x => tellStop d x status cause) l)

/-- The package when its forks and bind records have gone too. -/
def clearForks (d : Dev) (l : Nat) : Dev :=
  let d := (d.forks.filter fun f => f.launch = l && f.home.isSome).foldl freeFork d
  { d with
    binds := d.binds.filter fun e => e.2.launch ≠ l || e.2.state = 0
    jobs := modIf d.jobs (fun j => j.launch = l) fun j => { j with dropped := true } }

theorem endLaunch_eq (d : Dev) (l status : Nat) (cause : BitVec 8) : endLaunch d l status cause =
    modLaunch (clearForks (clearLaunch d l status cause) l) l fun x =>
      { x with state := .ending, status := status, cause := cause, shares := if x.told then x.shares else [] } := by
  unfold endLaunch clearLaunch
  cases findLaunch d l <;> rfl

theorem clearLaunch_dwindled (d : Dev) (l status : Nat) (cause : BitVec 8) : Dwindled d (clearLaunch d l status cause) ∧
    ∀ b, b ∈ (clearLaunch d l status cause).blocks → b.launch ≠ l := by
  have h0 : (abortOfLaunch ((findLaunch d l).elim d fun x => tellStop d x status cause) l).sched = d.sched := by
    rw [abortOfLaunch_sched]
    cases findLaunch d l with
    | none => rfl
    | some x => exact tellStop_sched ..
  unfold clearLaunch
  generalize abortOfLaunch ((findLaunch d l).elim d fun x => tellStop d x status cause) l = e at h0
  have hdrop : Dwindled e ((launchBlocks e l).foldl (fun d b => discardBlock 9 d b.key) e) :=
    .foldl _ (fun _ _ => discardBlock_dwindled ..) _ e
  refine ⟨.trans (.of_sched h0) hdrop, fun b hb hl => ?_⟩
  exact discardBlocks_gone _ e 8 b hb b (List.mem_filter.2 ⟨hdrop.blocks b hb, by simpa using hl⟩) rfl

theorem clearForks_dwindled (d : Dev) (l : Nat) : Dwindled d (clearForks d l) := by
  obtain ⟨hb, hq, ht⟩ := Dwindled.foldl _ freeFork_dwindled (d.forks.filter fun f => f.launch = l && f.home.isSome) d
  exact ⟨hb, hq, ht⟩

theorem endLaunch_cleared (d : Dev) (l status : Nat) (cause : BitVec 8) :
    Dwindled d (clearForks (clearLaunch d l status cause) l) := (clearLaunch_dwindled d l status cause).1.trans (clearForks_dwindled _ l)

/-- No block of the launch is left, and none comes. -/
theorem endLaunch_blocks (d : Dev) (l status : Nat) (cause : BitVec 8) {b : Block} (hb : b ∈ (endLaunch d l status cause).blocks) :
    b.launch ≠ l := by
  rw [endLaunch_eq] at hb
  exact (clearLaunch_dwindled d l status cause).2 b ((clearForks_dwindled _ l).blocks b hb)

theorem endLaunch_queueOf (d : Dev) (l status : Nat) (cause : BitVec 8) : queueOf (endLaunch d l status cause) = queueOf d := by
  rw [endLaunch_eq]
  exact funext fun fn => funext fun q => (endLaunch_cleared d l status cause).queues fn q

/-- The launch is ending with its status. -/
theorem endLaunch_ending {d : Dev} {l : Nat} {x : Launch} (hx : findLaunch d l = some x) (status : Nat) (cause : BitVec 8) :
    LaunchIs (endLaunch d l status cause) l .ending status := by
  obtain ⟨y, hy, -⟩ := (endLaunch_cleared d l status cause).told l x hx
  rw [endLaunch_eq]
  exact launchIs_modLaunch hy _ fun _ => rfl

theorem endLaunch_finds {d : Dev} {l k : Nat} (status : Nat) (cause : BitVec 8) (h : ∃ x, findLaunch d k = some x) :
    ∃ x, findLaunch (endLaunch d l status cause) k = some x := by
  obtain ⟨x, hx⟩ := h
  obtain ⟨y, hy, -⟩ := (endLaunch_cleared d l status cause).told k x hx
  rw [endLaunch_eq, findLaunch_modLaunch _ _ _ _ (by exact fun _ h => h), hy]
  split <;> exact ⟨_, rfl⟩

/-- A launch that has ended with a status stays so when one ends with the same. -/
theorem endLaunch_launchIs {d : Dev} {l k status : Nat} {cause : BitVec 8} (h : LaunchIs d k .ending status) :
    LaunchIs (endLaunch d l status cause) k .ending status := by
  obtain ⟨x, hx, hst, hs⟩ := (endLaunch_cleared d l status cause).told.launchIs h
  rw [endLaunch_eq]
  by_cases hk : k = l
  · subst hk
    exact launchIs_modLaunch hx _ fun _ => rfl
  · exact ⟨x, by rw [findLaunch_modLaunch _ _ _ _ (by exact fun _ h => h), if_neg hk, hx], hst, hs⟩

/-- Among launches that end one after another each is then ending with their status. -/
theorem endLaunches_ending {ls : List Launch} {l : Launch} (hl : l ∈ ls) {d : Dev} (hd : ∃ x, findLaunch d l.key = some x)
    (status : Nat) (cause : BitVec 8) : LaunchIs (ls.foldl (fun d l => endLaunch d l.key status cause) d) l.key .ending status := by
  obtain ⟨before, after, rfl⟩ := List.append_of_mem hl
  rw [List.foldl_append, List.foldl_cons]
  obtain ⟨x, hx⟩ := List.foldlRecOn (motive := fun e : Dev => ∃ x, findLaunch e l.key = some x) before _ hd fun _ h k _ =>
    endLaunch_finds (l := k.key) status cause h
  exact List.foldlRecOn (motive := fun e : Dev => LaunchIs e l.key .ending status) after _ (endLaunch_ending hx status cause)
    fun _ h _ _ => endLaunch_launchIs h

end Sys2Proof.Machine

/-! PROOFS. Launch queues (O39; 10 R201-R208): what enabling, kicks, restarts and entries make of a queue's window, and the launch
that an accepted or refused entry leaves. -/

namespace Sys2Proof.Machine

open Sys2Proof Sys2Proof.Machine Sys2Proof.Claims

/-! ## One window -/

theorem oneQueue_after {d e f : Dev} {fn q : Nat} {y : Queue} (h : OneQueue d e fn q y) (he : queueOf f = queueOf e) :
    OneQueue d f fn q y := by rwa [OneQueue, he]

theorem oneQueue_trans {d e f : Dev} {fn q : Nat} {x y : Queue} (h : OneQueue d e fn q x) (g : OneQueue e f fn q y) :
    OneQueue d f fn q y := ⟨g.1, fun p hp => (g.2 p hp).trans (h.2 p hp)⟩

theorem queueOf_of_sched {d e : Dev} (h : e.sched = d.sched) : queueOf e = queueOf d := congrArg Schedule.queues h

theorem isQueue_iff {fn q : Nat} : isQueue fn q = true ↔ fn < 16 ∧ q < 64 := by simp [isQueue]

section
variable {d : Dev} {fn q : Nat}

/-! ## QCFG (R201, R202) -/

/-- The window that a write of QCFG leaves in state 00, before the queue is enabled. -/
def Queue.configured (w : DWord) (x : Queue) : Queue := { x with log2n := bits w.toNat 3 0, host := w.getLsbD 4, vec := bits w.toNat 15 5 }

section
variable {w : DWord}

theorem writeQcfg_enabled (hw : w.getLsbD 16 = true) (h0 : (queueOf d fn q).state ≠ 0) (hen : (queueOf d fn q).enabled = true) :
    writeQcfg d fn q w = d := by
  simp only [writeQcfg, if_neg h0, hw, hen]
  cases d.recovery <;> rfl

theorem writeQcfg_enables (hw : w.getLsbD 16 = true) (h0 : (queueOf d fn q).state = 0) (hen : (queueOf d fn q).enabled = false)
    (hr : d.recovery = false) : writeQcfg d fn q w = enableQueue (modQueue d fn q (Queue.configured w)) fn q := by
  simp only [writeQcfg, if_pos h0, hw, hen]
  exact (if_neg (by simp [modQueue, modFn, hr])).trans (if_pos rfl)

theorem writeQcfg_disables (hw : w.getLsbD 16 = false) (h0 : (queueOf d fn q).state ≠ 0) (hen : (queueOf d fn q).enabled = true) :
    writeQcfg d fn q w = disableQueue d fn q := by
  simp only [writeQcfg, if_neg h0, hw, hen]
  cases d.recovery <;> rfl

end

theorem enableQueue_small (h : (queueOf d fn q).log2n < 4) : OneQueue d (enableQueue d fn q) fn q { queueOf d fn q with cause := 3 } := by
  rw [enableQueue, if_pos h]
  exact oneQueue_modQueue ..

theorem enableQueue_badBase (h : 4 ≤ (queueOf d fn q).log2n) (hb : 2 ^ 39 ≤ (queueOf d fn q).base.toNat ∨
      ((queueOf d fn q).host = false ∧ inPartition d fn (queueOf d fn q).base.toNat (32 * 2 ^ (queueOf d fn q).log2n) = false)) :
    OneQueue d (enableQueue d fn q) fn q { queueOf d fn q with cause := 6 } := by
  rw [enableQueue, if_neg (by omega), if_pos (by simpa using hb)]
  exact oneQueue_modQueue ..

theorem enableQueue_runs (h : 4 ≤ (queueOf d fn q).log2n) (hb : (queueOf d fn q).base.toNat < 2 ^ 39)
    (hp : (queueOf d fn q).host = false → inPartition d fn (queueOf d fn q).base.toNat (32 * 2 ^ (queueOf d fn q).log2n) = true) :
    OneQueue d (enableQueue d fn q) fn q { queueOf d fn q with
      enabled := true, widx := 0, ridx := 0, state := 1, trigwm := 0, drain := false, trigd := [], skips := [] } := by
  rw [enableQueue, if_neg (by omega), if_neg (by simpa using ⟨hb, hp⟩)]
  exact oneQueue_modQueue (detachQueue d fn q) fn q _

/-- The launches that a disable cancels (R202). -/
def cancelled (fn q : Nat) (l : Launch) : Bool :=
  l.fn = fn && l.q = q && !l.detached && l.started = 0 && !l.begun && (l.state = .waiting || l.state = .bound)

theorem disableQueue_eq : disableQueue d fn q = (d.launches.filter (cancelled fn q)).foldl (fun d l => endLaunch d l.key 6 0)
    (modQueue d fn q fun x => { x with enabled := false, state := 0 }) := rfl

theorem disableQueue_oneQueue : OneQueue d (disableQueue d fn q) fn q { queueOf d fn q with enabled := false, state := 0 } := by
  refine oneQueue_after (oneQueue_modQueue d fn q fun x => { x with enabled := false, state := 0 }) ?_
  rw [disableQueue_eq]
  exact List.foldlRecOn (motive := fun e : Dev => queueOf e = queueOf (modQueue d fn q _)) _ _ rfl fun e h l _ =>
    (endLaunch_queueOf e l.key 6 0).trans h

theorem disableQueue_cancels {l : Launch} (hl : findLaunch d l.key = some l) (hc : cancelled fn q l = true) :
    LaunchIs (disableQueue d fn q) l.key .ending 6 := by
  rw [disableQueue_eq]
  exact endLaunches_ending (d := modQueue d fn q _) (List.mem_filter.2 ⟨List.mem_of_find?_eq_some hl, hc⟩) ⟨l, hl⟩ 6 0

theorem exec_qcfgEnable_dev (fn q : Nat) (w : DWord) (s : State) : exec (.qcfgEnable fn q w) s =
    if fn < 16 ∧ q < 64 ∧ w.getLsbD 16 = true then .next (s.unfocus.onDev fun d => writeQcfg d fn q w) else .next s.unfocus := by
  simp only [exec_qcfgEnable, execQcfgEnable, State.noEvent, Bool.and_eq_true, isQueue_iff, and_assoc]

theorem exec_qcfgDisable_dev (fn q : Nat) (w : DWord) (s : State) : exec (.qcfgDisable fn q w) s =
    if fn < 16 ∧ q < 64 ∧ w.getLsbD 16 = false then .next (s.unfocus.onDev fun d => writeQcfg d fn q w) else .next s.unfocus := by
  simp only [exec_qcfgDisable, execQcfgDisable, State.noEvent, Bool.and_eq_true, isQueue_iff, and_assoc, Bool.not_eq_true']

theorem qcfgEnable_acts (fn q : Nat) (w : DWord) : EventActs (.qcfgEnable fn q w) (fun _ => fn < 16 ∧ q < 64 ∧ w.getLsbD 16 = true)
    fun d e => ∀ x y n, x = queueOf d fn q → n = bits w.toNat 3 0 →
      y = { x with log2n := n, host := w.getLsbD 4, vec := bits w.toNat 15 5 } →
      (x.state ≠ 0 → x.enabled = true → e = d) ∧
      (x.state = 0 → x.enabled = false → d.recovery = false →
        (n < 4 → OneQueue d e fn q { y with cause := 3 }) ∧
        (4 ≤ n → 2 ^ 39 ≤ x.base.toNat ∨ (y.host = false ∧ inPartition d fn x.base.toNat (32 * 2 ^ n) = false) →
          OneQueue d e fn q { y with cause := 6 }) ∧
        (4 ≤ n → x.base.toNat < 2 ^ 39 → (y.host = false → inPartition d fn x.base.toNat (32 * 2 ^ n) = true) →
          OneQueue d e fn q { y with
            enabled := true, widx := 0, ridx := 0, state := 1, trigwm := 0, drain := false, trigd := [], skips := [] })) := by
  refine eventActs_of_exec _ (exec_qcfgEnable_dev fn q w) ?_
  rintro d ⟨-, -, hw⟩ x y n rfl rfl rfl
  refine ⟨writeQcfg_enabled hw, fun h0 hen hr => ?_⟩
  have hset := oneQueue_modQueue d fn q (Queue.configured w)
  rw [writeQcfg_enables hw h0 hen hr]
  generalize hd : modQueue d fn q (Queue.configured w) = c at hset
  have hx : queueOf c fn q = (queueOf d fn q).configured w := hset.1
  have hin : inPartition c = inPartition d := by subst hd; rfl
  have henable := @enableQueue_small c fn q
  have hbad := @enableQueue_badBase c fn q
  have hruns := @enableQueue_runs c fn q
  rw [hx] at henable hbad hruns
  rw [hin] at hbad hruns
  exact ⟨fun h => oneQueue_trans hset (henable h), fun h hb => oneQueue_trans hset (hbad h hb),
    fun h hb hp => oneQueue_trans hset (hruns h hb hp)⟩

/-! ## Kicks and restarts (R205, R206) -/

theorem stopQueue_oneQueue (state cause seen : Nat) :
    OneQueue d (stopQueue d fn q state cause seen) fn q { queueOf d fn q with state := state, cause := cause, seen := seen } :=
  oneQueue_after (oneQueue_modQueue ..) (queueOf_of_sched (raiseVector_sched ..))

theorem exec_qkick_dev (fn q : Nat) (w : DWord) (s : State) : exec (.qkick fn q w) s =
    if fn < 16 ∧ q < 64 then .next (s.unfocus.onDev fun d => kickQueue d fn q (bits w.toNat 31 0)) else .next s.unfocus := by
  simp only [exec_qkick, execQkick, State.noEvent, isQueue_iff]

theorem exec_qrestart_dev (fn q : Nat) (w : DWord) (s : State) : exec (.qrestart fn q w) s =
    if fn < 16 ∧ q < 64 then .next (s.unfocus.onDev fun d => tellShares (restartQueue d fn q (bits w.toNat 31 0))) else .next s.unfocus := by
  simp only [exec_qrestart, execQrestart, State.noEvent, isQueue_iff]

theorem qkick_acts (fn q : Nat) (w : DWord) : EventActs (.qkick fn q w) (fun _ => fn < 16 ∧ q < 64)
    fun d e => ∀ x n, x = queueOf d fn q → n = bits w.toNat 31 0 →
      (x.state ≠ 1 → e = d) ∧
      (x.state = 1 → gap n x.ridx ≤ 2 ^ x.log2n → e = { d with funcs := e.funcs } ∧ OneQueue d e fn q { x with widx := n }) ∧
      (x.state = 1 → 2 ^ x.log2n < gap n x.ridx → OneQueue d e fn q { x with state := 2, cause := 2 }) := by
  refine eventActs_of_exec _ (exec_qkick_dev fn q w) ?_
  rintro d - x n rfl rfl
  unfold kickQueue
  dsimp only
  refine ⟨fun h => if_pos h, fun h1 hg => ?_, fun h1 hg => ?_⟩
  · rw [if_neg (by simp [h1]), if_neg (by omega)]
    exact ⟨rfl, oneQueue_modQueue ..⟩
  · rw [if_neg (by simp [h1]), if_pos hg]
    exact stopQueue_oneQueue ..

theorem qrestart_acts (fn q : Nat) (w : DWord) : EventActs (.qrestart fn q w) (fun _ => fn < 16 ∧ q < 64)
    fun d e => ∀ x y n, x = queueOf d fn q → y = queueOf e fn q → n = bits w.toNat 31 0 →
      (x.state < 2 → y = x) ∧ (2 ≤ x.state → 2 ^ 31 ≤ gap n x.ridx → y = { x with cause := 5 }) ∧
      (2 ≤ x.state → gap n x.ridx < 2 ^ 31 → y.ridx = n ∧ y.state = 1 ∧ y.cause = 0 ∧ y.seen = 0 ∧
        y.widx = if 2 ^ 31 ≤ gap x.widx n then n else x.widx) := by
  refine eventActs_of_exec _ (exec_qrestart_dev fn q w) ?_
  rintro d - x y n rfl rfl rfl
  rw [queueOf_tellShares]
  unfold restartQueue
  dsimp only
  refine ⟨fun h => by rw [if_pos h], fun h hg => ?_, fun h hg => ?_⟩
  · rw [if_neg (by omega), if_pos hg, queueOf_of_sched (raiseVector_sched ..), (oneQueue_modQueue ..).1]
  · rw [if_neg (by omega), if_neg (by omega), (oneQueue_modQueue ..).1, Queue.settle_marked]
    exact ⟨rfl, rfl, rfl, rfl, rfl⟩

theorem cancelled_iff {l : Launch} : cancelled fn q l = true ↔
    l.fn = fn ∧ l.q = q ∧ l.detached = false ∧ l.started = 0 ∧ l.begun = false ∧ (l.state = .waiting ∨ l.state = .bound) := by
  simp [cancelled, and_assoc]

theorem qcfgDisable_acts (fn q : Nat) (w : DWord) : EventActs (.qcfgDisable fn q w) (fun _ => fn < 16 ∧ q < 64 ∧ w.getLsbD 16 = false)
    fun d e => (queueOf d fn q).enabled = true → (queueOf d fn q).state ≠ 0 →
      OneQueue d e fn q { queueOf d fn q with enabled := false, state := 0 } ∧
      ∀ l, findLaunch d l.key = some l → l.fn = fn → l.q = q → l.detached = false → l.started = 0 → l.begun = false →
        l.state = .waiting ∨ l.state = .bound → LaunchIs e l.key .ending 6 := by
  refine eventActs_of_exec _ (exec_qcfgDisable_dev fn q w) ?_
  rintro d ⟨-, -, hw⟩ hen h0
  rw [writeQcfg_disables hw h0 hen]
  exact ⟨disableQueue_oneQueue, fun l hl hfn hq hdet hs hb hst =>
    disableQueue_cancels hl (cancelled_iff.2 ⟨hfn, hq, hdet, hs, hb, hst⟩)⟩

/-! ## Entries (R204, R205, R208) -/

theorem systemRead_clean {d : Dev} {key pa n : Nat} (h : poisoned d pa n = false) : systemRead d key pa n = (d, homeBytes d key pa n) := by
  simp [systemRead, h]

theorem passEntry_queueOf (f : Queue → Queue) (hf : ∀ x : Queue, (f x).ridx = x.ridx ∧ (f x).state = x.state ∧ (f x).widx = x.widx) :
    (queueOf (passEntry d fn q f) fn q).ridx = ((queueOf d fn q).ridx + 1) % 2 ^ 32 ∧
    (queueOf (passEntry d fn q f) fn q).state = (queueOf d fn q).state ∧
    (queueOf (passEntry d fn q f) fn q).widx = (queueOf d fn q).widx ∧
    (queueOf (passEntry d fn q f) fn q).drain = (f { queueOf d fn q with ridx := ((queueOf d fn q).ridx + 1) % 2 ^ 32 }).drain := by
  rw [passEntry, (oneQueue_modQueue ..).1, Queue.settle_marked]
  obtain ⟨hr, hs, hw⟩ := hf { queueOf d fn q with ridx := ((queueOf d fn q).ridx + 1) % 2 ^ 32 }
  exact ⟨hr, hs, hw, rfl⟩

/-- The completion word changes nothing that the scheduler reads. -/
theorem writeDone_sched (d : Dev) (l : Launch) (status : Nat) (cause : BitVec 8) : (writeDone d l status cause).sched = d.sched := by
  have h (d : Dev) (key pa : Nat) (b : List Byte) : (systemStore d key pa b).sched = d.sched := (systemStore_homeOnly d key pa b).sched
  unfold writeDone
  dsimp only
  split
  · rw [raiseVector_sched, h, h, writeBackIf_sched]
  · rw [h, h, writeBackIf_sched]

theorem tellEnd_sched (d : Dev) (l : Launch) (status : Nat) (cause : BitVec 8) : (tellEnd d l status cause).sched = d.sched := by
  unfold tellEnd
  split
  · exact writeDone_sched ..
  · dsimp only
    split
    · exact writeBackIf_sched ..
    · rw [sendShare_sched, writeBackIf_sched]

end

end Sys2Proof.Machine

/-! PROOFS. Entries of launch queues (O39; 10 R203-R210): how an entry is read, and what an accepted or refused launch becomes. -/

namespace Sys2Proof.Machine

open Sys2Proof Sys2Proof.Machine Sys2Proof.Claims

/-! ## A launch that ends at once, or waits (R208-R210) -/

section
variable {d : Dev} {l : Launch} {status : Nat} {cause : BitVec 8}

theorem closeLaunch_eq (d : Dev) (l : Launch) (status : Nat) (cause : BitVec 8) : closeLaunch d l status cause =
    triggerLaunch (modLaunch (tellEnd d l status cause) l.key fun x =>
      { x with state := .ended, status := status, cause := cause }) l.key := rfl

theorem closeLaunch_queues (fn q : Nat) : (queueOf d fn q).Marked (queueOf (closeLaunch d l status cause) fn q) := by
  rw [closeLaunch_eq, ← Dev.sched_queueOf (tellEnd_sched d l status cause) fn q]
  exact (triggerLaunch_announced ..).queues fn q

/-- A launch that is closed has ended with its status. -/
theorem closeLaunch_launch {x : Launch} (hx : findLaunch d l.key = some x) :
    ∃ y, findLaunch (closeLaunch d l status cause) l.key = some y ∧
      Launch.Told { x with state := .ended, status := status, cause := cause } y := by
  rw [← Dev.sched_findLaunch (tellEnd_sched d l status cause)] at hx
  rw [closeLaunch_eq]
  exact (triggerLaunch_announced ..).told l.key _ (findLaunch_modLaunch_self hx _ fun _ => rfl)

/-- A launch that another package may run blocks of, and that waits. -/
def openLaunch (d : Dev) (l : Launch) (image : List Byte) : Dev :=
  tellShares (modLaunch d l.key fun y => { y with shares := sharesOf d l.lr, image := image })

theorem openLaunch_queues (image : List Byte) (fn q : Nat) : (queueOf d fn q).Marked (queueOf (openLaunch d l image) fn q) :=
  (tellShares_announced (modLaunch d l.key fun y => { y with shares := sharesOf d l.lr, image := image })).queues fn q

theorem openLaunch_launch {x : Launch} (image : List Byte) (hx : findLaunch d l.key = some x) :
    ∃ y, findLaunch (openLaunch d l image) l.key = some y ∧ Launch.Told { x with shares := sharesOf d l.lr, image := image } y := by
  exact (tellShares_announced _).told l.key _ (findLaunch_modLaunch_self hx _ fun _ => rfl)

end

/-! ## Acceptance (R205, R208) -/

/-- The launch list with one more launch. -/
def addLaunch (d : Dev) (l : Launch) : Dev := { d with launches := d.launches ++ [l], nextLaunch := d.nextLaunch + 1 }

theorem queueOf_addLaunch (d : Dev) (l : Launch) : queueOf (addLaunch d l) = queueOf d := rfl

theorem findLaunch_addLaunch {d : Dev} (hd : FreshKeys d) {l : Launch} (hl : l.key = d.nextLaunch) :
    findLaunch (addLaunch d l) l.key = some l := by
  have hnone : d.launches.find? (fun x => x.key = l.key) = none := by
    rw [List.find?_eq_none]
    intro x hx
    have := hd.1 x hx
    simp only [decide_eq_true_eq]
    omega
  rw [findLaunch, addLaunch, List.find?_append, hnone]
  simp

/-- The launch of an entry of a queue, as its record is read. -/
def entryLaunch (d : Dev) (fn q idx record done : Nat) (b : List Byte) : Launch :=
  { key := d.nextLaunch, fn := fn, q := q, idx := idx, lr := parseLaunch b, record := record, done := done }

section
variable {d : Dev} {fn q idx record done : Nat}

theorem acceptLaunch_of_accepted {c : Dev} {b : List Byte} (hr : systemRead d (fnKey d fn) record 256 = (c, b)) (h : refusal c fn b = none) :
    acceptLaunch d fn q idx record done =
      openLaunch (addLaunch c (entryLaunch c fn q idx record done b)) (entryLaunch c fn q idx record done b) b := by
  simp only [acceptLaunch, hr, h]
  rfl

theorem acceptLaunch_of_refused {c : Dev} {b : List Byte} {st : Nat} (hr : systemRead d (fnKey d fn) record 256 = (c, b))
    (h : refusal c fn b = some st) : acceptLaunch d fn q idx record done =
      closeLaunch (addLaunch c (entryLaunch c fn q idx record done b)) (entryLaunch c fn q idx record done b) st 0 := by
  simp only [acceptLaunch, hr, h]
  rfl

theorem systemRead_queueOf {c : Dev} {key pa n : Nat} {b : List Byte} (hr : systemRead d key pa n = (c, b)) : queueOf c = queueOf d := by
  unfold systemRead at hr
  split at hr
  · cases hr; rfl
  · cases hr; rfl

theorem acceptLaunch_queues (fn' q' : Nat) : (queueOf d fn' q').Marked (queueOf (acceptLaunch d fn q idx record done) fn' q') := by
  cases hr : systemRead d (fnKey d fn) record 256 with
  | mk c b =>
    rw [← systemRead_queueOf hr, ← queueOf_addLaunch c (entryLaunch c fn q idx record done b)]
    cases h : refusal c fn b with
    | none => rw [acceptLaunch_of_accepted hr h]; exact openLaunch_queues ..
    | some st => rw [acceptLaunch_of_refused hr h]; exact closeLaunch_queues ..

/-- The launch of an entry: what it holds of the entry and its record, and how it stands. -/
theorem acceptLaunch_launch (hd : FreshKeys d) (hp : poisoned d record 256 = false) {b : List Byte}
    (hb : b = homeBytes d (fnKey d fn) record 256) : ∃ l, findLaunch (acceptLaunch d fn q idx record done) d.nextLaunch = some l ∧
      l.fn = fn ∧ l.q = q ∧ l.idx = idx ∧ l.record = record ∧ l.done = done ∧ l.lr = parseLaunch b ∧
      (refusal d fn b = none → l.state = .waiting) ∧ ∀ c, refusal d fn b = some c → l.state = .ended ∧ l.status = c := by
  have hr : systemRead d (fnKey d fn) record 256 = (d, b) := hb ▸ systemRead_clean hp
  have hnew := findLaunch_addLaunch hd (l := entryLaunch d fn q idx record done b) rfl
  cases h : refusal d fn b with
  | none =>
    rw [acceptLaunch_of_accepted hr h]
    obtain ⟨y, hy, ht⟩ := openLaunch_launch b hnew
    refine ⟨y, hy, ?_⟩
    rw [ht]
    exact ⟨rfl, rfl, rfl, rfl, rfl, rfl, fun _ => rfl, by simp⟩
  | some st =>
    rw [acceptLaunch_of_refused hr h]
    obtain ⟨y, hy, ht⟩ := closeLaunch_launch (status := st) (cause := 0) hnew
    refine ⟨y, hy, ?_⟩
    rw [ht]
    exact ⟨rfl, rfl, rfl, rfl, rfl, rfl, by simp, fun c hc => ⟨rfl, Option.some.inj hc⟩⟩

/-! ## One entry (R204, R205) -/

/-- Which cores a co-resident unit takes depends on the package only through which core has room. -/
theorem assignInst_congr {d e : Dev} {x : Shape} (h : roomMore d x = roomMore e x) (ls : List Level) (blin : Nat) (cores : List Nat)
    (chosen : List (Nat × Nat)) : assignInst d x ls blin cores chosen = assignInst e x ls blin cores chosen := by
  induction ls generalizing blin cores chosen with
  | nil => simp only [assignInst, h]
  | cons l ls ih => simp only [assignInst, ih]

theorem corFits_modQueue (d : Dev) (fn q : Nat) (f : Queue → Queue) (r : LaunchRec) : corFits (modQueue d fn q f) r = corFits d r := by
  have hp : partOf (modQueue d fn q f) r.owner = partOf d r.owner := rfl
  have ha (l : List Level) (cores : List Nat) :
      assignInst { modQueue d fn q f with blocks := [], lent := [] } (r.shape 0) l 0 cores [] =
        assignInst { d with blocks := [], lent := [] } (r.shape 0) l 0 cores [] := assignInst_congr (by rfl) ..
  unfold corFits
  simp only [hp, ha]

theorem refusal_modQueue (d : Dev) (fn q : Nat) (f : Queue → Queue) (n : Nat) (b : List Byte) :
    refusal (modQueue d fn q f) n b = refusal d n b := by
  unfold refusal
  simp only [corFits_modQueue]
  rfl

theorem refusal_passEntry (d : Dev) (fn q : Nat) (f : Queue → Queue) (n : Nat) (b : List Byte) :
    refusal (passEntry d fn q f) n b = refusal d n b := refusal_modQueue ..

/-- What the bytes of an entry make of its queue. -/
def takeEntry (d : Dev) (fn q : Nat) (x : Queue) (b : List Byte) : Dev :=
  if recNat b 0 2 ≠ x.ridx % 2 ^ 16 then stopQueue d fn q 2 1 (recNat b 0 2)
  else if recNat b 2 1 = 1 then
    if entryAddrOk d fn (recNat b 8 8) 256 && entryAddrOk d fn (recNat b 16 8) 16 then
      acceptLaunch (passEntry d fn q id) fn q x.ridx (recNat b 8 8) (recNat b 16 8)
    else stopQueue d fn q 3 6 x.seen
  else if recNat b 2 1 = 2 then
    tellShares (passEntry d fn q fun y => { y with drain := true, trigd := Sparse.put false y.trigd x.ridx true })
  else stopQueue d fn q 3 4 x.seen

theorem readEntry_eq {x : Queue} {b : List Byte} (hx : x = queueOf d fn q) (hp : poisoned d (entryAt x) 32 = false)
    (hb : b = homeBytes d (fnKey d fn) (entryAt x) 32) : readEntry d fn q = takeEntry d fn q x b := by
  have hr : systemRead d (fnKey d fn) (entryAt x) 32 = (d, b) := hb ▸ systemRead_clean hp
  subst hx
  unfold entryAt at hr
  unfold takeEntry readEntry
  dsimp only
  rw [hr]
  dsimp only
  split
  · rfl
  · split
    · next h => rw [if_pos h]
    · next h => rw [if_neg (by omega), if_pos h]
    · next h1 h2 => rw [if_neg h1, if_neg h2]

theorem exec_queueEntryRead_dev (fn q : Nat) (s : State) : exec (.queueEntryRead fn q) s =
    if fn < 16 ∧ q < 64 ∧ (queueOf s.unfocus.dev fn q).state = 1 ∧ (queueOf s.unfocus.dev fn q).ridx ≠ (queueOf s.unfocus.dev fn q).widx ∧
      (queueOf s.unfocus.dev fn q).drain = false then .next (s.unfocus.onDev fun d => readEntry d fn q) else .next s.unfocus := by
  simp only [exec_queueEntryRead, execQueueEntryRead, State.noEvent, Bool.and_eq_true, isQueue_iff, and_assoc, Bool.not_eq_true',
    decide_eq_true_eq, bne_iff_ne, State.unfocus_unfocus]

theorem queueEntryRead_acts (fn q : Nat) : EventActs (.queueEntryRead fn q)
    (fun d => fn < 16 ∧ q < 64 ∧ (queueOf d fn q).state = 1 ∧ (queueOf d fn q).ridx ≠ (queueOf d fn q).widx ∧
      (queueOf d fn q).drain = false)
    fun d e => ∀ x b rec word, x = queueOf d fn q → poisoned d (entryAt x) 32 = false →
      b = homeBytes d (fnKey d fn) (entryAt x) 32 → rec = recNat b 8 8 → word = recNat b 16 8 →
      (recNat b 0 2 ≠ x.ridx % 2 ^ 16 → OneQueue d e fn q { x with state := 2, cause := 1, seen := recNat b 0 2 }) ∧
      (recNat b 0 2 = x.ridx % 2 ^ 16 →
        (recNat b 2 1 ≠ 1 → recNat b 2 1 ≠ 2 → OneQueue d e fn q { x with state := 3, cause := 4 }) ∧
        (recNat b 2 1 = 2 → (queueOf e fn q).drain = true ∧ (queueOf e fn q).ridx = (x.ridx + 1) % 2 ^ 32 ∧
          (queueOf e fn q).state = 1) ∧
        (recNat b 2 1 = 1 → entryAddrOk d fn rec 256 = false ∨ entryAddrOk d fn word 16 = false →
          OneQueue d e fn q { x with state := 3, cause := 6 }) ∧
        (recNat b 2 1 = 1 → entryAddrOk d fn rec 256 = true → entryAddrOk d fn word 16 = true →
          (queueOf e fn q).ridx = (x.ridx + 1) % 2 ^ 32 ∧ (queueOf e fn q).state = 1 ∧ (queueOf e fn q).widx = x.widx ∧
          (FreshKeys d → poisoned d rec 256 = false → ∀ r, r = homeBytes d (fnKey d fn) rec 256 →
            ∃ l, findLaunch e d.nextLaunch = some l ∧ l.fn = fn ∧ l.q = q ∧ l.idx = x.ridx ∧ l.record = rec ∧ l.done = word ∧
              l.lr = parseLaunch r ∧ (refusal d fn r = none → l.state = .waiting) ∧
              ∀ c, refusal d fn r = some c → l.state = .ended ∧ l.status = c))) := by
  refine eventActs_of_exec _ (exec_queueEntryRead_dev fn q) ?_
  rintro d ⟨-, -, hst, -, -⟩ x b rec word hx hp hb rfl rfl
  rw [readEntry_eq hx hp hb]
  unfold takeEntry
  subst hx
  refine ⟨fun h => ?_, fun hs => ⟨fun h1 h2 => ?_, fun h2 => ?_, fun h1 hbad => ?_, fun h1 hrec hword => ?_⟩⟩
  · rw [if_pos h]
    exact stopQueue_oneQueue ..
  · rw [if_neg (not_not.2 hs), if_neg h1, if_neg h2]
    exact stopQueue_oneQueue ..
  · rw [if_neg (not_not.2 hs), if_neg (by omega), if_pos h2, queueOf_tellShares]
    obtain ⟨hr, hs, -, hdrain⟩ := passEntry_queueOf (d := d) (fn := fn) (q := q)
      (fun y => { y with drain := true, trigd := Sparse.put false y.trigd (queueOf d fn q).ridx true }) fun _ => ⟨rfl, rfl, rfl⟩
    exact ⟨hdrain, hr, hs.trans hst⟩
  · rw [if_neg (not_not.2 hs), if_pos h1, if_neg (by rcases hbad with h | h <;> simp [h])]
    exact stopQueue_oneQueue ..
  · rw [if_neg (not_not.2 hs), if_pos h1, if_pos (by simp [hrec, hword])]
    obtain ⟨hr, hs, hw, -⟩ := passEntry_queueOf (d := d) (fn := fn) (q := q) id fun _ => ⟨rfl, rfl, rfl⟩
    refine ⟨?_, ?_, ?_, fun hfresh hclean r hrb => ?_⟩
    · rw [acceptLaunch_queues fn q]; exact hr
    · rw [acceptLaunch_queues fn q]; exact hs.trans hst
    · rw [acceptLaunch_queues fn q]; exact hw
    · have hnew := acceptLaunch_launch (d := passEntry d fn q id) (q := q) (idx := (queueOf d fn q).ridx) (done := recNat b 16 8)
        hfresh hclean hrb
      rw [refusal_passEntry] at hnew
      exact hnew

end

/-! ## The end of a drain (R204) -/

theorem exec_queueDrainResume_dev (fn q : Nat) (s : State) : exec (.queueDrainResume fn q) s =
    if fn < 16 ∧ q < 64 ∧ (queueOf s.unfocus.dev fn q).drain = true ∧
      ∀ l, l ∈ s.unfocus.dev.launches → l.fn = fn → l.q = q → l.detached = false → l.state = .ended then
      .next (s.unfocus.onDev fun d => modQueue d fn q fun x => { x with drain := false }) else .next s.unfocus := by
  have hend (l : Launch) : (!(l.fn = fn && l.q = q && !l.detached) || decide (l.state = .ended)) = true ↔
      (l.fn = fn → l.q = q → l.detached = false → l.state = .ended) := by
    simp [imp_iff_not_or, or_assoc]
  simp only [exec_queueDrainResume, execQueueDrainResume, State.noEvent, Bool.and_eq_true, isQueue_iff, and_assoc, List.all_eq_true,
    hend, State.unfocus_unfocus]

theorem queueDrainResume_acts (fn q : Nat) : EventActs (.queueDrainResume fn q)
    (fun d => fn < 16 ∧ q < 64 ∧ (queueOf d fn q).drain = true ∧
      ∀ l, l ∈ d.launches → l.fn = fn → l.q = q → l.detached = false → l.state = .ended)
    fun d e => e = { d with funcs := e.funcs } ∧ OneQueue d e fn q { queueOf d fn q with drain := false } :=
  eventActs_of_exec _ (exec_queueDrainResume_dev fn q) fun _ _ => ⟨rfl, oneQueue_modQueue ..⟩

/-- Settles O39: each event is its function of the package, and of a queue's window only what that function writes changes; an
entry's launch is found at the key that the list gives next. -/
theorem launchQueuesAreServed : Obligations.LaunchQueuesAreServed :=
  ⟨qcfgEnable_acts, qcfgDisable_acts, qkick_acts, qrestart_acts, queueEntryRead_acts, queueDrainResume_acts⟩

/-- Settles O57: each field of the package that reset leaves has its stated value by definition. -/
theorem resetLeavesTheStatedValues : Obligations.ResetLeavesTheStatedValues := by
  rintro _ rfl
  exact ⟨rfl, rfl, rfl, rfl, rfl, rfl, rfl, rfl, rfl, rfl, rfl, rfl,
    fun _ => ⟨rfl, rfl, rfl, rfl, rfl, rfl, rfl, rfl, rfl, fun _ => rfl, fun _ => ⟨rfl, rfl⟩⟩, fun _ => ⟨rfl, rfl⟩⟩

end Sys2Proof.Machine

/-! PROOFS. Launches bound, and their blocks claimed, placed and donated (O40; 10 R213-R220): the slot table, the list of blocks and
the launch after each of these. -/

namespace Sys2Proof.Machine

open Sys2Proof Sys2Proof.Machine Sys2Proof.Claims

/-! ## Bind records (R213-R216) -/

section
variable {d : Dev} {e : Nat}

theorem unbindEntry_form (d : Dev) (e : Nat) : ∃ launches binds, unbindEntry d e = { d with launches := launches, binds := binds } := by
  unfold unbindEntry
  dsimp only
  split <;> exact ⟨_, _, rfl⟩

theorem bindAt_unbindEntry_other {c : Nat} (h : c ≠ e) : bindAt (unbindEntry d e) c = bindAt d c := by
  unfold unbindEntry
  dsimp only
  split
  · exact Sparse.get_erase_other _ _ _ _ h
  · rfl

/-- The record that a launch leaves in the slot table for one of its levels. -/
def instanceBind (x : Launch) (l lev record first count : Nat) (cls : BitVec 96) (time : Nat) : Bind :=
  { launch := l, fn := x.fn, record := record, first := first, count := count, clusters := cls, prio := x.lr.prio
    eprio := x.lr.prio, level := lev, cor := x.lr.corLevels.isSome, state := 1, next := first, since := time, order := l }

/-- The package with a launch bound in entry e. -/
def bindLaunch (d : Dev) (x : Launch) (l e lev record first count : Nat) (cls : BitVec 96) : Dev :=
  modBind (modLaunch d l fun y => ({ y with state := .bound, bound := y.bound ++ [(first, count)] } : Launch).settleHome lev first
    ((coresOf cls).headD 0)) e fun _ => instanceBind x l lev record first count cls d.time

variable {x : Launch} {l lev record first count : Nat} {cls : BitVec 96}

theorem bindLaunch_launch (hx : findLaunch d l = some x) : ∃ m, findLaunch (bindLaunch d x l e lev record first count cls) l = some m ∧
    m.state = .bound ∧ m.bound = x.bound ++ [(first, count)] :=
  ⟨_, findLaunch_modLaunch_self hx (fun y => ({ y with state := .bound, bound := y.bound ++ [(first, count)] } : Launch).settleHome lev
    first ((coresOf cls).headD 0)) fun _ => rfl, rfl, rfl⟩

/-- What a launch that is bound is checked for. -/
def Bindable (d : Dev) (x : Launch) (lev first count : Nat) (cls : BitVec 96) : Prop :=
  x.stub = false ∧ (x.state = .waiting ∨ x.state = .bound) ∧ depsMet d x = true ∧ bindRange d x lev first count = true ∧
    bindClusters d x lev first cls = true

theorem bindable_iff : ((x.state = .waiting || x.state = .bound) && !x.stub && depsMet d x && bindRange d x lev first count &&
    bindClusters d x lev first cls) = true ↔ Bindable d x lev first count cls := by
  simp only [Bindable, Bool.and_eq_true, Bool.or_eq_true, decide_eq_true_eq, Bool.not_eq_true']
  tauto

variable {s : State}

theorem exec_launchBind_held (he : e < 256) (h : 2 ≤ (bindAt s.unfocus.dev e).state) :
    exec (.launchBind l e lev record ⟨first, count⟩ cls) s = .next s.unfocus := by
  rw [exec_launchBind, execLaunchBind]
  exact (if_neg (by omega)).trans (if_pos h)

theorem exec_launchBind_binds (he : e < 256) (h : (bindAt s.unfocus.dev e).state < 2)
    (hx : findLaunch (unbindEntry s.unfocus.dev e) l = some x) (hb : Bindable (unbindEntry s.unfocus.dev e) x lev first count cls) :
    exec (.launchBind l e lev record ⟨first, count⟩ cls) s =
      .next { s.unfocus with dev := bindLaunch (unbindEntry s.unfocus.dev e) x l e lev record first count cls } := by
  rw [exec_launchBind, execLaunchBind]
  refine (if_neg (by omega)).trans ((if_neg (by omega)).trans ?_)
  simp only [hx]
  exact if_pos (bindable_iff.2 hb)

theorem exec_launchBind_none (he : e < 256 → (bindAt s.unfocus.dev e).state < 2 ∧ ∀ x, findLaunch (unbindEntry s.unfocus.dev e) l = some x →
      ¬ Bindable (unbindEntry s.unfocus.dev e) x lev first count cls) :
    exec (.launchBind l e lev record ⟨first, count⟩ cls) s = .next s.unfocus := by
  rw [exec_launchBind, execLaunchBind, State.noEvent, State.unfocus_unfocus]
  dsimp only
  by_cases h : 256 ≤ e
  · rw [if_pos h]
  · obtain ⟨hst, hb⟩ := he (by omega)
    rw [if_neg h, if_neg (by omega)]
    cases hx : findLaunch (unbindEntry s.unfocus.dev e) l with
    | none => rfl
    | some x => exact if_neg (mt bindable_iff.1 (hb x hx))

end

theorem launchBind_acts (l e lev record first count : Nat) (cls : BitVec 96) : EventActs (.launchBind l e lev record ⟨first, count⟩ cls)
    (fun d => e < 256 ∧ (2 ≤ (bindAt d e).state ∨ ∃ x, findLaunch (unbindEntry d e) l = some x ∧ x.stub = false ∧
      (x.state = .waiting ∨ x.state = .bound) ∧ depsMet (unbindEntry d e) x = true ∧
      bindRange (unbindEntry d e) x lev first count = true ∧ bindClusters (unbindEntry d e) x lev first cls = true))
    fun d t => (2 ≤ (bindAt d e).state → t = d) ∧
      ((bindAt d e).state < 2 → t = { d with launches := t.launches, binds := t.binds } ∧ ∃ r, OneBind d t e r ∧ r.launch = l ∧
        r.record = record ∧ r.first = first ∧ r.count = count ∧ r.clusters = cls ∧ r.next = first ∧ r.state = 1 ∧ r.retired = 0 ∧
        ∀ x, findLaunch (unbindEntry d e) l = some x → r.prio = x.lr.prio ∧ r.eprio = x.lr.prio ∧ r.level = lev ∧
          ∃ m, findLaunch t l = some m ∧ m.state = .bound ∧ m.bound = x.bound ++ [(first, count)]) := by
  rintro s _ rfl
  constructor
  · rintro ⟨he, h⟩
    rcases Nat.lt_or_ge (bindAt s.unfocus.dev e).state 2 with hst | hst
    · obtain ⟨x, hx, hb⟩ := h.resolve_left (by omega)
      refine ⟨_, exec_launchBind_binds he hst hx hb, by omega, fun _ =>
        ⟨?_, instanceBind x l lev record first count cls (unbindEntry s.unfocus.dev e).time, ⟨?_, fun c hc => ?_⟩,
          rfl, rfl, rfl, rfl, rfl, rfl, rfl, rfl, ?_⟩⟩
      · obtain ⟨_, _, hu⟩ := unbindEntry_form s.unfocus.dev e
        rw [hu]
        rfl
      · exact (bindAt_modBind ..).trans (if_pos rfl)
      · exact ((bindAt_modBind ..).trans (if_neg hc)).trans (bindAt_unbindEntry_other hc)
      · intro y hy
        cases hx.symm.trans hy
        exact ⟨rfl, rfl, rfl, bindLaunch_launch hx⟩
    · exact ⟨_, exec_launchBind_held he hst, fun _ => rfl, by omega⟩
  · intro h
    refine exec_launchBind_none fun he => ?_
    rw [not_and, not_or, not_exists] at h
    obtain ⟨hst, hx⟩ := h he
    exact ⟨by omega, fun x hfind hb => hx x ⟨hfind, hb⟩⟩

theorem exec_eprioAging_dev (e : Nat) (s : State) : exec (.eprioAging e) s =
    if bindReady s.unfocus.dev e = true ∧ (bindAt s.unfocus.dev e).eprio < aged s.unfocus.dev (bindAt s.unfocus.dev e) then
      .next (s.unfocus.onDev fun d => modBind d e fun x => { x with eprio := aged d x }) else .next s.unfocus := by
  simp only [exec_eprioAging, execEprioAging, State.noEvent, Bool.and_eq_true, decide_eq_true_eq, State.unfocus_unfocus]

theorem eprioAging_acts (e : Nat) : EventActs (.eprioAging e)
    (fun d => bindReady d e = true ∧ (bindAt d e).eprio < min 7 ((bindAt d e).prio + (d.time - (bindAt d e).since) / 10000000))
    fun d t => t = { d with binds := t.binds } ∧ OneBind d t e { bindAt d e with
      eprio := min 7 ((bindAt d e).prio + (d.time - (bindAt d e).since) / 10000000) } :=
  eventActs_of_exec _ (exec_eprioAging_dev e) fun _ _ => ⟨rfl, oneBind_modBind ..⟩

/-! ## Claims (R218, R219) -/

/-- Block b is one that a cluster has claimed from entry e of the slot table for a launch. -/
def Block.IsClaim (b : Block) (l : Launch) (e cl blin : Nat) : Prop :=
  b.state = .unstarted ∧ b.cluster = cl ∧ b.blin = blin ∧ b.launch = l.key ∧ b.slotEntry = e ∧ b.shape = l.lr.shape blin

/-- Package t is d after one block x is claimed from entry e: the block has the next key. -/
structure ClaimedOne (d t : Dev) (e : Nat) (x : Block) : Prop where
  key : x.key = d.nextBlock
  blocks : t.blocks = putBlock d.blocks x
  nextBlock : t.nextBlock = d.nextBlock + 1
  next : (bindAt t e).next = (bindAt d e).next + 1

theorem claimOne_some {d t : Dev} {l : Launch} {e cl : Nat} {x : Block} (h : claimOne d l e cl = some (t, x)) :
    ClaimedOne d t e x ∧ x.IsClaim l e cl (bindAt d e).next := by
  unfold claimOne at h
  dsimp only at h
  split at h
  · obtain ⟨⟨c, a⟩, hs, ht⟩ := Option.map_eq_some_iff.1 h
    obtain ⟨_, _, hc⟩ := Option.map_eq_some_iff.1 hs
    cases hc
    cases ht
    exact ⟨⟨rfl, rfl, rfl, by rw [bindAt_modBind, if_pos rfl]; rfl⟩, rfl, rfl, rfl, rfl, rfl, rfl⟩
  · cases h

theorem mem_insertBy {α : Type} {le : α → α → Bool} {x y : α} {l : List α} : y ∈ insertBy le x l ↔ y = x ∨ y ∈ l := by
  induction l with
  | nil => simp [insertBy]
  | cons z l ih =>
    unfold insertBy
    split
    · exact List.mem_cons
    · rw [List.mem_cons, ih, List.mem_cons, or_left_comm]

/-- The blocks of a package have keys below the next. -/
def FreshBlocks (d : Dev) : Prop := ∀ b, b ∈ d.blocks → b.key < d.nextBlock

section
variable {d t : Dev} {e : Nat} {x : Block} (h : ClaimedOne d t e x)
include h

theorem ClaimedOne.fresh (hd : FreshBlocks d) : FreshBlocks t := by
  intro b hb
  rw [h.blocks, putBlock, mem_insertBy] at hb
  rw [h.nextBlock]
  rcases hb with rfl | hb
  · rw [h.key]
    omega
  · have := hd b hb
    omega

theorem ClaimedOne.find_other {c : Nat} (hc : c ≠ d.nextBlock) : findBlock t c = findBlock d c := by
  rw [findBlock, h.blocks, putBlock, find?_insertBy_other _ _ _ _ (by simp [h.key, Ne.symm hc]), findBlock]

theorem ClaimedOne.find_new (hd : FreshBlocks d) : findBlock t d.nextBlock = some x := by
  rw [findBlock, h.blocks, putBlock]
  refine find?_insertBy_self _ _ _ _ (by simp [h.key]) fun y hy => ?_
  have := hd y hy
  simp only [decide_eq_false_iff_not]
  omega

end

/-- Package t is d after n blocks are claimed in order. -/
theorem claimMany_some {l : Launch} {e cl n : Nat} : ∀ {d t : Dev}, claimMany l e cl n d = some t → FreshBlocks d →
    (bindAt t e).next = (bindAt d e).next + n ∧ t.nextBlock = d.nextBlock + n ∧
      (∀ c, c < d.nextBlock → findBlock t c = findBlock d c) ∧
      ∀ i, i < n → ∃ b, findBlock t (d.nextBlock + i) = some b ∧ b.IsClaim l e cl ((bindAt d e).next + i) := by
  induction n with
  | zero =>
    intro d t h _
    cases h
    exact ⟨rfl, rfl, fun _ _ => rfl, by omega⟩
  | succ n ih =>
    intro d t h hd
    obtain ⟨⟨c, x⟩, hone, hrest⟩ := Option.bind_eq_some_iff.1 h
    obtain ⟨hc, hx⟩ := claimOne_some hone
    obtain ⟨hnext, hkey, hold, hnew⟩ := ih hrest (hc.fresh hd)
    rw [hc.next] at hnext hnew
    rw [hc.nextBlock] at hkey hold hnew
    refine ⟨by omega, by omega, fun k hk => (hold k (by omega)).trans (hc.find_other (by omega)), fun i hi => ?_⟩
    cases i with
    | zero => exact ⟨x, (hold _ (by omega)).trans (hc.find_new hd), hx⟩
    | succ i =>
      obtain ⟨b, hb, hi⟩ := hnew i (by omega)
      rw [Nat.add_right_comm, Nat.add_assoc] at hb
      rw [Nat.add_right_comm, Nat.add_assoc] at hi
      exact ⟨b, hb, hi⟩

theorem claimFrom_some {d t : Dev} {l : Launch} {e cl n : Nat} (h : claimFrom d l e cl n = some t) (hc : l.lr.corLevels = none) :
    1 ≤ n ∧ n ≤ 8 ∧ claimMany l e cl n d = some t := by
  simp only [claimFrom, hc] at h
  split at h
  · next hn => exact ⟨hn.1, hn.2.1, h⟩
  · cases h

theorem clusterClaim_acts (cl e n : Nat) : EventActs (.clusterClaim cl e n)
    (fun d => (bindAt d e).open = true ∧ (bindAt d e).clusters.getLsbD cl = true ∧ claimsAhead d cl e = false ∧
      ∃ l t, findLaunch d (bindAt d e).launch = some l ∧ claimFrom d l e cl n = some t)
    fun d t => ∀ l, findLaunch d (bindAt d e).launch = some l → l.lr.corLevels = none → FreshKeys d →
      1 ≤ n ∧ n ≤ 8 ∧ (bindAt t e).next = (bindAt d e).next + n ∧ t.nextBlock = d.nextBlock + n ∧
      ∀ i, i < n → ∃ b, findBlock t (d.nextBlock + i) = some b ∧ b.state = .unstarted ∧ b.cluster = cl ∧
        b.blin = (bindAt d e).next + i ∧ b.launch = (bindAt d e).launch ∧ b.slotEntry = e ∧ b.shape = l.lr.shape b.blin := by
  rintro s _ rfl
  constructor
  · rintro ⟨hopen, hcl, hahead, l, t, hl, ht⟩
    refine ⟨modLaunch t l.key fun y => { y with poolSince := none }, ?_, fun m hm hc hd => ?_⟩
    · simp [exec_clusterClaim, execClusterClaim, hopen, hcl, hahead, hl, ht]
    · cases hl.symm.trans hm
      obtain ⟨h1, h8, hmany⟩ := claimFrom_some ht hc
      obtain ⟨hnext, hkey, -, hnew⟩ := claimMany_some hmany hd.2
      refine ⟨h1, h8, hnext, hkey, fun i hi => ?_⟩
      obtain ⟨b, hb, hst, hcluster, hblin, hlaunch, hentry, hshape⟩ := hnew i hi
      exact ⟨b, hb, hst, hcluster, hblin, hlaunch.trans (findLaunch_key hl), hentry, hshape.trans (by rw [hblin])⟩
  · intro h
    rw [exec_clusterClaim, execClusterClaim, State.noEvent, State.unfocus_unfocus]
    split
    · next hc =>
      split
      · next l t hb =>
        obtain ⟨x, hx, hm⟩ := Option.bind_eq_some_iff.1 hb
        obtain ⟨u, hu, hp⟩ := Option.map_eq_some_iff.1 hm
        cases hp
        simp only [Bool.and_eq_true, Bool.not_eq_true'] at hc
        exact absurd ⟨hc.1.1, hc.1.2, hc.2, l, t, hx, hu⟩ h
      · rfl
    · rfl

end Sys2Proof.Machine

/-! PROOFS. Blocks placed and donated (O40; 10 R218, R220). -/

namespace Sys2Proof.Machine

open Sys2Proof Sys2Proof.Machine Sys2Proof.Claims

/-! ## A block starts on a core (R218, R224) -/

section
variable (d : Dev) (b : Block) (core : Nat)

theorem placedOne_form : ∃ binds, placedOne d b = { d with binds := binds } := by
  unfold placedOne
  split
  · exact ⟨_, rfl⟩
  · exact ⟨_, rfl⟩

/-- The package before a block that is placed finds the place of its level instances. -/
def startPlaced : Dev := placedOne (startBlock d b core) b

theorem placeFirst_eq : placeFirst d b core = modLaunch (startPlaced d b core) b.launch fun l => l.settleHome 0 b.blin core := rfl

theorem startPlaced_sched : (startPlaced d b core).blocks = putBlock (d.blocks.filter fun y => y.key ≠ b.key)
      (b.startOn (startOnCore d core b.launch) core) ∧
    (startPlaced d b core).launches = d.launches ∧ (startPlaced d b core).ages = d.ages + b.shape.groups := by
  obtain ⟨_, hp⟩ := placedOne_form (startBlock d b core) b
  have hs := startOnCore_sched d core b.launch
  have hblocks := Dev.sched_blocks hs
  have hlaunches := Dev.sched_launches hs
  have hages := Dev.sched_ages hs
  rw [startPlaced, hp]
  exact ⟨congrArg (fun l : List Block => putBlock (l.filter fun y => y.key ≠ b.key) _) hblocks, hlaunches,
    congrArg (· + b.shape.groups) hages⟩

/-- Blocks that start are counted in their launch; the first may be reported to another package. -/
theorem countStarted_form (l n : Nat) : ∃ c, c.sched = d.sched ∧ countStarted d l n = modLaunch c l fun l => { l with started := l.started + n } := by
  unfold countStarted
  refine ⟨_, ?_, rfl⟩
  split
  · rfl
  · split
    · split
      · exact sendShare_sched ..
      · rfl
    · rfl

theorem startFirst_form : ∃ c, c.sched = (placeFirst d b core).sched ∧
    startFirst d b core = modLaunch c b.launch fun l => { l with started := l.started + 1 } := countStarted_form ..

theorem findBlock_startFirst (c : Nat) : findBlock (startFirst d b core) c =
    if c = b.key then some (b.startOn (startOnCore d core b.launch) core) else findBlock d c := by
  obtain ⟨e, he, hs⟩ := startFirst_form d b core
  have hblocks : (startFirst d b core).blocks = (startPlaced d b core).blocks := by
    have hplace := Dev.sched_blocks he
    rw [hs]
    exact hplace
  rw [findBlock, hblocks, (startPlaced_sched d b core).1]
  exact find?_putBlock d.blocks (b.startOn (startOnCore d core b.launch) core) c

theorem startFirst_ages : (startFirst d b core).ages = d.ages + b.shape.groups := by
  obtain ⟨e, he, hs⟩ := startFirst_form d b core
  have hplace := Dev.sched_ages he
  rw [hs]
  exact hplace.trans (startPlaced_sched d b core).2.2

theorem startFirst_launch {l : Launch} (hl : findLaunch d b.launch = some l) :
    ∃ m, findLaunch (startFirst d b core) b.launch = some m ∧ m.started = l.started + 1 := by
  obtain ⟨e, he, hs⟩ := startFirst_form d b core
  have hplaced : findLaunch (startPlaced d b core) b.launch = some l := by
    rw [findLaunch, (startPlaced_sched d b core).2.1]
    exact hl
  have hhome := findLaunch_modLaunch_self hplaced (fun l => l.settleHome 0 b.blin core) fun _ => rfl
  rw [← placeFirst_eq, ← Dev.sched_findLaunch he] at hhome
  rw [hs]
  exact ⟨_, findLaunch_modLaunch_self hhome _ fun _ => rfl, rfl⟩

end

theorem blockPlace_acts (b core : Nat) : BlockActs (.blockPlace b core) b (fun d x => x.state = .unstarted ∧ nextOn d core x = true)
    fun d x t => (∃ y, findBlock t b = some y ∧ y.state = .resident ∧ y.core = core ∧ y.cluster = core / 4 ∧ y.shape = x.shape ∧
        y.blin = x.blin ∧ y.groups = x.shape.startGroups d.ages ∧ y.scratch = x.scratch) ∧
      (∀ c, c ≠ b → findBlock t c = findBlock d c) ∧ t.ages = d.ages + x.shape.groups ∧
      ∀ l, findLaunch d x.launch = some l → ∃ m, findLaunch t x.launch = some m ∧ m.started = l.started + 1 := by
  refine blockActs_of (fun d x => x.state = .unstarted && nextOn d core x) (fun d x => startFirst d x core) ?_ ?_ ?_ ?_
  · intro s h
    simp only [exec_blockPlace, execBlockPlace, h, State.noEvent, State.unfocus_unfocus]
  · intro s x h
    simp only [exec_blockPlace, execBlockPlace, h, State.noEvent, State.unfocus_unfocus]
  · simp
  · intro d x hx _
    obtain rfl := findBlock_key hx
    refine ⟨⟨_, (findBlock_startFirst d x core x.key).trans (if_pos rfl), rfl, rfl, rfl, rfl, rfl, ?_, rfl⟩, fun c hc =>
      (findBlock_startFirst d x core c).trans (if_neg hc), startFirst_ages .., fun l hl => startFirst_launch _ _ _ hl⟩
    exact congrArg x.shape.startGroups (Dev.sched_ages (startOnCore_sched ..))

/-! ## Donation (R220) -/

theorem findBlock_shipBlocks (d : Dev) (go : List Nat) (thief victim k : Nat) : findBlock (shipBlocks d go thief victim) k =
    (findBlock d k).map fun x => if go.contains x.key then
      { x with state := .inTransit, cluster := thief, donor := victim, stime := d.time } else x :=
  find?_modIf_key Block.key d.blocks (fun b => go.contains b.key)
    (fun b => { b with state := .inTransit, cluster := thief, donor := victim, stime := d.time }) (fun _ => rfl) k

theorem exec_workDonation_dev (thief victim e : Nat) (s : State) : exec (.workDonation thief victim e) s =
    if thief ≠ victim ∧ (bindAt s.unfocus.dev e).state ≠ 0 ∧ (bindAt s.unfocus.dev e).cor = false ∧
      (bindAt s.unfocus.dev e).clusters.getLsbD thief = true ∧ (bindAt s.unfocus.dev e).clusters.getLsbD victim = true ∧
      donable s.unfocus.dev victim thief ≠ [] ∧ idleCluster s.unfocus.dev thief = true ∧
      ∀ b, b ∈ firstHalf (donable s.unfocus.dev victim thief) → ∃ l, findLaunch s.unfocus.dev b.launch = some l ∧
        l.allows s.unfocus.dev ((firstHalf (donable s.unfocus.dev victim thief)).map fun x => x.key) b.blin (4 * thief) = true
    then .next (s.unfocus.onDev fun d => shipBlocks d ((firstHalf (donable d victim thief)).map fun x => x.key) thief victim)
    else .next s.unfocus := by
  have hlist (l : List Block) : (!l.isEmpty) = true ↔ l ≠ [] := by simp
  simp only [exec_workDonation, execWorkDonation, State.noEvent, State.unfocus_unfocus, Bool.and_eq_true, and_assoc, bne_iff_ne,
    Bool.not_eq_true', List.all_eq_true, Option.any_eq_true, hlist]
  rfl

theorem workDonation_acts (thief victim e : Nat) : EventActs (.workDonation thief victim e)
    (fun d => thief ≠ victim ∧ (bindAt d e).state ≠ 0 ∧ (bindAt d e).cor = false ∧ (bindAt d e).clusters.getLsbD thief = true ∧
      (bindAt d e).clusters.getLsbD victim = true ∧ donable d victim thief ≠ [] ∧ idleCluster d thief = true ∧
      ∀ b, b ∈ firstHalf (donable d victim thief) → ∃ l, findLaunch d b.launch = some l ∧
        l.allows d ((firstHalf (donable d victim thief)).map fun x => x.key) b.blin (4 * thief) = true)
    fun d t => t = { d with blocks := t.blocks } ∧ ∀ k x go, findBlock d k = some x →
      go = (firstHalf (donable d victim thief)).map (fun y => y.key) →
      (k ∈ go → findBlock t k = some { x with state := .inTransit, cluster := thief, donor := victim, stime := d.time }) ∧
      (k ∉ go → findBlock t k = some x) := by
  classical
  refine eventActs_of_exec _ (exec_workDonation_dev thief victim e) ?_
  rintro d - 
  refine ⟨rfl, ?_⟩
  rintro k x go hx rfl
  rw [findBlock_shipBlocks, hx, Option.map_some, findBlock_key hx]
  exact ⟨fun h => by rw [if_pos (by simpa using h)], fun h => by rw [if_neg (by simpa using h)]⟩

theorem donatedBlockArrival_acts (b : Nat) (ok : Bool) : BlockActs (.donatedBlockArrival b ok) b (fun _ x => x.state = .inTransit)
    fun d x t => OneBlock d t b
      { x with state := .unstarted, cluster := if ok then x.cluster else x.donor, stime := d.time } := by
  refine blockActs_of (fun _ x => x.state = .inTransit) (fun d _ => modBlock d b fun y =>
    { y with state := .unstarted, cluster := if ok then y.cluster else y.donor, stime := d.time }) ?_ ?_ ?_ ?_
  · intro s h
    simp only [exec_donatedBlockArrival, execDonatedBlockArrival, h, State.noEvent, State.unfocus_unfocus]
  · intro s x h
    simp only [exec_donatedBlockArrival, execDonatedBlockArrival, h, State.noEvent, State.unfocus_unfocus, decide_eq_true_eq]
  · simp
  · exact fun d x hx _ => oneBlock_modBlock hx _ fun _ h => h

end Sys2Proof.Machine

/-! PROOFS. The completion of launches (O40; 10 R208, R210): the completion word stays as it is written, the time first and the status
after it in the same sector. -/

namespace Sys2Proof.Machine

open Sys2Proof Sys2Proof.Machine Sys2Proof.Claims

/-! ## Stores beside a byte of one sector (R251, R295, R397) -/

theorem isHost_of_sector {a b : Nat} (h : a / 32 = b / 32) : isHost a = isHost b := by rw [← isHost_sector a, h, isHost_sector]

section
variable {d : Dev} {key pa a : Nat} {bytes : List Byte}

theorem mem_addressed_range {e : Nat × Byte} (he : e ∈ addressed pa bytes) : pa ≤ e.1 ∧ e.1 < pa + bytes.length := by
  obtain ⟨i, hi, ha⟩ := (mem_addressed ..).1 he
  have := (List.getElem?_eq_some_iff.1 hi).1
  omega

theorem homeStore_oneSector (h0 : 0 < bytes.length) (h : pa % 32 + bytes.length ≤ 32) :
    homeStore d key pa bytes = storeSectors d key [pa / 32] (addressed pa bytes) := by
  have hr : (pa + bytes.length + 31) / 32 - pa / 32 = 1 := by omega
  unfold homeStore
  rw [hr]
  rfl

theorem foreignSector_homeSector {s : Nat} {bs : List (Nat × Byte)} {c : Bool} (hh : isHost (32 * s) = false) :
    foreignSector (homeSector d key s bs c) key s = false := by
  obtain ⟨_, -, -, hk⟩ := homeSector_device d key s bs c hh
  simp [foreignSector, hk]

/-- A write to a device sector of its own key leaves the bytes that it does not name. -/
theorem homeByte_homeSector_beside {s : Nat} {bs : List (Nat × Byte)} {c : Bool} (hh : isHost (32 * s) = false)
    (hf : foreignSector d key s = false) (ha : a / 32 = s) (hne : ∀ e, e ∈ bs → 32 * s + e.1 ≠ a) :
    homeByte (homeSector d key s bs c) key a = homeByte d key a := by
  have hkey (r : List CLine) : foreignSector { d with rdc := r } key s = false := hf
  have hm : (homeSector d key s bs c).mem = bs.foldl (fun m e => Memory.write m (32 * s + e.1) e.2) d.mem := by
    simp [homeSector, hh, hkey]
  have hha : isHost a = false := by rw [← isHost_sector, ha, hh]
  simp only [homeByte, hha, ha, hf, foreignSector_homeSector hh, hm, Bool.false_eq_true, if_false]
  exact Memory.read_writes_other bs (fun e => 32 * s + e.1) Prod.snd d.mem a hne

theorem foreignSector_homeStore (h0 : 0 < bytes.length) (h : pa % 32 + bytes.length ≤ 32) (hh : isHost pa = false) :
    foreignSector (homeStore d key pa bytes) key (pa / 32) = false := by
  rw [homeStore_oneSector h0 h]
  exact foreignSector_homeSector ((isHost_sector pa).trans hh)

theorem homeByte_homeStore_beside (h0 : 0 < bytes.length) (h : pa % 32 + bytes.length ≤ 32) (hh : isHost pa = false)
    (hf : foreignSector d key (pa / 32) = false) (ha : a / 32 = pa / 32) (hne : a < pa ∨ pa + bytes.length ≤ a) :
    homeByte (homeStore d key pa bytes) key a = homeByte d key a := by
  rw [homeStore_oneSector h0 h]
  refine homeByte_homeSector_beside ((isHost_sector pa).trans hh) hf ha fun e he => ?_
  obtain ⟨x, hx, rfl⟩ := List.mem_map.1 he
  have := mem_addressed_range (List.mem_filter.1 hx).1
  have hs := (List.mem_filter.1 hx).2
  simp only [decide_eq_true_eq] at hs ⊢
  omega

/-- Bytes of a write that name another one leave a copy of its line there. -/
theorem get_lineWrites_other (t : Table Byte) (es : List (Nat × Byte)) (line : Nat) (ha : a / 128 = line) (hne : ∀ e, e ∈ es → e.1 ≠ a) :
    Sparse.get 0 (es.foldl (fun t e => if e.1 / 128 = line then Sparse.put 0 t (e.1 % 128) e.2 else t) t) (a % 128) =
      Sparse.get 0 t (a % 128) := by
  have hf := List.foldl_filter (p := fun e : Nat × Byte => decide (e.1 / 128 = line))
    (f := fun t e => Sparse.put (0 : Byte) t (e.1 % 128) e.2) (l := es) (init := t)
  simp only [decide_eq_true_eq] at hf
  rw [← hf]
  refine Sparse.get_puts_other 0 _ (fun e : Nat × Byte => e.1 % 128) Prod.snd _ _ fun e he => ?_
  have hne := hne e (List.mem_filter.1 he).1
  have hl := (List.mem_filter.1 he).2
  simp only [decide_eq_true_eq] at hl
  omega

/-- Bytes written through to the host leave the others as they read, in memory and in the lines that L2 holds. -/
theorem homeByte_hostStore_beside (hh : isHost a = true) (hne : a < pa ∨ pa + bytes.length ≤ a) :
    homeByte (hostStore d pa bytes) key a = homeByte d key a := by
  have hne (e : Nat × Byte) (he : e ∈ addressed pa bytes) : e.1 ≠ a := by
    have := mem_addressed_range he
    omega
  have hm : Memory.read (hostStore d pa bytes).mem a = Memory.read d.mem a :=
    Memory.read_writes_other (addressed pa bytes) Prod.fst Prod.snd d.mem a hne
  have hline : isHost (128 * (a / 128)) = true := by rw [isHost_line, hh]
  have hadd : 128 * (a / 128) + a % 128 = a := by omega
  have hfind : hostLine (hostStore d pa bytes) key (a / 128) = (hostLine d key (a / 128)).map fun c => { c with
      data := (addressed pa bytes).foldl (fun t e => if e.1 / 128 = c.line then Sparse.put 0 t (e.1 % 128) e.2 else t) c.data
      owed := c.owed.filter fun o => !((addressed pa bytes).any fun e => e.1 = 128 * c.line + o) } :=
    List.find?_map ..
  simp only [homeByte, homeLine, hh, hline, if_true, hfind]
  cases hc : hostLine d key (a / 128) with
  | none => rw [Option.map_none, get_listed _ _ _ _ (by omega), get_listed _ _ _ _ (by omega), hadd, hm]
  | some c =>
    have hl : c.line = a / 128 := by
      have := List.find?_some hc
      simp only [Bool.and_eq_true, decide_eq_true_eq] at this
      exact this.1
    exact get_lineWrites_other c.data _ c.line hl.symm hne

theorem homeByte_systemStore_beside (h0 : 0 < bytes.length) (h : pa % 32 + bytes.length ≤ 32)
    (hf : isHost pa = false → foreignSector d key (pa / 32) = false) (ha : a / 32 = pa / 32) (hne : a < pa ∨ pa + bytes.length ≤ a) :
    homeByte (systemStore d key pa bytes) key a = homeByte d key a := by
  unfold systemStore
  cases hh : isHost pa with
  | true => exact homeByte_hostStore_beside ((isHost_of_sector ha).trans hh) hne
  | false => exact homeByte_homeStore_beside h0 h hh (hf hh) ha hne

end

/-! ## The completion word (R208) -/

/-- Two halves of 16 aligned bytes, stored one after the other, both read as they were stored. -/
theorem homeBytes_twoStores (d : Dev) (key pa : Nat) (hi lo : List Byte) (h : pa % 16 = 0) (hhi : hi.length = 8) (hlo : lo.length = 8) :
    homeBytes (systemStore (systemStore d key (pa + 8) hi) key pa lo) key (pa + 8) 8 = hi ∧
      homeBytes (systemStore (systemStore d key (pa + 8) hi) key pa lo) key pa 8 = lo := by
  have hside (n i : Nat) (hn : n % 8 = 0) (hi : i < 8) : isHost (n + i) = isHost n := isHost_of_sector (by omega)
  have hsector : (pa + 8) / 32 = pa / 32 := by omega
  constructor
  · refine .trans ?_ (hhi ▸ homeBytes_systemStore d key (pa + 8) hi fun i hi => hside _ _ (by omega) (by omega))
    refine List.map_congr_left fun i hi => ?_
    have hi := List.mem_range.1 hi
    refine homeByte_systemStore_beside (by omega) (by omega) (fun hd => ?_) (by omega) (by omega)
    have hd : isHost (pa + 8) = false := (isHost_of_sector hsector).trans hd
    rw [systemStore, hd, ← hsector]
    exact foreignSector_homeStore (by omega) (by omega) hd
  · exact hlo ▸ homeBytes_systemStore _ key pa lo fun i hi => hside _ _ (by omega) (by omega)

theorem Announced.homeBytes {d e : Dev} (h : Announced d e) : homeBytes e = homeBytes d := by
  obtain ⟨_, _, _, _, _, _, _, rfl⟩ := h.form
  rfl

/-- A launch that this package accepted has its completion word when it is closed. -/
theorem homeBytes_closeLaunch (d : Dev) {x : Launch} (st : Nat) (cause : BitVec 8) (ha : x.away = none) (hp : x.done % 16 = 0) :
    homeBytes (closeLaunch d x st cause) (fnKey d x.fn) (x.done + 8) 8 = bytesOf d.time 8 ∧
    homeBytes (closeLaunch d x st cause) (fnKey d x.fn) x.done 8 = bytesOf (st + if st = 5 then 2 ^ 8 * cause.toNat else 0) 8 := by
  have hclose : homeBytes (closeLaunch d x st cause) = homeBytes (writeDone d x st cause) := by
    rw [closeLaunch_eq, (triggerLaunch_announced ..).homeBytes]
    simp only [tellEnd, ha]
    rfl
  rw [hclose, writeDone]
  have hflush := writeBackIf_flushOnly d fun y => y.key = keyOf d x.lr.owner
  have hkey : fnKey (writeBackIf d fun y => y.key = keyOf d x.lr.owner) x.fn = fnKey d x.fn := by
    obtain ⟨_, _, _, _, _, _, _, h⟩ := hflush
    rw [h]
    rfl
  have htime : (writeBackIf d fun y => y.key = keyOf d x.lr.owner).time = d.time := Dev.sched_time hflush.sched
  rw [← hkey, ← htime]
  have hword := homeBytes_twoStores (writeBackIf d fun y => y.key = keyOf d x.lr.owner)
    (fnKey (writeBackIf d fun y => y.key = keyOf d x.lr.owner) x.fn) x.done
    (bytesOf (writeBackIf d fun y => y.key = keyOf d x.lr.owner).time 8)
    (bytesOf (st + if st = 5 then 2 ^ 8 * cause.toNat else 0) 8) hp (bytesOf_length 8 _) (bytesOf_length 8 _)
  split
  · rw [(raiseVector_announced ..).homeBytes]
    exact hword
  · exact hword

theorem closeLaunch_ended {d : Dev} {x : Launch} (hx : findLaunch d x.key = some x) (st : Nat) (cause : BitVec 8) :
    LaunchIs (closeLaunch d x st cause) x.key .ended st := by
  obtain ⟨y, hy, ht⟩ := closeLaunch_launch (status := st) (cause := cause) hx
  exact ⟨y, hy, by rw [ht], by rw [ht]⟩

/-! ## LAUNCH_COMPLETE -/

/-- What the completion of a launch waits for. -/
def Completable (d : Dev) (l : Nat) (x : Launch) : Prop :=
  launchBusy d l = false ∧ (∀ b, b ∈ d.blocks → b.launch ≠ l) ∧ (∀ y, y ∈ x.shares → y.ended = true) ∧ (x.stub = true → x.state = .ending) ∧
    (x.state = .ending ∨ ((x.state = .waiting ∨ x.state = .bound) ∧ x.retired = blocksHere d x ∧ depsMet d x = true))

/-- The launch as it is closed: with the status that it was ended with, or complete. -/
def completeLaunch (d : Dev) (x : Launch) : Dev := if x.state = .ending then closeLaunch d x x.status x.cause else closeLaunch d x 1 0

section
variable {l : Nat} {s : State} {x : Launch}

theorem exec_launchComplete_of (hx : findLaunch s.unfocus.dev l = some x) (h : Completable s.unfocus.dev l x) :
    exec (.launchComplete l) s = .next { s.unfocus with dev := completeLaunch s.unfocus.dev x } := by
  obtain ⟨hbusy, hblocks, hshares, hstub, hst⟩ := h
  have hguard : (launchBusy s.unfocus.dev l || s.unfocus.dev.blocks.any (fun b => b.launch = l) || !x.shares.all (·.ended) ||
      (x.stub && x.state != .ending)) = false := by
    simpa [hbusy] using ⟨⟨hblocks, hshares⟩, hstub⟩
  simp only [exec_launchComplete, execLaunchComplete, hx, hguard]
  rw [completeLaunch]
  rcases hst with hst | ⟨hst | hst, hret, hdep⟩
  · simp [hst]
  · simp [hst, hret, hdep]
  · simp [hst, hret, hdep]

theorem exec_launchComplete_none (h : ∀ x, findLaunch s.unfocus.dev l = some x → ¬ Completable s.unfocus.dev l x) :
    exec (.launchComplete l) s = .next s.unfocus := by
  simp only [exec_launchComplete, execLaunchComplete, State.noEvent, State.unfocus_unfocus]
  cases hx : findLaunch s.unfocus.dev l with
  | none => rfl
  | some x =>
    dsimp only
    split
    · rfl
    · next hg =>
      have hopen : launchBusy s.unfocus.dev l = false ∧ (∀ b, b ∈ s.unfocus.dev.blocks → b.launch ≠ l) ∧
          (∀ y, y ∈ x.shares → y.ended = true) ∧ (x.stub = true → x.state = .ending) := by
        simpa [or_assoc, imp_iff_not_or] using hg
      obtain ⟨hbusy, hblocks, hshares, hstub⟩ := hopen
      have hno := fun hst => h x hx ⟨hbusy, hblocks, hshares, hstub, hst⟩
      cases hst : x.state with
      | ending => exact absurd (.inl hst) hno
      | ended => rfl
      | waiting => exact if_neg fun hc => hno (.inr ⟨.inl hst, by simpa using hc⟩)
      | bound => exact if_neg fun hc => hno (.inr ⟨.inr hst, by simpa using hc⟩)

end

theorem launchComplete_acts (l : Nat) : EventActs (.launchComplete l)
    (fun d => ∃ x, findLaunch d l = some x ∧ launchBusy d l = false ∧ (∀ b, b ∈ d.blocks → b.launch ≠ l) ∧
      (∀ y, y ∈ x.shares → y.ended = true) ∧ (x.stub = true → x.state = .ending) ∧
      (x.state = .ending ∨ ((x.state = .waiting ∨ x.state = .bound) ∧ x.retired = blocksHere d x ∧ depsMet d x = true)))
    fun d t => ∀ x st, findLaunch d l = some x → st = (if x.state = .ending then x.status else 1) → LaunchIs t l .ended st ∧
      (x.away = none → x.done % 16 = 0 →
        homeBytes t (fnKey d x.fn) (x.done + 8) 8 = bytesOf d.time 8 ∧
        homeBytes t (fnKey d x.fn) x.done 8 = bytesOf (if st = 5 then 5 + 2 ^ 8 * x.cause.toNat else st) 8) := by
  rintro s _ rfl
  constructor
  · rintro ⟨x, hx, h⟩
    refine ⟨_, exec_launchComplete_of hx h, fun y st hy hst => ?_⟩
    cases hx.symm.trans hy
    obtain rfl := findLaunch_key hx
    rw [completeLaunch]
    split at hst
    · next hend =>
      subst hst
      rw [if_pos hend]
      refine ⟨closeLaunch_ended hx .., fun ha hp => ?_⟩
      have hword : (if x.status = 5 then 5 + 2 ^ 8 * x.cause.toNat else x.status) =
          x.status + if x.status = 5 then 2 ^ 8 * x.cause.toNat else 0 := by split <;> omega
      rw [hword]
      exact homeBytes_closeLaunch _ _ _ ha hp
    · next hend =>
      subst hst
      rw [if_neg hend]
      exact ⟨closeLaunch_ended hx .., fun ha hp => homeBytes_closeLaunch _ _ _ ha hp⟩
  · exact fun h => exec_launchComplete_none fun x hx hc => h ⟨x, hx, hc⟩

/-- Settles O40: bind records are found again by entry, blocks and launches by key, and no later store of a completion reaches what
an earlier one wrote. -/
theorem launchesArePlacedAndCompleted : Obligations.LaunchesArePlacedAndCompleted :=
  ⟨launchBind_acts, clusterClaim_acts, blockPlace_acts, workDonation_acts, donatedBlockArrival_acts, eprioAging_acts, launchComplete_acts⟩

end Sys2Proof.Machine

/-! PROOFS. What the platform table's entries become (O41; 11 R233, R234, R241): an event changes the live entries of its names, and
the packets that were deferred leave where an entry points alone. -/

namespace Sys2Proof.Machine

open Sys2Proof Sys2Proof.Machine Sys2Proof.Claims

/-- The platform-table entry that a name stands in. -/
def entryOf (d : Dev) (n : DWord) : NameEntry := Sparse.get {} d.names (nameIndex n)

/-- The entry of a name holds it under its generation. -/
def Holds (e : NameEntry) (n : DWord) : Prop := e.gen = nameGen n ∧ e.state ≠ .free ∧ e.state ≠ .retired

/-- From d to t every name that lives stays so, no entry that P accepts is lost to it, and each of the names of package p that lives
gets one. -/
structure NamesMove (p : Nat) (P : NameEntry → Prop) (ns : List DWord) (d t : Dev) : Prop where
  pkg : t.pkg = d.pkg
  live : ∀ n, Holds (entryOf d n) n → Holds (entryOf t n) n
  keep : ∀ n, P (entryOf d n) → P (entryOf t n)
  make : ∀ n, n ∈ ns → n ≠ 0 → nameHome n = p → Holds (entryOf d n) n → P (entryOf t n)

section
variable {p : Nat} {P : NameEntry → Prop} {d e t : Dev} {ns ms : List DWord}

theorem NamesMove.of_names (hp : t.pkg = d.pkg) (h : t.names = d.names) : NamesMove p P [] d t :=
  ⟨hp, fun n hn => by rwa [entryOf, h], fun n hn => by rwa [entryOf, h], by simp⟩

theorem NamesMove.of_sched (h : t.sched = d.sched) : NamesMove p P [] d t := .of_names (Dev.sched_pkg h) (Dev.sched_names h)

theorem NamesMove.trans (h : NamesMove p P ns d e) (g : NamesMove p P ms e t) : NamesMove p P (ns ++ ms) d t := by
  refine ⟨g.pkg.trans h.pkg, fun n hn => g.live n (h.live n hn), fun n hn => g.keep n (h.keep n hn), fun n hn h0 hp hl => ?_⟩
  rcases List.mem_append.1 hn with hn | hn
  · exact g.keep n (h.make n hn h0 hp hl)
  · exact g.make n hn h0 hp (h.live n hl)

/-- Steps that move one name each move all of their names. -/
theorem NamesMove.foldl {β : Type} {f : Dev → β → Dev} {name : β → DWord} (hf : ∀ d x, d.pkg = p → NamesMove p P [name x] d (f d x))
    (l : List β) (hp : d.pkg = p) : NamesMove p P (l.map name) d (l.foldl f d) := by
  induction l generalizing d with
  | nil => exact .of_names rfl rfl
  | cons x l ih => exact (hf d x hp).trans (ih ((hf d x hp).pkg.trans hp))

/-- An event of a block moves the names of its groups. -/
theorem NamesMove.becomes {x : Block} (h : NamesMove d.pkg P (x.groups.map (·.pname)) d t) : NamesBecome d t x P :=
  fun g hg h0 hp hgen hfree hret => h.make g.pname (List.mem_map_of_mem hg) h0 hp ⟨hgen, hfree, hret⟩

end

/-! ## Events told by the package of a block (R234) -/

theorem entryOf_modName (d : Dev) (n m : DWord) (f : NameEntry → NameEntry) :
    entryOf (modName d n f) m = entryOf d m ∨ entryOf (modName d n f) m = f (entryOf d m) := by
  unfold entryOf modName Sparse.upd
  by_cases h : nameIndex m = nameIndex n
  · rw [h]
    simp only [Sparse.get_put_self]
    split
    · exact .inr rfl
    · exact .inl rfl
  · rw [Sparse.get_put_other _ _ _ _ _ h]
    exact .inl rfl

theorem entryOf_modName_self (d : Dev) (n : DWord) (f : NameEntry → NameEntry) (h : Holds (entryOf d n) n) :
    entryOf (modName d n f) n = f (entryOf d n) := by
  obtain ⟨hgen, hfree, hret⟩ := h
  unfold entryOf at hgen hfree hret
  simp [entryOf, modName, Sparse.upd, hgen, hfree, hret]

/-- A change of the live entry of a name that makes it what P accepts. -/
theorem modName_moves {p : Nat} {P : NameEntry → Prop} (d : Dev) (n : DWord) (f : NameEntry → NameEntry) (hgen : ∀ e, (f e).gen = e.gen)
    (hfree : ∀ e, (f e).state ≠ .free) (hret : ∀ e, (f e).state ≠ .retired) (hP : ∀ e, P (f e)) : NamesMove p P [n] d (modName d n f) := by
  refine ⟨rfl, fun m hm => ?_, fun m hm => ?_, fun m hm _ _ hl => ?_⟩
  · rcases entryOf_modName d n m f with h | h
    · rwa [h]
    · rw [h]
      exact ⟨(hgen _).trans hm.1, hfree _, hret _⟩
  · rcases entryOf_modName d n m f with h | h
    · rwa [h]
    · rw [h]
      exact hP _
  · rw [List.mem_singleton] at hm
    subst hm
    rw [entryOf_modName_self d m f hl]
    exact hP _

/-- A name that another package is home of, or none. -/
theorem NamesMove.of_other {p : Nat} {P : NameEntry → Prop} {d t : Dev} {n : DWord} (h : t.sched = d.sched) (hn : n = 0 ∨ nameHome n ≠ p) :
    NamesMove p P [n] d t := by
  refine ⟨Dev.sched_pkg h, (NamesMove.of_sched h (p := p) (P := P)).live, (NamesMove.of_sched h (p := p)).keep, fun m hm h0 hp _ => ?_⟩
  rw [List.mem_singleton] at hm
  subst hm
  exact (hn.elim h0 (· hp)).elim

theorem NameEntry.after_gen (e : NameEntry) (event loc core save : Nat) : (e.after event loc core save).gen = e.gen := by
  unfold NameEntry.after
  split <;> rfl

theorem NameEntry.after_live (e : NameEntry) (event loc core save : Nat) :
    (e.after event loc core save).state ≠ .free ∧ (e.after event loc core save).state ≠ .retired := by
  unfold NameEntry.after
  split <;> exact ⟨nofun, nofun⟩

/-- The live entries of a block's names after an event here. -/
theorem onNames_moves {P : NameEntry → Prop} (d : Dev) (b : Block) (event core save : Nat)
    (hP : ∀ e : NameEntry, P (e.after event d.pkg core save)) : NamesMove d.pkg P (b.groups.map (·.pname)) d (onNames d b event core save) := by
  refine NamesMove.foldl (fun c g hc => ?_) b.groups rfl
  split
  · next h0 => exact .of_other rfl (.inl h0)
  · split
    · exact modName_moves c _ _ (fun e => e.after_gen ..) (fun e => (e.after_live ..).1) (fun e => (e.after_live ..).2)
        fun e => hc ▸ hP e
    · next hh => exact .of_other (tellHome_sched ..) (.inr (hc ▸ hh))

/-- e is d but for the platform table and what a send leaves behind. -/
def NamesOnly (d e : Dev) : Prop := ∃ names inbox ports errors lost,
  e = { d with names := names, inbox := inbox, ports := ports, errors := errors, errorsLost := lost }

theorem NamesOnly.refl (d : Dev) : NamesOnly d d := ⟨_, _, _, _, _, rfl⟩

theorem NamesOnly.trans {d e f : Dev} (h : NamesOnly d e) (g : NamesOnly e f) : NamesOnly d f := by
  obtain ⟨_, _, _, _, _, rfl⟩ := h
  obtain ⟨_, _, _, _, _, rfl⟩ := g
  exact ⟨_, _, _, _, _, rfl⟩

section
variable {d e : Dev} (h : NamesOnly d e)
include h

theorem NamesOnly.blocks : e.blocks = d.blocks := by obtain ⟨_, _, _, _, _, rfl⟩ := h; rfl
theorem NamesOnly.objs : e.objs = d.objs := by obtain ⟨_, _, _, _, _, rfl⟩ := h; rfl
theorem NamesOnly.findBlock (b : Nat) : findBlock e b = findBlock d b := by rw [Machine.findBlock, h.blocks, Machine.findBlock]

end

theorem onNames_only (d : Dev) (b : Block) (event core save : Nat) : NamesOnly d (onNames d b event core save) := by
  refine List.foldlRecOn (motive := NamesOnly d) b.groups _ (.refl d) fun e h g _ => h.trans ?_
  split
  · exact .refl e
  · split
    · exact ⟨_, _, _, _, _, rfl⟩
    · obtain ⟨_, _, _, _, hs⟩ := sendPacket_form e { (mkPacket e (nameHome g.pname) b.shape.owner 1
        (.nameEvent g.pname event core save)) with deadline := 2 ^ 64 }
      exact ⟨_, _, _, _, _, hs⟩

/-! ## Deferred packets (R240, R241) -/

/-- Entry f is e but for its deferred packets, claims and forwarded packets. -/
def NameEntry.Served (e f : NameEntry) : Prop :=
  f = { e with deferred := f.deferred, claims := f.claims, fwd := f.fwd, fwdBy := f.fwdBy }

theorem NameEntry.Served.refl (e : NameEntry) : e.Served e := rfl

theorem NameEntry.Served.trans {e f g : NameEntry} (h : e.Served f) (k : f.Served g) : e.Served g := by
  unfold NameEntry.Served at *
  rw [k, h]

/-- What is kept of a block that remote stores are delivered to. -/
def Block.SameButGroups (x y : Block) : Prop := y = { x with groups := y.groups }

/-- From d to e packets are served: entries stay where they point, and blocks but for their groups. -/
structure Serves (d e : Dev) : Prop where
  pkg : e.pkg = d.pkg
  names : ∀ i, (Sparse.get {} d.names i).Served (Sparse.get {} e.names i)
  blocks : ∀ b x, findBlock d b = some x → ∃ y, findBlock e b = some y ∧ x.SameButGroups y

theorem Serves.refl (d : Dev) : Serves d d := ⟨rfl, fun _ => .refl _, fun _ x hx => ⟨x, hx, rfl⟩⟩

theorem Serves.trans {d e f : Dev} (h : Serves d e) (g : Serves e f) : Serves d f := by
  refine ⟨g.pkg.trans h.pkg, fun i => (h.names i).trans (g.names i), fun b x hx => ?_⟩
  obtain ⟨y, hy, hxy⟩ := h.blocks b x hx
  obtain ⟨z, hz, hyz⟩ := g.blocks b y hy
  refine ⟨z, hz, ?_⟩
  unfold Block.SameButGroups at *
  rw [hyz, hxy]

theorem Serves.of_sched {d e : Dev} (h : e.sched = d.sched) : Serves d e :=
  ⟨Dev.sched_pkg h, fun i => by rw [Dev.sched_names h]; exact .refl _, fun b x hx => ⟨x, (Dev.sched_findBlock h b).trans hx, rfl⟩⟩

/-- A change of one entry's deferred packets, claims or forwarded packets. -/
theorem Serves.of_put {d e : Dev} {i : Nat} {x : NameEntry} (hp : e.pkg = d.pkg) (hb : e.blocks = d.blocks)
    (hn : e.names = Sparse.put {} d.names i x) (hx : (Sparse.get {} d.names i).Served x) : Serves d e := by
  refine ⟨hp, fun j => ?_, fun b y hy => ⟨y, by rwa [findBlock, hb], rfl⟩⟩
  rw [hn]
  by_cases h : j = i
  · subst h
    rwa [Sparse.get_put_self]
  · rw [Sparse.get_put_other _ _ _ _ _ h]
    exact .refl _

theorem modName_serves (d : Dev) (n : DWord) (f : NameEntry → NameEntry) (hf : ∀ e : NameEntry, e.Served (f e)) :
    Serves d (modName d n f) := by
  refine .of_put rfl rfl rfl ?_
  dsimp only
  split
  · exact hf _
  · exact .refl _

theorem answer_serves (d : Dev) (p : Packet) (body : PacketBody) : Serves d (answer d p body) := .of_sched (sendPacket_sched ..)

theorem deferPacket_serves (d : Dev) (n : DWord) (p : Packet) (full : Dev → Dev) (hf : ∀ d, Serves d (full d)) :
    Serves d (deferPacket d n p full) := by
  unfold deferPacket
  dsimp only
  split
  · exact hf d
  · exact .of_put rfl rfl rfl rfl

theorem deliverStore_serves (d : Dev) (n : DWord) (t : Nat) (m : Mask) (data : List Word) (stamp : Nat) :
    Serves d (deliverStore d n t m data stamp).1 := by
  unfold deliverStore
  split
  · exact .refl d
  · next b g _ =>
    refine ⟨rfl, fun _ => .refl _, fun k x hx => ?_⟩
    have hf := findBlock_modBlock d b.key k (fun x => x.modGroup g.idx fun _ => (g.receive b.shape.vregs t m data stamp).1) fun _ h => h
    rw [hx] at hf
    split at hf
    · exact ⟨_, hf, rfl⟩
    · exact ⟨x, hf, rfl⟩

theorem serveStore_serves (d : Dev) (p : Packet) : Serves d (serveStore d p) := by
  unfold serveStore
  split
  · split
    · exact answer_serves ..
    · exact deferPacket_serves _ _ _ _ fun d => answer_serves ..
    · dsimp only
      split
      · exact (deliverStore_serves ..).trans (answer_serves ..)
      · refine Serves.trans ?_ (.of_sched (sendPacket_sched ..))
        exact modName_serves _ _ _ fun _ => rfl
  · exact .refl d

theorem serveClaim_serves (d : Dev) (p : Packet) : Serves d (serveClaim d p) := by
  unfold serveClaim
  split
  · split
    · exact answer_serves ..
    · exact deferPacket_serves _ _ _ _ fun d => answer_serves ..
    · dsimp only
      split
      · exact answer_serves ..
      · refine Serves.trans ?_ (answer_serves ..)
        exact .of_put rfl rfl rfl rfl
  · exact .refl d

theorem serveDeferred_serves (d : Dev) (p : Packet) : Serves d (serveDeferred d p) := by
  unfold serveDeferred
  split
  · exact serveStore_serves ..
  · exact serveClaim_serves ..
  · exact .refl d

/-! ## The end of a move (R234) -/

/-- What an entry says apart from the packets that wait for it. -/
def OfPlace (P : NameEntry → Prop) : Prop := ∀ e f : NameEntry, e.Served f → P e → P f

theorem Serves.moves {p : Nat} {P : NameEntry → Prop} {d e : Dev} (h : Serves d e) (hP : OfPlace P) : NamesMove p P [] d e := by
  refine ⟨h.pkg, fun n hn => ?_, fun n hn => hP _ _ (h.names _) hn, by simp⟩
  have hserved := h.names (nameIndex n)
  unfold entryOf Holds at *
  rw [hserved]
  exact hn

/-- What follows the end of a move of one name: its deferred packets are served. -/
def afterSettle (d : Dev) (n : DWord) (e : NameEntry) : Dev :=
  if e.gen = nameGen n && e.state = .moving then
    e.deferred.foldl serveDeferred { d with
      names := Sparse.upd {} d.names (nameIndex n) (fun e => { e with deferred := [] }), deferCount := d.deferCount - e.deferred.length }
  else d

/-- The entry of a name at the end of a move. -/
def NameEntry.settled (loc save : Nat) (moving : Prop) [Decidable moving] (e : NameEntry) : NameEntry :=
  { e.after 2 loc 0 save with fwd := if moving then 0 else (e.after 2 loc 0 save).fwd, fwdBy := 0 }

theorem settleName_eq (d : Dev) (n : DWord) (loc save : Nat) : settleName d n loc save =
    afterSettle (modName d n (NameEntry.settled loc save ((entryOf d n).state = .moving))) n (entryOf d n) := rfl

theorem afterSettle_serves (d : Dev) (n : DWord) (e : NameEntry) : Serves d (afterSettle d n e) := by
  unfold afterSettle
  split
  · exact List.foldlRecOn (motive := Serves d) e.deferred _ (.of_put rfl rfl rfl rfl) fun _ h _ _ => h.trans (serveDeferred_serves ..)
  · exact .refl d

theorem settleName_moves (p : Nat) (d : Dev) (n : DWord) (loc save : Nat) :
    NamesMove p (fun e => e.state = .saved ∧ e.loc = loc ∧ e.save = save) [n] d (settleName d n loc save) := by
  rw [settleName_eq]
  refine NamesMove.trans (ms := []) (modName_moves d n (NameEntry.settled loc save ((entryOf d n).state = .moving)) (fun _ => rfl)
    (fun _ => nofun) (fun _ => nofun) fun _ => ⟨rfl, rfl, rfl⟩)
    ((afterSettle_serves ..).moves fun e f hf he => ?_)
  rw [hf]
  exact he

/-- No name that ends its move changes a block but for its groups. -/
theorem settleName_blocks (d : Dev) (n : DWord) (loc save b : Nat) (x : Block) (hx : findBlock d b = some x) :
    ∃ y, findBlock (settleName d n loc save) b = some y ∧ x.SameButGroups y := by
  rw [settleName_eq]
  exact (afterSettle_serves ..).blocks b x hx

end Sys2Proof.Machine

/-! PROOFS. Blocks pre-empted and saved (O41; 10 R213, R225-R228): what a request changes, and what a save keeps. -/

namespace Sys2Proof.Machine

open Sys2Proof Sys2Proof.Machine Sys2Proof.Claims

/-! ## Requests (R213, R225, R226) -/

theorem Group.request_quiet {g : Group} (h : g.ended = true ∨ g.live = 0) (reason dl : Nat) : g.request reason dl = g :=
  if_pos (by simpa using h)

theorem Group.request_live {g : Group} (he : g.ended = false) (hl : g.live ≠ 0) (reason dl : Nat) : g.request reason dl =
    { g with preempt := some (reason, dl), ctx := if g.ctx.inh then { g.ctx with preq := true } else g.ctx } :=
  if_neg (by simpa [he] using hl)

/-- The block after a request is taken. -/
def Block.requested (b : Block) (now reason dl : Nat) : Block :=
  { b with
    state := .preempting, stime := now, preempt := some (reason, dl), stopped := b.shape.handler = 0
    handlerPending := b.shape.handler != 0
    groups := if b.shape.handler = 0 then b.groups else b.groups.map fun g => g.request reason dl }

theorem preemptBlock_taken {d : Dev} {b : Block} (hst : b.state = .resident ∨ b.state = .parked) (hr : b.reserved = false) (reason : Nat) :
    preemptBlock d b reason = modBlock d b.key fun x => x.requested d.time reason (d.time + 1000 * b.shape.wdog) :=
  if_pos (by simpa [hr] using hst)

theorem preemptBlock_ignored {d : Dev} {b : Block} (h : ¬ (b.state = .resident ∨ b.state = .parked) ∨ b.reserved = true) (reason : Nat) :
    preemptBlock d b reason = d := by
  refine if_neg fun hc => ?_
  simp only [Bool.and_eq_true, Bool.or_eq_true, decide_eq_true_eq, Bool.not_eq_true'] at hc
  rcases h with h | h
  · exact h hc.1
  · rw [hc.2] at h
    cases h

theorem preemptBlock_requested {d : Dev} {b : Block} (hb : findBlock d b.key = some b) (reason : Nat) :
    Requested d (preemptBlock d b reason) b reason := by
  refine ⟨fun h => preemptBlock_ignored h reason, fun hst hr dl hdl => ?_⟩
  subst hdl
  rw [preemptBlock_taken hst hr]
  refine ⟨_, oneBlock_modBlock hb _ fun _ h => h, rfl, rfl, rfl, ?_, fun h0 => if_pos h0, fun h0 j g hg => ?_⟩
  · exact decide_eq_true_iff
  · refine ⟨g.request reason (d.time + 1000 * b.shape.wdog), ?_, fun h => Group.request_quiet h .., fun he hl => ?_⟩
    · have hgroups : (b.requested d.time reason (d.time + 1000 * b.shape.wdog)).groups =
          b.groups.map fun g => g.request reason (d.time + 1000 * b.shape.wdog) := if_neg h0
      rw [hgroups, List.getElem?_map, hg]
      rfl
    · rw [Group.request_live he hl]
      exact ⟨rfl, fun hin => by simp [hin], rfl⟩

theorem timeSliceExpiry_acts (b : Nat) : BlockActs (.timeSliceExpiry b) b (fun d x => x.onCore = true ∧ sliceOver d x = true)
    fun d x t => Requested d t x 2 := by
  refine blockActs_of (fun d x => x.onCore && sliceOver d x) (fun d x => preemptBlock d x 2) ?_ ?_ ?_ ?_
  · intro s h
    simp only [exec_timeSliceExpiry, execTimeSliceExpiry, h, State.noEvent, State.unfocus_unfocus]
  · intro s x h
    simp only [exec_timeSliceExpiry, execTimeSliceExpiry, h, State.noEvent, State.unfocus_unfocus]
  · simp
  · intro d x hx _
    obtain rfl := findBlock_key hx
    exact preemptBlock_requested hx 2

theorem reasonOk_iff {d : Dev} {x : Block} (r : Fin 8) : reasonOk d x r.val = true ↔
    (r = 1 ∧ waitsFor d x (fun p => decide (ownPrio d x < p)) = true) ∨ (r = 2 ∧ sliceOver d x = true) ∨ r = 3 ∨ r = 4 ∨ r = 5 := by
  match r with
  | 0 | 1 | 2 | 3 | 4 | 5 | 6 | 7 => simp [reasonOk]

theorem preemptRequest_acts (b : Nat) (r : Fin 8) : BlockActs (.preemptRequest b r) b
    (fun d x => x.begun = true ∧ ((r = 1 ∧ waitsFor d x (fun p => decide (ownPrio d x < p)) = true) ∨
      (r = 2 ∧ sliceOver d x = true) ∨ r = 3 ∨ r = 4 ∨ r = 5))
    fun d x t => Requested d t x r.val := by
  refine blockActs_of (fun d x => x.begun && reasonOk d x r.val) (fun d x => preemptBlock d x r.val) ?_ ?_ ?_ ?_
  · intro s h
    simp only [exec_preemptRequest, execPreemptRequest, h, State.noEvent, State.unfocus_unfocus]
  · intro s x h
    simp only [exec_preemptRequest, execPreemptRequest, h, State.noEvent, State.unfocus_unfocus]
  · exact fun d x => Bool.and_eq_true_iff.trans (and_congr_right fun _ => reasonOk_iff r)
  · intro d x hx _
    obtain rfl := findBlock_key hx
    exact preemptBlock_requested hx r.val

theorem watchdogExpiry_acts (b : Nat) : BlockActs (.watchdogExpiry b) b
    (fun d x => x.state = .preempting ∧ x.stopped = false ∧ x.allYielded = false ∧ ∃ p, x.preempt = some p ∧ p.2 ≤ d.time)
    fun d x t => OneBlock d t b { x with stopped := true } := by
  refine blockActs_of (fun d x => x.state = .preempting && !x.stopped && !x.allYielded && x.preempt.any fun p => decide (p.2 ≤ d.time))
    (fun d _ => modBlock d b fun y => { y with stopped := true }) ?_ ?_ ?_ ?_
  · intro s h
    simp only [exec_watchdogExpiry, execWatchdogExpiry, h, State.noEvent, State.unfocus_unfocus]
  · intro s x h
    simp only [exec_watchdogExpiry, execWatchdogExpiry, h, State.noEvent, State.unfocus_unfocus]
  · simp [Option.any_eq_true, and_assoc]
  · exact fun d x hx _ => oneBlock_modBlock hx _ fun _ h => h

/-! ## What a save area holds (R226-R228) -/

section
variable {b : Block} {now : Nat} {evict : Bool}

theorem Block.saved_whole (h : (b.stopped || evict) = true) : (b.saved now evict).scratch = b.scratch ∧
    (b.saved now evict).groups = b.groups.map (·.saved) := by
  simp [Block.saved, h]

theorem Block.saved_partial (h : (b.stopped || evict) = false) :
    (b.saved now evict).scratch = b.scratch.filter (fun e => decide (e.1 < b.shape.pscr)) ∧
    (b.saved now evict).groups = b.groups.map fun g => (g.keep b.shape.pkeep).saved := by
  simp [Block.saved, h]

theorem Group.saved_whole (g : Group) : SavedWhole g g.saved :=
  ⟨rfl, rfl, rfl, rfl, rfl, rfl, rfl, rfl, rfl, rfl, rfl, rfl, rfl, rfl, rfl, rfl, rfl, rfl⟩

/-- A handler-path save keeps v0 to v(PKEEP - 1) and every register with a hold entry. -/
theorem Group.keep_v (g : Group) (pkeep key : Nat) (h : key / 32 < pkeep ∨ (g.holdOf (key / 32)).isSome = true) :
    Sparse.get 0 (g.keep pkeep).v key = Sparse.get 0 g.v key := by
  have hk : (decide (key / 32 < pkeep) || (g.holdOf (key / 32)).isSome) = true := by simpa using h
  exact (Sparse.get_filter_keys 0 g.v (fun key => decide (key / 32 < pkeep) || (g.holdOf (key / 32)).isSome) key).trans (if_pos hk)

end

/-! ## A block leaves its core (R226, R227, R234) -/

theorem startWait_sched (d : Dev) (e : Nat) : (startWait d e).sched = d.sched := by
  unfold startWait
  split <;> rfl

/-- The record of a block that stands in the slot table starts to wait. -/
def waitBind (d : Dev) (b : Block) : Dev := if b.child.isSome then d else startWait d b.slotEntry

theorem waitBind_sched (d : Dev) (b : Block) : (waitBind d b).sched = d.sched := by
  unfold waitBind
  split
  · rfl
  · exact startWait_sched ..

/-- Stores, objects and lent tiles of a block that leaves its core are given back. -/
def leaveCore (d : Dev) (b : Block) : Dev := returnLent (releaseObjs (releaseAt (waitBind d b) b.cluster .sys) b.key) b

theorem leaveCore_sched (d : Dev) (b : Block) : (leaveCore d b).sched = d.sched := by
  rw [leaveCore, returnLent_sched, releaseObjs_sched, releaseAt_sched, waitBind_sched]

theorem leaveCore_objs (d : Dev) (b : Block) {o : Obj} (h : o ∈ (leaveCore d b).objs) : o.block ≠ b.key := by
  obtain ⟨_, hlent⟩ := returnLent_only (releaseObjs (releaseAt (waitBind d b) b.cluster .sys) b.key) b
  rw [leaveCore, hlent] at h
  have h := (releaseObjs_objs ..) ▸ h
  simpa using (List.mem_filter.1 h).2

/-- The package when everything but the block itself is as the save leaves it. -/
def beforeSave (d : Dev) (b : Block) : Dev :=
  let d := onNames (leaveCore d b) b 2 b.core b.saveAddr
  if b.child.isSome then d else onBind d b fun x => { x with saved := x.saved + 1 }

theorem saveBlock_eq (d : Dev) (b : Block) (evict : Bool) : saveBlock d b evict =
    clearArea (modBlock (beforeSave d b) b.key fun _ => b.saved (beforeSave d b).time evict) (b.saved (beforeSave d b).time evict) := rfl

theorem beforeSave_form (d : Dev) (b : Block) : ∃ binds, beforeSave d b = { onNames (leaveCore d b) b 2 b.core b.saveAddr with binds := binds } := by
  unfold beforeSave
  dsimp only
  split <;> exact ⟨_, rfl⟩

section
variable (d : Dev) (b : Block)

theorem findBlock_beforeSave (c : Nat) : findBlock (beforeSave d b) c = findBlock d c := by
  obtain ⟨_, hb⟩ := beforeSave_form d b
  have hblocks := (onNames_only (leaveCore d b) b 2 b.core b.saveAddr).blocks.trans (Dev.sched_blocks (leaveCore_sched d b))
  rw [hb, findBlock, findBlock]
  exact congrArg _ hblocks

theorem beforeSave_moves {P : NameEntry → Prop} (hP : ∀ e : NameEntry, P (e.after 2 d.pkg b.core b.saveAddr)) :
    NamesMove d.pkg P (b.groups.map (·.pname)) d (beforeSave d b) := by
  obtain ⟨_, hb⟩ := beforeSave_form d b
  have hp := Dev.sched_pkg (leaveCore_sched d b)
  rw [hb, ← hp, ← List.nil_append (b.groups.map _), ← List.append_nil (b.groups.map _)]
  exact (NamesMove.of_sched (leaveCore_sched d b)).trans
    ((onNames_moves (leaveCore d b) b 2 b.core b.saveAddr fun e => hp ▸ hP e).trans (.of_names rfl rfl))

theorem saveBlock_objs (evict : Bool) {o : Obj} (h : o ∈ (saveBlock d b evict).objs) : o.block ≠ b.key := by
  obtain ⟨_, hb⟩ := beforeSave_form d b
  have hobjs : (saveBlock d b evict).objs = (leaveCore d b).objs := by
    rw [saveBlock_eq]
    exact (congrArg Dev.objs hb).trans (onNames_only ..).objs
  exact leaveCore_objs d b (hobjs ▸ h)

theorem saveBlock_moves (evict : Bool) {P : NameEntry → Prop} (hP : ∀ e : NameEntry, P (e.after 2 d.pkg b.core b.saveAddr)) :
    NamesMove d.pkg P (b.groups.map (·.pname)) d (saveBlock d b evict) := by
  rw [saveBlock_eq, ← List.append_nil (b.groups.map _)]
  exact (beforeSave_moves d b hP).trans (.of_names rfl rfl)

theorem findBlock_saveBlock (evict : Bool) (c : Nat) : findBlock (saveBlock d b evict) c =
    if c = b.key then (findBlock d c).map fun _ => b.saved (beforeSave d b).time evict else findBlock d c := by
  rw [saveBlock_eq, ← findBlock_beforeSave d b c]
  exact findBlock_modBlock (beforeSave d b) b.key c (fun _ => b.saved (beforeSave d b).time evict) fun _ _ => rfl

end

theorem blockSave_acts (b : Nat) : BlockActs (.blockSave b) b
    (fun d x => x.state = .preempting ∧ x.done = false ∧ (x.stopped = true ∨ x.allYielded = true) ∧ saveReady d x = true)
    fun d x t => NamesBecome d t x (fun e => e.state = .saved ∧ e.save = x.saveAddr) ∧ (∀ o, o ∈ t.objs → o.block ≠ b) ∧
      (∀ c, c ≠ b → findBlock t c = findBlock d c) ∧
      ∃ y, findBlock t b = some y ∧ y.state = .saved ∧ y.preempt = none ∧ y.stopped = false ∧ y.shape = x.shape ∧
        y.seq = { x.seq with words := none, rstw := false, res := if x.seq.res = .none then .none else .home } ∧
        (x.stopped = true → y.scratch = x.scratch ∧ ∀ (j : Nat) g, x.groups[j]? = some g → ∃ h, y.groups[j]? = some h ∧ SavedWhole g h) ∧
        (x.stopped = false → (∀ a, a < x.shape.pscr → Sparse.get 0 y.scratch a = Sparse.get 0 x.scratch a) ∧
          ∀ (j : Nat) g, x.groups[j]? = some g → ∃ h, y.groups[j]? = some h ∧ h.s = g.s ∧ h.p = g.p ∧ h.q = g.q ∧ h.holds = g.holds ∧
            h.ctx = g.ctx ∧ h.trap = g.trap ∧
            ∀ key, key / 32 < x.shape.pkeep ∨ (g.holdOf (key / 32)).isSome = true → Sparse.get 0 h.v key = Sparse.get 0 g.v key) := by
  refine blockActs_of (fun d x => x.state = .preempting && !x.done && (x.stopped || x.allYielded) && saveReady d x)
    (fun d x => saveBlock d x false) ?_ ?_ ?_ ?_
  · intro s h
    simp only [exec_blockSave, execBlockSave, h, State.noEvent, State.unfocus_unfocus]
  · intro s x h
    simp only [exec_blockSave, execBlockSave, h, State.noEvent, State.unfocus_unfocus]
  · simp [and_assoc]
  · intro d x hx _
    obtain rfl := findBlock_key hx
    refine ⟨(saveBlock_moves d x false fun _ => ⟨rfl, rfl⟩).becomes, fun o => saveBlock_objs d x false, fun c hc =>
      (findBlock_saveBlock d x false c).trans (if_neg hc), x.saved (beforeSave d x).time false, ?_, rfl, rfl, rfl, rfl, rfl,
      fun hs => ?_, fun hs => ?_⟩
    · rw [findBlock_saveBlock, if_pos rfl, hx]
      rfl
    · obtain ⟨hscratch, hgroups⟩ := Block.saved_whole (b := x) (now := (beforeSave d x).time) (evict := false) (by simp [hs])
      refine ⟨hscratch, fun j g hg => ⟨g.saved, ?_, g.saved_whole⟩⟩
      rw [hgroups, List.getElem?_map, hg]
      rfl
    · obtain ⟨hscratch, hgroups⟩ := Block.saved_partial (b := x) (now := (beforeSave d x).time) (evict := false) (by simp [hs])
      refine ⟨fun a ha => ?_, fun j g hg => ⟨(g.keep x.shape.pkeep).saved, ?_, rfl, rfl, rfl, rfl, rfl, rfl, g.keep_v x.shape.pkeep⟩⟩
      · rw [hscratch]
        exact (Sparse.get_filter_keys 0 x.scratch (fun a => decide (a < x.shape.pscr)) a).trans (if_pos (decide_eq_true ha))
      · rw [hgroups, List.getElem?_map, hg]
        rfl

end Sys2Proof.Machine

/-! PROOFS. Blocks resumed, evicted and moved (O41; 10 R223, R229, 11 R234). -/

namespace Sys2Proof.Machine

open Sys2Proof Sys2Proof.Machine Sys2Proof.Claims

/-! ## A saved block goes on (R229, R420) -/

section
variable (d : Dev) (b : Block) (core : Nat)

/-- The core that a block resumes on, when its area has been left. -/
def readyCore : Dev := startOnCore (leaveArea d b) core b.launch

theorem readyCore_sched : (readyCore d b core).sched = d.sched := (startOnCore_sched ..).trans (leaveArea_sched ..)

/-- The package with a block on its core again. -/
def resumeOn : Dev :=
  { readyCore d b core with
    ranges := modIf (readyCore d b core).ranges (fun r => r.block = b.key) fun r => { r with core := core }
    blocks := putBlock ((readyCore d b core).blocks.filter fun y => y.key ≠ b.key) (b.resumed (readyCore d b core) core)
    ages := (readyCore d b core).ages + b.shape.groups }

variable {d b}

theorem resumeBlock_form (h : saveBad d b = false) : ∃ binds,
    resumeBlock d b core = { onNames (resumeOn d b core) (b.resumed (readyCore d b core) core) 1 core 0 with binds := binds } := by
  have hd : resumeBlock d b core = if b.child.isSome then onNames (resumeOn d b core) (b.resumed (readyCore d b core) core) 1 core 0 else
      onBind (placedOne (onNames (resumeOn d b core) (b.resumed (readyCore d b core) core) 1 core 0)
        (b.resumed (readyCore d b core) core)) (b.resumed (readyCore d b core) core) fun r => { r with saved := r.saved - 1 } :=
    if_neg (by simp [h])
  rw [hd]
  split
  · exact ⟨_, rfl⟩
  · obtain ⟨_, hp⟩ := placedOne_form (onNames (resumeOn d b core) (b.resumed (readyCore d b core) core) 1 core 0)
      (b.resumed (readyCore d b core) core)
    rw [hp]
    exact ⟨_, rfl⟩

theorem resumeBlock_names (h : saveBad d b = false) :
    NamesBecome d (resumeBlock d b core) b fun e => e.state = .resident ∧ e.loc = d.pkg ∧ e.core = core := by
  have hs := readyCore_sched d b core
  have hp := Dev.sched_pkg hs
  have hn := Dev.sched_names hs
  obtain ⟨_, hr⟩ := resumeBlock_form core h
  have hmoves := onNames_moves (P := fun e => e.state = .resident ∧ e.loc = d.pkg ∧ e.core = core) (resumeOn d b core)
    (b.resumed (readyCore d b core) core) 1 core 0 fun e => ⟨rfl, hp, rfl⟩
  have hgroups : (b.resumed (readyCore d b core) core).groups.map (·.pname) = b.groups.map (·.pname) := by
    simp [Block.resumed]
  rw [hgroups] at hmoves
  rw [hr]
  refine NamesMove.becomes ?_
  rw [← List.nil_append (b.groups.map _), ← List.append_nil (b.groups.map _)]
  exact (NamesMove.of_names (t := resumeOn d b core) hp hn).trans ((hp ▸ hmoves).trans (.of_names rfl rfl))

theorem findBlock_resumeBlock (h : saveBad d b = false) (c : Nat) : findBlock (resumeBlock d b core) c =
    if c = b.key then some (b.resumed (readyCore d b core) core) else findBlock d c := by
  have hblocks := Dev.sched_blocks (readyCore_sched d b core)
  obtain ⟨_, hr⟩ := resumeBlock_form core h
  have hput : (resumeBlock d b core).blocks = putBlock (d.blocks.filter fun y => y.key ≠ b.key) (b.resumed (readyCore d b core) core) := by
    rw [hr, ← hblocks]
    exact (onNames_only ..).blocks
  rw [findBlock, hput]
  exact find?_putBlock d.blocks (b.resumed (readyCore d b core) core) c

/-- A block that resumes on a core is as its save area holds it, on that core. -/
theorem resumed_fields : ∃ y, b.resumed (readyCore d b core) core = y ∧ y.state = .resident ∧ y.core = core ∧ y.cluster = core / 4 ∧
    y.nres = b.nres + 1 ∧ y.scratch = b.scratch ∧ y.bars = b.bars ∧ y.groups = b.groups.map (fun g => { g with age := d.ages + g.idx }) ∧
    y.seq = { b.seq with rstw := !b.seq.tiles.isEmpty } := by
  refine ⟨_, rfl, rfl, rfl, rfl, rfl, rfl, rfl, ?_, rfl⟩
  exact congrArg (fun a : Nat => b.groups.map fun g => { g with age := a + g.idx }) (Dev.sched_ages (readyCore_sched d b core))

/-- A poisoned save area ends the launch of a block that is no fork child. -/
theorem resumeBlock_bad (h : saveBad d b = true) (hc : b.child = none) : (∀ y, y ∈ (resumeBlock d b core).blocks → y.launch ≠ b.launch) ∧
    ∀ l, findLaunch d b.launch = some l → LaunchIs (resumeBlock d b core) b.launch .ending 5 := by
  have hd : ∃ t e cause, resumeBlock d b core = endLaunch (terminate d b t e) b.launch 5 cause := by
    refine ⟨{ cause := cPOISON_CONSUMED, time := dw d.time }, ⟨(b.groups.head?.map (·.idx)).getD 0, 0, core, false⟩, cPOISON_CONSUMED, ?_⟩
    rw [resumeBlock, if_pos h]
    simp only [endUnit, hc]
  obtain ⟨t, e, cause, hd⟩ := hd
  rw [hd]
  exact ⟨fun y hy => endLaunch_blocks _ _ _ _ hy, fun l hl => endLaunch_ending ((Dev.sched_findLaunch (terminate_sched ..) _).trans hl) ..⟩

end

theorem exec_blockResume_of {b core : Nat} {s : State} {x : Block} (hx : findBlock (postReleases s.unfocus.dev) b = some x)
    (hst : x.state = .saved) (hcor : x.cor = false) (hn : nextOn (postReleases s.unfocus.dev) core x = true) :
    exec (.blockResume b core) s = .next { s.unfocus with dev := resumeBlock (postReleases s.unfocus.dev) x core } := by
  simp [exec_blockResume, execBlockResume, hx, hst, hcor, hn]

theorem exec_blockResume_none {b core : Nat} {s : State}
    (h : ∀ x, findBlock (postReleases s.unfocus.dev) b = some x → x.state ≠ .saved ∨ nextOn (postReleases s.unfocus.dev) core x = false) :
    exec (.blockResume b core) s = .next s.unfocus := by
  simp only [exec_blockResume, execBlockResume, State.noEvent, State.unfocus_unfocus]
  cases hx : findBlock (postReleases s.unfocus.dev) b with
  | none => rfl
  | some x =>
    refine if_pos ?_
    simpa using h x hx

/-- A saved block is ready only on the package that holds its save. -/
theorem nextOn_elsewhere {d : Dev} {core : Nat} {x : Block} (hst : x.state = .saved) (hloc : x.loc ≠ d.pkg) : nextOn d core x = false := by
  simp [nextOn, readyOn, hst, hloc]

theorem blockResume_acts (b core : Nat) (s : State) (d : Dev) (hd : d = postReleases s.unfocus.dev) :
    (∀ x, findBlock d b = some x → x.state = .saved → x.loc = d.pkg → x.cor = false → nextOn d core x = true →
      (saveBad d x = false → ∃ t, exec (.blockResume b core) s = .next { s.unfocus with dev := t } ∧
        NamesBecome d t x (fun e => e.state = .resident ∧ e.loc = d.pkg ∧ e.core = core) ∧
        (∀ c, c ≠ b → findBlock t c = findBlock d c) ∧
        ∃ y, findBlock t b = some y ∧ y.state = .resident ∧ y.core = core ∧ y.cluster = core / 4 ∧ y.nres = x.nres + 1 ∧
          y.scratch = x.scratch ∧ y.bars = x.bars ∧ y.groups = x.groups.map (fun g => { g with age := d.ages + g.idx }) ∧
          y.seq = { x.seq with rstw := !x.seq.tiles.isEmpty }) ∧
      (saveBad d x = true → ∃ t, exec (.blockResume b core) s = .next { s.unfocus with dev := t } ∧
        (x.child = none → (∀ y, y ∈ t.blocks → y.launch ≠ x.launch) ∧
          ∀ l, findLaunch d x.launch = some l → LaunchIs t x.launch .ending 5))) ∧
    ((∀ x, findBlock d b = some x → x.state ≠ .saved ∨ x.loc ≠ d.pkg) → exec (.blockResume b core) s = .next s.unfocus) := by
  subst hd
  refine ⟨fun x hx hst _ hcor hn => ⟨fun hgood => ?_, fun hbad => ?_⟩, fun h => ?_⟩
  · obtain rfl := findBlock_key hx
    obtain ⟨y, hy, hfields⟩ := resumed_fields (d := postReleases s.unfocus.dev) (b := x) core
    exact ⟨_, exec_blockResume_of hx hst hcor hn, resumeBlock_names core hgood, fun c hc => (findBlock_resumeBlock core hgood c).trans (if_neg hc),
      y, (findBlock_resumeBlock core hgood _).trans (by rw [if_pos rfl, hy]), hfields⟩
  · exact ⟨_, exec_blockResume_of hx hst hcor hn, resumeBlock_bad core hbad⟩
  · refine exec_blockResume_none fun x hx => ?_
    by_cases hst : x.state = .saved
    · exact .inr (nextOn_elsewhere hst ((h x hx).resolve_left (· hst)))
    · exact .inl hst

/-! ## Eviction (R223) -/

/-- Blocks saved one after another to be evicted. -/
def evictAll (d : Dev) (l : List Block) : Dev := l.foldl (fun d y => saveBlock d y true) d

theorem evictAll_moves (l : List Block) (d : Dev) :
    NamesMove d.pkg (fun e => e.state = .saved) (l.flatMap fun b => b.groups.map (·.pname)) d (evictAll d l) := by
  induction l generalizing d with
  | nil => exact .of_names rfl rfl
  | cons b l ih =>
    have hb := saveBlock_moves d b true (P := fun e => e.state = .saved) fun _ => rfl
    exact hb.trans (hb.pkg ▸ ih (saveBlock d b true))

/-- A block that is evicted. -/
def Evicted (d : Dev) (k : Nat) : Prop := ∃ z, findBlock d k = some z ∧ z.state = .evicted ∧ z.waitEvt = true

theorem saveBlock_evicts {d : Dev} {b x : Block} (h : findBlock d b.key = some x) : Evicted (saveBlock d b true) b.key :=
  ⟨b.saved (beforeSave d b).time true, by rw [findBlock_saveBlock, if_pos rfl, h]; rfl, rfl, rfl⟩

theorem saveBlock_keepsEvicted {d : Dev} {b : Block} {k : Nat} (h : Evicted d k) : Evicted (saveBlock d b true) k := by
  obtain ⟨z, hz, hst, hw⟩ := h
  by_cases hk : k = b.key
  · subst hk
    exact saveBlock_evicts hz
  · exact ⟨z, by rw [findBlock_saveBlock, if_neg hk, hz], hst, hw⟩

theorem saveBlock_finds {d : Dev} {b : Block} {k : Nat} (h : ∃ x, findBlock d k = some x) : ∃ x, findBlock (saveBlock d b true) k = some x := by
  obtain ⟨x, hx⟩ := h
  rw [findBlock_saveBlock, hx]
  split <;> exact ⟨_, rfl⟩

/-- Each block of a list is evicted when all of them have been. -/
theorem evictAll_evicts {l : List Block} {y : Block} (hy : y ∈ l) {d : Dev} (hd : ∃ x, findBlock d y.key = some x) :
    Evicted (evictAll d l) y.key := by
  obtain ⟨before, after, rfl⟩ := List.append_of_mem hy
  rw [evictAll, List.foldl_append, List.foldl_cons]
  obtain ⟨x, hx⟩ := List.foldlRecOn (motive := fun e : Dev => ∃ x, findBlock e y.key = some x) before _ hd fun _ h _ _ => saveBlock_finds h
  exact List.foldlRecOn (motive := fun e : Dev => Evicted e y.key) after _ (saveBlock_evicts hx) fun _ h _ _ => saveBlock_keepsEvicted h

theorem findBlock_of_mem {d : Dev} {y : Block} (h : y ∈ d.blocks) : ∃ x, findBlock d y.key = some x :=
  Option.isSome_iff_exists.1 (List.find?_isSome.2 ⟨y, h, by simp⟩)

/-- A block goes with its co-resident unit, or alone. -/
theorem evictees_cons (d : Dev) (x : Block) : ∃ l, evictees d x = x :: l ∧ ∀ y, y ∈ l → y ∈ d.blocks := by
  unfold evictees
  split
  · exact ⟨_, rfl, fun y hy => (List.mem_filter.1 (List.mem_filter.1 hy).1).1⟩
  · exact ⟨[], rfl, by simp⟩

/-- The check of an eviction. -/
def mayEvict (d : Dev) (x : Block) : Bool := (findLaunch d x.launch).any fun l =>
  x.child.isNone && evictsFor d l && evictable d l x &&
    !(d.blocks.any fun y => y.launch = l.key && y.child.isNone && decide (x.blin < y.blin) && evictable d l y)

theorem mayEvict_iff {d : Dev} {x : Block} : mayEvict d x = true ↔ ∃ l, findLaunch d x.launch = some l ∧ x.child = none ∧
    evictsFor d l = true ∧ evictable d l x = true ∧
      ∀ y, y ∈ d.blocks → y.launch = l.key → y.child = none → x.blin < y.blin → evictable d l y = false := by
  simp only [mayEvict, Option.any_eq_true, Bool.and_eq_true, Option.isNone_iff_eq_none, Bool.not_eq_true', List.any_eq_false,
    decide_eq_true_eq, Bool.not_eq_true, not_and, and_assoc]

theorem parkingEviction_acts (b : Nat) : BlockActs (.parkingEviction b) b
    (fun d x => ∃ l, findLaunch d x.launch = some l ∧ x.child = none ∧ evictsFor d l = true ∧ evictable d l x = true ∧
      ∀ y, y ∈ d.blocks → y.launch = l.key → y.child = none → x.blin < y.blin → evictable d l y = false)
    fun d x t => (∀ y, y ∈ evictees d x → ∃ z, findBlock t y.key = some z ∧ z.state = .evicted ∧ z.waitEvt = true) ∧
      NamesBecome d t x (fun e => e.state = .saved) := by
  refine blockActs_of mayEvict (fun d x => evictAll d (evictees d x)) ?_ ?_ (fun d x => mayEvict_iff) ?_
  · intro s h
    simp only [exec_parkingEviction, execParkingEviction, h, Option.bind_none, State.noEvent, State.unfocus_unfocus]
  · intro s x h
    obtain hl | ⟨l, hl⟩ := Option.eq_none_or_eq_some (findLaunch s.unfocus.dev x.launch)
    · simp only [exec_parkingEviction, execParkingEviction, h, hl, Option.bind_some, Option.map_none, State.noEvent, State.unfocus_unfocus,
        mayEvict]
      rfl
    · simp only [exec_parkingEviction, execParkingEviction, h, hl, Option.bind_some, Option.map_some, State.noEvent, State.unfocus_unfocus,
        mayEvict, Option.any_some]
      rfl
  · intro d x hx _
    obtain rfl := findBlock_key hx
    obtain ⟨l, hl, hmem⟩ := evictees_cons d x
    rw [hl]
    refine ⟨fun y hy => evictAll_evicts hy ?_, NamesMove.becomes ?_⟩
    · rcases List.mem_cons.1 hy with rfl | hy
      · exact ⟨_, hx⟩
      · exact findBlock_of_mem (hmem y hy)
    · obtain ⟨hpkg, hlive, hkeep, hmake⟩ := evictAll_moves (x :: l) d
      exact ⟨hpkg, hlive, hkeep, fun n hn => hmake n (List.mem_append_left _ hn)⟩

/-- The check of a launch that no save area can be allocated for. -/
def poolOver (d : Dev) (x : Launch) : Bool := poolStuck d x && x.poolSince.any fun t => decide (t + 1000000 ≤ d.time)

theorem poolOver_iff {d : Dev} {x : Launch} : poolOver d x = true ↔
    poolStuck d x = true ∧ ∃ t, x.poolSince = some t ∧ t + 1000000 ≤ d.time := by
  simp only [poolOver, Bool.and_eq_true, Option.any_eq_true, decide_eq_true_eq]

theorem exec_savepoolTimeout_some {l : Nat} {s : State} {x : Launch} (hx : findLaunch s.unfocus.dev l = some x) :
    exec (.savepoolTimeout l) s =
      if poolOver s.unfocus.dev x then .next (s.unfocus.onDev fun d => endLaunch d l 8 0) else .next s.unfocus := by
  simp only [exec_savepoolTimeout, execSavepoolTimeout, hx, State.noEvent, State.unfocus_unfocus]
  rfl

theorem exec_savepoolTimeout_none {l : Nat} {s : State} (hx : findLaunch s.unfocus.dev l = none) :
    exec (.savepoolTimeout l) s = .next s.unfocus := by
  simp only [exec_savepoolTimeout, execSavepoolTimeout, hx, State.noEvent, State.unfocus_unfocus]

theorem savepoolTimeout_acts (l : Nat) : EventActs (.savepoolTimeout l)
    (fun d => ∃ x t, findLaunch d l = some x ∧ poolStuck d x = true ∧ x.poolSince = some t ∧ t + 1000000 ≤ d.time)
    fun _ t => LaunchIs t l .ending 8 ∧ ∀ b, b ∈ t.blocks → b.launch ≠ l := by
  refine eventActs_of (fun d => endLaunch d l 8 0) ?_ ?_ ?_
  · rintro s ⟨x, t, hx, hstuck, hsince, ht⟩
    exact (exec_savepoolTimeout_some hx).trans (if_pos (poolOver_iff.2 ⟨hstuck, t, hsince, ht⟩))
  · intro s h
    cases hx : findLaunch s.unfocus.dev l with
    | none => exact exec_savepoolTimeout_none hx
    | some x =>
      refine (exec_savepoolTimeout_some hx).trans (if_neg fun hc => ?_)
      obtain ⟨hstuck, t, hsince, ht⟩ := poolOver_iff.1 hc
      exact h ⟨x, t, hx, hstuck, hsince, ht⟩
  · rintro d ⟨x, t, hx, -⟩
    exact ⟨endLaunch_ending hx .., fun b hb => endLaunch_blocks _ _ _ _ hb⟩

/-! ## Migration (R234) -/

/-- The block on its way to another package. -/
def Block.leaving (b : Block) (pkg now : Nat) : Block := { b with state := .moving, moveTo := pkg, stime := now }

/-- The block is MOVING, and its names not yet. -/
def markMoving (d : Dev) (x : Block) (pkg : Nat) : Dev := modBlock d x.key fun y => y.leaving pkg d.time

/-- A block begins to move: its names are MOVING, and the other package is told. -/
def beginMove (d : Dev) (x : Block) (pkg : Nat) : Dev :=
  sendPacket (onNames (markMoving d x pkg) x 3 0 0) (mkPacket (onNames (markMoving d x pkg) x 3 0 0) pkg x.shape.owner 1 (.migrate x.key))

theorem beginMove_names (d : Dev) (x : Block) (pkg : Nat) : NamesBecome d (beginMove d x pkg) x fun e => e.state = .moving := by
  refine NamesMove.becomes ?_
  rw [← List.nil_append (x.groups.map _), ← List.append_nil (x.groups.map _)]
  exact (NamesMove.of_names (d := d) (t := markMoving d x pkg) rfl rfl).trans
    ((onNames_moves (P := fun e => e.state = .moving) (markMoving d x pkg) x 3 0 0 fun _ => rfl).trans (.of_sched (sendPacket_sched ..)))

theorem findBlock_beginMove (d : Dev) (x : Block) (pkg c : Nat) : findBlock (beginMove d x pkg) c =
    if c = x.key then (findBlock d c).map fun y => y.leaving pkg d.time else findBlock d c := by
  rw [beginMove, Dev.sched_findBlock (sendPacket_sched ..), (onNames_only ..).findBlock]
  exact findBlock_modBlock d x.key c (fun y => y.leaving pkg d.time) fun _ h => h

theorem migrationBegin_acts (b pkg : Nat) : BlockActs (.migrationBegin b pkg) b (fun d x => mayMigrate d x pkg = true)
    fun d x t => NamesBecome d t x (fun e => e.state = .moving) ∧
      findBlock t b = some { x with state := .moving, moveTo := pkg, stime := d.time } ∧
      ∀ c, c ≠ b → findBlock t c = findBlock d c := by
  refine blockActs_of (fun d x => mayMigrate d x pkg) (fun d x => beginMove d x pkg) ?_ ?_ (fun _ _ => .rfl) ?_
  · intro s h
    simp only [exec_migrationBegin, execMigrationBegin, h, State.noEvent, State.unfocus_unfocus]
  · intro s x h
    obtain rfl := findBlock_key h
    simp only [exec_migrationBegin, execMigrationBegin, h, State.noEvent, State.unfocus_unfocus]
    rfl
  · intro d x hx _
    obtain rfl := findBlock_key hx
    refine ⟨beginMove_names d x pkg, ?_, fun c hc => (findBlock_beginMove d x pkg c).trans (if_neg hc)⟩
    rw [findBlock_beginMove, if_pos rfl, hx]
    rfl

section
variable (d : Dev) (b : Block) (loc save : Nat)

/-- A move ends for one name of a block. -/
def endName (d : Dev) (g : Group) : Dev :=
  if g.pname = 0 then d
  else if nameHome g.pname = d.pkg then settleName d g.pname loc save
  else if loc = d.pkg then tellHome d b.shape.owner g.pname 2 b.core save else d

/-- The block is SAVED at its place, and its names not yet. -/
def placeSaved : Dev :=
  modBlock (freshForwards d b) b.key fun y => { y with state := .saved, loc := loc, saveAddr := save, stime := d.time }

theorem endMove_eq : endMove d b loc save = b.groups.foldl (endName b loc save) (placeSaved d b loc save) := rfl

theorem endName_moves (g : Group) :
    NamesMove d.pkg (fun e => e.state = .saved ∧ e.loc = loc ∧ e.save = save) [g.pname] d (endName b loc save d g) := by
  unfold endName
  split
  · next h => exact .of_other rfl (.inl h)
  · split
    · exact settleName_moves ..
    · next h =>
      split
      · exact .of_other (tellHome_sched ..) (.inr h)
      · exact .of_other rfl (.inr h)

theorem endName_blocks (g : Group) (k : Nat) (x : Block) (hx : findBlock d k = some x) :
    ∃ y, findBlock (endName b loc save d g) k = some y ∧ x.SameButGroups y := by
  unfold endName
  split
  · exact ⟨x, hx, rfl⟩
  · split
    · exact settleName_blocks d g.pname loc save k x hx
    · split
      · exact ⟨x, (Dev.sched_findBlock (tellHome_sched ..) k).trans hx, rfl⟩
      · exact ⟨x, hx, rfl⟩

theorem endMove_names : NamesBecome d (endMove d b loc save) b fun e => e.state = .saved ∧ e.loc = loc ∧ e.save = save := by
  refine NamesMove.becomes ?_
  rw [endMove_eq, ← List.nil_append (b.groups.map _)]
  exact (NamesMove.of_names (d := d) (t := placeSaved d b loc save) rfl rfl).trans
    (NamesMove.foldl (fun c g hc => hc ▸ endName_moves c b loc save g) b.groups rfl)

theorem endMove_blocks (x : Block) (hx : findBlock d b.key = some x) :
    ∃ y, findBlock (endMove d b loc save) b.key = some y ∧ y.state = .saved ∧ y.loc = loc ∧ y.saveAddr = save ∧ y.shape = x.shape := by
  have hstart : findBlock (placeSaved d b loc save) b.key = some { x with state := .saved, loc := loc, saveAddr := save, stime := d.time } := by
    rw [placeSaved, findBlock_modBlock _ _ _ _ (by exact fun _ h => h), if_pos rfl]
    exact congrArg (Option.map _) hx
  rw [endMove_eq]
  exact List.foldlRecOn (motive := fun e : Dev => ∃ y, findBlock e b.key = some y ∧ y.state = .saved ∧ y.loc = loc ∧ y.saveAddr = save ∧
      y.shape = x.shape) b.groups _ ⟨_, hstart, rfl, rfl, rfl, rfl⟩ fun e he g _ => by
    obtain ⟨y, hy, hst, hloc, hsave, hshape⟩ := he
    obtain ⟨z, hz, hyz⟩ := endName_blocks e b loc save g b.key y hy
    unfold Block.SameButGroups at hyz
    refine ⟨z, hz, ?_⟩
    rw [hyz]
    exact ⟨hst, hloc, hsave, hshape⟩

end

/-- A save area taken or left changes nothing that names and blocks are found by. -/
theorem moveArea_sched {d e : Dev} {b : Block} {save : Nat} (h : moveArea d b save = some e) : e.sched = d.sched := by
  have hleft : (if b.loc = d.pkg then freeSave (leaveArea d b) b else d).sched = d.sched := by
    split
    · rw [freeSave_sched, leaveArea_sched]
    · rfl
  unfold moveArea at h
  generalize (if b.loc = d.pkg then freeSave (leaveArea d b) b else d) = c at h hleft
  dsimp only at h
  split at h
  · cases h
    exact hleft
  · obtain ⟨⟨f, a⟩, htake, hc⟩ := Option.bind_eq_some_iff.1 h
    obtain ⟨_, _, hp⟩ := Option.map_eq_some_iff.1 htake
    split at hc
    · cases hc
      cases hp
      exact (modPart_sched ..).trans hleft
    · cases hc

theorem endMove_after {c d : Dev} (hs : c.sched = d.sched) (x : Block) (hx : findBlock d x.key = some x) (loc save : Nat) :
    NamesBecome d (endMove c x loc save) x (fun e => e.state = .saved ∧ e.loc = loc ∧ e.save = save) ∧
      ∃ y, findBlock (endMove c x loc save) x.key = some y ∧ y.state = .saved ∧ y.loc = loc ∧ y.saveAddr = save ∧ y.shape = x.shape := by
  have hnames := endMove_names c x loc save
  unfold NamesBecome at hnames
  rw [Dev.sched_names hs, Dev.sched_pkg hs] at hnames
  exact ⟨hnames, endMove_blocks c x loc save x ((Dev.sched_findBlock hs _).trans hx)⟩

theorem migrationComplete_acts (b save : Nat) : BlockActs (.migrationComplete b save) b
    (fun d x => x.state = .moving ∧ (moveArea d x save).isSome = true)
    fun d x t => NamesBecome d t x (fun e => e.state = .saved ∧ e.loc = x.moveTo ∧ e.save = save) ∧
      ∃ y, findBlock t b = some y ∧ y.state = .saved ∧ y.loc = x.moveTo ∧ y.saveAddr = save ∧ y.shape = x.shape := by
  refine blockActs_of (fun d x => decide (x.state = .moving) && (moveArea d x save).isSome)
    (fun d x => endMove ((moveArea d x save).getD d) x x.moveTo save) ?_ ?_ (by simp) ?_
  · intro s h
    simp only [exec_migrationComplete, execMigrationComplete, h, Option.bind_none, State.noEvent, State.unfocus_unfocus]
  · intro s x h
    simp only [exec_migrationComplete, execMigrationComplete, h, Option.bind_some, State.noEvent, State.unfocus_unfocus]
    by_cases hst : x.state = .moving
    · cases hm : moveArea s.unfocus.dev x save with
      | none => simp [hst]
      | some c => simp [hst, State.onDev, hm]
    · simp [hst]
  · rintro d x hx ⟨-, hm⟩
    obtain rfl := findBlock_key hx
    obtain ⟨c, hc⟩ := Option.isSome_iff_exists.1 hm
    rw [hc]
    exact endMove_after (moveArea_sched hc) x hx x.moveTo save

theorem migrationAbandon_acts (b : Nat) : BlockActs (.migrationAbandon b) b (fun d x => x.state = .moving ∧ x.moveTo ≠ d.pkg)
    fun d x t => NamesBecome d t x (fun e => e.state = .saved ∧ e.loc = x.loc ∧ e.save = x.saveAddr) ∧
      ∃ y, findBlock t b = some y ∧ y.state = .saved ∧ y.loc = x.loc ∧ y.saveAddr = x.saveAddr ∧ y.shape = x.shape := by
  refine blockActs_of (fun d x => decide (x.state = .moving) && x.moveTo != d.pkg) (fun d x => endMove d x x.loc x.saveAddr) ?_ ?_
    (by simp) ?_
  · intro s h
    simp only [exec_migrationAbandon, execMigrationAbandon, h, State.noEvent, State.unfocus_unfocus]
  · intro s x h
    simp only [exec_migrationAbandon, execMigrationAbandon, h, State.noEvent, State.unfocus_unfocus]
  · intro d x hx _
    obtain rfl := findBlock_key hx
    exact endMove_after rfl x hx x.loc x.saveAddr

/-- Settles O41: each event writes its block anew under its key and its names through their live entries; what it sends, stores and
gives back beside that is not read again. -/
theorem blocksAreSavedResumedAndMoved : Obligations.BlocksAreSavedResumedAndMoved :=
  ⟨timeSliceExpiry_acts, preemptRequest_acts, watchdogExpiry_acts, blockSave_acts, blockResume_acts, parkingEviction_acts,
    savepoolTimeout_acts, migrationBegin_acts, migrationComplete_acts, migrationAbandon_acts⟩

end Sys2Proof.Machine
